-- ==== Sys2Proof/Word.lean ====
section
/-! DEFINITION. The words of the EZ-HK9K model: bytes, register words, lanes and the dyadic numbers of the light path. -/

namespace Sys2Proof

/-- One byte of memory, of a message or of a structure. -/
abbrev Byte := BitVec 8

/-- One word of the register window (13 R614: every access is one aligned 32-bit word). -/
abbrev Word32 := BitVec 32

/-- One 64-bit word: a vector lane, a scalar register, an accumulator slot. -/
abbrev Word64 := BitVec 64

/-- A dyadic number `m × 2^e`. Every code value, light value and group term of the device is one
(03 R96 to R112, R130; 04 R178). -/
structure Dy where
  m : Int
  e : Int
  deriving DecidableEq, Repr

/-- Zero as a dyadic number. -/
def Dy.zero : Dy := ⟨0, 0⟩

end Sys2Proof
end

