-- ==== Sys2Proof/Syntax.lean ====
section
/-! DEFINITION. The commands of the block: one constructor per row of spec/opcode_table.json, with the row's operands, and the operand types. -/

namespace Sys2Proof

/-! ## Operand types -/

/-- Where a Rustra message comes from: its port (12 R602), the session its header names and its tag (12 R604). -/
structure Msg where
  port    : Nat
  session : Nat
  tag     : Word32
  deriving DecidableEq, Repr

/-- The sender of a register access: a session over Rustra, or the I3C sideband (13 R614, R622). -/
inductive Src where
  | rustra (m : Msg)
  | i3c
  deriving DecidableEq, Repr

/-- Formats V and VX of a vector core instruction (07 R353); `x` says that the word pair is a VX. -/
structure FV where
  vd  : BitVec 6
  va  : BitVec 6
  vb  : BitVec 6
  p   : BitVec 3
  t   : BitVec 3
  x   : Bool := false
  vc  : BitVec 6 := 0
  rnd : BitVec 2 := 0
  sat : Bool := false
  deriving DecidableEq, Repr

/-- Formats S and E (07 R353). -/
structure FS where
  sd  : BitVec 5
  sa  : BitVec 5
  sb  : BitVec 5
  imm : BitVec 9
  deriving DecidableEq, Repr

/-- Format SI (07 R353). -/
structure FSI where
  sd  : BitVec 5
  imm : BitVec 32
  deriving DecidableEq, Repr

/-- Format M (07 R353): `sp` is 1 for device space, `w` the element width code. -/
structure FM where
  vd  : BitVec 6
  sa  : BitVec 5
  vi  : BitVec 6
  p   : BitVec 3
  sp  : Bool
  w   : BitVec 2
  ofs : BitVec 24
  sb  : BitVec 5
  deriving DecidableEq, Repr

/-- Format B (07 R353). -/
structure FB where
  p   : BitVec 3
  ofs : BitVec 21
  deriving DecidableEq, Repr

/-- Format BC (07 R353). -/
structure FBC where
  sa  : BitVec 5
  sb  : BitVec 5
  ofs : BitVec 14
  deriving DecidableEq, Repr

/-- The fields of one vector core instruction word, by format (07 R353). -/
inductive Fields where
  | v  (f : FV)
  | s  (f : FS)
  | si (f : FSI)
  | m  (f : FM)
  | b  (f : FB)
  | bc (f : FBC)
  | e  (f : FS)
  deriving DecidableEq, Repr

/-- A vector core instruction as it stands in a kernel image: its OP byte and its fields (07 R353, R355). -/
structure CoreInstr where
  op     : BitVec 8
  fields : Fields
  deriving DecidableEq, Repr

/-- The four firmware processors (01 R36), encoded as in 16 R733. -/
inductive Proc where
  | dawn | noon | dusk | twilight
  deriving DecidableEq, Repr

/-- A unit that can fail (16 R724). A lane is named by its index as for LANE_EYE and its direction. -/
inductive Unit' where
  | engine (e : Nat)
  | bank (e : Nat) (isB : Bool)
  | rowAdc (e row : Nat)
  | accFile (e : Nat)
  | modulator (cluster line : Nat)
  | comb (c : Nat)
  | core (n : Nat)
  | sram (cluster : Nat) (address : Nat)
  | lane (i : Nat) (tx : Bool)
  | stack (n : Nat)
  | monitor (k : Nat)
  deriving DecidableEq, Repr

/-- A calibration coefficient (05 R279). Rows are numbered 64 × engine + row, banks 2 × that plus 1 for bank B. -/
inductive Coef where
  | tiaOffset (row : Nat)
  | tiaGain (row : Nat)
  | adcOffset (row : Nat)
  | adcGain (row : Nat)
  | trim (bank ring : Nat)
  /-- The weight DAC level that stands for a weight in a bank: the normalised weight w_n of the code form, in lowest terms (02 R59,
  R60). -/
  | weight (bank : Nat) (value : Dy)
  /-- The modulator drive that emits (k + 1) / 2^d on a line of a quad (02 R55). -/
  | input (quad line d k : Nat)
  | modBias (quad line : Nat)
  deriving DecidableEq, Repr

/-- One coefficient that a calibration slot has fitted: the engine whose slot it is, and the value (05 R278, R279). -/
structure Fit where
  engine : Nat
  coef   : Coef
  value  : Int
  deriving DecidableEq, Repr

/-- One converted symbol of an identity check: a tone symbol with its chip index, or the `k`-th newest symbol that the quad has
emitted, and the code (05 R254, R255; log 110). -/
structure CheckSym where
  tone : Bool
  k    : Nat
  code : Int
  deriving DecidableEq, Repr

/-- What an identity check converts of one bank of one row (05 R253 to R255). -/
structure CheckReading where
  row  : Nat
  isB  : Bool
  syms : List CheckSym
  deriving DecidableEq, Repr

/-- What an identity check reports of one bank of one row (05 R253): its shift, or undecided (`none`). -/
structure BankShift where
  row   : Nat
  isB   : Bool
  shift : Option Int
  deriving DecidableEq, Repr

/-- What is measured of one comb at a boundary: its line power in 0.01 dBm (06 R331, R333). -/
structure CombSample where
  comb  : Nat
  power : Int
  deriving DecidableEq, Repr

/-- An error that has come to stand in a protected memory and that no read has found (09 R448, R449, R452): in the 64 B block of a device
address of HBM, cluster SRAM or scale entries, or in an accumulator slot. -/
inductive Decay where
  | block (address : Nat) (uncorrectable : Bool)
  | slot (engine row slot : Nat)
  deriving DecidableEq, Repr

/-- What a frame boundary brings from outside: the line powers of combs and the coefficients that calibration slots have fitted in the
frame (05 R278), which Twilight learns, and the memory errors that have come about. -/
structure BoundaryObs where
  combs : List CombSample := []
  fits  : List Fit := []
  decay : List Decay := []
  deriving DecidableEq, Repr

/-- What Twilight writes of a limiter channel before an update: TARGET, STEP_MAX and UPDATE_DIV (06 SLEW_CHAN). -/
structure SlewWrite where
  target  : Option Nat := none
  stepMax : Option Nat := none
  div     : Option Nat := none
  deriving DecidableEq, Repr

/-- What Twilight chooses for a monitor converter: scan mode (`none`), or dwell mode on one input and one filter setting: the
input, the engine of a row input, the order less 1 and the decimation over 16 (06 R314, R316). -/
structure MonChoice where
  dwell : Option (Nat × Nat × Nat × Nat)
  deriving DecidableEq, Repr

/-- An output of a monitor converter's filter, in codes, and what Twilight chooses for the converter after it, if anything
(06 R314, R316). -/
structure MonOut where
  raw    : Int
  choice : Option MonChoice := none
  deriving DecidableEq, Repr

/-- What a read of a protected block finds (09 R447 to R449). -/
inductive EccResult where
  | clean | corrected | uncorrectable
  deriving DecidableEq, Repr

/-- What a receive lane measures over a 128-frame window (05 R299): eye width, eye height, and the pre-FEC BER as FP32 bits. -/
structure LaneFigures where
  lane   : Nat
  width  : Nat
  height : Nat
  ber    : Word32
  deriving DecidableEq, Repr

/-- A slot frame on a lane (12 R579): its 32 header bytes and its data. -/
structure SlotFrame where
  lane    : Nat
  header  : List Byte
  data    : List Byte
  deriving DecidableEq, Repr

/-- What an identity exchange reports of a lane's partner (12 R589): DEVICE_UID and FABRIC_ADDR. -/
structure LaneIdent where
  uid : Word64
  fa  : Nat
  deriving DecidableEq, Repr

/-- How a training step table ends (12 R589, R590): all steps passed with the identity seen, or a step failed.
`bond`, `node` and the credits are what the control node sends in a Rustra lane's training frames (12 R602, R608). -/
inductive TrainResult where
  | trained (who : LaneIdent) (bond : Bool) (node : Nat) (creditReq creditData : Nat)
  | failed
  deriving DecidableEq, Repr

/-- The rails whose comparators trip (17 R742). -/
inductive Rail where
  | vcore | vsram | vana | vhtr | vlas | viod | vddq | vpp | vaon | vioAon
  deriving DecidableEq, Repr

/-- The body of an OPEN request (14 R665). -/
structure OpenReq where
  ifaceMin  : Nat
  ifaceMax  : Nat
  features  : Word64
  sqs       : Nat
  cqs       : Nat
  ctrs      : Nat
  tableAddr : Nat
  claimKey  : Word64
  graceMs   : Nat
  reaperS   : Nat
  deriving DecidableEq, Repr

/-- A sample that the shadow unit takes of a run of 2¹⁴ conversions in CALIB or VERIFY (07 R374 to R376): the code before its clamp
to the ADC's range, and the exact product in 1/256 ADC LSB; of an 8-bit pass, or of a 10-bit one. -/
structure Sample where
  raw    : Int
  exact  : Int
  narrow : Bool := false
  deriving DecidableEq, Repr

/-- The readings a calibration slot ends with (05 R278): the samples of its verification and of the conversions before it, what the
tone check converts of each bank when its result is still to be given, the rows whose ADC trims
cannot be set in range (16 R724), and the difference of VREF_EXT from the bandgap in ppm per sector measured in this sweep (05
R289). -/
structure CalibObs where
  after   : List Sample := []
  before  : List Sample := []
  tone    : List CheckReading := []
  badRows : List Nat := []
  vrefPpm : List (Nat × Int) := []
  deriving DecidableEq, Repr

/-- What the boot sequence meets from outside when the hub die is released (14 R659; 17 R747, R749), and the start of the light
path at boot and on the exit of Retain (05 R281; 15 R690): the VREF_EXT reading within range, every rail above its warning
level, the stacks that fail HBM training, the combs that reach no stable lines, the heater settings at which banks and modulator
rows acquire their lines, the mean die temperature of each sector in m°C (05 R244), and what each engine's start-up calibration fits
and reads. -/
structure BootObs where
  vrefOk    : Bool := true
  railsOk   : Bool := true
  stacksBad : List Nat := []
  combsBad  : List Nat := []
  heaters   : List (Nat × Nat) := []
  temps     : List Int := [75000, 75000, 75000, 75000]
  fits      : List Fit := []
  calib     : List (Nat × CalibObs) := []
  deriving DecidableEq, Repr

/-! ## The commands

`job` is the admission number of an accepted command, `thread` is 8 × device core index + T number, `lane` is an
index as for LANE_EYE, `connector` is 0 to 4 (12 R597), `die` is as in RESET_CAUSE.DIE (15 R720). -/

/-- One constructor per row of the table of operations and events. -/
inductive Instr where
  /-- XFER (R406): Copies each covered source element to the same destination element, without conversion. -/
  | xfer (job : Nat)
  /-- MATMUL (R530): Runs one product stage with no Polonaise chain: quantise, multiply, accumulate and drain through the epilogue. -/
  | matmul (job : Nat)
  /-- SUITE (R416): Runs 1 to 8 fused stages in index order, each stage able to read the previous stage's output from SRAM. -/
  | suite (job : Nat)
  /-- REDUCE (R220): Runs a product stage split into parts that pass a running sum along the Polonaise chain. -/
  | reduce (job : Nat)
  /-- COLLECT (R581): Exchanges entries with peers over reserved Fawell link slots, matched by COLL_ID and entry order. -/
  | collect (job : Nat)
  /-- VKERNEL (R367): Reserves threads, local store and traffic for an Elastic vector kernel and runs it to its budget. -/
  | vkernel (job : Nat)
  /-- ACC_LOAD (R219): Imports records into a named accumulator range, opening the tile in the named format. -/
  | accLoad (job : Nat)
  /-- ACC_STORE (R217): Exports an accumulator tile to memory in the named record form. -/
  | accStore (job : Nat)
  /-- SCALE_LOAD (R777): Writes scale entries, a codebook slot or an activation table slot in the named clusters from a load image. -/
  | scaleLoad (job : Nat)
  /-- SCALE_READ (R156): Reads scale entries to memory and can clear their counters in the same update. -/
  | scaleRead (job : Nat)
  /-- FENCE (R551): Orders, or makes visible, the earlier commands of its scope as ORDER, VISIBLE or FULL. -/
  | fence (job : Nat)
  /-- EVENT_SIGNAL (R548): Adds to an event counter or resets it in its completion frame. -/
  | eventSignal (job : Nat)
  /-- WAIT_FRAME (R554): Completes in its target frame. -/
  | waitFrame (job : Nat)
  /-- CALIBRATE (R283): Completes after the named engines' next calibration slots and can save the coefficient set to flash. -/
  | calibrate (job : Nat)
  /-- SELFTEST (R730): Tests the named engines and other units, concurrently or exclusively, and maps out the units that fail. -/
  | selftest (job : Nat) (failed : List Unit')
  /-- RESTORE_FACTORY (R293): Invalidates both user calibration areas and loads the factory values at the next boundary. -/
  | restoreFactory (job : Nat)
  /-- QUERY (R538): Takes a snapshot of the named item at the next boundary and writes it to memory. -/
  | query (job : Nat)
  /-- CANCEL (R555): Names a target command for cancellation at the next frame boundary. -/
  | cancel (job : Nat)
  /-- DESCRIPTOR_TAKE (R513): Noon takes the next descriptor from an SQ in round-robin order, copies it and reserves CQ entries. -/
  | descriptorTake
  /-- FRAME_BOUNDARY (R479): The frame counter increments, and the sequencers advance the committed horizon by one frame. -/
  | frameBoundary (obs : BoundaryObs)
  /-- BOUNDARY_MARKER (R468): A received anchor boundary marker is validated and sets the boundary instant and the interval measurement. -/
  | boundaryMarker (chips : Word32) (e : Int) (interval : Nat)
  /-- NUMBERED_MARKER (R474): A numbered marker supplies the frame number for realignment or for a permitted step. -/
  | numberedMarker (number : Word64) (crc : Word32) (e : Int)
  /-- MARKER_TIMEOUT (R470): Four consecutive expected markers missing or invalid put the frame source in HOLDOVER. -/
  | markerTimeout
  /-- HOLDOVER_1S (R769): The holdover time passes 1 s; error log entry 0x0400 is written and commands are marked HOLDOVER. -/
  | holdover1s
  /-- REFCLK_LOSS (R717): Missing or off-frequency REFCLK makes Midnight hold a warm reset. -/
  | refclkLoss
  /-- REFCLK_RETURN (R717): After REFCLK has been back within ±20 ppm for 10 ms, the device boots. -/
  | refclkReturn
  /-- GROUP_ISSUE (R63): The sequencer issues a quantised input vector on a quad, and each row integrates and converts. -/
  | groupIssue (job cluster vec grp slice : Nat)
  /-- CONVERSION_ARRIVAL (R132): An ADC code reaches the accumulator 32 symbols later, and its group term is formed and added. -/
  | conversionArrival (engine row : Nat) (noise : Int)
  /-- BANK_LOAD (R76): The weight port writes a tile's levels into the idle bank over the load time. -/
  | bankLoad (job engine ob rb ws : Nat) (patch : List Nat)
  /-- BANK_SWAP (R77): All rows of an engine switch to the loaded bank over a 4-symbol gap, once the load is complete. -/
  | bankSwap (engine : Nat)
  /-- TILE_DRAIN (R228): The epilogue normalises, transforms, converts and stores each value of a tile. -/
  | tileDrain (job engine : Nat)
  /-- ACTIVATION_FETCH (R384): The Leader starts fetching the next activation tile, keeping at most four tiles ahead. -/
  | activationFetch (job cluster : Nat)
  /-- HBM_READ_RETURN (R390): A granule read lands in SRAM and its memory read tag returns. -/
  | hbmReadReturn (read : Nat) (ecc : EccResult)
  /-- FARANDOLE_SEND (R413): A head cluster sends weight tiles along the Farandole ring to the named clusters. -/
  | farandoleSend (job head : Nat) (clusters : Word64) (src size dst : Nat)
  /-- FARANDOLE_HOP (R414): A tile enters the next cluster of the chain, which writes it when the cluster is in the set and forwards it. -/
  | farandoleHop (send : Nat)
  /-- POLONAISE_HOP (R221): A part sends its running sum to the next part, which adds it to its tile. -/
  | polonaiseHop (job part ob : Nat)
  /-- STEP_DECISION (R164): In D + 1, the thresholds are tested and the re-run is decided. -/
  | stepDecision (job : Nat)
  /-- RERUN_DRAIN (R168): The re-run drains, narrow outputs are rewritten, and the entries take the re-run's maxima and scale. -/
  | rerunDrain (job : Nat)
  /-- SUITE_HANDOVER (R417): At the hand-over frame, the next stage of a Suite starts. -/
  | suiteHandover (job : Nat)
  /-- COMPLETION_WRITE (R481): The completion writer writes the extended report and then the completion record. -/
  | completionWrite (job : Nat)
  /-- CANCEL_EFFECT (R421): At the first boundary after CANCEL's admission, the target's issue stops and its prefetched tiles are discarded. -/
  | cancelEffect (job : Nat)
  /-- CANCEL_COMPLETION (R424): After the target's last in-flight read returns, the target completes CANCELLED and CANCEL completes DONE. -/
  | cancelCompletion (job : Nat)
  /-- KERNEL_START (R344): At frame S, the image is copied to each core's window and the threads start with their initial registers. -/
  | kernelStart (job : Nat)
  /-- KERNEL_BUDGET_STOP (R370): A kernel that reaches its cycle or traffic budget is stopped and completes BUDGET_EXHAUSTED. -/
  | kernelBudgetStop (job : Nat)
  /-- LOAD_RETURN (R346): Data of a vector core load or gather arrives after the target's latency, and the thread becomes ready. -/
  | loadReturn (thread : Nat)
  /-- VADD (R355): Lane-wise add. -/
  | vadd (thread : Nat) (f : FV)
  /-- VSUB (R355): Lane-wise subtract. -/
  | vsub (thread : Nat) (f : FV)
  /-- VMUL (R355): Lane-wise multiply. -/
  | vmul (thread : Nat) (f : FV)
  /-- VMIN (R358): Lane-wise minimum, which returns the non-NaN operand when exactly one operand is NaN. -/
  | vmin (thread : Nat) (f : FV)
  /-- VMAX (R358): Lane-wise maximum, which returns the non-NaN operand when exactly one operand is NaN. -/
  | vmax (thread : Nat) (f : FV)
  /-- VABS (R355): Lane-wise absolute value. -/
  | vabs (thread : Nat) (f : FV)
  /-- VNEG (R355): Lane-wise negation. -/
  | vneg (thread : Nat) (f : FV)
  /-- VCMPEQ (R355): Compares for equality into a predicate register. -/
  | vcmpeq (thread : Nat) (f : FV)
  /-- VCMPLT (R355): Compares for less-than into a predicate register. -/
  | vcmplt (thread : Nat) (f : FV)
  /-- VCMPLE (R355): Compares for less-or-equal into a predicate register. -/
  | vcmple (thread : Nat) (f : FV)
  /-- VSEL (R355): Selects lanes from VA or VB by predicate. -/
  | vsel (thread : Nat) (f : FV)
  /-- VRCPE (R355): Reciprocal estimate. -/
  | vrcpe (thread : Nat) (f : FV)
  /-- VRSQE (R355): Reciprocal square root estimate. -/
  | vrsqe (thread : Nat) (f : FV)
  /-- VCVT (R355): Converts between types, with optional saturation. -/
  | vcvt (thread : Nat) (f : FV)
  /-- VAND (R355): Lane-wise bitwise AND. -/
  | vand (thread : Nat) (f : FV)
  /-- VOR (R355): Lane-wise bitwise OR. -/
  | vor (thread : Nat) (f : FV)
  /-- VXOR (R355): Lane-wise bitwise XOR. -/
  | vxor (thread : Nat) (f : FV)
  /-- VSHL (R355): Lane-wise shift left. -/
  | vshl (thread : Nat) (f : FV)
  /-- VSHR (R355): Lane-wise arithmetic shift right. -/
  | vshr (thread : Nat) (f : FV)
  /-- VPERM (R355): Permutes lanes by index. -/
  | vperm (thread : Nat) (f : FV)
  /-- VBCAST (R355): Broadcasts a scalar to every lane. -/
  | vbcast (thread : Nat) (f : FV)
  /-- VSLUP (R355): Slides lanes up, filling vacated lanes with 0. -/
  | vslup (thread : Nat) (f : FV)
  /-- VSLDN (R355): Slides lanes down, filling vacated lanes with 0. -/
  | vsldn (thread : Nat) (f : FV)
  /-- VCOMP (R355): Packs active lanes into the low lanes. -/
  | vcomp (thread : Nat) (f : FV)
  /-- VIOTA (R355): Writes each lane's index. -/
  | viota (thread : Nat) (f : FV)
  /-- VRSUM (R359): Pairwise-tree sum reduction to a scalar. -/
  | vrsum (thread : Nat) (f : FV)
  /-- VRMAX (R359): Maximum reduction with the winning index. -/
  | vrmax (thread : Nat) (f : FV)
  /-- VRMIN (R359): Minimum reduction with the winning index. -/
  | vrmin (thread : Nat) (f : FV)
  /-- PAND (R355): Predicate AND. -/
  | pand (thread : Nat) (f : FV)
  /-- POR (R355): Predicate OR. -/
  | por (thread : Nat) (f : FV)
  /-- PXOR (R355): Predicate XOR. -/
  | pxor (thread : Nat) (f : FV)
  /-- PNOT (R355): Predicate NOT. -/
  | pnot (thread : Nat) (f : FV)
  /-- VFMA (R356): Fused multiply-add with one rounding. -/
  | vfma (thread : Nat) (f : FV)
  /-- VFMS (R356): Fused multiply-subtract with one rounding. -/
  | vfms (thread : Nat) (f : FV)
  /-- VFNMA (R356): Negated fused multiply-add. -/
  | vfnma (thread : Nat) (f : FV)
  /-- VFNMS (R356): Negated fused multiply-subtract. -/
  | vfnms (thread : Nat) (f : FV)
  /-- VDIV (R356): Correctly rounded division. -/
  | vdiv (thread : Nat) (f : FV)
  /-- VSQRT (R356): Correctly rounded square root. -/
  | vsqrt (thread : Nat) (f : FV)
  /-- SADD (R355): Scalar add. -/
  | sadd (thread : Nat) (f : FS)
  /-- SSUB (R355): Scalar subtract. -/
  | ssub (thread : Nat) (f : FS)
  /-- SMUL (R355): Scalar multiply. -/
  | smul (thread : Nat) (f : FS)
  /-- SAND (R355): Scalar AND. -/
  | sand (thread : Nat) (f : FS)
  /-- SOR (R355): Scalar OR. -/
  | sor (thread : Nat) (f : FS)
  /-- SXOR (R355): Scalar XOR. -/
  | sxor (thread : Nat) (f : FS)
  /-- SSHL (R355): Scalar shift left. -/
  | sshl (thread : Nat) (f : FS)
  /-- SSHR (R355): Scalar shift right. -/
  | sshr (thread : Nat) (f : FS)
  /-- SFADD (R355): Scalar FP64 add. -/
  | sfadd (thread : Nat) (f : FS)
  /-- SFMUL (R355): Scalar FP64 multiply. -/
  | sfmul (thread : Nat) (f : FS)
  /-- SFDIV (R355): Scalar FP64 divide. -/
  | sfdiv (thread : Nat) (f : FS)
  /-- SFCMPLT (R355): Scalar FP64 less-than compare. -/
  | sfcmplt (thread : Nat) (f : FS)
  /-- SLI (R355): Loads a sign-extended 32-bit immediate. -/
  | sli (thread : Nat) (f : FSI)
  /-- SLIH (R355): Loads an immediate into the upper 32 bits. -/
  | slih (thread : Nat) (f : FSI)
  /-- VLD (R346): Contiguous 256 B vector load. -/
  | vld (thread : Nat) (f : FM)
  /-- VST (R346): Contiguous 256 B vector store. -/
  | vst (thread : Nat) (f : FM)
  /-- VLDS (R355): Strided vector load. -/
  | vlds (thread : Nat) (f : FM)
  /-- VSTS (R355): Strided vector store. -/
  | vsts (thread : Nat) (f : FM)
  /-- VGATH (R349): Indexed gather load. -/
  | vgath (thread : Nat) (f : FM)
  /-- VSCAT (R349): Indexed scatter store in ascending lane order. -/
  | vscat (thread : Nat) (f : FM)
  /-- SLD (R355): Scalar 64-bit load. -/
  | sld (thread : Nat) (f : FM)
  /-- SST (R355): Scalar 64-bit store. -/
  | sst (thread : Nat) (f : FM)
  /-- AADD_D (R352): Indivisible FP64 atomic adds into cluster SRAM. -/
  | aaddD (thread : Nat) (f : FM)
  /-- SAADD_D (R352): A single FP64 atomic add that returns the previous value. -/
  | saaddD (thread : Nat) (f : FM)
  /-- BR (R355): Unconditional branch. -/
  | br (thread : Nat) (f : FB)
  /-- CALL (R340): Branch that writes the return address to s31. -/
  | call (thread : Nat) (f : FB)
  /-- BANY (R355): Branch when any predicate bit is set. -/
  | bany (thread : Nat) (f : FB)
  /-- BALL (R355): Branch when all predicate bits are set. -/
  | ball (thread : Nat) (f : FB)
  /-- BNONE (R355): Branch when no predicate bit is set. -/
  | bnone (thread : Nat) (f : FB)
  /-- BEQ (R355): Branch on equal scalars. -/
  | beq (thread : Nat) (f : FBC)
  /-- BNE (R355): Branch on unequal scalars. -/
  | bne (thread : Nat) (f : FBC)
  /-- BLT (R355): Branch on signed less-than. -/
  | blt (thread : Nat) (f : FBC)
  /-- RET (R355): Returns to s31. -/
  | ret (thread : Nat) (f : FS)
  /-- END (R371): Ends the thread; when all threads have ended, the kernel completes. -/
  | endThread (thread : Nat) (f : FS)
  /-- BAR_T (R350): Barrier of the kernel's threads on this core, acting as an MFENCE. -/
  | barT (thread : Nat) (f : FS)
  /-- BAR_K (R350): Barrier of all the kernel's threads, acting as an MFENCE. -/
  | barK (thread : Nat) (f : FS)
  /-- MFENCE (R350): Completes and makes visible every earlier access of the thread before any later access issues. -/
  | mfence (thread : Nat) (f : FS)
  /-- SETPROG (R370): Sets the thread's progress value. -/
  | setprog (thread : Nat) (f : FS)
  /-- RDCYC (R355): Reads the budget cycles used. -/
  | rdcyc (thread : Nat) (f : FS)
  /-- RDBUD (R355): Reads the traffic budget left. -/
  | rdbud (thread : Nat) (f : FS)
  /-- EPOST (R360): Submits a command descriptor from SRAM to a queue of the kernel's session and returns a handle. -/
  | epost (thread : Nat) (f : FS)
  /-- EWAIT (R363): Returns the admission result or completion status of a handle, blocking or not. -/
  | ewait (thread : Nat) (f : FS)
  /-- EVSIG (R364): Adds to an event counter. -/
  | evsig (thread : Nat) (f : FS)
  /-- EVWAIT (R364): Waits until an event counter reaches a value. -/
  | evwait (thread : Nat) (f : FS)
  /-- RDFPS (R357): Reads FPSTAT and can clear it. -/
  | rdfps (thread : Nat) (f : FS)
  /-- ENGINE_REMOVAL (R261): At the boundary after a lock-loss event, Twilight removes the engine from service into UNLOCKED. -/
  | engineRemoval (engine : Nat)
  /-- RELOCK_START (R265): Relock begins at the first boundary at which the rate, headroom and comb conditions hold. -/
  | relockStart (engine : Nat)
  /-- VECTOR_CHECK_COMPLETE (R255): A vector identity check reports the shift of each bank. -/
  | vectorCheckComplete (engine : Nat) (readings : List CheckReading)
  /-- TONE_CHECK_COMPLETE (R254): A tone identity check over the probe symbols reports each bank's shift. -/
  | toneCheckComplete (engine : Nat) (readings : List CheckReading) (modRowOk : Bool)
  /-- INDEX_SEARCH_COMPLETE (R257): A bank's heater move of one line spacing through the slew limiter ends. -/
  | indexSearchComplete (engine row : Nat) (isB : Bool)
  /-- ACQUISITION_COMPLETE (R266): The lock error stays within ±0.35 °C for two 5-frame windows. -/
  | acquisitionComplete (engine : Nat)
  /-- RECOVERY_RUN_COMPLETE (R266): The recovery run is checked against exact products, and the engine returns to service or restarts relock. -/
  | recoveryRunComplete (engine : Nat) (codes exact : List Int)
  /-- RATE_EXCURSION (R269): A rate estimate above 6 °C/ms at 38 consecutive boundaries declares a sector lock excursion. -/
  | rateExcursion (sector : Nat)
  /-- CALIB_SLOT_START (R278): An engine enters CALIB at its slot's first boundary, and its banks are parked. -/
  | calibSlotStart (engine : Nat)
  /-- CALIB_SLOT_END (R278): Staged coefficients take effect, and the engine enters LOCKED or SEARCH. -/
  | calibSlotEnd (engine : Nat) (obs : CalibObs)
  /-- UNIT_MAP_OUT (R724): A unit declared failed is mapped out at the next frame boundary. -/
  | unitMapOut (u : Unit')
  /-- COMB_STABLE (R48): A permitted compute comb reaches stable lines. -/
  | combStable (comb : Nat)
  /-- COMB_OUTPUT_DROP (R728): A comb output more than 3 dB below its set point stops group issue on its 32 engines. -/
  | combOutputDrop (comb : Nat)
  /-- SLEW_UPDATE (R304): A limiter channel moves PRESENT towards TARGET by at most STEP_MAX. -/
  | slewUpdate (chan : Nat) (w : Option SlewWrite)
  /-- MONITOR_OUTPUT (R314): A monitor converter produces a filtered result and advances its scan. -/
  | monitorOutput (k : Nat) (o : MonOut)
  /-- MONITOR_SELFCAL_COMPLETE (R321): A converter's self-calibration commits its factors or fails the converter. -/
  | monitorSelfcalComplete (k : Nat) (offsetUp gainUp ppmUp : Bool)
  /-- LOSS_LOCATOR_RUN (R328): At the end of a scan cycle, Twilight names the first stage with excess loss for each path. -/
  | lossLocatorRun (hub : Bool) (k : Nat)
  /-- AGEING_RECORD_WRITE (R334): Dawn writes the ageing record once per 24 h of powered time. -/
  | ageingRecordWrite (hours : Nat)
  /-- RESID_WINDOW_END (R296): At the end of each 128-frame window, Twilight reports each engine's residual figures. -/
  | residWindowEnd
  /-- LANE_WINDOW_END (R299): At the end of each 128-frame window, the device reports each lane's eye and BER, and a lane over the BER limit retrains. -/
  | laneWindowEnd (figs : List LaneFigures)
  /-- SCRUB_READ (R451): A base die patrol scrub read corrects a block or poisons it. -/
  | scrubRead (stack granule block : Nat) (ecc : EccResult)
  /-- FLASH_SAVE_COMPLETE (R284): A user calibration write to flash ends and its CALIBRATE completes. -/
  | flashSaveComplete
  /-- PLAN_VALIDATION (R569): Noon copies and validates an armed plan and reports the outcome in PLAN_STATUS. -/
  | planValidation
  /-- PLAN_ACTIVATION (R571): The armed plan becomes active at PLAN_AT, and lanes retune or train. -/
  | planActivation
  /-- LANE_TRAINING_START (R589): A partner's answer starts lane training. -/
  | laneTrainingStart (lane : Nat)
  /-- LANE_TRAINED (R589): Training and the identity exchange complete, and the lane enters service, or training restarts or fails. -/
  | laneTrained (lane : Nat) (r : TrainResult)
  /-- LOSS_OF_LIGHT (R594): Loss of light on a paired receive lane sets its transmit lane to probe power. -/
  | lossOfLight (lane : Nat)
  /-- PROBE_PULSE (R558): A probing transmit lane emits a 1 µs pulse every 1.024 ms. -/
  | probePulse (lane : Nat)
  /-- LANE_FEC_FAILURE (R591): 16 consecutive undecodable codewords take a lane out of service. -/
  | laneFecFailure (lane : Nat)
  /-- RENDEZVOUS (R579): A rendezvous slot frame is received. -/
  | rendezvous (f : SlotFrame)
  /-- COLLECT_DATA (R582): A COLLECT data slot frame is received and written, or discarded. -/
  | collectData (f : SlotFrame)
  /-- POLONAISE_VALUES (R580): A slot frame of Polonaise transport values is received and added. -/
  | polonaiseValues (f : SlotFrame)
  /-- ACKNOWLEDGEMENT (R583): An acknowledgement frame marks sent byte ranges complete. -/
  | acknowledgement (f : SlotFrame) (first last : Nat)
  /-- CANCEL_NOTICE (R585): A peer's cancel notice lapses the contract for the command. -/
  | cancelNotice (f : SlotFrame)
  /-- SLOT_RESEND (R582): The sender resends unacknowledged ranges in its width guard slots. -/
  | slotResend (job : Nat)
  /-- PEER_CONTRACT_LAPSE (R585): A lapsed peer contract completes the command PEER_UNREACHABLE. -/
  | peerContractLapse (job peer : Nat)
  /-- ATTN_PRESS (R598): Midnight accepts an attention press, and the connector's lanes start quiescing. -/
  | attnPress (connector : Nat)
  /-- CONNECTOR_QUIESCE (R599): At P + 2, the connector's transmit lanes go to probe power and the indicator turns steady. -/
  | connectorQuiesce (connector : Nat)
  /-- ATTENTION_CYCLE_END (R600): Dark then light again, or a second press, ends the attention cycle. -/
  | attentionCycleEnd (connector : Nat)
  /-- DOORBELL (R514): A DOORBELL message is latched in hardware and later applied to the SQ. -/
  | doorbell (m : Msg) (sq : Nat) (tail : Word32)
  /-- MEM_READ (R607): Reads HBM or cluster SRAM for the host. -/
  | memRead (m : Msg) (address len : Nat)
  /-- MEM_WRITE (R607): Writes HBM or cluster SRAM for the host and applies host aperture table changes. -/
  | memWrite (m : Msg) (address : Nat) (data : List Byte)
  /-- HEARTBEAT (R611): Keeps a session's heartbeat live and is answered with the frame counter. -/
  | heartbeat (m : Msg)
  /-- HA_RESP (R609): The control node's response to a host-aperture read or write. -/
  | haResp (m : Msg) (data : List Byte) (crcOk : Bool)
  /-- CREDIT (R608): Returns request and data credits. -/
  | credit (port req data : Nat)
  /-- LINK_NAK (R609): A NAK makes the Rustra link layer replay from the first unacknowledged message. -/
  | linkNak (port : Nat)
  /-- LINK_REPLAY_TIMEOUT (R609): 2 µs without acknowledgement makes the Rustra link layer replay. -/
  | linkReplayTimeout (port : Nat)
  /-- HA_RESP_TIMEOUT (R671): With the heartbeat lost, an HA_RESP missing for 1 ms fails the access. -/
  | haRespTimeout (tag : Nat)
  /-- OPEN (R665): Opens a session, negotiating interface and features and granting queues and counters. -/
  | openSession (m : Msg) (req : OpenReq)
  /-- CLOSE (R668): Closes a session after its accepted commands complete. -/
  | close (m : Msg)
  /-- CLAIM (R672): Takes over a claimable session by key. -/
  | claim (m : Msg) (target : Nat) (key : Word64) (tableAddr : Nat)
  /-- TIMERS (R664): Sets a session's grace and reaper times. -/
  | timers (m : Msg) (graceMs reaperS : Nat)
  /-- ATTEST (R663): Returns a signed quote of the measurements and the device certificate. -/
  | attest (m : Msg) (nonce : List Byte)
  /-- STAGE (R677): Dawn copies a package into the inactive slot and verifies it. -/
  | stage (m : Msg) (address size : Nat)
  /-- STAGE_COMPLETE (R677): Staging ends with UPDATE_NOTICE stage 1 and its result. -/
  | stageComplete
  /-- ACTIVATE (R678): Starts the live update switch sequence of a staged slot. -/
  | activate (m : Msg) (slot : Nat)
  /-- CONFIRM (R680): Writes the boot records for the new package and blows anti-rollback fuses. -/
  | confirm (m : Msg)
  /-- HEARTBEAT_LOST (R670): 250 ms without HEARTBEAT marks the session's heartbeat lost. -/
  | heartbeatLost (session : Nat)
  /-- GRACE_END (R670): At the end of the grace period Noon stops taking the session's descriptors. -/
  | graceEnd (session : Nat)
  /-- REAPER (R670): The reaper closes a lost session. -/
  | reaper (session : Nat)
  /-- WATCHDOG_EXPIRY (R673): A processor's watchdog expires, and Midnight restarts the processor with the stated consequences. -/
  | watchdogExpiry (p : Proc) (pc : Word32)
  /-- PROCESSOR_RESUMED (R673): A restarted or switched processor reports RESUMED, and its stop consequences end. -/
  | processorResumed (p : Proc)
  /-- PROCESSOR_SWITCH (R678): At boundary W, the old image stops and the new image starts from the handover block. -/
  | processorSwitch (p : Proc)
  /-- PROCESSOR_READY (R678): The new image reports READY, and the next processor's switch is scheduled. -/
  | processorReady (p : Proc)
  /-- UPDATE_ROLLBACK (R679): A missed RESUMED or READY restarts the old image and switches back the processors already switched. -/
  | updateRollback (p : Proc)
  /-- ACTIVATE_LATCH_TIMEOUT (R681): An emergency latch held for 5 s drops or abandons the update. -/
  | activateLatchTimeout
  /-- POWER_LIMITER (R698): Every 100 µs, the limiter compares measured power with the cap and throttles or releases. -/
  | powerLimiter (measured : Nat) (vec fill issue : List Nat)
  /-- THERMAL_LOOP (R707): Every 100 µs, Dusk evaluates sector diodes and throttles above THROTTLE_C. -/
  | thermalLoop (temps : List Nat)
  /-- THERMAL_TRIP (R708): A trip diode at its limit shuts the device down and leaves it tripped. -/
  | thermalTrip (die temp : Nat)
  /-- EMERGENCY_LATCH_CLEAR (R709): The emergency latch clears after 1 s with no holding condition. -/
  | emergencyLatchClear
  /-- SUPPLY_DIP_START (R712): VCORE below its warning level asserts SUPPLY_DIP and holds new group issue. -/
  | supplyDipStart (rail : Rail) (sector mv : Nat)
  /-- SUPPLY_DIP_END (R712): VCORE above 0.690 V for 1 µs deasserts SUPPLY_DIP. -/
  | supplyDipEnd (us : Nat)
  /-- DIP_REFERENCE_CHECK (R712): At the first boundary after a dip, the row ADCs convert their references, and issue resumes or engines relock. -/
  | dipReferenceCheck (failed : List (Nat × Nat))
  /-- POWER_FAIL_WARNING (R715): A dip longer than 20 µs places every stack in self-refresh and sets the emergency latch. -/
  | powerFailWarning (sector us : Nat)
  /-- SUPPLY_RESET (R716): A rail at its reset level causes a full reset with the crash record kept. -/
  | supplyReset (rail : Rail) (die mv : Nat)
  /-- POWER_ON_RESET (R744): VAON or VIO_AON below its reset level causes a power-on reset. -/
  | powerOnReset
  /-- COLD_RESET (R752): RST_N low at 10 consecutive slow-clock edges causes a cold reset. -/
  | coldReset
  /-- HUB_RELEASE (R659): Midnight releases the hub die and the boot sequence runs. -/
  | hubRelease (obs : BootObs)
  /-- WAKE_EVENT (R691): A Rustra receive lane that sees light after darkness wakes the device from Retain. -/
  | wakeEvent (railsOk : Bool)
  /-- RETAIN_ENTRY_COMPLETE (R690): The Retain entry sequence ends with only retained domains on. -/
  | retainEntryComplete
  /-- RETAIN_EXIT_COMPLETE (R690): The Retain exit sequence ends in Run, and Noon admits work. -/
  | retainExitComplete (obs : BootObs := {})
  /-- POWERDOWN_COMPLETE (R694): Power-down sequencing ends and PWR_STATUS reads Off. -/
  | powerdownComplete
  /-- SQ_DOORBELL_WRITE (R511): A write of the tail releases descriptors for taking, or sets DB_ERR. -/
  | sqDoorbellWrite (m : Msg) (q : Nat) (value : Word32)
  /-- CQ_HEAD_WRITE (R515): The host's consumed-record count frees CQ entries. -/
  | cqHeadWrite (m : Msg) (c : Nat) (value : Word32)
  /-- SQ_ENABLE (R519): Setting SQ_CTRL.ENABLE resets SEQ, HEAD and the posted count and starts taking. -/
  | sqEnable (m : Msg) (q : Nat) (value : Word32)
  /-- SQ_DISABLE (R519): Clearing SQ_CTRL.ENABLE stops taking from the SQ. -/
  | sqDisable (m : Msg) (q : Nat) (value : Word32)
  /-- SQ_QFULL_CLEAR (R516): Writing 1 to QFULL unstalls the SQ and counts as a doorbell. -/
  | sqQfullClear (m : Msg) (q : Nat)
  /-- CQ_ENABLE (R520): Setting CQ_CTRL.ENABLE resets t, HEAD and the reserved count. -/
  | cqEnable (m : Msg) (c : Nat) (value : Word32)
  /-- FRAME_STEP_REQUEST (R475): Writing FRAME_CTRL.STEP requests a step at the next permitted numbered marker, or returns BUSY. -/
  | frameStepRequest (m : Msg)
  /-- PLAN_ARM (R569): Writing PLAN_CTRL.ARM starts copying and validation of a plan. -/
  | planArm (m : Msg)
  /-- PLAN_DISARM (R570): Writing PLAN_CTRL.DISARM discards an armed plan, or returns BUSY. -/
  | planDisarm (m : Msg)
  /-- SHADOW_CTRL_WRITE (R378): A write to SHADOW_CTRL takes effect at the next boundary. -/
  | shadowCtrlWrite (m : Msg) (value : Word32)
  /-- WIDE_SEL_WRITE (R643): A selector write discards the previous snapshot and starts a new one. -/
  | wideSelWrite (m : Msg) (value : Word32)
  /-- WIDE_SNAPSHOT_READY (R643): Noon completes the wide-value snapshot and sets VALID. -/
  | wideSnapshotReady (session : Nat)
  /-- WIDE_DATA_3_READ (R620): A read of WIDE_DATA_3 returns the top word and clears VALID. -/
  | wideData3Read (m : Msg)
  /-- CFG_COMMIT (R640): Writing COMMIT copies the next boundary's CFG_CRC into the reference and arms comparison. -/
  | cfgCommit (m : Msg)
  /-- CFG_SUSPEND (R640): Writing SUSPEND suspends the configuration comparison from the next boundary. -/
  | cfgSuspend (m : Msg)
  /-- LOCK_WRITE (R635): Writing 1 to a LOCK bit sets it until cold reset. -/
  | lockWrite (src : Src) (value : Word32)
  /-- ASSET_TAG_WRITE (R637): The first write sets ASSET_TAG, and later writes are refused as lock violations. -/
  | assetTagWrite (m : Msg) (value : Word32)
  /-- POWER_CAP_WRITE (R629): The first write of a POWER_CAP pair holds a pending value. -/
  | powerCapWrite (src : Src) (value : Word32)
  /-- POWER_CAP_C_WRITE (R696): The complement write completes the pair and sets the new cap. -/
  | powerCapCWrite (src : Src) (value : Word32)
  /-- TRIP_LIMIT_WRITE (R629): The first write of a TRIP_LIMIT pair holds a pending value. -/
  | tripLimitWrite (src : Src) (value : Word32)
  /-- TRIP_LIMIT_C_WRITE (R629): The complement write completes the pair and sets the thermal trip level. -/
  | tripLimitCWrite (src : Src) (value : Word32)
  /-- LASER_ENABLE_WRITE (R629): The first write of a LASER_ENABLE pair holds a pending value. -/
  | laserEnableWrite (src : Src) (value : Word32)
  /-- LASER_ENABLE_C_WRITE (R596): The complement write completes the pair and permits or stops emission. -/
  | laserEnableCWrite (src : Src) (value : Word32)
  /-- GUARD_PENDING_EXPIRY (R630): A pending guarded value expires after 64 µs with no partner write and counts a guard failure. -/
  | guardPendingExpiry (src : Src)
  /-- SCALE_PAGE_WRITE (R652): Selecting a cluster and page takes a snapshot of 64 scale entries. -/
  | scalePageWrite (m : Msg) (value : Word32)
  /-- SCALE_PAGE_REFRESH (R652): Writing REFRESH takes a new snapshot of the page. -/
  | scalePageRefresh (m : Msg)
  /-- SCALE_WINDOW_WRITE (R653): A write to a paged word updates the entry and the snapshot, unless refused. -/
  | scaleWindowWrite (m : Msg) (index : Nat) (value : Word32)
  /-- PWR_REQ_RUN (R689): A request for Run returns the device from Doze. -/
  | pwrReqRun (m : Msg) (retainMask : BitVec 16)
  /-- PWR_REQ_DOZE (R689): A request for Doze ramps fill down, dims the combs and stops the lock detectors. -/
  | pwrReqDoze (m : Msg) (retainMask : BitVec 16)
  /-- PWR_REQ_RETAIN (R690): A request for Retain starts the Retain entry sequence. -/
  | pwrReqRetain (m : Msg) (retainMask : BitVec 16)
  /-- PWR_REQ_OFF (R694): A request for Off starts power-down sequencing. -/
  | pwrReqOff (m : Msg) (retainMask : BitVec 16)
  /-- PWR_WAKE_WRITE (R691): Writing PWR_WAKE.WAKE over I3C is a wake event from Retain. -/
  | pwrWakeWrite (src : Src) (value : Word32) (railsOk : Bool)
  /-- RESET_CTRL_WARM (R719): Writing RESET_CTRL.WARM performs a warm reset with HBM kept. -/
  | resetCtrlWarm (src : Src)
  /-- ISSUE_FLOOR_WRITE (R706): New sector floors take effect in the plan from F + 65 with a fill ramp, or the write returns BUSY. -/
  | issueFloorWrite (m : Msg) (value : Word32)
  /-- ALIAS_WRITE (R628): Writing a bit alias is an indivisible read-modify-write of one bit of the aliased register. -/
  | aliasWrite (m : Msg) (offset bit : Nat) (value : Word32)
  /-- REGISTER_WRITE (R619): A write to a register with no behaviour of its own updates its writable fields. -/
  | registerWrite (src : Src) (offset len : Nat) (value : Word32)
  /-- ENTDAA (R754): I3C dynamic address assignment. -/
  | entdaa (address : BitVec 7)
  /-- SETDASA (R754): I3C sets the dynamic address from the static address. -/
  | setdasa (address : BitVec 7)
  /-- RSTDAA (R754): I3C resets the dynamic address. -/
  | rstdaa
  /-- ENEC (R754): I3C enables events, including the in-band interrupt on ALERT_N. -/
  | enec (events : Byte)
  /-- DISEC (R754): I3C disables events. -/
  | disec (events : Byte)
  /-- GETPID (R754): Returns the I3C provisioned ID. -/
  | getpid
  /-- GETBCR (R754): Returns the I3C bus characteristics register. -/
  | getbcr
  /-- GETDCR (R754): Returns the I3C device characteristics register. -/
  | getdcr
  /-- GETSTATUS (R754): Returns the I3C target status. -/
  | getstatus
  /-- I3C_PRIVATE_READ (R755): Returns the status and read data of the last sideband private write. -/
  | i3cPrivateRead (op01 : Option Word32)
  /-- BLOCK_WRITE (R758): In ROM recovery mode, writes package bytes into flash slot A over I3C. -/
  | blockWrite (offset : Nat) (data : List Byte)
  /-- BOOT_SLOT_A (R758): In ROM recovery mode, verifies slot A and boots it when valid. -/
  | bootSlotA (size : Nat)
  /-- DEBUG_HALT (R676): Halts a firmware processor over I3C while LK_DEBUG is clear. -/
  | debugHalt (p : Proc)
  /-- DEBUG_STEP (R676): Single-steps a halted firmware processor. -/
  | debugStep (p : Proc)
  /-- DEBUG_READ_WORD (R676): Reads a word of a firmware processor's memory. -/
  | debugReadWord (p : Proc) (address : BitVec 30)
  /-- DEBUG_WRITE_WORD (R676): Writes a word of a firmware processor's memory. -/
  | debugWriteWord (p : Proc) (address : BitVec 30) (value : Word32)
  /-- STALE_COPY_REFRESH (R647): At every edge of the 1 MHz slow clock, Midnight refreshes every hardware register's stale copy and increments SEQ modulo 256. -/
  | staleCopyRefresh
  /-- TONE_OSCILLATOR_CYCLE (R308): At each 100 MHz oscillator cycle, each tone oscillator adds PHASE_INC to PHASE and outputs its table value to the heater DAC. -/
  | toneOscillatorCycle (currents : List (Nat × Int) := [])
  /-- SLOT_FRAME_SEND (R579): In each reserved link slot, the device sends a slot frame of COLLECT data, rendezvous or relayed traffic to its peer. -/
  | slotFrameSend (lane : Nat)
  /-- LINK_LAYER_ACK (R609): A Rustra link-layer acknowledgement arrives and releases the acknowledged messages from replay. -/
  | linkLayerAck (port seq : Nat)
  /-- COMB_START_TIMEOUT (R724): A compute comb without stable lines 20 ms after a permitted start counts a failed start, and a second one declares it failed. -/
  | combStartTimeout (comb : Nat)
  /-- HBM_STACK_NO_ANSWER (R724): A base die that does not answer for 10 µs declares its HBM stack failed, which leads to R453. -/
  | hbmStackNoAnswer (stack : Nat)
  /-- ALERT_WINDOW_EXPIRY (R753): 60 s after a watchdog expiry, fewer than eight expiries of that watchdog remain in the window, so that ALERT_N condition ends. -/
  | alertWindowExpiry (p : Proc)
  /-- RETAIN_RAIL_WAIT_END (R743): After a wake event, once the switched rails have stayed above their warning levels for 1 ms, Midnight re-arms their comparators and begins the Retain exit. -/
  | retainRailWaitEnd
  /-- RETAIN_RAIL_WAIT_TIMEOUT (R743): When the rails have not recovered within 1 s of a wake event, Midnight performs a full reset with cause supply reset. -/
  | retainRailWaitTimeout
  /-- RESTORE_FACTORY_WRITE_COMPLETE (R293): Dawn finishes invalidating both user calibration areas in flash, and RESTORE_FACTORY completes. -/
  | restoreFactoryWriteComplete
  /-- CONFIRM_WRITE_COMPLETE (R680): Dawn finishes writing both boot records and blowing the anti-rollback fuses, and then answers CONFIRM. -/
  | confirmWriteComplete
  deriving DecidableEq, Repr

end Sys2Proof
end

