-- ==== Sys2Proof/Decode.lean ====
section
/-! DEFINITION. Decoding: the table of operations gives no row any bits, so no word spells a command; the words of the vector cores' instruction images (07 R353 to R355), their decoder and encoder. -/

namespace Sys2Proof

/-- The command that a word of the table spells. No row of the table has bits, so there is none. -/
def decodeTableWord (_nbits _w : Nat) : Option Instr := none

/-! ## The vector cores' instruction words (07 R353 to R355) -/

/-- The formats of 07 R353. -/
inductive Fmt where
  | v | vx | s | si | m | b | bc | e
  deriving DecidableEq, Repr

/-- The format of an assigned OP (07 R355); `none` for an unassigned one. -/
def fmtOf (op : BitVec 8) : Option Fmt :=
  let n := op.toNat
  if (0x01 ≤ n ∧ n ≤ 0x0D) ∨ n = 0x18 ∨ (0x20 ≤ n ∧ n ≤ 0x24) ∨ (0x30 ≤ n ∧ n ≤ 0x35) ∨ (0x38 ≤ n ∧ n ≤ 0x3A) ∨
      (0x3C ≤ n ∧ n ≤ 0x3F) then some .v
  else if (0x81 ≤ n ∧ n ≤ 0x87) ∨ n = 0x98 ∨ (0x90 ≤ n ∧ n ≤ 0x95) then some .vx
  else if 0x40 ≤ n ∧ n ≤ 0x4B then some .s
  else if n = 0xC0 ∨ n = 0xC1 then some .si
  else if 0xA0 ≤ n ∧ n ≤ 0xA9 then some .m
  else if (0x60 ≤ n ∧ n ≤ 0x63) ∨ n = 0x67 then some .b
  else if 0x64 ≤ n ∧ n ≤ 0x66 then some .bc
  else if n = 0x68 ∨ n = 0x69 ∨ (0x70 ≤ n ∧ n ≤ 0x79) ∨ n = 0x7B then some .e
  else none

/-- The types that an OP admits (07 R353, R355): `t` is T; for the conversions the source type stands in VB[2:0]. A
reserved type is no instruction (log 15). -/
def typeOk (op : BitVec 8) (t : BitVec 3) (vb : BitVec 6) : Bool :=
  let n := op.toNat
  let t := t.toNat
  if n = 0x0C ∨ n = 0x0D ∨ (0x90 ≤ n ∧ n ≤ 0x95) then decide (t < 3)
  else if n = 0x18 ∨ n = 0x98 then decide (t < 6) && decide (vb.toNat % 8 < 6)
  else if 0x20 ≤ n ∧ n ≤ 0x24 then decide (3 ≤ t ∧ t < 6)
  else if n = 0x35 then decide (t = 3)
  else decide (t < 6)

/-- Bytes of the instruction that begins with this word: bit 31 gives the length (07, before R353). -/
def coreLen (w0 : BitVec 32) : Nat := if w0.getLsbD 31 then 8 else 4

/-- The bytes of an instruction: opcodes from 0x80 take two words (07, before R353). -/
def CoreInstr.len (c : CoreInstr) : Nat := if c.op.getLsbD 7 then 8 else 4

/-- The instruction that two words hold, the first word in the low half; a 32-bit instruction takes the first alone.
`none`: an unassigned opcode, a nonzero reserved field, or a reserved type or width (07 R353, R354; log 15). -/
def decodeCore (w : BitVec 64) : Option CoreInstr :=
  let op := w.extractLsb' 24 8
  match fmtOf op with
  | none => none
  | some .v =>
    let f : FV := { vd := w.extractLsb' 18 6, va := w.extractLsb' 12 6, vb := w.extractLsb' 6 6,
                    p := w.extractLsb' 3 3, t := w.extractLsb' 0 3 }
    if typeOk op f.t f.vb then some ⟨op, .v f⟩ else none
  | some .vx =>
    let f : FV := { vd := w.extractLsb' 18 6, va := w.extractLsb' 12 6, vb := w.extractLsb' 6 6,
                    p := w.extractLsb' 3 3, t := w.extractLsb' 0 3, x := true, vc := w.extractLsb' 32 6,
                    rnd := w.extractLsb' 38 2, sat := w.getLsbD 40 }
    if typeOk op f.t f.vb && w.extractLsb' 41 23 == 0#23 then some ⟨op, .v f⟩ else none
  | some .s => some ⟨op, .s { sd := w.extractLsb' 19 5, sa := w.extractLsb' 14 5, sb := w.extractLsb' 9 5,
                              imm := w.extractLsb' 0 9 }⟩
  | some .e => some ⟨op, .e { sd := w.extractLsb' 19 5, sa := w.extractLsb' 14 5, sb := w.extractLsb' 9 5,
                              imm := w.extractLsb' 0 9 }⟩
  | some .si =>
    if w.extractLsb' 0 19 == 0#19 then some ⟨op, .si { sd := w.extractLsb' 19 5, imm := w.extractLsb' 32 32 }⟩
    else none
  | some .m =>
    let f : FM := { vd := w.extractLsb' 18 6, sa := w.extractLsb' 13 5, vi := w.extractLsb' 7 6,
                    p := w.extractLsb' 4 3, sp := w.getLsbD 3, w := w.extractLsb' 1 2, ofs := w.extractLsb' 32 24,
                    sb := w.extractLsb' 56 5 }
    if f.w != 3#2 && !w.getLsbD 0 && w.extractLsb' 61 3 == 0#3 then some ⟨op, .m f⟩ else none
  | some .b => some ⟨op, .b { p := w.extractLsb' 21 3, ofs := w.extractLsb' 0 21 }⟩
  | some .bc => some ⟨op, .bc { sa := w.extractLsb' 19 5, sb := w.extractLsb' 14 5, ofs := w.extractLsb' 0 14 }⟩

/-- The words of an instruction, the first in the low half; zero above a 32-bit instruction. -/
def encodeCore (i : CoreInstr) : BitVec 64 :=
  match i.fields with
  | .v f => 0#23 ++ BitVec.ofBool f.sat ++ f.rnd ++ f.vc ++ i.op ++ f.vd ++ f.va ++ f.vb ++ f.p ++ f.t
  | .s f => 0#32 ++ i.op ++ f.sd ++ f.sa ++ f.sb ++ f.imm
  | .e f => 0#32 ++ i.op ++ f.sd ++ f.sa ++ f.sb ++ f.imm
  | .si f => f.imm ++ i.op ++ f.sd ++ 0#19
  | .m f => 0#3 ++ f.sb ++ f.ofs ++ i.op ++ f.vd ++ f.sa ++ f.vi ++ f.p ++ BitVec.ofBool f.sp ++ f.w ++ 0#1
  | .b f => 0#32 ++ i.op ++ f.p ++ f.ofs
  | .bc f => 0#32 ++ i.op ++ f.sa ++ f.sb ++ f.ofs

end Sys2Proof
end

