-- ==== Sys2Proof/Config.lean ====
section
/-! DEFINITION. What an assembled device fixes (fuses, factory values) and the free values of the model: constants without a body, of which no proof can know a value. -/

namespace Sys2Proof.Config

/-! ## Free values: what the manual leaves open while the device goes on -/

/-- A fresh natural number for each count of State's `free` counter (log 5). -/
opaque freeNat : Nat → Nat

/-- The state that the entropy source gives generator `g` at reset number `n` (04 R198; log 6). -/
opaque entropy128 : Nat → Nat → BitVec 128

/-- The state derived from SR_SEED, the device engine index, the row or cluster and the stage index
(04 R199: the derivation is not given; log 6). -/
opaque seedState : BitVec 32 → Nat → Nat → Nat → BitVec 128

/-- The position of the state bit that a generator supplies (04 R193, R197; log 6). -/
opaque lfsrOut : Nat

/-- The bit a generator in this state supplies (04 R193, R197; log 6). -/
def lfsrBit (g : BitVec 128) : Bool := g.getLsbD (lfsrOut % 128)

/-- Whether underflow is detected before or after rounding: IEEE 754 leaves the choice (07 R356, R357; log 7). -/
opaque tininessAfterRounding : Bool

/-- The relative error, in units of 2⁻⁴⁴, of an estimate of VRCPE (`false`) or VRSQE (`true`) for a type code
and an operand (07 R355 gives only the bound 2⁻¹²; log 8). -/
opaque estimateError : Bool → Nat → BitVec 64 → Int

/-- The value a vector operation leaves where the manual states none (log 9): the OP byte, the type code and
the operands. -/
opaque vectorValue : Nat → Nat → BitVec 64 → BitVec 64 → BitVec 64

/-- Die temperature in m°C that a diode's corrected code stands for (06 R288: factory constants; log 10). -/
opaque diodeMilliC : Nat → Int → Int

/-- A byte of a local store window that nothing has written since the kernel started: undefined (07 R345; log 16). -/
opaque localByte : Nat → BitVec 8

/-- A byte of an input or weight tile below its descriptor's RESUME, by its address: the transfer does not cover it (08 R399), and
what the light path then holds for it is not given (log 32). -/
opaque skippedByte : Nat → BitVec 8

/-- An accumulator slot that nothing has written since its contents were last lost: undefined (04 R202, R207; 09 R460; 16
R730; log 98). The losses so far, the verification runs of its engine so far, and the slot's key. -/
opaque accWord : Nat → Nat → Nat → BitVec 64

/-- Whether a reported figure that is not a whole number of its unit is rounded up (05 R296, R297: the rounding of RMS
and peak figures is not given; log 28). -/
opaque figureUp : Bool

/-- Which NaN code an output type's NaN is stored as: type code, FP32 bits (04 R231 says only NaN; log 37). -/
opaque outNan : Nat → Nat → Nat

/-- The block scale of an MX output block that holds a NaN or an infinity, or only zeros, by its FP32 bits, and the
element code of a NaN or an infinity (03 R147 and the specification it names leave them open; log 38). -/
opaque mxScale : List Nat → Nat
/-- The element code of such a value, by its FP32 bits (log 38). -/
opaque mxElement : Nat → Nat
/-- Whether MXINT8 outputs leave the code −128 unused (03 R147: the specification allows both; log 38). -/
opaque mxSymmetric : Bool

/-! ## Factory values (05 R290; 06 R288, R326 to R328; log 111, log 112) -/

/-- A coefficient's factory value: of the blob, or of the fuses alone (05 R290, R292). -/
opaque factoryCoef : Bool → Coef → Int
/-- The bytes of an image of a coefficient set, over which its CRC-32C is taken, and the format version of this firmware's images
(05 R291: the format is not given). -/
opaque imageBytes : Bool → List (Coef × Int) → List Byte
/-- The format version. -/
opaque imageVersion : Nat
/-- Whether the bytes of the factory blob's flash region carry a signature of Elzetor that verifies (05 R290: the blob's format is
not given). -/
opaque blobVerifies : List Byte → Bool
/-- Optical power in 0.01 dBm that a corrected code of an input stands for: converter, input + 256 × engine, code (06 R326). -/
opaque tapPower : Nat → Nat → Int → Int
/-- The corrected code that a converter reads of its bandgap reference when VREF_EXT is in order (05 R289; 06 R321). -/
opaque bandgapCode : Nat → Int
/-- The factory ratio of a stage of an engine's path, in 0.01 dB: engine, stage, and the line or row (06 R328). -/
opaque lossBase : Nat → Nat → Nat → Int
/-- The factory ratio of a lane's transmit path on a line, in 0.01 dB (06 R328). -/
opaque laneBase : Nat → Nat → Int
/-- The factory line power set point of a link comb, 0.01 dBm (06 R331). -/
opaque linkSetPoint : Nat → Int
/-- How far the comb loop moves its correction in one frame, in kHz: comb, mean heater offset in m°C (05 R242: the loop filter is not
given; log 116). -/
opaque combStep : Nat → Int → Nat
/-- How far Twilight moves a comb's bias in one frame, in 0.1 % of maximum: comb, shortfall of line power in 0.01 dB (06 R331; log
116). -/
opaque biasStep : Nat → Int → Nat
/-- The factory absorption coefficient, in 0.01 dB at an optical load of 1 (06 R327). -/
opaque absorption : Int

/-! ## Identity and fuses -/

/-- DEVICE_UID (13 R646), fixed in fuses. -/
opaque deviceUid : BitVec 64
/-- DEV_ID.STEPPING (13), fixed in fuses. -/
opaque stepping : BitVec 4
/-- DEV_ID (13): its fields, with the fused stepping. -/
def devId : Nat := 0x09010E2D + 2 ^ 28 * stepping.toNat
/-- The 48-bit I3C provisioned ID (17 R754 names GETPID and gives no value; log 11). -/
opaque i3cPid : BitVec 48
/-- The I3C bus characteristics register (17 R754; log 11). -/
opaque i3cBcr : BitVec 8
/-- The I3C device characteristics register (17 R754; log 11). -/
opaque i3cDcr : BitVec 8
/-- The I3C target status word for an alert level (17 R754; log 11). -/
opaque i3cStatus : Bool → BitVec 16
/-- The SHA-384 fused in a signing key slot (14 R658). -/
opaque keyHash : Nat → List Byte
/-- The revoke fuse of a signing key slot (14 R658). -/
opaque keyRevoked : Nat → Bool

/-! ## Functions of the standards the manual refers to, left uninterpreted (log 12) -/

/-- SHA-384 (FIPS 180-4). -/
opaque sha384 : List Byte → List Byte
/-- ECDSA verification on brainpoolP384r1 over SHA-384: key, message, signature (FIPS 186-5). -/
opaque ecdsaVerify : List Byte → List Byte → List Byte → Bool
/-- The device identity key's signature over a message (14 R663). -/
opaque ecdsaSign : List Byte → List Byte
/-- The device certificate of flash (14 R656). -/
opaque certificate : List Byte

/-! ## Constants of the manual -/

/-- What a byte of memory that nothing has written reads as (log 2: DESIGN CHOICE, unsafe). -/
def memDefault : Byte := 0
/-- Engines of the device (01 R28). -/
def engines : Nat := 256
/-- Clusters of the device (01 R28). -/
def clusters : Nat := 64

/-- Symbols of a frame (00, Device time). -/
def symbolsPerFrame : Nat := 102400
/-- Symbols of 80 ps in a link slot of 64 ns (01, 12). -/
def symbolsPerSlot : Nat := 800
/-- Planned link slots of a lane in a frame of 128; the other 7 are the width guard (10 R478). -/
def plannedSlots : Nat := 121
/-- What LANE_BYTES shows of a Rustra lane, 256 or 257, at a symbol: the spec does not say how the messages of a bonded port count on its
two lanes (13 R646; log 135). -/
opaque rustraBytes : Nat → Nat → BitVec 128
/-- Vector core cycles of a frame (00, Device time). -/
def cyclesPerFrame : Nat := 16384
/-- Memory read tags of a stack (01 R20, 08 R390). -/
def tagsPerStack : Nat := 1536
/-- Bytes of an HBM granule (08, before R390). -/
def granuleBytes : Nat := 2048
/-- Accumulator slots of a row (04 R186, R200). -/
def accSlots : Nat := 640

end Sys2Proof.Config
end

