-- ==== Sys2Proof/Machine/Bits.lean ====
section
/-! DEFINITION. Bit fields, little-endian bytes (00 R9 to R11), lists of fixed size, and CRC-32C. -/

namespace Sys2Proof.Machine

/-- Bits `[lo + w - 1 : lo]` of a number (00 R9, R10). -/
def bits (n lo w : Nat) : Nat := n / 2 ^ lo % 2 ^ w

/-- Bit `[i]` of a number. -/
def bit (n i : Nat) : Bool := n / 2 ^ i % 2 == 1

/-- A number with bits `[lo + w - 1 : lo]` replaced. -/
def setBits (n lo w v : Nat) : Nat :=
  n / 2 ^ (lo + w) * 2 ^ (lo + w) + v % 2 ^ w * 2 ^ lo + n % 2 ^ lo

/-- A Bool as a bit. -/
def b2n (b : Bool) : Nat := if b then 1 else 0

/-- The two's complement value of the low `w` bits. -/
def sext (n w : Nat) : Int :=
  if n % 2 ^ w < 2 ^ (w - 1) then (n % 2 ^ w : Nat) else (n % 2 ^ w : Nat) - (2 ^ w : Nat)

/-- An integer's low `w` bits in two's complement. -/
def toBits (i : Int) (w : Nat) : Nat := (i % (2 ^ w : Nat)).toNat

/-- An integer held to a range. -/
def clampInt (lo hi i : Int) : Int := if i < lo then lo else if hi < i then hi else i

/-- A natural number held to a range. -/
def clampNat (lo hi n : Nat) : Nat := if n < lo then lo else if hi < n then hi else n

/-- Quotient rounded up. -/
def ceilDiv (a b : Nat) : Nat := (a + b - 1) / b

/-- The `n` bytes of a number, lowest offset first (00 R11). -/
def leBytes : Nat → Nat → List Byte
  | 0, _ => []
  | n + 1, v => BitVec.ofNat 8 v :: leBytes n (v / 256)

/-- The number that bytes hold, lowest offset first (00 R11). -/
def ofLe : List Byte → Nat
  | [] => 0
  | b :: bs => b.toNat + 256 * ofLe bs

/-- The little-endian field of `n` bytes at an offset of a structure. -/
def field (bs : List Byte) (ofs n : Nat) : Nat := ofLe ((bs.drop ofs).take n)

/-- Positions of the bits that are set among the low `n`. -/
def bitList (n v : Nat) : List Nat := (List.range n).filter fun i => bit v i

/-- The number whose set bits are listed. -/
def ofBitList (l : List Nat) : Nat := l.foldl (fun n i => if bit n i then n else n + 2 ^ i) 0

/-- How many of the low `n` bits are set. -/
def popCount (n v : Nat) : Nat := (bitList n v).length

/-- Put a number into a strictly rising list. -/
def insertNat (n : Nat) : List Nat → List Nat
  | [] => [n]
  | m :: ms => if n < m then n :: m :: ms else if n = m then m :: ms else m :: insertNat n ms

/-- One bit of CRC-32C over the reflected polynomial (CRC-32C: 0x1EDC6F41). -/
def crcBit (c : Nat) : Nat := if c % 2 == 1 then (c / 2) ^^^ 0x82F63B78 else c / 2

/-- One byte of CRC-32C. -/
def crcByte (c : Nat) (b : Byte) : Nat :=
  crcBit (crcBit (crcBit (crcBit (crcBit (crcBit (crcBit (crcBit (c ^^^ b.toNat))))))))

/-- CRC-32C of bytes. -/
def crc32c (bs : List Byte) : Nat := bs.foldl crcByte 0xFFFFFFFF ^^^ 0xFFFFFFFF

/-- The least of a list, 0 for none. -/
def minNat : List Nat → Nat
  | [] => 0
  | [n] => n
  | n :: ns => Nat.min n (minNat ns)

/-- The sum of a list. -/
def sumNat (l : List Nat) : Nat := l.foldl (· + ·) 0

/-- The element at a position, or a default. -/
def nth {α : Type} (l : List α) (i : Nat) (d : α) : α := l.getD i d

/-- Replace the elements that satisfy a test. -/
def mapIf {α : Type} (p : α → Bool) (f : α → α) (l : List α) : List α :=
  l.map fun a => if p a then f a else a

end Sys2Proof.Machine
end

