-- ==== Sys2Proof/Machine/Fp.lean ====
section
/-! DEFINITION. Exact dyadic arithmetic and IEEE 754 arithmetic (07 R356 to R358): decoding, one rounding, and the operations of the vector cores, the epilogue and the quantiser. -/

namespace Sys2Proof

/-! ## Dyadic numbers -/

/-- Two dyadic numbers over their lower exponent. -/
def Dy.align (a b : Dy) : Int × Int × Int :=
  let e := min a.e b.e
  (a.m * (2 ^ (a.e - e).toNat : Nat), b.m * (2 ^ (b.e - e).toNat : Nat), e)

/-- Exact sum. -/
def Dy.add (a b : Dy) : Dy :=
  if a.m = 0 then b else if b.m = 0 then a else
  match Dy.align a b with
  | (x, y, e) => ⟨x + y, e⟩
/-- Exact product. -/
def Dy.mul (a b : Dy) : Dy := ⟨a.m * b.m, a.e + b.e⟩
/-- Negation. -/
def Dy.neg (a : Dy) : Dy := ⟨-a.m, a.e⟩
/-- Exact difference. -/
def Dy.sub (a b : Dy) : Dy := a.add b.neg
/-- Multiplied by `2^k`. -/
def Dy.scale (a : Dy) (k : Int) : Dy := ⟨a.m, a.e + k⟩
/-- Magnitude. -/
def Dy.abs (a : Dy) : Dy := ⟨a.m.natAbs, a.e⟩
/-- An integer as a dyadic number. -/
def Dy.ofInt (i : Int) : Dy := ⟨i, 0⟩
/-- Exact comparison: `a < b`. -/
def Dy.lt (a b : Dy) : Bool :=
  match Dy.align a b with
  | (x, y, _) => decide (x < y)
/-- Exact comparison: `a ≤ b`. -/
def Dy.le (a b : Dy) : Bool :=
  match Dy.align a b with
  | (x, y, _) => decide (x ≤ y)
/-- Exact equality of values. -/
def Dy.eq (a b : Dy) : Bool :=
  match Dy.align a b with
  | (x, y, _) => decide (x = y)
/-- The larger of two. -/
def Dy.max (a b : Dy) : Dy := if a.lt b then b else a
/-- Sum of a list. -/
def Dy.sum (l : List Dy) : Dy := l.foldl Dy.add Dy.zero

/-- The integer part, towards minus infinity. -/
def Dy.floor (a : Dy) : Int :=
  if 0 ≤ a.e then a.m * (2 ^ a.e.toNat : Nat) else a.m / (2 ^ (-a.e).toNat : Nat)

/-- The nearest integer, ties to even. -/
def Dy.roundEven (a : Dy) : Int :=
  if 0 ≤ a.e then a.m * (2 ^ a.e.toNat : Nat)
  else
    let d : Nat := 2 ^ (-a.e).toNat
    let q := a.m / d
    let r := a.m % d
    if 2 * r < d then q else if d < 2 * r then q + 1 else if q % 2 = 0 then q else q + 1

/-- `floor (log2 v)` of a positive dyadic number. -/
def Dy.log2 (a : Dy) : Int := (a.m.natAbs.log2 : Int) + a.e

end Sys2Proof

namespace Sys2Proof.Machine

/-! ## Formats and values -/

/-- A binary interchange format: exponent bits and fraction bits. -/
structure FpFmt where
  ebits : Nat
  mbits : Nat
  deriving DecidableEq, Repr

/-- binary64. -/
def fp64 : FpFmt := ⟨11, 52⟩
/-- binary32. -/
def fp32 : FpFmt := ⟨8, 23⟩
/-- The upper half of binary32. -/
def bf16 : FpFmt := ⟨8, 7⟩

/-- The exponent bias. -/
def FpFmt.bias (f : FpFmt) : Nat := 2 ^ (f.ebits - 1) - 1
/-- The exponent of the least normal value. -/
def FpFmt.emin (f : FpFmt) : Int := 1 - f.bias
/-- Bits in all. -/
def FpFmt.width (f : FpFmt) : Nat := 1 + f.ebits + f.mbits

/-- Rounding modes: nearest ties to even, towards zero, towards plus and minus infinity (07 R353), and nearest ties
away. -/
inductive Rnd where
  | ne | tz | up | dn | na
  deriving DecidableEq, Repr

/-- The mode that RND selects (07 R353). -/
def Rnd.ofBits (r : BitVec 2) : Rnd :=
  if r = 0 then .ne else if r = 1 then .tz else if r = 2 then .up else .dn

/-- A floating-point datum: a NaN (signalling or not), an infinity, or `(-1)^neg × m × 2^e`. -/
inductive Fv where
  | nan (sig : Bool)
  | inf (neg : Bool)
  | fin (neg : Bool) (m : Nat) (e : Int)
  deriving DecidableEq, Repr

/-- The exact result of an operation before rounding. -/
inductive Ex where
  | nan
  | inf (neg : Bool)
  | rat (neg : Bool) (num den : Nat) (e : Int)
  deriving DecidableEq, Repr

/-- FPSTAT bits (07 R357). -/
def flInvalid : BitVec 5 := 1
/-- Divide by zero. -/
def flDivZero : BitVec 5 := 2
/-- Overflow. -/
def flOverflow : BitVec 5 := 4
/-- Underflow. -/
def flUnderflow : BitVec 5 := 8
/-- Inexact. -/
def flInexact : BitVec 5 := 16

/-- The datum that bits of a format hold. -/
def FpFmt.decode (f : FpFmt) (n : Nat) : Fv :=
  let neg := bit n (f.ebits + f.mbits)
  let ex := bits n f.mbits f.ebits
  let fr := bits n 0 f.mbits
  if ex = 2 ^ f.ebits - 1 then (if fr = 0 then .inf neg else .nan (!bit fr (f.mbits - 1)))
  else if ex = 0 then .fin neg fr (f.emin - f.mbits)
  else .fin neg (2 ^ f.mbits + fr) ((ex : Int) - f.bias - f.mbits)

/-- The canonical quiet NaN (07 R358). -/
def FpFmt.qnan (f : FpFmt) : Nat := (2 ^ f.ebits - 1) * 2 ^ f.mbits + 2 ^ (f.mbits - 1)
/-- Infinity. -/
def FpFmt.infBits (f : FpFmt) (neg : Bool) : Nat :=
  b2n neg * 2 ^ (f.ebits + f.mbits) + (2 ^ f.ebits - 1) * 2 ^ f.mbits
/-- The largest finite value. -/
def FpFmt.maxBits (f : FpFmt) (neg : Bool) : Nat := f.infBits neg - 1

/-- Whether a quotient is rounded up in magnitude: `odd` its parity, `r2` and `d` twice the remainder and the
divisor. -/
def roundUp (rm : Rnd) (neg odd : Bool) (r2 d : Nat) : Bool :=
  match rm with
  | .ne => decide (d < r2) || (decide (r2 = d) && odd)
  | .na => decide (d ≤ r2)
  | .tz => false
  | .up => !neg && decide (0 < r2)
  | .dn => neg && decide (0 < r2)

/-- `floor (log2 (num / den))`. -/
def log2Q (num den : Nat) : Int :=
  let l : Int := (num.log2 : Int) - den.log2
  let le : Bool := if 0 ≤ l then decide (den * 2 ^ l.toNat ≤ num) else decide (den ≤ num * 2 ^ (-l).toNat)
  if le then l else l - 1

/-- `num / den × 2^e` rounded to a multiple of `2^lsb`: the quotient and whether it is exact. -/
def quantQ (rm : Rnd) (neg : Bool) (num den : Nat) (e lsb : Int) : Nat × Bool :=
  let k := e - lsb
  let n := if 0 ≤ k then num * 2 ^ k.toNat else num
  let d := if 0 ≤ k then den else den * 2 ^ (-k).toNat
  let q := n / d
  let r := n % d
  (q + b2n (roundUp rm neg (q % 2 == 1) (2 * r) d), r == 0)

/-- Round `(-1)^neg × num / den × 2^e` once to a format, with the conditions raised (07 R356, R357). -/
def FpFmt.round (f : FpFmt) (rm : Rnd) (neg : Bool) (num den : Nat) (e : Int) : Nat × BitVec 5 :=
  let sgn := b2n neg * 2 ^ (f.ebits + f.mbits)
  if num = 0 then (sgn, 0) else
  let ex := log2Q num den + e
  let lsb := max (ex - f.mbits) (f.emin - f.mbits)
  match quantQ rm neg num den e lsb with
  | (q, exact) =>
    let (q, lsb) := if q = 2 ^ (f.mbits + 1) then (2 ^ f.mbits, lsb + 1) else (q, lsb)
    let wide := (quantQ rm neg num den e (ex - f.mbits)).1
    let tiny := decide (ex < f.emin) &&
      !(Config.tininessAfterRounding && decide (ex + 1 = f.emin) && decide (wide = 2 ^ (f.mbits + 1)))
    let fl : BitVec 5 := if exact then 0 else if tiny then flInexact ||| flUnderflow else flInexact
    if q < 2 ^ f.mbits then (sgn + q, fl)
    else
      let biased := lsb + f.mbits + f.bias
      if biased < (2 ^ f.ebits - 1 : Nat) then (sgn + biased.toNat * 2 ^ f.mbits + (q - 2 ^ f.mbits), fl)
      else
        let toInf : Bool := match rm with
          | .ne | .na => true
          | .tz => false
          | .up => !neg
          | .dn => neg
        (if toInf then f.infBits neg else f.maxBits neg, flOverflow ||| flInexact)

/-- The result of an operation in a format. -/
def FpFmt.finish (f : FpFmt) (rm : Rnd) (r : Ex × BitVec 5) : Nat × BitVec 5 :=
  match r with
  | (.nan, fl) => (f.qnan, fl)
  | (.inf neg, fl) => (f.infBits neg, fl)
  | (.rat neg num den e, fl) => match f.round rm neg num den e with
    | (n, fl') => (n, fl ||| fl')

/-- Any NaN operand, and the invalid flag that a signalling one raises. -/
def nanOf (l : List Fv) : Option (BitVec 5) :=
  if l.any (fun v => match v with | .nan _ => true | _ => false) then
    some (if l.any (fun v => match v with | .nan s => s | _ => false) then flInvalid else 0)
  else none

/-- The sign of a datum. -/
def Fv.neg : Fv → Bool
  | .nan _ => false
  | .inf n => n
  | .fin n _ _ => n

/-- The datum with its sign changed. -/
def Fv.negate : Fv → Fv
  | .nan s => .nan s
  | .inf n => .inf (!n)
  | .fin n m e => .fin (!n) m e

/-- The value of a finite datum. -/
def Fv.dy : Fv → Dy
  | .fin n m e => ⟨if n then -(m : Int) else m, e⟩
  | _ => Dy.zero

/-- A dyadic value as an exact result; an exact zero takes the given sign. -/
def Ex.ofDy (d : Dy) (zneg : Bool) : Ex :=
  if d.m = 0 then .rat zneg 0 1 0 else .rat (decide (d.m < 0)) d.m.natAbs 1 d.e

/-- The sign of the zero that a sum of `a` and `b` gives: theirs when they agree, else plus, or minus when rounding
towards minus infinity (IEEE 754). -/
def zeroSign (rm : Rnd) (a b : Bool) : Bool := if a = b then a else rm == .dn

/-- Addition. -/
def fpAdd (rm : Rnd) (a b : Fv) : Ex × BitVec 5 :=
  match nanOf [a, b] with
  | some fl => (.nan, fl)
  | none =>
    match a, b with
    | .inf x, .inf y => if x = y then (.inf x, 0) else (.nan, flInvalid)
    | .inf x, _ => (.inf x, 0)
    | _, .inf y => (.inf y, 0)
    | a, b => (.ofDy (a.dy.add b.dy) (zeroSign rm a.neg b.neg), 0)

/-- Multiplication. -/
def fpMul (a b : Fv) : Ex × BitVec 5 :=
  match nanOf [a, b] with
  | some fl => (.nan, fl)
  | none =>
    let s := a.neg != b.neg
    match a, b with
    | .inf _, .fin _ m _ => if m = 0 then (.nan, flInvalid) else (.inf s, 0)
    | .fin _ m _, .inf _ => if m = 0 then (.nan, flInvalid) else (.inf s, 0)
    | .inf _, _ => (.inf s, 0)
    | _, .inf _ => (.inf s, 0)
    | a, b => (.ofDy (a.dy.mul b.dy) s, 0)

/-- Fused multiply-add `a × b + c`. -/
def fpFma (rm : Rnd) (a b c : Fv) : Ex × BitVec 5 :=
  match nanOf [a, b, c] with
  | some fl => (.nan, fl)
  | none =>
    match fpMul a b with
    | (.nan, fl) => (.nan, fl)
    | (.inf x, _) => match c with
      | .inf y => if x = y then (.inf x, 0) else (.nan, flInvalid)
      | _ => (.inf x, 0)
    | (.rat _ _ _ _, _) => match c with
      | .inf y => (.inf y, 0)
      | c => (.ofDy ((a.dy.mul b.dy).add c.dy) (zeroSign rm (a.neg != b.neg) c.neg), 0)

/-- Division. -/
def fpDiv (a b : Fv) : Ex × BitVec 5 :=
  match nanOf [a, b] with
  | some fl => (.nan, fl)
  | none =>
    let s := a.neg != b.neg
    match a, b with
    | .inf _, .inf _ => (.nan, flInvalid)
    | .inf _, _ => (.inf s, 0)
    | _, .inf _ => (.rat s 0 1 0, 0)
    | .fin _ m e, .fin _ n e' =>
      if n = 0 then (if m = 0 then (.nan, flInvalid) else (.inf s, flDivZero))
      else (.rat s m n (e - e'), 0)
    | _, _ => (.nan, 0)

/-- The integer square root, one bit at a time from bit `k - 1` down. -/
def isqrtFrom (n : Nat) : Nat → Nat → Nat
  | 0, r => r
  | k + 1, r => let t := r + 2 ^ k; isqrtFrom n k (if t * t ≤ n then t else r)

/-- The integer square root. -/
def isqrt (n : Nat) : Nat := isqrtFrom n (n.log2 / 2 + 1) 0

/-- A square root of `m × 2^e` close enough that any format rounds it as it rounds the exact one: bits far beyond
the format, and a last bit that is 1 when anything is lost. -/
def sqrtQ (m : Nat) (e : Int) : Nat × Int :=
  let (m, e) := if e % 2 = 0 then (m, e) else (2 * m, e - 1)
  let w := m * 2 ^ 160
  let r := isqrt w
  (2 * r + b2n (r * r != w), e / 2 - 81)

/-- Square root. -/
def fpSqrt (a : Fv) : Ex × BitVec 5 :=
  match a with
  | .nan s => (.nan, if s then flInvalid else 0)
  | .inf false => (.inf false, 0)
  | .inf true => (.nan, flInvalid)
  | .fin neg m e =>
    if m = 0 then (.rat neg 0 1 0, 0)
    else if neg then (.nan, flInvalid)
    else match sqrtQ m e with
      | (r, e') => (.rat false r 1 e', 0)

/-- How two data compare: `none` when a NaN stands among them. -/
def fpCmp (a b : Fv) : Option Ordering :=
  match a, b with
  | .nan _, _ => none
  | _, .nan _ => none
  | .inf x, .inf y => some (if x = y then .eq else if x then .lt else .gt)
  | .inf x, _ => some (if x then .lt else .gt)
  | _, .inf y => some (if y then .gt else .lt)
  | a, b => some (if a.dy.lt b.dy then .lt else if b.dy.lt a.dy then .gt else .eq)

/-- An estimate: `num / den × 2^e` off by `err × 2⁻⁴⁴` of itself, `err` held below the bound of 07 R355. -/
def estimate (neg : Bool) (num den : Nat) (e err : Int) : Ex :=
  let err := clampInt (-0xFF000000) 0xFF000000 err
  .rat neg (num * ((2 ^ 44 : Nat) + err).toNat) den (e - 44)

/-- A dyadic value rounded once to a format, nearest ties to even; a nonzero value that rounds to zero keeps its sign
(log 21). -/
def FpFmt.ofDy (f : FpFmt) (d : Dy) : Nat := (f.round .ne (decide (d.m < 0)) d.m.natAbs 1 d.e).1

end Sys2Proof.Machine
end

