-- ==== Sys2Proof/Machine/State.lean ====
section
/-! DEFINITION. The state of the EZ-HK9K as plain data, its reset value, and the reasons a step can stop. -/

namespace Sys2Proof.Machine

/-- A sparse store: key and value pairs, keys strictly rising, no value equal to the store's default.
Memory is one (09 R438); the stores of engines, clusters, lanes and threads are others. -/
abbrev Sparse (α : Type) := List (Nat × α)

/-- Admission results and completion statuses (11 R540, R541). -/
inductive Status where
  | accepted | rejectMalformed | rejectFeature | rejectCapacity | rejectDeadline | rejectConflict
  | rejectQueueFull | rejectSession
  | done | doneFlagged | doneRerun | budgetExhausted | cancelled | translationFault | dataUncorrectable
  | unitFailed | lateEnvelope | peerUnreachable
  deriving DecidableEq, Repr

/-! ## Time (10) -/

/-- The frame source states of 10 R470. -/
inductive FrameSource where
  | localFrames | locked | holdover | realigning
  deriving DecidableEq, Repr

/-- The frame block (10 R466 to R477, R769). -/
structure FrameSt where
  /-- The 64-bit frame counter (00 R15). -/
  counter       : Nat := 0
  /-- Symbol within the frame (00 R16). -/
  symbol        : Nat := 0
  source        : FrameSource := .localFrames
  /-- The first acquisition after cold reset has happened (10 R474). -/
  acquired      : Bool := false
  /-- STEP_PENDING by R473 or by the waiting first acquisition. -/
  stepPending   : Bool := false
  /-- A step requested through FRAME_CTRL.STEP waits (10 R474). -/
  stepRequested : Bool := false
  over1s        : Bool := false
  anchorFreq    : Bool := false
  /-- Consecutive evaluations within tolerance since the interval left it (10 R471). -/
  goodEvals     : Nat := 0
  /-- Trailing measured intervals in REFCLK cycles, newest first, at most 4,096 (10 R467). -/
  intervals     : List Nat := []
  /-- A valid boundary marker has come since cold reset, from which the next interval is measured (10 R467). -/
  hadMarker     : Bool := false
  /-- Consecutive expected markers missing or invalid (10 R470). -/
  missed        : Nat := 0
  /-- The present frame's boundary marker has been seen. -/
  markerSeen    : Bool := false
  /-- Holdover time in frames (10 R471). -/
  holdFrames    : Nat := 0
  /-- Entry 0x0400 with AUX 0 of this holdover is written (10 R769). -/
  holdLogged    : Bool := false
  /-- ANCHOR_PHASE, the value e of 10 R472 in symbols. -/
  phase         : Int := 0
  /-- A valid marker arrived in HOLDOVER: the numbered marker decides (10 R472). -/
  markerInHold  : Bool := false
  /-- Frames committed to the sequencers: up to this number (10 R479). -/
  committed     : Nat := 63
  deriving DecidableEq, Repr

/-! ## The light path, engines and accumulators (02, 04, 05) -/

/-- Lock states of 05 R259. -/
inductive LockState where
  | off | search | verify | locked | calib | unlocked | held | mappedOut
  deriving DecidableEq, Repr

/-- What one physical row of a bank holds: the output channel of its weights (`none`: parked), the weight values
in ring order, their exact sum (03 R131), EW and ZW of the tile header (03 R106), and K of the row's group (03 R133). -/
structure BankRow where
  chan : Option Nat := none
  w    : List Dy := []
  sumW : Dy := Dy.zero
  ew   : Nat := 127
  zw   : Nat := 0
  k    : Dy := Dy.zero
  /-- The 8-bit weight DAC levels that the bank's transfer table gave for the weights when the tile was loaded (02 R60; 05
  R279). -/
  levels : List Nat := []
  /-- The row's optical load (02 R87): parked rings count at 0.5. -/
  load : Dy := ⟨1, -1⟩
  deriving DecidableEq, Repr

/-- A weight bank of an engine (02 R61, R62, R76): the stage, reduction block and weight slice of the tile it
holds, row by row. `rows = []` is a parked bank. -/
structure Bank where
  job    : Nat := 0
  stage  : Nat := 0
  rerun  : Bool := false
  rb     : Nat := 0
  ws     : Nat := 0
  h      : Nat := 0
  /-- Rows 2j and 2j + 1 hold the two halves of one output (02 R73). -/
  pair   : Bool := false
  rows   : List BankRow := []
  /-- Every row holds the identity pattern of a check (05 R253). -/
  pattern : Bool := false
  deriving DecidableEq, Repr

/-- One group issued on an engine whose conversions are under way (02 R63 to R66): the command, the vector,
the group, the slices, and per row the exact light sum in product units, with what the group term needs (03 R132). -/
structure Issue where
  job    : Nat
  stage  : Nat
  rerun  : Bool
  vec    : Nat
  grp    : Nat
  ws     : Nat
  slice  : Nat
  /-- ex of the group (03 R123), the quantiser's column sum for the pass (03 R132), the constant c (03 R130),
      the least-significant-bit exponent a (02 R67) and the ADC mode. -/
  ex     : Int
  colsum : Dy
  c      : Dy
  a      : Int
  narrow : Bool
  /-- The conversions are those of row pairs (02 R73, R74). -/
  pair   : Bool := false
  /-- Per row: its channel, Σ w × ℓ, Σ w × v, and the bank row's sums. `none` where the row converts nothing. -/
  rows   : List (Option (Nat × Dy × Dy × BankRow))
  /-- Rows whose code has arrived. -/
  arrived : List Nat := []
  /-- It was under way when its engine left service after a lock-loss event: its terms carry LOCK_EXCURSION (05 R261, R262). -/
  excursion : Bool := false
  deriving DecidableEq, Repr

/-- A relock in progress (05 R265, R266, R775). -/
structure Relock where
  startFrame : Nat := 0
  /-- 0 first check, 1 index search and acquisition, 2 second check, 3 recovery run, 4 waiting for the conditions of
      R265, 5 to enter SEARCH at the next boundary (R775). -/
  step       : Nat := 0
  /-- Banks whose index search is under way: row, bank, and the lines that the heater moves by (05 R257). -/
  search     : List (Nat × Bool × Int) := []
  /-- Its comb has returned and it has not relocked since: its bank heaters hold (02 R95). -/
  held       : Bool := false
  deriving DecidableEq, Repr

/-- A weight tile that a stage streams from HBM, on its way to a bank of an engine (08 R388): the W_DESC elements that it is made
of, the granule reads that are out, and what has landed, by device address. -/
structure WeightBuf where
  job    : Nat
  stage  : Nat
  rerun  : Bool
  els    : List Nat
  reads  : List Nat
  cells  : Sparse Byte := []
  bad    : Option (Nat × Nat × Status × Nat) := none
  deriving DecidableEq, Repr

/-- One optical engine (01 R24 to R26, 05 R259, R300). -/
structure Engine where
  lock        : LockState := .off
  bankAFailed : Bool := false
  bankBFailed : Bool := false
  /-- ENG_LOCK.HEATER_OFFSET, 0.125 °C per unit. -/
  heaterOfs   : Int := 0
  /-- Frames since the last completed calibration slot; `none` before any (CAL_AGE reads 0xFFFF). -/
  calFrames   : Option Nat := none
  /-- The active bank is B (02, stage 6). -/
  activeB     : Bool := false
  bankA       : Bank := {}
  bankB       : Bank := {}
  /-- Range shift in force, changed at a bank swap (02 R69). -/
  h           : Nat := 0
  issues      : List Issue := []
  /-- Weight tiles that its stage streams from HBM, fetched ahead (08 R388). -/
  wbufs       : List WeightBuf := []
  /-- ADC clip counter (02 R70) and conversions that reached accumulators (13 R646). -/
  clips       : Nat := 0
  convs       : Nat := 0
  /-- It converts discarded data while it is out of service without an excursion (05 R263). -/
  discards    : Bool := false
  /-- A lock-loss event has started a check of its banks that has not ended (05 R264). -/
  checkDue    : Bool := false
  /-- Its quad's modulator row has lost lock: the relock uses tone checks (05 R258). -/
  toneRelock  : Bool := false
  /-- Probe symbols of its quad since its banks took the identity pattern (05 R254). -/
  probes      : Nat := 0
  /-- Coefficients that its calibration slot has staged (05 R278, R279). -/
  staged      : List (Coef × Int) := []
  /-- The frame whose boundary mapped it out (05 R276). -/
  outAt       : Nat := 0
  /-- What the rows under light have held: from a symbol, counted from frame 0, on; newest first, over one dwell of a monitor
  converter (06 R327). -/
  lit         : List (Nat × List BankRow) := []
  /-- Rows whose ADC is masked (02 R74, R94), and those that failed their last reference check (16 R724). -/
  masked      : List Nat := []
  refFailed   : List Nat := []
  relock      : Relock := {}
  /-- Frame to whose boundary a lock-loss event is dated that has not been acted on (05 R252, R261). -/
  lossEvent   : Option Nat := none
  /-- A first lock-loss event since the engine became HELD (05 R274). -/
  heldLoss    : Bool := false
  /-- A lock-loss event has been recorded since the last passing identity check (05 R267). -/
  lossSince   : Bool := false
  /-- Banks invalidated by a check: row, bank (05 R257). -/
  invalid     : List (Nat × Bool) := []
  /-- Banks whose last check was undecided, and banks whose last check followed an index search (05 R257, R775). -/
  undecided   : List (Nat × Bool) := []
  searched    : List (Nat × Bool) := []
  /-- Banks whose heater lies beyond headroom (05 R246). -/
  beyond      : List (Nat × Bool) := []
  /-- Relocks in succession restarted by the recovery run (05 R775). -/
  recovFails  : Nat := 0
  /-- Frame of the last passing identity check (05 R267). -/
  lastPass    : Nat := 0
  /-- Commands that used the engine since that check (05 R267). -/
  usedBy      : List Nat := []
  /-- The calibration slot's result is abandoned (05 R280) or in force. -/
  calibAbandoned : Bool := false
  /-- Ring trims hold values that RESTORE_FACTORY has replaced (05 R293). -/
  trimsStale  : Bool := false
  /-- Shadow run: conversions counted in the run and the sampled position (07 R374). -/
  runCount    : Nat := 0
  runPos      : Option Nat := none
  /-- Residual window: sum of squares, peak, samples (05 R296). -/
  sumSq       : Dy := Dy.zero
  peakAbs     : Dy := Dy.zero
  samples     : Nat := 0
  /-- ENG_RESID, 8.8 fixed point. -/
  residRms    : Nat := 0
  residPeak   : Nat := 0
  /-- LOSS_ENG (06). -/
  lossStage   : Nat := 0
  lossExcess  : Nat := 0
  lossIndex   : Nat := 0
  detMargin   : Int := 0
  /-- Group issue stopped by the comb comparator (16 R728). -/
  combStopped : Bool := false
  deriving DecidableEq, Repr

/-- A tile open in an engine's accumulator files (04 R182, R192, R200). -/
structure AccTile where
  engine : Nat
  base   : Nat
  slots  : Nat
  exact  : Bool
  b      : Int
  range  : Bool
  deriving DecidableEq, Repr

/-- A compute comb (02 R45 to R48, 05 R242 to R244). -/
structure Comb where
  /-- COMB_STATUS.STATE: 0 off, 1 starting, 2 tracking, 3 tracking at the faster rate. -/
  state     : Nat := 0
  dimmed    : Bool := false
  rangeEnd  : Bool := false
  /-- Frequency of L0 minus 228.00 THz, and the comb loop's correction in it, kHz (05 R242). -/
  gridKHz   : Int := 0
  corrKHz   : Int := 0
  /-- Line power last measured, 0.01 dBm (06 R331, R333). -/
  power     : Int := 0
  failed    : Bool := false
  /-- Failed starts (16 R724). -/
  startFails : Nat := 0
  bias      : Nat := 0
  alarm     : Bool := false
  atMax     : Bool := false
  lifeEst   : Nat := 0xFFFF
  /-- Of a link comb: line 3 is locked to the anchor, every line within ±2.5 GHz of its grid point (12 R562). -/
  anchored  : Bool := false
  /-- Of a link comb whose anchor light is lost: it holds its last lock, every line within ±10 GHz of its grid point (12 R562). -/
  holdsLock : Bool := false
  deriving DecidableEq, Repr

/-- What the device keeps of a sector: its temperatures and excursion (05 R268 to R272), power (15). -/
structure Sector where
  /-- Mean die temperature at each of the trailing boundaries, m°C, newest first (05 R268, 06 R319). -/
  means      : List Int := []
  /-- Consecutive boundaries whose rate estimate exceeded 6 °C/ms (05 R269). -/
  fastCount  : Nat := 0
  excursion  : Bool := false
  /-- Engines an excursion affects (05 R269, R272). -/
  affected   : List Nat := []
  hold       : Bool := false
  /-- Dusk ramps the sector's issue power down, or holds it down, in an excursion (05 R270). -/
  ramp       : Bool := false
  /-- Issue power allowed above Hold, mW, moved at the slew limit (05 R270, 15 R700). -/
  issueMw    : Nat := 127500
  fillMw     : Nat := 0
  /-- The limiter's throttle, mW: vector issue, fill, group issue (15 R698). -/
  thrVec     : Nat := 0
  thrFill    : Nat := 0
  thrIssue   : Nat := 0
  /-- Hottest diode, 0.125 °C per unit, and the thermal loop's throttle (15 R707). -/
  hot        : Nat := 0
  thermThrottle : Bool := false
  /-- The sector's share taken off by the thermal loop, mW (15 R707). -/
  thermMw    : Nat := 0
  /-- Length counter and lowest VCORE (15 SUPPLY_STAT). -/
  vcoreMv    : Nat := 0
  deriving DecidableEq, Repr

/-! ## Clusters (03, 04, 08) -/

/-- An activation tile buffer (08 R383 to R387): the tile, the reads still out, and the bytes that have landed. -/
structure TileBuf where
  job    : Nat
  stage  : Nat
  rerun  : Bool
  u      : Nat
  reads  : List Nat
  hostReads : List Nat
  cells  : Sparse Byte
  /-- What consuming the tile meets: descriptor role, element, status, page (08 R432, R435; 09 R449, R453). -/
  bad    : Option (Nat × Nat × Status × Nat) := none
  deriving DecidableEq, Repr

/-- The kinds of entries of a cluster sequencer's two queues: the first five are the Leader's (08 R380). -/
inductive SeqKind where
  | activationFetch | weightFetch | xferSegment | farandoleSend | peerReceive
  | bankLoad | groupIssue | bankSwap | polonaiseHop | drain | epilogueStore
  deriving DecidableEq, Repr

/-- An entry of a Leader or Follower queue: the command, the frame and the kind of work (08 R380; 01 R37). -/
structure SeqEntry where
  job   : Nat
  frame : Nat
  kind  : SeqKind
  deriving DecidableEq, Repr

/-- One entry of an activation table (04 R235). -/
structure ActEntry where
  xLo    : Word32
  slope  : Word32
  offset : Word32
  deriving DecidableEq, Repr

/-- One cluster: codebook slots (03 R111), activation tables (04 R235), the input clip counter (03 R124), the
tile buffers (08 R386). -/
structure Cluster where
  /-- Slot number and entries as stored Q4.11 integers; an absent slot is empty. -/
  codebooks : List (Nat × List Int) := []
  tables    : List (Nat × List ActEntry) := []
  inputClips : Nat := 0
  /-- The symbols that the quad's modulators have still to emit of the vector being streamed, the present one first: per line the
  level k and the DAC's width d (02 R52, R55). With none they emit full scale on every line (05 R251). -/
  emit      : List (List (Nat × Nat)) := []
  /-- Symbols emitted while an engine of the quad is under a vector check, newest first, at most 1,024 (05 R255). -/
  live      : List (List (Nat × Nat)) := []
  /-- Per line, what its emitted intensity has fallen short of full scale, summed over the present dwell of the cluster's monitor
  converter (06 R327). -/
  short     : List Dy := []
  /-- The chip index that the modulators emit in the quad's next probe symbol, below 64 (05 R254). -/
  chipT     : Nat := 0
  /-- Tone checks that the quad's modulator row has failed in succession (16 R724). -/
  modFails  : Nat := 0
  bufs      : List TileBuf := []
  /-- The sequencer's Leader and Follower queues (08 R380). -/
  leader    : List SeqEntry := []
  follower  : List SeqEntry := []
  deriving DecidableEq, Repr

/-- The active coefficients, or those of an image: what the factory blob gives, or the fuses alone, and every coefficient
that differs from that (05 R290 to R293). -/
structure CoefSet where
  blob : Bool := false
  vals : List (Coef × Int) := []
  deriving DecidableEq, Repr

/-- An image in a user calibration area (05 R291). -/
structure UserImage where
  devId   : Word32
  version : Nat
  crc     : Word32
  set     : CoefSet
  deriving DecidableEq, Repr

/-! ## Structures that commands carry (08, 10, 11) -/

/-- A transfer descriptor (08 R397). -/
structure TDesc where
  base   : Nat
  resume : Nat
  esize  : Nat
  ndim   : Nat
  mcast  : Bool
  counts : List Nat
  strides : List Int
  mask   : Nat
  /-- Any reserved field is nonzero. -/
  badRes : Bool
  deriving DecidableEq, Repr

/-- A part of a Polonaise chain (11 R532). -/
structure Part where
  mask  : Nat
  start : Nat
  len   : Nat
  peer  : Nat
  deriving DecidableEq, Repr

/-- A stage record with its extension and the descriptors they name, as admission copies them
(11 R525, R528, R770). -/
structure Stage where
  redLen : Nat
  vecB   : Nat
  accBase : Nat
  compactExp : Int
  inForm : Nat
  wForm  : Nat
  inStore : Nat
  g      : Nat
  h      : Nat
  rotate : Bool
  exact  : Bool
  add    : Bool
  drain  : Bool
  inCb   : Nat
  wCb    : Nat
  inScale : Nat
  outScale : Nat
  outType : Nat
  histDepth : Nat
  margin : Nat
  satLim : Nat
  uflLim : Nat
  mseLim : Nat
  biasEn : Bool
  eltOp  : Nat
  eltType : Nat
  act    : Nat
  arg    : Nat
  argAxis : Nat
  rescaleEn : Bool
  seed   : Word32
  chainId : Nat
  parts  : List Part
  rescaleOfs : Nat
  inDesc : Option TDesc
  wDesc  : Option TDesc
  outDesc : Option TDesc
  inMx   : Option TDesc
  outMx  : Option TDesc
  eltDesc : Option TDesc
  rerunW : Option TDesc
  rerunBuf : Option TDesc
  argDesc : Option TDesc
  deriving DecidableEq, Repr

/-- A phase record (10 R486). -/
structure Phase where
  minFrames : Nat
  stage     : Nat
  kind      : Nat
  arrayRow  : Nat
  engSlots  : Nat
  sramBytes : Nat
  accSlots  : Nat
  readGran  : List Nat
  writeGran : List Nat
  mesh      : List Nat
  linkMask  : Nat
  linkSlots : Nat
  farSymbols : Nat
  rustraBytes : Nat
  badRes    : Bool
  deriving DecidableEq, Repr

/-- A cost descriptor (10 R484). -/
structure Cost where
  version  : Nat
  cls      : Nat
  flags    : Nat
  main     : List Phase
  rerun    : List Phase
  alt      : List Phase
  slew     : Nat
  edge     : Nat
  mask     : Nat
  lsBytes  : Nat
  cycles   : Nat
  traffic  : Nat
  rate     : Nat
  badRes   : Bool
  deriving DecidableEq, Repr

/-- A phase placed on the calendar over `n` frames from `first` (10 R488), with its granules and thousandths of
tag-microseconds per stack (08 R393; 09 R445). -/
structure Placed where
  phase : Phase
  first : Nat
  n     : Nat
  rerun : Bool := false
  gran  : List Nat := []
  tag   : List Nat := []
  /-- The last frame that the phase still holds, when the frames after it went back to the calendar (03 R166). -/
  cut   : Option Nat := none
  deriving DecidableEq, Repr

/-- A wait of a command (11 R521, R537). -/
structure Wait where
  ctr : Nat
  val : Nat
  deriving DecidableEq, Repr

/-- The descriptor header (11 R521). -/
structure Header where
  opcode  : Nat
  cls     : Nat
  relaxed : Bool
  add     : Bool
  rerun   : Bool
  dlRel   : Bool
  notify  : Bool
  ctx     : Nat
  waits   : List Wait
  deadline : Nat
  costPtr : Nat
  sigEn   : Bool
  sigCtr  : Nat
  deriving DecidableEq, Repr

/-- One entry of a COLLECT list (11 R534) with its descriptor. -/
structure CollEntry where
  peer : Nat
  recv : Bool
  desc : TDesc
  deriving DecidableEq, Repr

/-- The body of a command, by kind (11 R533 to R537). -/
inductive Body where
  | none
  | xfer (src dst : TDesc)
  | stages (st : List Stage)
  | collect (collId : Nat) (entries : List CollEntry)
  | vkernel (image size entry arg threads : Nat) (excl : Bool) (cores : Nat)
  | acc (mem : TDesc) (base vecB form : Nat) (exact pair : Bool) (b : Int) (engines : Nat)
  | scaleLoad (target slot first count wmask : Nat) (src : TDesc) (clusters : Nat)
  | scaleRead (first count : Nat) (clear : Bool) (dst : TDesc) (clusters : Nat)
  | fence (kind : Nat)
  | signal (ctr : Nat) (reset : Bool) (value : Nat)
  | waitFrame (frame : Nat)
  | calibrate (save : Bool) (engines : Nat)
  | selftest (exclusive : Bool) (units engines : Nat)
  | query (item : Nat) (dst : TDesc)
  | cancel (sq : Nat) (posted : Bool) (seq : Nat)
  deriving DecidableEq, Repr

/-! ## Commands under way (10, 11) -/

/-- The quality flags of 11 R542. -/
structure Flags where
  lockExcursion : Bool := false
  saturation    : Bool := false
  mseHigh       : Bool := false
  range         : Bool := false
  supplyDip     : Bool := false
  residualHigh  : Bool := false
  remapped      : Bool := false
  holdover      : Bool := false
  staleScale    : Bool := false
  deriving DecidableEq, Repr

/-- Sections of an extended report (11 R543) as their bytes. -/
abbrev Report := List (List Byte)

/-- What one output channel of a step has gathered (03 R148, R155, R766). -/
structure ChanStat where
  /-- Largest |y|, FP32 bits, and the first y while the channel looks constant (03 R148). -/
  max   : Word32 := 0
  first : Option Word32 := none
  const : Bool := true
  sat   : Nat := 0
  ufl   : Nat := 0
  sq    : Word64 := 0
  n     : Nat := 0
  /-- The squared error of MX outputs, each divided by the square of its block's scale (03 R766). -/
  norm  : Word64 := 0
  /-- The SCALE that the channel's first conversion of the run used (03 R157; log 99). -/
  scale : Word32 := 0
  deriving DecidableEq, Repr

/-- A result that waits for its conversion: its output element, FP32 bits, whether normalisation saturated it (04 R230), and
the cluster whose entries its engine reads (03 R137). -/
structure KeptY where
  elem    : Nat
  y       : Word32
  big     : Bool
  cluster : Nat
  deriving DecidableEq, Repr

/-- A tile in progress on an engine for a stage (04, Accumulator slots and tiles in progress): the output channel of
each physical row, the activation tile, and the group terms its values have received. -/
structure TileRun where
  engine : Nat
  chans  : List (Option Nat)
  u      : Nat
  /-- The part of the Polonaise chain that computes it, 0 without a chain. -/
  part   : Nat := 0
  /-- Group issues so far, conversions that have arrived, and those that complete the tile's reduction here. -/
  issued : Nat := 0
  terms  : Nat := 0
  need   : Nat := 0
  /-- Its channels to which the running sum of the previous part has been added (04 R220). -/
  sums   : List Nat := []
  /-- Its running sum is on its way to a part on a peer (04 R222). -/
  sent   : Bool := false
  /-- The tile has drained, or its running sum has gone on to the next part. -/
  closed : Bool := false
  /-- The tile accumulates in the named range. Further tiles in progress (04 R201) stand in slots the manual does not name,
      and their values are kept apart (log 48). -/
  inFile : Bool := true
  /-- The sticky RANGE bit of a tile that stands elsewhere (04 R181, R195); that of the named range stands in `State.tiles`. -/
  range  : Bool := false
  deriving DecidableEq, Repr

/-- The progress of a stage (03, 04, 08): main run or re-run. -/
structure StageRun where
  stage   : Nat := 0
  rerun   : Bool := false
  /-- The stage has begun. -/
  started : Bool := false
  /-- Per cluster: the activation tile being issued and the next one to fetch (08 R384). -/
  cur     : Sparse Nat := []
  nextFetch : Sparse Nat := []
  /-- Per cluster: the next activation tile to fetch for the stage after this one (08 R418). -/
  ahead   : Sparse Nat := []
  /-- W_DESC elements that a weight port has taken (08 R432). -/
  wGot    : List Nat := []
  tiles   : List TileRun := []
  /-- Output elements drained, and elements of the rows a stage keeps. -/
  drained : Nat := 0
  stats   : Sparse ChanStat := []
  /-- Winners of max or min with index: position, value, index (04 R232). -/
  winners : Sparse (Option (Word32 × Nat)) := []
  /-- Frame in which the last tile drained (03 R164). -/
  drainFrame : Option Nat := none
  /-- Values of the named range before the first term, kept when ADD is set and a re-run is reserved, and the values of
      slot ranges other than the named one, by output element: those of a re-run (03 R167) and of exact tiles in units of
      2⁻¹⁴⁸, those of compact tiles as windows. -/
  saved   : Sparse Int := []
  values  : Sparse Int := []
  /-- FP32 results by output element that wait for conversion: of the re-run until its narrow outputs are rewritten
      (03 R167), of MX outputs until their blocks are whole (R147). -/
  ys      : List KeptY := []
  /-- The constant vector κ of a group has been formed on a cluster (03 R133): cluster, group. -/
  kappa   : List (Nat × Nat) := []
  deriving DecidableEq, Repr

/-- Where an accepted command stands. -/
inductive Phase' where
  /-- Accepted, not started. -/
  | planned
  /-- Its first frame has begun. -/
  | running
  /-- Its work has ended with this status; the record is still to be written (10 R481). -/
  | finished (st : Status)
  /-- Its final record is written (11 R505). -/
  | written (st : Status) (frame : Nat)
  deriving DecidableEq, Repr

/-- A command that Noon has accepted (10 R490). -/
structure Job where
  id       : Nat
  session  : Nat
  sq       : Nat
  /-- The completion queue in which its entries are reserved (11 R510, R515). -/
  cq       : Nat := 0
  posted   : Bool
  seq      : Nat
  hdr      : Header
  body     : Body
  cost     : Option Cost
  /-- Decision frame a, absolute deadline, and the placement (10 R488 to R494). -/
  decided  : Nat
  deadline : Nat
  placed   : List Placed
  first    : Nat
  last     : Nat
  guardEnd : Nat
  phase    : Phase' := .planned
  flags    : Flags := {}
  reran    : Bool := false
  faultOfs : Nat := 0
  faultStage : Nat := 0
  report   : Report := []
  /-- Bytes that have come from HBM and from the host aperture, by device address, and pages whose access failed (08 R390,
      R430, R431; 12 R609; 14 R671). -/
  staged   : Sparse (Option Byte) := []
  hostBad  : List Nat := []
  run      : StageRun := {}
  /-- Generators that SR_SEED has loaded for this command (04 R199): 64 × engine + row; 16384 + cluster for export. -/
  seeded   : List Nat := []
  /-- Elements that the segments of an XFER have delivered (08 R380, R426). -/
  progress : Nat := 0
  /-- Statistics of the stages that have ended (11 R543, section 0x000B). -/
  stageStats : List (List Byte) := []
  /-- The frame in which a re-run or the next stage begins (03 R164; 08 R417). -/
  handover : Option Nat := none
  /-- CANCEL names it: the CANCEL's job (08 R421); E has passed. -/
  cancelBy : Option Nat := none
  stopped  : Bool := false
  /-- COLLECT: bytes acknowledged per send entry and written per receive entry: entry, first, last. -/
  acked    : List (Nat × Nat × Nat) := []
  got      : List (Nat × Nat × Nat) := []
  /-- Residual samples of the command per engine: engine, sum of squares, peak, count (05 R297). -/
  resid    : List (Nat × Dy × Dy × Nat) := []
  /-- Symbol, counted from frame 0, at which its latest conversion arrived (15 R713). -/
  lastConv : Option Nat := none
  /-- Residual figures before and after, per engine (05 R283). -/
  calib    : List (Nat × Nat × Nat × Nat × Nat) := []
  calSlots : List Nat := []
  /-- The active set as it stood at the boundary after the last named slot (05 R284). -/
  saveSet  : Option CoefSet := none
  /-- The hardware threads that an Elastic kernel has reserved, in the order of s1 (07 R342, R367). -/
  threadIds : List Nat := []
  /-- QUERY's snapshot (11 R538) waits for the next boundary. -/
  snapshot : Option (List Byte) := none
  /-- The boundary at which a fault of its own lets the record be written has come (10 R500). -/
  endDue   : Bool := false
  /-- Its session has ended since, and the number may belong to another (14 R668). -/
  past     : Bool := false
  /-- The boundary from which link slots that a lost lane held have moved, and its data may use the width guard (12 R591). -/
  guardFrom : Option Nat := none
  deriving DecidableEq, Repr

/-! ## Queues, sessions and the host (11, 12, 13, 14) -/

/-- A submission queue (11 R506, R511 to R519). -/
structure Sq where
  base    : Nat := 0
  enable  : Bool := false
  log2    : Nat := 0
  cq      : Nat := 0
  seq     : Nat := 0
  tail    : Nat := 0
  posted  : Nat := 0
  qfull   : Bool := false
  dbErr   : Bool := false
  /-- The doorbell value the endpoint has latched and Noon has not applied (11 R514). -/
  latched : Option Nat := none
  deriving DecidableEq, Repr

/-- A completion queue (11 R507, R508, R515, R520). -/
structure Cq where
  base     : Nat := 0
  enable   : Bool := false
  notify   : Bool := false
  log2     : Nat := 0
  t        : Nat := 0
  head     : Nat := 0
  reserved : Nat := 0
  /-- Records were written in the present frame (11 R520). -/
  wrote    : Bool := false
  deriving DecidableEq, Repr

/-- A posted descriptor that Noon has not yet decided (07 R360, R365). -/
structure Posted where
  session : Nat
  sq      : Nat
  handle  : Nat
  thread  : Nat
  kernel  : Nat
  desc    : List Byte
  deriving DecidableEq, Repr

/-- A session (14 R665 to R672). -/
structure Session where
  port     : Nat
  iface    : Nat
  features : Word64
  sqs      : List Nat
  cqs      : List Nat
  ctrBase  : Nat
  ctrCount : Nat
  table    : Nat
  key      : Word64
  graceMs  : Nat
  reaperS  : Nat
  /-- Heartbeat lost (14 R670), grace ended, closing (14 R668; the request's tag when a CLOSE waits). -/
  lost     : Bool := false
  grace    : Bool := false
  closing  : Option (Option Msg) := none
  deriving DecidableEq, Repr

/-- What each session, and the I3C sideband as session 0, has of its own (13 R622). -/
structure Window where
  sel      : Nat := 0
  valid    : Bool := false
  badSel   : Bool := false
  snap     : BitVec 128 := 0
  snapSel  : Nat := 0
  /-- A snapshot has been started and is not yet ready (13 R643). -/
  busySel  : Option Nat := none
  /-- The pending value of a complement pair: which guarded register (1 to 3) and the value (13 R629). -/
  pair     : Option (Nat × Word32) := none
  pageCluster : Nat := 0
  page     : Nat := 0
  pageSnap : List (BitVec 512) := []
  deriving DecidableEq, Repr

/-- An outstanding host-aperture access (12 R605, R609): what its answer is for. -/
inductive HaUse where
  /-- Bytes that a command reads: the job, their address and how many. -/
  | feed (job address size : Nat)
  /-- Bytes for a tile buffer: the job, the cluster, the aperture address they come from. -/
  | tile (job cluster u : Nat) (address : Nat)
  /-- A load of a vector core thread: the kernel's job, the thread, the load's number, and the lane and bytes it fills. -/
  | load (job thread n : Nat) (lane : Nat) (skip size : Nat)
  /-- A write: the job it belongs to, and the thread when a kernel makes it. -/
  | write (job : Nat) (thread : Option Nat)
  deriving DecidableEq, Repr

/-- An outstanding HA_READ or HA_WRITE. -/
structure HaReq where
  tag     : Nat
  session : Nat
  page    : Nat
  /-- Bytes of the answer before the ones asked for: a request begins at a multiple of 4 (12 R605). -/
  lead    : Nat := 0
  use     : HaUse
  /-- The message waits for credits of the control node (12 R608). -/
  held    : Bool := false
  /-- What the message asks: the control-node address, and the bytes asked for or carried (12 R605). -/
  host    : Nat := 0
  size    : Nat := 0
  data    : List Byte := []
  deriving DecidableEq, Repr

/-- What a granule read is for (08 R390). -/
inductive ReadUse where
  /-- An activation tile: one copy per sector, with the clusters that the sector's fabric delivers it to (08 R409). -/
  | tile (copies : List (Nat × List Nat))
  /-- A weight tile for an engine (08 R388). -/
  | weight (engine : Nat)
  /-- Bytes that the command reads: address and length of each run within the granule. -/
  | feed (parts : List (Nat × Nat))
  /-- A load of a vector core thread: the thread, the load's number, and the runs of bytes that it takes. -/
  | load (thread n : Nat) (parts : List (Nat × Nat))
  /-- The image of a kernel that starts (07 R344). -/
  | image
  deriving DecidableEq, Repr

/-- A granule read that holds a memory read tag (08 R390). -/
structure ReadReq where
  id      : Nat
  stack   : Nat
  address : Nat
  job     : Nat
  use     : ReadUse
  deriving DecidableEq, Repr

/-- A Farandole send under way (08 R413, R414). -/
structure Far where
  id    : Nat
  job   : Nat
  at'   : Nat
  left  : List Nat
  bytes : List Byte
  dst   : Nat
  deriving DecidableEq, Repr

/-- What the device sends: messages, frames and sideband bytes, oldest first. -/
inductive Out where
  | regResp (m : Msg) (status : Nat) (data : Word32)
  | memResp (m : Msg) (status : Nat) (data : List Byte)
  | heartbeatResp (m : Msg) (status : Nat) (frame : Nat) (frameStatus : Word32)
  | event (session kind : Nat) (data : Word32) (frame : Nat)
  /-- A SESSION answer: OP with 0x80 added, RESULT, and the bytes from byte 2 on (14 R664). -/
  | session (m : Msg) (op status result : Nat) (payload : List Byte)
  | notice (session stage core result frame : Nat)
  | haRead (session tag address len : Nat)
  | haWrite (session tag address : Nat) (data : List Byte)
  | slotFrame (f : SlotFrame)
  | probe (lane : Nat)
  | i3c (bytes : List Byte)
  | i3cIbi (byte : Byte)
  | replay (port seq : Nat)
  deriving DecidableEq, Repr

/-! ## Vector cores (07) -/

/-- What a thread is doing (07 R339). -/
inductive ThreadState where
  /-- No kernel's thread. -/
  | idle
  | ready
  | barT
  | barK
  /-- A wait of EPOST, EWAIT or EVWAIT that the next attempt tests again. -/
  | waiting
  | ended
  deriving DecidableEq, Repr

/-- What a returning load writes: lanes of a vector register or a scalar register. -/
inductive LoadDest where
  | vec (vd : Nat) (lanes : List (Option Word64))
  | scalar (sd : Nat) (value : Word64)
  deriving DecidableEq, Repr

/-- A load that a thread has issued and that has not returned (07 R339, R346). -/
structure LoadOut where
  /-- Its number among the loads of the thread. -/
  n    : Nat
  dest : LoadDest
  /-- Answers that it still waits for, from HBM and the host aperture. -/
  waits : Nat
  deriving DecidableEq, Repr

/-- One hardware thread (07 R340, R342). -/
structure Thread where
  st     : ThreadState := .idle
  kernel : Nat := 0
  pc     : Nat := 0
  s      : Sparse Word64 := []
  v      : Sparse Word64 := []
  p      : Sparse (BitVec 32) := []
  fpstat : BitVec 5 := 0
  /-- Its outstanding loads, oldest first, and the number of the next one. -/
  loads  : List LoadOut := []
  nextLoad : Nat := 0
  progress : Option Nat := none
  deriving DecidableEq, Repr

/-- A posted command a kernel holds a handle for (07 R360 to R363). -/
structure Handle where
  handle : Nat
  /-- Admission result and, once known, the job. -/
  result : Option Status
  job    : Option Nat
  /-- Completion status and flags word. -/
  done   : Option (Status × Flags)
  deriving DecidableEq, Repr

/-- A counted request of a kernel, which can wait for the next frame (07 R346, R369). -/
inductive KernelReq where
  /-- A granule for a thread's load: the load's number and the runs of bytes that it takes. -/
  | granule (thread n address : Nat) (parts : List (Nat × Nat))
  /-- A granule of the kernel's image. -/
  | image (address : Nat)
  /-- Bytes of the host aperture for a lane of a thread's load. -/
  | hostRead (thread n lane sub address size : Nat)
  /-- Bytes for HBM. -/
  | store (thread address : Nat) (bytes : List Byte)
  /-- Bytes for the host aperture. -/
  | hostStore (thread address : Nat) (bytes : List Byte)
  deriving DecidableEq, Repr

/-- A kernel (07 R343 to R371): the command's job number and its cores, threads and budgets. -/
structure Kernel where
  job     : Nat
  session : Nat
  cores   : List Nat
  threads : Nat
  /-- The hardware threads that run it, in the order of s1 (07 R342). -/
  ids     : List Nat := []
  image   : Nat
  size    : Nat
  entry   : Nat
  arg     : Nat
  lsBytes : Nat
  start   : Nat
  cycles  : Nat
  budget  : Nat
  rate    : Nat
  /-- Its image is on its way to the windows of its cores (07 R344). -/
  copying : Bool := false
  started : Bool := false
  traffic : Nat := 0
  inFrame : Nat := 0
  /-- Counted requests that wait for the next frame, oldest first, each with the bytes it counts (07 R369). -/
  late    : List (KernelReq × Nat) := []
  handles : List Handle := []
  nextHandle : Nat := 0
  refused : Nat := 0
  refusedPc : Nat := 0
  deriving DecidableEq, Repr

/-! ## Converters, tones, links, firmware, power (06, 12, 14, 15) -/

/-- A slew limiter channel (06, SLEW_CHAN). -/
structure Slew where
  target  : Nat := 0
  present : Nat := 0
  stepMax : Nat := 0x40
  div     : Nat := 0
  deriving DecidableEq, Repr

/-- A tone oscillator (06 TONE_OSC). PHASE moves with the oscillator clock: `phase` is its value at cycle `since`. -/
structure ToneOsc where
  inc    : Nat := 0
  phase  : Nat := 0
  amp    : Nat := 0
  ofs    : Nat := 0
  enable : Bool := false
  since  : Nat := 0
  deriving DecidableEq, Repr

/-- A monitor converter (06 R311 to R325). -/
structure Monitor where
  input   : Nat := 0
  order   : Nat := 0
  dwell   : Bool := false
  selfcal : Bool := false
  failed  : Bool := false
  decim16 : Nat := 0
  engine  : Nat := 0
  /-- Latest corrected result of each input, by input + 256 × engine, and what R327 supplies with it: of a modulator tap the
  line's shortfall of full scale, of a row its optical load, summed over the symbols of the dwell. -/
  results : Sparse (Int × Dy) := []
  offset  : Int := 0
  gain    : Int := 0
  /-- Position in the scan list, whether the centre diode is next, and outputs still to discard (06 R314, R316). -/
  scanPos : Nat := 0
  centreNext : Bool := true
  skip    : Nat := 0
  /-- The scan list has come round since the loss locator last ran on it (06 R328). -/
  cycled  : Bool := false
  /-- Self-calibration: the input under way (0 internal zero, 1 VREF_EXT copy, 2 bandgap, 3 all measured), outputs summed, their
  count, the sums of zero and VREF_EXT, and the bandgap's output (06 R321). -/
  calStep : Nat := 0
  calSum  : Int := 0
  calN    : Nat := 0
  calZero : Int := 0
  calRef  : Int := 0
  calGap  : Int := 0
  /-- Latest centre diode sample in m°C, and its value at the last self-calibration (06 R319, R322). -/
  centre  : Option Int := none
  calTemp : Option Int := none
  deriving DecidableEq, Repr

/-- A lane in both directions (12, LANE_STATE; 05, LANE_EYE, LANE_BER; 06, LOSS_LANE). Index 258 is the anchor. -/
structure Lane where
  tx      : Nat := 0
  rx      : Nat := 0
  txLine  : Nat := 0
  rxLine  : Nat := 0
  rxPower : Int := -32768
  width   : Nat := 0
  height  : Nat := 0
  ber     : Word32 := 0x3F800000
  lossStage : Nat := 0
  lossExcess : Nat := 0
  /-- Consecutive failed trainings (12 R590), and the lines on which the transmit and the receive lane have trained, whose equaliser
  states are stored (12 R571, R592). -/
  fails   : Nat := 0
  txLines : List Nat := []
  rxLines : List Nat := []
  /-- Receive power at the last successful training (06 R328), 0.01 dBm. -/
  trainedPower : Int := 0
  /-- The transmit lane, and the receive lane, retunes in slots 0 and 1 of this frame (12 R571). -/
  retune  : Option Nat := none
  rxRetune : Option Nat := none
  /-- No link slot of the transmit lane, and of the receive lane, is planned before this frame (12 R571). -/
  noSlotsUntil : Nat := 0
  noRxUntil : Nat := 0
  /-- The last slot that the transmit lane has carried, counted from frame 0 and from 1, and the relayed and own frames in planned slots
  of the present frame (12 R574, R576, R577). -/
  slotDone : Nat := 0
  relayUsed : Nat := 0
  ownUsed : Nat := 0
  /-- Transmit in service; a Rustra lane's BOND bit and control node identity (12 R602). -/
  bond    : Bool := false
  node    : Nat := 0
  bytesSent : Nat := 0
  bytesRecv : Nat := 0
  deriving DecidableEq, Repr

/-- A lane's entry in a wavelength plan's link record (12 R567). -/
structure PlanLane where
  txLine : Nat
  txEn   : Bool
  txPeer : Nat
  rxLine : Nat
  rxEn   : Bool
  rxPeer : Nat
  relay  : Nat
  deriving DecidableEq, Repr

/-- A peer record (12 R568). -/
structure PlanPeer where
  fa    : Nat
  relay : Option Nat
  valid : Bool
  uid   : Word64
  deriving DecidableEq, Repr

/-- A wavelength plan (12 R566). -/
structure Plan where
  lanes : List PlanLane
  peers : List PlanPeer
  deriving DecidableEq, Repr

/-- A peer context's state (12 R573): sequence counts of sent and received frames. -/
structure PeerCtx where
  sent : Nat := 0
  recv : Nat := 0
  /-- Consecutive boundaries with no lane and no relay route (12 R585). -/
  unreachable : Nat := 0
  deriving DecidableEq, Repr

/-- A slot frame waiting for a link slot (12 R579): the peer context it is for. -/
structure TxFrame where
  peer   : Nat
  kind   : Nat
  job    : Nat
  entry  : Nat
  ident  : Nat
  offset : Nat
  data   : List Byte
  /-- It has gone out and waits for its acknowledgement (12 R582). -/
  sent   : Bool := false
  /-- It has gone out before, and is to go out again (12 R582). -/
  resent : Bool := false
  deriving DecidableEq, Repr

/-- A frame that waits for a relay slot: the transmit lane, and the symbol, counted from frame 0, of its arrival (12 R576,
R577). -/
structure Relayed where
  lane  : Nat
  at'   : Nat
  frame : SlotFrame
  deriving DecidableEq, Repr

/-- A Rustra port's link layer (12 R608, R609). -/
structure LinkLayer where
  credReq  : Nat := 128
  credData : Nat := 2048
  hostReq  : Nat := 0
  hostData : Nat := 0
  nextSeq  : Nat := 0
  /-- First message not acknowledged; those from here are kept for replay. -/
  firstUnacked : Nat := 0
  deriving DecidableEq, Repr

/-- A connector (12 R597 to R600): its indicator (0 off, 1 slow blink, 2 steady, 3 fast blink) and attention cycle. -/
structure Connector where
  ind    : Nat := 0
  attn   : Bool := false
  frameP : Nat := 0
  /-- Its receive lanes are dark, and the symbol, counted from frame 0, at which the last of them became so (12 R600). -/
  dark   : Bool := false
  darkAt : Nat := 0
  /-- Its receive lanes have seen light again, and not all lanes are in service yet (12 R600). -/
  replugged : Bool := false
  deriving DecidableEq, Repr

/-- The link block (12). -/
structure LinkSt where
  fabricAddr : Word32 := 0
  planAddr   : Nat := 0
  planAt     : Nat := 0
  /-- PLAN_STATUS.ARMED: 0 none, 1 validating, 2 armed, 3 rejected. -/
  armed      : Nat := 0
  err        : Nat := 0
  armedPlan  : Option Plan := none
  armedAt    : Nat := 0
  active     : Option Plan := none
  activations : Nat := 0
  lanes      : Sparse Lane := []
  peers      : Sparse PeerCtx := []
  conns      : Sparse Connector := []
  ports      : Sparse LinkLayer := []
  bonded     : Bool := false
  crcErr     : Nat := 0
  tx         : List TxFrame := []
  relays     : List Relayed := []
  /-- Rustra lanes that have trained since the port's mode was last decided (12 R602). -/
  retrained  : List Nat := []
  /-- Link combs locked to the anchor (12 R562), their bias and alarms (06 R331 to R333). -/
  linkCombs  : Sparse Comb := []
  deriving DecidableEq, Repr

/-- A firmware processor (14 R654, R673 to R679). -/
structure ProcSt where
  /-- Running and RESUMED: its duties are performed. -/
  up       : Bool := false
  /-- Halted over the debug OPs (14 R676). -/
  halted   : Bool := false
  /-- Runs the image of the slot: false A, true B (14 R656, R678). -/
  slotB    : Bool := false
  /-- Words of its memory that debug has written since it halted (14 R676). -/
  words    : List (Nat × Word32) := []
  /-- Expiries within the last 60 s (14 R674). -/
  expiries : Nat := 0
  deriving DecidableEq, Repr

/-- A firmware package as its manifest states it (14 R657), and the measurement hashes of its images. -/
structure Manifest where
  keyIndex : Nat
  svn      : Nat
  fwVersion : Word32
  ifaceLow : Nat
  intercore : Nat
  hoRead   : Nat
  hoWrite  : Nat
  features : Word64
  hash     : List Byte
  cores    : List (List Byte)
  deriving DecidableEq, Repr

/-- A live update under way (14 R677 to R682). -/
inductive Update where
  | none
  /-- STAGE accepted: the session that asked. -/
  | staging (session address size : Nat)
  /-- ACTIVATE held for the emergency latch (14 R681). -/
  | held (m : Msg) (slotB : Bool)
  /-- Sequence: target slot, processors switched in order, the one whose switch is next or under way. -/
  | running (session : Nat) (slotB : Bool) (w : Nat) (switched : List Proc) (inSwitch : Option Proc)
  /-- The old image is coming back: the processors still to switch back, newest first, one a boundary; the processor that
  failed, when one did, the result, the switch boundary, and the first frame in which the next may go back (14 R679, R681). -/
  | rollback (session : Nat) (back : List Proc) (culprit : Option Proc) (result w at' : Nat)
  deriving DecidableEq, Repr

/-- Firmware, boot and flash (14). -/
structure FwSt where
  dawn     : ProcSt := {}
  noon     : ProcSt := {}
  dusk     : ProcSt := {}
  twilight : ProcSt := {}
  /-- Boot flash bytes (14 R656). -/
  flash    : Sparse Byte := []
  /-- The two boot records: slot B named, SVN, CRC valid. -/
  records  : List (Bool × Nat × Bool) := [(false, 0, true), (false, 0, true)]
  svnFuses : Nat := 0
  booted   : Bool := false
  recovery : Bool := false
  /-- SESSION OPEN is accepted (14 R659, R661). -/
  ready    : Bool := false
  running  : Option Manifest := none
  /-- Slots staged since the last boot, with their manifests (14 R682). -/
  staged   : List (Bool × Manifest) := []
  unconfirmed : Bool := false
  /-- CONFIRM waits for Dawn's writes (14 R680). -/
  confirming : Option Msg := none
  update   : Update := .none
  measurements : List (List Byte) := []
  /-- Block writes of recovery mode: bytes written so far (17 R758). -/
  blockNext : Nat := 0
  factoryOk : Bool := false
  deriving DecidableEq, Repr

/-- Calibration and quality (05). -/
structure CalSt where
  userLoaded : Bool := false
  rotating   : Bool := false
  /-- Rotation resumes at the first boundary of a frame divisible by 16 (05 R281, R282). -/
  resumeDue  : Bool := false
  saveBusy   : Bool := false
  /-- The SAVE job whose write is in progress (05 R284). -/
  saveJob    : Option Nat := none
  restoreJob : Option Nat := none
  sweeps     : Nat := 0
  lossCount  : Nat := 0
  wrongLine  : Nat := 0
  excursions : Nat := 0
  rmsLim     : Nat := 0x0100
  peakLim    : Nat := 0x0800
  /-- User calibration areas, and the one that was written last (05 R291). -/
  areas      : List (Option UserImage) := [none, none]
  newest     : Nat := 0
  /-- The active coefficient set (05 R279, R292, R293). -/
  active     : CoefSet := {}
  log2N      : Nat := 0x10
  sampleEn   : Bool := true
  /-- SAMPLE_EN was 0 in a frame of the present residual window (07 R379). -/
  windowCut  : Bool := false
  /-- A SHADOW_CTRL write waits for the boundary (07 R378). -/
  shadowNext : Option (Nat × Bool) := none
  /-- Exclusive SELFTEST in progress (05 R286). -/
  selftest   : Bool := false
  /-- Ageing record: powered hours and the biases of combs 0 to 11 (06 R334), newest first. -/
  ageing     : List (Nat × List Nat) := []
  /-- Frames since the newest ageing record (13 R646, POWERED_SECONDS). -/
  sinceRecord : Nat := 0
  deriving DecidableEq, Repr

/-- The power state (15 R685, R720); Hold is a matter of the sectors (R686). -/
inductive PwrState where
  | run | doze | retain | off | entering | resuming | tripped
  deriving DecidableEq, Repr

/-- Power, heat and supply (15), and what Midnight holds (13, 16, 17). -/
structure PowerSt where
  state      : PwrState := .run
  target     : Nat := 0
  retainMask : BitVec 16 := 0xFFFF
  /-- A wake event latched during Retain entry (15 R692), and the rail wait of 17 R743. -/
  wakeLatched : Bool := false
  railWait   : Bool := false
  cap        : Nat := 0x118
  tripC      : Nat := 0x73
  /-- LASER_ENABLE bits [16:0]. -/
  laser      : BitVec 17 := 0x1FFFF
  measured   : Nat := 0
  capInForce : Nat := 0x118
  /-- The cap written before the last lowering and the commands accepted before it (15 R695). -/
  oldJobs    : Nat := 0
  forced     : Bool := false
  limiting   : Bool := false
  emergency  : Bool := false
  /-- Conditions that hold the emergency latch (15 R709, R715). -/
  thermHold  : Bool := false
  dipHold    : Bool := false
  /-- New group issue is held from a dip's assertion until the reference check after it (15 R712). -/
  issueHeld  : Bool := false
  /-- Package energy since cold reset, in units of 0.1 mJ (13 R646). -/
  energy     : Nat := 0
  throttleC  : Nat := 0x64
  /-- A dip is in progress, has ended with its reference check still to come, and the sector that it began in. -/
  dip        : Bool := false
  dipEnded   : Bool := false
  dipSector  : Nat := 0
  dipCount   : Nat := 0
  lastDipUs  : Nat := 0
  /-- Frame of the last dip, for the rule of one in any 10 ms (15 R714). -/
  lastDip    : Option Nat := none
  selfRefresh : Bool := false
  floors     : List Nat := [0, 0, 0, 0]
  /-- The floors of the plan (15 R706): from a frame on, each sector's target level in power units, oldest first. -/
  floorPlan  : List (Nat × List Nat) := []
  /-- Powered domains, by group of 17 R750 (1 to 9). -/
  domains    : List Nat := []
  /-- Retention domains that were kept in the last Retain (09 R461). -/
  kept       : BitVec 16 := 0xFFFF
  lock       : BitVec 5 := 0
  violations : Nat := 0
  lockLast   : Nat := 0
  assetTag   : Word32 := 0
  assetSet   : Bool := false
  guardFail  : Nat := 0
  guardLast  : Nat := 0
  cause      : Nat := 0
  causeDie   : Nat := 0
  resets     : Nat := 0
  /-- REFCLK is lost and the warm reset is held (15 R717). -/
  refclkLost : Bool := false
  /-- Conditions that assert ALERT_N (17 R753): recovery, processors, trip, VREF_EXT. -/
  alertProc  : List Proc := []
  alertVref  : Bool := false
  alert      : Bool := false
  deriving DecidableEq, Repr

/-- Configuration integrity (13 R638 to R642). -/
structure CfgSt where
  crc        : Word32 := 0
  ref        : Word32 := 0
  armed      : Bool := false
  mismatch   : Bool := false
  suspended  : Bool := false
  mismatches : Nat := 0
  lastBad    : Bool := false
  commitDue  : Bool := false
  suspendDue : Bool := false
  deriving DecidableEq, Repr

/-- The sideband (17 R754 to R759). -/
structure SideSt where
  dynAddr : Option (BitVec 7) := none
  ibi     : Bool := false
  status  : Nat := 0
  data    : Word32 := 0
  deriving DecidableEq, Repr

/-- An entry of the error log (16 R733). -/
structure LogEntry where
  index  : Nat
  code   : Nat
  cls    : Nat
  kind   : Nat
  frame  : Nat
  unit   : Nat
  aux    : Nat
  detail : Nat
  deriving DecidableEq, Repr

/-- An entry of the crash record (16 R735). -/
structure CrashEntry where
  frame  : Nat
  kind   : Nat
  unit   : Nat
  pc     : Nat
  detail : Nat
  deriving DecidableEq, Repr

/-- Records that outlive commands: the error log and the crash record (16 R732, R735). -/
structure LogSt where
  next      : Nat := 1
  entries   : List LogEntry := []
  crash     : List CrashEntry := []
  crashCount : Nat := 0
  /-- Crash entries already copied into the error log (16 R736). -/
  copied    : Nat := 0
  lastReset : Nat := 0
  deriving DecidableEq, Repr

/-! ## The state -/

structure State where
  frame    : FrameSt := {}
  /-- HBM and cluster SRAM, by device address (09 R438). -/
  mem      : Sparse Byte := []
  /-- Poisoned 64 B blocks, by block number (09 R449). -/
  poison   : List Nat := []
  /-- Errors that no read has found: a 64 B block's number, and whether the error is uncorrectable (09 R448, R449, R452). -/
  latent   : List (Nat × Bool) := []
  /-- Accumulator slots with an uncorrectable error, by key (09 R452). -/
  accBad   : List Nat := []
  /-- Stacks failed, and stacks whose region the last cold reset mapped over the other two (09 R453). -/
  stackBad : List Nat := []
  remapped : List Nat := []
  /-- Corrected blocks and scrub position per stack (09 R448, R451). -/
  corrected : Sparse Nat := []
  scrubPos : Sparse Nat := []
  clusters : Sparse Cluster := []
  /-- Scale entries, key 4,096 × cluster + entry (03 R136, R139). -/
  scales   : Sparse (BitVec 512) := []
  /-- Accumulator slots, key (64 × engine + row) × 640 + slot (04 R215); `none` where nothing has been written since the
      contents were lost. -/
  acc      : Sparse (Option Word64) := []
  /-- Pending carries of the exact values, by the key of a value's first slot: of its twenty segments, signed, each counted at
      the place above its segment (04 R186 to R188). `acc` holds the plain values, which every read returns (R190). -/
  carries  : Sparse (List Int) := []
  /-- Verification runs of two exact tiles that have used all the accumulator slots of an engine (04 R202): the model's own
      count, by which the free values that they leave in the slots are told apart (log 98). -/
  accRuns  : Sparse Nat := []
  /-- Times that the accumulators have lost their contents: the model's own field, by which the free values of unwritten
      slots are told apart (log 98). -/
  accLost  : Nat := 0
  tiles    : List AccTile := []
  /-- By engine × 640 + first slot, the activation tile and the channels on its rows whose values a slot range holds (08 R436). -/
  accHolds : Sparse (Nat × List (Option Nat)) := []
  /-- Generators of the row files, key 64 × engine + row, and of the export paths, key 16,384 + cluster (04 R197). One
      that is not listed stands where the entropy source left it at reset number `epoch` (04 R198; log 6). -/
  gens     : Sparse (BitVec 128) := []
  /-- Resets so far: the model's own field, by which the entropy source's free values are told apart (log 6). -/
  epoch    : Nat := 0
  engines  : Sparse Engine := []
  combs    : Sparse Comb := []
  sectors  : Sparse Sector := []
  /-- Units mapped out, and units declared failed that the next boundary maps out (16 R722, R724). -/
  mapped   : List Unit' := []
  failing  : List (Unit' × Nat) := []
  jobs     : List Job := []
  nextJob  : Nat := 0
  admitted : Nat := 0
  rejected : Nat := 0
  sqs      : Sparse Sq := []
  cqs      : Sparse Cq := []
  rrNext   : Nat := 0
  counters : Sparse Nat := []
  posted   : List Posted := []
  sessions : Sparse (Option Session) := []
  windows  : Sparse Window := []
  /-- The registers of the lock and calibration block as Twilight last refreshed them, by offset, each with its reset value
  XORed off (05 R300). -/
  shown    : Sparse Word32 := []
  /-- Stale copies of the hardware registers, by offset, and the refresh number (13 R647). -/
  copies   : Sparse Word32 := []
  refresh  : Nat := 0
  reads    : List ReadReq := []
  nextRead : Nat := 0
  ha       : List HaReq := []
  nextTag  : Nat := 0
  far      : List Far := []
  /-- For each Farandole hop, by its place in the ring, the symbol from which it is free (08 R412, R415). -/
  farFree  : Sparse Nat := []
  nextFar  : Nat := 0
  threads  : Sparse Thread := []
  kernels  : List Kernel := []
  /-- Local store windows, key (job × 256 + core) × 512 Ki + local byte (07 R343 to R345); what nothing has written
      is undefined. -/
  locals   : Sparse (Option Byte) := []
  slews    : Sparse Slew := []
  /-- Lock-point centres of the heaters, by limiter channel; 0 before a bank has passed an identity check (05 R246). -/
  centres  : Sparse Nat := []
  /-- Oscillator cycles since cold reset, and the tone oscillators, by the limiter channel of their heater (06 R308 to R310). -/
  oscCycles : Nat := 0
  tones    : Sparse ToneOsc := []
  /-- What the lock detectors have multiplied over the trailing 4,096 oscillator cycles, nonzero products with their cycle: of
  row 64 × engine + row, and of the modulator row of a quad at 16384 + quad (05 R249). -/
  detect   : Sparse (List (Nat × Int)) := []
  monitors : Sparse Monitor := []
  link     : LinkSt := {}
  fw       : FwSt := {}
  cal      : CalSt := {}
  power    : PowerSt := {}
  cfg      : CfgSt := {}
  side     : SideSt := {}
  log      : LogSt := {}
  /-- What the device has sent, oldest first. -/
  out      : List Out := []
  /-- Counter of free values: the model's own field (log 5). -/
  free     : Nat := 0
  /-- Commands waiting, first in, first out: the model's own field. -/
  pending  : List Instr := []
  deriving DecidableEq, Repr

/-- The device right after power-on or cold reset, before the hub die is released: every field at the value its
field table gives, every memory with nothing written, nothing acquired, no session (log 1, log 3). -/
def State.reset : State := {}

/-! ## Stops -/

/-- Faults of the machine. There is none: every refused access, failed unit and reset of this device is a value in
a record, an answer, a register or a log, and the device goes on (log 4). -/
inductive Fault where
  deriving DecidableEq, Repr

/-- Refusals. -/
inductive Refusal where
  /-- Raised by an arm of `exec` whose command has no meaning yet. Safe: the model stops. -/
  | notModelled (mnemonic : String)
  deriving DecidableEq, Repr

end Sys2Proof.Machine
end

