-- ==== Sys2Proof/Machine/Sparse.lean ====
section
/-! DEFINITION. Sparse stores: reading, writing and their canonical form. Memory (09 R438) is one of them. -/

namespace Sys2Proof.Machine

/-- What a sparse store holds at a key; a key it does not list holds the default. -/
def Sparse.get {α : Type} (dflt : α) : Sparse α → Nat → α
  | [], _ => dflt
  | (k, v) :: rest, key => if k = key then v else Sparse.get dflt rest key

/-- Put an entry at its place in the order of keys, over an entry of the same key. -/
def Sparse.put {α : Type} : Sparse α → Nat → α → Sparse α
  | [], key, val => [(key, val)]
  | (k, v) :: rest, key, val =>
    if key < k then (key, val) :: (k, v) :: rest
    else if key = k then (key, val) :: rest
    else (k, v) :: Sparse.put rest key val

/-- Write a value at a key; writing the default removes the entry. -/
def Sparse.set {α : Type} [DecidableEq α] (dflt : α) (m : Sparse α) (key : Nat) (val : α) : Sparse α :=
  if val = dflt then m.filter fun kv => kv.1 != key else m.put key val

/-- Change the value at a key. -/
def Sparse.modify {α : Type} [DecidableEq α] (dflt : α) (m : Sparse α) (key : Nat) (f : α → α) : Sparse α :=
  m.set dflt key (f (m.get dflt key))

/-- Drop every entry whose key fails the test: those keys read as the default. -/
def Sparse.keep {α : Type} (p : Nat → Bool) (m : Sparse α) : Sparse α :=
  m.filter fun kv => p kv.1

/-- Every key is above `lo`, keys rise, and no value is the default. -/
def Sparse.wfFrom {α : Type} [DecidableEq α] (dflt : α) : Nat → Sparse α → Bool
  | _, [] => true
  | lo, (k, v) :: rest => decide (lo ≤ k) && decide (v ≠ dflt) && Sparse.wfFrom dflt (k + 1) rest

/-- The canonical form: keys strictly rising, no entry equal to the default. -/
def Sparse.wf {α : Type} [DecidableEq α] (dflt : α) (m : Sparse α) : Bool :=
  m.wfFrom dflt 0

/-- The canonical form of memory (09 R438). -/
def Memory.wf (m : Sparse Byte) : Bool := m.wf Config.memDefault

end Sys2Proof.Machine
end

