-- ==== Sys2Proof/Machine/AccFile.lean ====
section
/-! DEFINITION. The accumulator files at rest (04 R185 to R190, R207, R215): slots, exact values, and the pending carries of their redundant form. -/

namespace Sys2Proof.Machine

/-- The key of a slot of a row of an engine (04 R215). -/
def accKey (e row slot : Nat) : Nat := (64 * e + row) * 640 + slot

/-- The slot of a key; undefined where nothing has been written since the contents were lost (04 R202, R207). -/
def State.slotAt (s : State) (k : Nat) : Word64 :=
  (s.acc.get none k).getD (Config.accWord s.accLost (s.accRuns.get 0 (k / 40960)) k)
/-- One accumulator slot of a row of an engine. -/
def State.accSlot (s : State) (e row slot : Nat) : Word64 := s.slotAt (accKey e row slot)

/-- The 320 bits of the exact value whose first slot has this key (04 R186). -/
def State.exactBits (s : State) (k : Nat) : Nat := (List.range 5).foldr (fun i n => (s.slotAt (k + i)).toNat + 2 ^ 64 * n) 0
/-- The exact value of five slots, in units of 2⁻¹⁴⁸ (04 R185, R186). -/
def State.exactAt (s : State) (e row slot : Nat) : Int := sext (s.exactBits (accKey e row slot)) 320

/-! ## The redundant form (04 R186 to R188)

A value's 320 bits are those of its segments and what its pending carries add to them. The state holds the plain value,
which every read returns (R190), and the carries; the segments follow from the two. -/

/-- A value in redundant form: its twenty 16-bit segments as one number, and the pending carry beside each segment. -/
structure Redundant where
  segs  : Nat
  carry : List Int
  deriving DecidableEq, Repr

/-- What pending carries stand for: each counts at the place above its segment. -/
def carriesValue (l : List Int) : Int :=
  ((List.range 20).map fun j => nth l j 0 * (2 ^ (16 * (j + 1)) : Nat)).foldl (· + ·) 0
/-- The plain 320 bits of a redundant form: every pending carry resolved (04 R189). -/
def Redundant.plain (x : Redundant) : Nat := toBits (x.segs + carriesValue x.carry) 320
/-- The redundant form of plain bits with these carries pending. -/
def Redundant.of (plain : Nat) (l : List Int) : Redundant :=
  { segs := toBits ((plain : Int) - carriesValue l) 320, carry := (List.range 20).map fun j => nth l j 0 }

/-- Add to the carry of a segment; what leaves the top segment is lost (04 R184). -/
def Redundant.push (x : Redundant) (j : Nat) (c : Int) : Redundant :=
  { x with carry := (List.range 20).map fun i => nth x.carry i 0 + if i = j then c else 0 }

/-- A piece of at most 16 magnitude bits at bit `p` adds into the two segments that its bits cover; a carry or borrow out of
the upper one goes into that segment's pending-carry field (04 R187). -/
def Redundant.addPiece (neg : Bool) (x : Redundant) (piece : Nat × Nat) : Redundant :=
  let j := piece.1 / 16
  let m : Int := (piece.2 * 2 ^ (piece.1 % 16) : Nat)
  let v := (bits x.segs (16 * j) 32 : Int) + (if neg then -m else m)
  { x with segs := setBits x.segs (16 * j) 32 (toBits v 32) % 2 ^ 320 }.push (j + 1) (v / (2 ^ 32 : Nat))

/-- The pieces of a magnitude: 16 bits each from its lowest set bit on, with their places (04 R187; log 138). -/
def addendPieces (n : Nat) : List (Nat × Nat) :=
  let p := ((List.range 320).find? (bit n)).getD 0
  ((List.range 20).map fun k => (p + 16 * k, bits n (p + 16 * k) 16)).filter fun x => x.2 != 0

/-- One symbol without an add: each pending carry moves into the next segment, and what leaves that segment is its new
pending carry (04 R188). -/
def Redundant.settle (x : Redundant) : Redundant :=
  (List.range 20).foldr (fun j (y : Redundant) =>
    let c := nth x.carry j 0
    if c = 0 ∨ 20 ≤ j + 1 then y else
    let v := (bits x.segs (16 * (j + 1)) 16 : Int) + c
    { y with segs := setBits y.segs (16 * (j + 1)) 16 (toBits v 16) }.push (j + 1) (v / (2 ^ 16 : Nat)))
    { x with carry := (List.range 20).map fun _ => 0 }

/-- The redundant form of the exact value whose first slot has this key. -/
def State.redundant (s : State) (k : Nat) : Redundant := Redundant.of (s.exactBits k) (s.carries.get [] k)

/-- The pending carries as the state lists them: none listed where none is pending. -/
def listed (l : List Int) : List Int := if l.all (· == 0) then [] else l

/-- The files move their pending carries on by one segment (04 R188). -/
def State.settleCarries (s : State) : State :=
  { s with carries := (s.carries.map fun (x : Nat × List Int) => (x.1, listed (s.redundant x.1).settle.carry)).filter fun x => !x.2.isEmpty }

end Sys2Proof.Machine
end

