-- ==== Sys2Proof/Machine/Ops.lean ====
section
/-! DEFINITION. The named operations over the state that every meaning uses: time, free values, memory, jobs, sessions, the logs and what the device sends. -/

namespace Sys2Proof.Machine

/-- The outcome of a command. -/
abbrev Res := Host.Outcome State Fault Refusal

/-- A command takes effect: the next state. -/
def ok (s : State) : Res := .next s

/-- The state with another queue of waiting commands. -/
def State.withPending (s : State) (l : List Instr) : State := { s with pending := l }

/-! ## Free values -/

/-- A fresh free number, and the state whose counter has moved on (log 5). -/
def takeNat (s : State) : Nat × State := (Config.freeNat s.free, { s with free := s.free + 1 })

/-! ## The address space (09 R438 to R441, R453) -/

/-- The spaces of a device address. -/
inductive Space where
  | hbm | sram (cluster : Nat) | acc | scales | aperture | reserved
  deriving DecidableEq, Repr

/-- The sector region of an HBM address (09 R440). -/
def regionOf (a : Nat) : Nat := a / 0x003000000000

/-- The stacks that hold a region: three, or the two that are left after a cold reset found one failed (09 R453). -/
def stacksOf (remapped : List Nat) (k : Nat) : List Nat :=
  match [3 * k, 3 * k + 1, 3 * k + 2].filter (fun n => !remapped.contains n) with
  | [a, b] => [a, b]
  | [a] => [a]
  | _ => [3 * k, 3 * k + 1, 3 * k + 2]

/-- Bytes of region `k` that are not reserved: all of it, or the first 128 GiB of a remapped one (09 R453). -/
def regionSize (remapped : List Nat) (k : Nat) : Nat := (stacksOf remapped k).length * 0x001000000000

/-- The stack on which the granule of an HBM address lies (09 R441, R453). -/
def stackAt (remapped : List Nat) (a : Nat) : Nat :=
  let st := stacksOf remapped (regionOf a)
  nth st (a % 0x003000000000 / Config.granuleBytes % st.length) 0

/-- Of an HBM address, the granule's number on its stack. -/
def stackGranule (remapped : List Nat) (a : Nat) : Nat :=
  a % 0x003000000000 / Config.granuleBytes / (stacksOf remapped (regionOf a)).length
/-- The channel of its stack and the granule index within it (09 R441). -/
def channelAt (remapped : List Nat) (a : Nat) : Nat × Nat :=
  let q := stackGranule remapped a
  ((q % 32) ^^^ (q / 32 % 32), q / 32)

/-- The space an address lies in (09 R438); a region's end that the remap takes away is reserved (09 R453). -/
def spaceAt (remapped : List Nat) (a : Nat) : Space :=
  if a < 0x00C000000000 then
    if a % 0x003000000000 < regionSize remapped (regionOf a) then .hbm else .reserved
  else if 0x100000000000 ≤ a ∧ a < 0x100040000000 then .sram ((a - 0x100000000000) / 0x1000000)
  else if 0x110000000000 ≤ a ∧ a < 0x110005000000 then .acc
  else if 0x120000000000 ≤ a ∧ a < 0x120001000000 then .scales
  else if 0x800000000000 ≤ a ∧ a < 0x1000000000000 then .aperture
  else .reserved

/-- The bank of its cluster's SRAM, one of 64 of 256 KiB each, that holds the line of an SRAM address: bits [11:6] of the
offset within the cluster (09 R454). -/
def sramBank (a : Nat) : Nat := a % 0x1000000 / 64 % 64

/-- The space of an address on this device. -/
def State.space (s : State) (a : Nat) : Space := spaceAt s.remapped a

/-- The address lies in HBM. -/
def State.isHbm (s : State) (a : Nat) : Bool := s.space a == .hbm

/-- The address lies in some cluster's SRAM. -/
def State.isSram (s : State) (a : Nat) : Bool :=
  match s.space a with
  | .sram _ => true
  | _ => false

/-- The granule of an HBM address lies on a failed stack (09 R453). -/
def State.onBadStack (s : State) (a : Nat) : Bool :=
  s.isHbm a && s.stackBad.contains (stackAt s.remapped a)

/-- A stack is out of service: it has failed, or the last cold reset found it failed (09 R453). -/
def State.stackOut (s : State) (n : Nat) : Bool := s.stackBad.contains n || s.remapped.contains n
/-- The number of stacks in service. -/
def State.stacksUp (s : State) : Nat := ((List.range 12).filter fun n => !s.stackOut n).length

/-- The address lies in the SRAM of a mapped-out cluster (16 R725). -/
def State.onBadCluster (s : State) (a : Nat) : Bool :=
  match s.space a with
  | .sram c => s.mapped.any fun u => match u with | .sram n _ => n == c | _ => false
  | _ => false

/-- A read of the 64 B block of an address is uncorrectable: it is poisoned, or will be by the read that finds the error in it (09 R449,
R450). -/
def State.poisoned (s : State) (a : Nat) : Bool := s.poison.contains (a / 64) || s.latent.contains (a / 64, true)
/-- The first block of a range of which a read is uncorrectable. -/
def State.badBlock (s : State) (a n : Nat) : Option Nat :=
  ((List.range ((a + n - 1) / 64 - a / 64 + 1)).map fun i => (a / 64 + i) * 64).find? s.poisoned
/-- Some block of a range cannot be read. -/
def State.anyPoison (s : State) (a n : Nat) : Bool := (s.badBlock a n).isSome

/-- One byte of HBM or SRAM. -/
def State.byte (s : State) (a : Nat) : Byte := s.mem.get Config.memDefault a

/-- Scale entry `e` of cluster `n` (03 R136). -/
def State.scale (s : State) (n e : Nat) : BitVec 512 := s.scales.get 0 (4096 * n + e)

/-- One byte as an agent that reaches every readable space finds it: HBM, SRAM, or a scale entry's byte (03 R136,
R140). Bytes of no such space read as zero here; no caller reads them. -/
def State.anyByte (s : State) (a : Nat) : Byte :=
  match s.space a with
  | .scales =>
    let o := a - 0x120000000000
    BitVec.ofNat 8 ((s.scales.get 0 (o / 64)).toNat / 2 ^ (8 * (o % 64)))
  | _ => s.byte a

/-- `n` bytes from an address. -/
def State.bytes (s : State) (a : Nat) : Nat → List Byte
  | 0 => []
  | n + 1 => s.anyByte a :: s.bytes (a + 1) n

/-- The little-endian number of `n` bytes at an address. -/
def State.word (s : State) (a n : Nat) : Nat := ofLe (s.bytes a n)

/-- Memory with bytes written from an address on. -/
def writeMem (m : Sparse Byte) (a : Nat) : List Byte → Sparse Byte
  | [] => m
  | b :: bs => writeMem (m.set Config.memDefault a b) (a + 1) bs

/-- The poisoned blocks after a write of `n` bytes at `a`: a block the write covers whole is poisoned no longer
(09 R450). -/
def clearPoison (p : List Nat) (a n : Nat) : List Nat :=
  p.filter fun k => !(decide (a ≤ 64 * k) && decide (64 * k + 64 ≤ a + n))

/-- Write bytes to HBM or SRAM; a write to a failed stack is discarded (09 R450, R453). The caller writes inside one
granule. -/
def State.write (s : State) (a : Nat) (bs : List Byte) : State :=
  if s.onBadStack a then s
  else { s with mem := writeMem s.mem a bs, poison := clearPoison s.poison a bs.length,
                latent := s.latent.filter fun x => (clearPoison [x.1] a bs.length).contains x.1 }

/-- Write bytes across granules, each granule by its own write (08 R392; 09 R453). `fuel` bounds the granules. -/
def State.writeLong (s : State) (a : Nat) (bs : List Byte) : Nat → State
  | 0 => s
  | fuel + 1 => if bs.isEmpty then s else
    let n := Config.granuleBytes - a % Config.granuleBytes
    (s.write a (bs.take n)).writeLong (a + n) (bs.drop n) fuel
/-- Write bytes wherever they fall. -/
def State.writeAll (s : State) (a : Nat) (bs : List Byte) : State := s.writeLong a bs (bs.length / Config.granuleBytes + 2)

/-- Mark the block of an address poisoned (09 R449). -/
def State.poisonAt (s : State) (a : Nat) : State := { s with poison := insertNat (a / 64) s.poison }

/-- Forget every byte whose address fails the test: those memories are undefined, and read as nothing written
(09 R460; log 2). -/
def State.keepMem (s : State) (p : Nat → Bool) : State :=
  { s with mem := s.mem.keep p, poison := s.poison.filter fun k => p (64 * k), latent := s.latent.filter fun k => p (64 * k.1) }

/-- The sector of an engine or of a vector core by device index. -/
def sectorOfEngine (e : Nat) : Nat := e / 64

/-- The comb that feeds an engine. -/
def combOfEngine (e : Nat) : Nat := e / 32

/-! ## Units by index -/

/-- Engine `e`. -/
def State.engine (s : State) (e : Nat) : Engine := s.engines.get {} e
/-- Change engine `e`. -/
def State.modEngine (s : State) (e : Nat) (f : Engine → Engine) : State :=
  { s with engines := s.engines.modify {} e f }
/-- Cluster `c`. -/
def State.cluster (s : State) (c : Nat) : Cluster := s.clusters.get {} c
/-- Change cluster `c`. -/
def State.modCluster (s : State) (c : Nat) (f : Cluster → Cluster) : State :=
  { s with clusters := s.clusters.modify {} c f }
/-- Compute comb `c`. -/
def State.comb (s : State) (c : Nat) : Comb := s.combs.get {} c
/-- Change compute comb `c`. -/
def State.modComb (s : State) (c : Nat) (f : Comb → Comb) : State :=
  { s with combs := s.combs.modify {} c f }
/-- Sector `k`. -/
def State.sector (s : State) (k : Nat) : Sector := s.sectors.get {} k
/-- Change sector `k`. -/
def State.modSector (s : State) (k : Nat) (f : Sector → Sector) : State :=
  { s with sectors := s.sectors.modify {} k f }
/-- Lane `i`, as for LANE_EYE. -/
def State.lane (s : State) (i : Nat) : Lane := s.link.lanes.get {} i
/-- Change lane `i`. -/
def State.modLane (s : State) (i : Nat) (f : Lane → Lane) : State :=
  { s with link := { s.link with lanes := s.link.lanes.modify {} i f } }
/-- Thread `t` (8 × device core index + T number). -/
def State.thread (s : State) (t : Nat) : Thread := s.threads.get {} t
/-- Change thread `t`. -/
def State.modThread (s : State) (t : Nat) (f : Thread → Thread) : State :=
  { s with threads := s.threads.modify {} t f }
/-- Submission queue `q`. -/
def State.sq (s : State) (q : Nat) : Sq := s.sqs.get {} q
/-- Change submission queue `q`. -/
def State.modSq (s : State) (q : Nat) (f : Sq → Sq) : State := { s with sqs := s.sqs.modify {} q f }
/-- Completion queue `c`. -/
def State.cq (s : State) (c : Nat) : Cq := s.cqs.get {} c
/-- Change completion queue `c`. -/
def State.modCq (s : State) (c : Nat) (f : Cq → Cq) : State := { s with cqs := s.cqs.modify {} c f }
/-- Session `n`, when open. -/
def State.session (s : State) (n : Nat) : Option Session := s.sessions.get none n
/-- Change session `n` when it is open. -/
def State.modSession (s : State) (n : Nat) (f : Session → Session) : State :=
  { s with sessions := s.sessions.modify none n (Option.map f) }
/-- What session `n` has of its own in the register window; the sideband is session 0 (13 R622). -/
def State.window (s : State) (n : Nat) : Window := s.windows.get {} n
/-- Change the window of session `n`. -/
def State.modWindow (s : State) (n : Nat) (f : Window → Window) : State :=
  { s with windows := s.windows.modify {} n f }
/-- A firmware processor. -/
def State.proc (s : State) : Proc → ProcSt
  | .dawn => s.fw.dawn
  | .noon => s.fw.noon
  | .dusk => s.fw.dusk
  | .twilight => s.fw.twilight
/-- Change a firmware processor. -/
def State.modProc (s : State) (p : Proc) (f : ProcSt → ProcSt) : State :=
  match p with
  | .dawn => { s with fw := { s.fw with dawn := f s.fw.dawn } }
  | .noon => { s with fw := { s.fw with noon := f s.fw.noon } }
  | .dusk => { s with fw := { s.fw with dusk := f s.fw.dusk } }
  | .twilight => { s with fw := { s.fw with twilight := f s.fw.twilight } }
/-- A processor runs: up and not halted over the debug OPs (14 R676). -/
def State.runs (s : State) (p : Proc) : Bool := (s.proc p).up && !(s.proc p).halted
/-- Join fields: low bit, width, value. -/
def packFields (l : List (Nat × Nat × Nat)) : Nat := sumNat (l.map fun x => x.2.2 % 2 ^ x.2.1 * 2 ^ x.1)
/-- LANE_EYE (05, its field table). -/
def Lane.eyeWord (l : Lane) : Nat := packFields [(0, 16, l.width), (16, 16, l.height)]
/-- LANE_BER: 1.0 while the receive lane is not trained (05, its field table). -/
def Lane.shownBer (l : Lane) : Word32 := if l.rx = 3 then l.ber else 0x3F800000
/-- ENG_RESID (05, its field table). -/
def Engine.residWord (x : Engine) : Nat := packFields [(0, 16, x.residRms), (16, 16, x.residPeak)]
/-- What a register that Noon or Twilight refreshes reads before the first refresh: the reset values of the field tables. -/
def shownReset (o : Nat) : Nat :=
  if 0x20100 ≤ o ∧ o < 0x20500 then 0xFFFF0000
  else if 0x21800 ≤ o ∧ o < 0x21C08 then 0x3F800000
  else if 0x22900 ≤ o ∧ o < 0x22930 then 0xFFFF0000
  else if 0x6400 ≤ o ∧ o < 0x680C then 0x80000000
  else 0
/-- The figures of a window appear at the boundary that ends it (05 R296): Twilight refreshes their register. -/
def State.showReg (s : State) (o v : Nat) : State :=
  if s.runs .twilight then { s with shown := s.shown.set 0 o (BitVec.ofNat 32 (v ^^^ shownReset o)) } else s
/-- The number of a processor (16 R733). -/
def procIndex : Proc → Nat
  | .dawn => 0
  | .noon => 1
  | .dusk => 2
  | .twilight => 3

/-! ## Commands under way -/

/-- The accepted command with this admission number. -/
def State.job? (s : State) (id : Nat) : Option Job := s.jobs.find? fun j => j.id == id
/-- Change the accepted command with this number. -/
def State.modJob (s : State) (id : Nat) (f : Job → Job) : State :=
  { s with jobs := mapIf (fun j => j.id == id) f s.jobs }
/-- The command's work has not ended. -/
def Job.live (j : Job) : Bool :=
  match j.phase with
  | .planned | .running => true
  | _ => false
/-- The command has no final record yet. -/
def Job.open' (j : Job) : Bool :=
  match j.phase with
  | .written _ _ => false
  | _ => true
/-- The place of a completion status in the table of 11 R541: of several, the record carries the highest. -/
def Status.rank : Status → Nat
  | .unitFailed => 10
  | .dataUncorrectable => 9
  | .translationFault => 8
  | .peerUnreachable => 7
  | .cancelled => 6
  | .budgetExhausted => 5
  | .lateEnvelope => 4
  | .doneRerun => 3
  | .doneFlagged => 2
  | _ => 1
/-- Frames may disagree with the anchor's while a command executes: LOCAL frames, or realignment or a pending step after a
holdover of more than 1 s (10 R477). -/
def FrameSt.unsure (f : FrameSt) : Bool :=
  f.source == .localFrames || (f.over1s && (f.source == .realigning || f.stepPending || f.stepRequested))
/-- A command executes from here on; HOLDOVER marks it where frames are unsure (10 R477). -/
def Job.execute (j : Job) (f : FrameSt) : Job :=
  { j with phase := .running, flags := { j.flags with holdover := j.flags.holdover || f.unsure } }
/-- The work of a command ends with a status; of several causes before the record, the highest counts (11 R541). -/
def Job.finish (j : Job) (st : Status) : Job :=
  match j.phase with
  | .planned | .running => { j with phase := .finished st }
  | .finished old => { j with phase := .finished (if old.rank < st.rank then st else old) }
  | .written _ _ => j
/-- The work of command `id` ends with a status. -/
def State.finishJob (s : State) (id : Nat) (st : Status) : State := s.modJob id fun j => j.finish st
/-- Set flags of every command that satisfies a test and has no final record. -/
def State.flagJobs (s : State) (p : Job → Bool) (f : Flags → Flags) : State :=
  { s with jobs := mapIf (fun j => j.open' && p j) (fun j => { j with flags := f j.flags }) s.jobs }

/-! ## What the device sends, the event counters and the logs -/

/-- The numbers of the open sessions. -/
def State.openSessions (s : State) : List Nat :=
  (s.sessions.filter fun kv => kv.2.isSome).map (·.1)
/-- The Rustra port of a session, 0 when it is not open. -/
def State.sessionPort (s : State) (n : Nat) : Nat :=
  match s.session n with
  | some ss => ss.port
  | none => 0
/-- The Rustra port on which an item goes out; a bonded port is port 0 (12 R767). -/
def State.outPort (s : State) (o : Out) : Option Nat :=
  let at' := fun (p : Nat) => some (if s.link.bonded then 0 else p)
  match o with
  | .regResp m _ _ | .memResp m _ _ | .heartbeatResp m _ _ _ | .session m _ _ _ _ => at' m.port
  | .event n _ _ _ | .notice n _ _ _ _ | .haRead n _ _ _ | .haWrite n _ _ _ => at' (s.sessionPort n)
  | _ => none
/-- Send one item; the link layer of a Rustra port numbers its messages with 12 bits (12 R609). -/
def State.send (s : State) (o : Out) : State :=
  let s := { s with out := s.out ++ [o] }
  match s.outPort o with
  | some p => { s with link := { s.link with ports := s.link.ports.modify {} p fun l => { l with nextSeq := (l.nextSeq + 1) % 4096 } } }
  | none => s
/-- Send an EVENT to every open session (12 R610; log 14). -/
def State.event (s : State) (kind : Nat) (data : Word32) : State :=
  s.openSessions.foldl (fun s n => s.send (.event n kind data s.frame.counter)) s
/-- Raise an event counter, which sticks at 0xFFFF_FFFF (11 R545). -/
def State.raise (s : State) (ctr n : Nat) : State :=
  { s with counters := s.counters.modify 0 ctr fun v => if v + n ≤ 0xFFFFFFFF then v + n else 0xFFFFFFFF }
/-- Event counter `ctr`. -/
def State.counter (s : State) (ctr : Nat) : Nat := s.counters.get 0 ctr

/-- Write one entry into the error log, overwriting the entry of its slot, and send EVENT kind 5 (16 R732, R733;
12 R610). -/
def State.logError (s : State) (code cls kind unit aux detail : Nat) : State :=
  let i := s.log.next
  let e : LogEntry := { index := i, code := code, cls := cls, kind := kind, frame := s.frame.counter,
                        unit := unit, aux := aux, detail := detail }
  let s := { s with log := { s.log with next := i + 1,
                                        entries := (s.log.entries.filter fun (x : LogEntry) => x.index % 2048 != i % 2048) ++ [e] } }
  s.event 5 (BitVec.ofNat 32 i)

/-- A read has found that a block is uncorrectable: it is poisoned (09 R449). -/
def State.foundBad (s : State) (a : Nat) : State :=
  ({ s with latent := s.latent.filter fun x => x != (a / 64, true) }).poisonAt a
/-- The unit of an error log entry for a memory block: its stack, or the cluster of its SRAM or scale entry (16 R733). -/
def State.memUnit (s : State) (a : Nat) : Nat × Nat :=
  match s.space a with
  | .sram c => (6, c)
  | .scales => (6, (a - 0x120000000000) / 0x40000)
  | _ => (7, stackAt s.remapped a)
/-- A read finds the error of a block: a correctable one is written back, and in HBM counted; an uncorrectable one poisons the block and is
logged (09 R448, R449, R452; 16 R734). -/
def State.foundError (s : State) (x : Nat × Bool) : State :=
  let a := 64 * x.1
  let u := s.memUnit a
  if x.2 then (s.foundBad a).logError 0x0200 3 u.1 u.2 1 a
  else
    let s := { s with latent := s.latent.filter fun y => y != x }
    if s.isHbm a then { s with corrected := s.corrected.modify 0 u.2 fun n => n + 1 } else s
/-- A read of a range finds the errors in it (09 R448, R449). -/
def State.findIn (s : State) (a n : Nat) : State :=
  (s.latent.filter fun x => decide (a / 64 ≤ x.1) && decide (x.1 ≤ (a + n - 1) / 64) && !s.onBadStack (64 * x.1)).foldl State.foundError s
/-- A read of a range finds the correctable errors in it (09 R448). -/
def State.findSoft (s : State) (a n : Nat) : State :=
  (s.latent.filter fun x => !x.2 && decide (a / 64 ≤ x.1) && decide (x.1 ≤ (a + n - 1) / 64)).foldl State.foundError s
/-- No error that is still to be found lies in a range. -/
def State.quietAt (s : State) (a n : Nat) : Bool :=
  s.latent.all fun x => !(decide (a / 64 ≤ x.1) && decide (x.1 ≤ (a + n - 1) / 64))

/-- Write one entry into the crash record, the newest over the oldest of 126 (16 R735). -/
def State.logCrash (s : State) (kind unit pc detail : Nat) : State :=
  let e : CrashEntry := { frame := s.frame.counter, kind := kind, unit := unit, pc := pc, detail := detail }
  let l := s.log.crash ++ [e]
  { s with log := { s.log with crash := l.drop (l.length - 126), crashCount := (s.log.crashCount + 1) % 2 ^ 32 } }

/-- The 32 bytes of an error log entry (16 R733). -/
def logEntryBytes (e : LogEntry) : List Byte :=
  leBytes 4 e.index ++ leBytes 2 e.code ++ leBytes 1 e.cls ++ leBytes 1 e.kind ++ leBytes 8 e.frame ++
    leBytes 4 e.unit ++ leBytes 4 e.aux ++ leBytes 8 e.detail

/-- The 32 bytes of a crash record entry (16 R735). -/
def crashEntryBytes (e : CrashEntry) : List Byte :=
  leBytes 8 e.frame ++ leBytes 1 e.kind ++ leBytes 1 e.unit ++ leBytes 2 0 ++ leBytes 4 e.pc ++
    leBytes 8 e.detail ++ leBytes 8 0

/-- Do an update for every element of a list, in order. -/
def forEach {α : Type} (l : List α) (f : State → α → State) (s : State) : State := l.foldl f s

end Sys2Proof.Machine
end

