-- ==== Sys2Proof/Machine/Coefs.lean ====
section
/-! DEFINITION. Calibration coefficients (02 R55, R60; 05 R279, R290 to R293), what the modulators and the active banks show the monitors (05 R251; 06 R327), and the passing of a symbol. -/

namespace Sys2Proof.Machine

/-! ## Coefficients (05 R279, R290, R292) -/

/-- The range of the converter that a coefficient sets (06 R301); a TIA offset has no converter of its own. -/
def coefClamp (c : Coef) (v : Int) : Int :=
  match c with
  | .tiaOffset _ => v
  | .tiaGain _ => clampInt (-2048) 2047 v
  | .adcOffset _ => clampInt (-128) 127 v
  | .adcGain _ => clampInt (-512) 511 v
  | .trim _ _ => clampInt 0 65535 v
  | .weight _ _ => clampInt 0 255 v
  | .input _ _ d _ => clampInt 0 (2 ^ d - 1) v
  | .modBias _ _ => clampInt 0 4095 v
/-- A coefficient of a set, within its converter's range. -/
def CoefSet.get (x : CoefSet) (c : Coef) : Int :=
  coefClamp c (match x.vals.find? fun v => v.1 == c with
    | some v => v.2
    | none => Config.factoryCoef x.blob c)
/-- A set with one coefficient replaced. -/
def CoefSet.put (x : CoefSet) (v : Coef × Int) : CoefSet := { x with vals := x.vals.filter (fun y => y.1 != v.1) ++ [v] }
/-- A set with several coefficients replaced. -/
def CoefSet.puts (x : CoefSet) (l : List (Coef × Int)) : CoefSet := l.foldl CoefSet.put x

/-- The engine of a coefficient; of the quad's coefficients, its first engine. -/
def coefEngine : Coef → Nat
  | .tiaOffset r | .tiaGain r | .adcOffset r | .adcGain r => r / 64
  | .trim b _ | .weight b _ => b / 128
  | .input q _ _ _ | .modBias q _ => 4 * q
/-- A ring trim. -/
def coefIsTrim : Coef → Bool
  | .trim _ _ => true
  | _ => false
/-- The slot of an engine sets the coefficient: its own, or its quad's (05 R279). -/
def coefSetBy (c : Coef) (e : Nat) : Bool :=
  match c with
  | .input _ _ _ _ | .modBias _ _ => coefEngine c == 4 * (e / 4)
  | _ => coefEngine c == e
/-- The first frame of a slot after which the coefficient can be staged, by the steps of 05 R278. -/
def coefStagedFrom : Coef → Nat
  | .tiaOffset _ | .adcOffset _ => 1
  | .trim _ _ => 1
  | .weight b _ => if b % 2 = 0 then 2 else 7
  | .tiaGain _ | .adcGain _ => 12
  | .input _ _ _ _ | .modBias _ _ => 14

/-- The drive of a modulator that emits level `k` of a `d`-bit DAC on a line (02 R55). -/
def State.drive (s : State) (quad line d k : Nat) : Int := s.cal.active.get (.input quad line d k)
/-- The number of a bank, and the limiter channel of its heater: bank A or B of a row (log 43). -/
def heaterChan (e row : Nat) (isB : Bool) : Nat := 2 * (64 * e + row) + b2n isB
/-- A dyadic number in lowest terms. -/
def Dy.lowest (a : Dy) : Dy :=
  if a.m = 0 then Dy.zero else
  let k := ((List.range (a.m.natAbs.log2 + 1)).find? fun i => a.m.natAbs.testBit i).getD 0
  ⟨a.m / (2 ^ k : Nat), a.e + k⟩
/-- The 8-bit weight DAC level of a normalised weight in a bank (02 R59, R60). -/
def State.weightLevel (s : State) (bank : Nat) (w : Dy) : Nat := (s.cal.active.get (.weight bank (Dy.lowest w))).toNat

/-! ## User calibration images (05 R291, R292) -/

/-- The CRC-32C of an image (05 R291). -/
def CoefSet.crc (x : CoefSet) : Word32 := BitVec.ofNat 32 (crc32c (Config.imageBytes x.blob x.vals))
/-- The image of a user calibration area is valid: its CRC-32C, its DEV_ID and its format version match (05 R291). -/
def UserImage.valid (x : UserImage) : Bool :=
  x.crc == x.set.crc && x.devId.toNat == Config.devId && x.version == Config.imageVersion
/-- The image of a set as Dawn writes it (05 R284, R291). -/
def CoefSet.image (x : CoefSet) : UserImage :=
  { devId := BitVec.ofNat 32 Config.devId, version := Config.imageVersion, crc := x.crc, set := x }
/-- The area that a save writes: the one that does not hold the newest valid image (05 R291). -/
def CalSt.saveArea (c : CalSt) : Nat :=
  let ok := fun (a : Nat) => (nth c.areas a none).any UserImage.valid
  if ok c.newest then 1 - c.newest else if ok (1 - c.newest) then c.newest else 0

/-- The newest valid user image: of the area written last, else of the other (05 R291, R292). -/
def CalSt.userSet (c : CalSt) : Option CoefSet :=
  ([c.newest, 1 - c.newest].findSome? fun a => match nth c.areas a none with
    | some x => if x.valid then some x.set else none
    | none => none)
/-- The coefficients that firmware loads at boot: the factory values, or with a blob that fails verification the fuses alone, and over
the factory values the newest valid user image (05 R292; log 112). -/
def CalSt.bootSet (c : CalSt) (blob : Bool) : CoefSet :=
  if blob then (match c.userSet with
    | some x => x
    | none => { blob := true }) else { blob := false }
/-! ## What the modulators emit (02 R52, R55, R72; 03 R122; 05 R251, R254; 06 R327) -/

/-- An odd number of the low six bits is set. -/
def oddParity (n : Nat) : Bool :=
  let a := n ^^^ n >>> 4
  let b := a ^^^ a >>> 2
  (b ^^^ b >>> 1).testBit 0
/-- Chip `t` of row `k` of H_64, for both below 64 (05 R254; 03 R122). -/
def chip (k t : Nat) : Int := if oddParity (k &&& t) then -1 else 1
/-- The level and width of a line in a probe symbol: full scale for a chip of +1, level 0 for −1 (05 R254). -/
def probeLevel (line t : Nat) : Nat × Nat := (if 0 < chip line t then 255 else 0, 8)

/-- The level and width that a quad's modulator emits on a line in the present symbol: of the vector that streams; without one, full
scale (05 R251), or while an engine of the quad is under check a probe symbol's chip (R254, R255). Lines that a streamed group does
not use emit no light (02 R72). -/
def Cluster.emitted (x : Cluster) (checked : Bool) (line : Nat) : Option (Nat × Nat) :=
  match x.emit with
  | [] => some (if checked then probeLevel line x.chipT else (255, 8))
  | l :: _ => l[line]?
/-- A bank of an engine of the quad is under an identity check (05 R253). -/
def State.quadChecked (s : State) (quad : Nat) : Bool :=
  (List.range 4).any fun i => (s.engine (4 * quad + i)).bankA.pattern || (s.engine (4 * quad + i)).bankB.pattern
/-- A quad's modulator drive on a line in the present symbol, where it emits light (02 R55; 05 R251, R254). -/
def State.lineDrive (s : State) (quad line : Nat) : Option Int :=
  ((s.cluster quad).emitted (s.quadChecked quad) line).map fun x => s.drive quad line x.2 x.1
/-- The intensity of a line in a symbol (02 R52). -/
def intensity (x : Option (Nat × Nat)) : Dy :=
  match x with
  | some y => ⟨(y.1 : Int) + 1, -(y.2 : Int)⟩
  | none => Dy.zero

/-- What a symbol's levels fall short of full scale, added line by line (06 R327). -/
def Cluster.shortBy (x : Cluster) (level : Nat → Option (Nat × Nat)) : List Dy :=
  (List.range 64).map fun i => (nth x.short i Dy.zero).add ((Dy.ofInt 1).sub (intensity (level i)))
/-- One symbol of a quad passes: its modulators turn to the next level, or to the next chip of a check's probe symbols (05 R254). What
it fell short of full scale counts for the monitor (06 R327), and a vector check under way keeps the vector's levels (05 R255). -/
def Cluster.passSymbol (x : Cluster) (checked : Bool) : Cluster :=
  match x.emit with
  | [] => if checked then
      { x with chipT := (x.chipT + 1) % 64, short := x.shortBy fun i => some (probeLevel i x.chipT) } else x
  | l :: rest => { x with
      emit := rest
      short := x.shortBy fun i => l[i]?
      live := if checked then (l :: x.live).take 1024 else x.live }
/-- A probe symbol counts for a check: a symbol in which the quad carries no vector (05 R254). -/
def Engine.passProbe (x : Engine) (idle : Bool) : Engine :=
  if idle && (x.bankA.pattern || x.bankB.pattern) then { x with probes := x.probes + 1 } else x

/-- Bank B of an engine, or bank A. -/
def Engine.bank (x : Engine) (isB : Bool) : Bank := if isB then x.bankB else x.bankA
/-- The engine with a bank replaced. -/
def Engine.setBank (x : Engine) (isB : Bool) (b : Bank) : Engine :=
  if isB then { x with bankB := b } else { x with bankA := b }
/-- The bank under light. -/
def Engine.active (x : Engine) : Bank := x.bank x.activeB

/-- Symbols of one dwell of a monitor converter, 20 µs (00, Device time; 06 R316, R327). -/
def dwellSymbols : Nat := 250000
/-- A history, newest first, back to what held at a symbol. -/
def keepFrom {α : Type} (t : Nat) : List (Nat × α) → List (Nat × α)
  | [] => []
  | x :: rest => if x.1 ≤ t then [x] else x :: keepFrom t rest
/-- What the rows of an engine hold under light is noted when it has changed (06 R327). -/
def Engine.noteLit (x : Engine) (now : Nat) : Engine :=
  let rows := x.active.rows
  if (match x.lit with
    | [] => []
    | y :: _ => y.2) = rows then x else { x with lit := (now, rows) :: keepFrom (now - dwellSymbols) x.lit }

/-- The optical load of a row whose rings hold these normalised weights (02 R59, R87); parked rings count at 0.5. -/
def rowLoad (w : List Dy) : Dy :=
  ((Dy.sum w).add (Dy.ofInt 64)).scale (-7)
/-- A row's optical load summed over the symbols of the dwell that ends now (02 R87; 06 R327). -/
def loadSum (row : Nat) (from' : Nat) : Nat → List (Nat × List BankRow) → Dy
  | till, [] => (⟨1, -1⟩ : Dy).mul (Dy.ofInt ((till : Int) - from'))
  | till, x :: rest =>
    let t := Nat.max from' x.1
    ((nth x.2 row {}).load.mul (Dy.ofInt ((till : Int) - t))).add
      (if x.1 ≤ from' then Dy.zero else loadSum row from' t rest)

/-- Symbols since frame 0. -/
def State.now (s : State) : Nat := s.frame.counter * Config.symbolsPerFrame + s.frame.symbol

/-- One symbol of the frame passes (00, Device time); the count rests at the frame's last symbol until the boundary
comes as a command (log 13). The accumulator files, which add nothing in it, move their pending carries (04 R188); the
modulators turn to their next levels, and checks count their probe symbols. -/
def tick (s : State) : State :=
  { s.settleCarries with
    frame := { s.frame with symbol :=
      if s.frame.symbol + 1 < Config.symbolsPerFrame then s.frame.symbol + 1 else s.frame.symbol }
    clusters := (List.range 64).foldl (fun m c => if s.quadChecked c || !(s.cluster c).emit.isEmpty then
      m.modify {} c fun x => x.passSymbol (s.quadChecked c) else m) s.clusters
    engines := s.engines.map fun (x : Nat × Engine) =>
      (x.1, (x.2.passProbe (s.cluster (x.1 / 4)).emit.isEmpty).noteLit s.now) }

end Sys2Proof.Machine
end

