-- ==== Sys2Proof/Machine/Aperture.lean ====
section
/-! DEFINITION. The host aperture table (09 R455 to R458) and the accesses to the control node that go through it (12 R605). -/

namespace Sys2Proof.Machine

/-- What the table says of a page: the control node address that an aperture address stands for and whether the
device may write it; not resident; or an entry that the device cannot read (09 R457). -/
inductive Xlat where
  | page (address : Nat) (w : Bool)
  | absent
  | unreadable (entry : Nat)
  deriving DecidableEq, Repr

/-- One 8 B entry, when the device can read it (09 R457). -/
def State.hatEntry (s : State) (a : Nat) : Option Nat :=
  if s.poisoned a || s.onBadStack a then none else some (s.word a 8)

/-- A pointing entry is valid: V set, reserved bits zero, and the next table lies in HBM (09 R456, R457). -/
def pointerOk (s : State) (n : Nat) : Bool :=
  bit n 0 && bits n 1 11 == 0 && bits n 48 16 == 0 && s.isHbm (bits n 12 36 * 4096)

/-- The leaf level (09 R455 to R457). -/
def State.xlatLeaf (s : State) (table o : Nat) : Xlat :=
  let a := table + 8 * bits o 12 9
  match s.hatEntry a with
  | none => .unreadable a
  | some n =>
    if bit n 0 && !bit n 1 && bits n 3 9 == 0 && bits n 52 12 == 0 then
      .page (bits n 12 40 * 4096 + o % 4096) (bit n 2)
    else .absent

/-- The middle level (09 R455 to R457). -/
def State.xlatMiddle (s : State) (table o : Nat) : Xlat :=
  let a := table + 8 * bits o 21 9
  match s.hatEntry a with
  | none => .unreadable a
  | some n =>
    if bit n 1 then
      if bit n 0 && bits n 3 9 == 0 && bits n 52 12 == 0 && bits n 12 9 == 0 then
        .page (bits n 21 31 * 0x200000 + o % 0x200000) (bit n 2)
      else .absent
    else if pointerOk s n then s.xlatLeaf (bits n 12 36 * 4096) o
    else .absent

/-- The page of an aperture address in the table of a session (09 R455 to R457). -/
def State.xlat (s : State) (session a : Nat) : Xlat :=
  match s.session session with
  | none => .absent
  | some ss =>
    let o := a - 0x800000000000
    let e := ss.table + 8 * bits o 30 17
    match s.hatEntry e with
    | none => .unreadable e
    | some n => if pointerOk s n then s.xlatMiddle (bits n 12 36 * 4096) o else .absent

/-- The device may read the address of the aperture. -/
def State.canRead (s : State) (session a : Nat) : Bool :=
  match s.xlat session a with
  | .page _ _ => true
  | _ => false

/-- The device may write the address of the aperture (09 R457). -/
def State.canWrite (s : State) (session a : Nat) : Bool :=
  match s.xlat session a with
  | .page _ w => w
  | _ => false

/-- An unreadable table entry writes the error log entry of its cause: a poisoned block, or a failed stack
(09 R457; 16 R734). -/
def State.logUnreadable (s : State) (a : Nat) : State :=
  if s.poisoned a then (s.foundBad a).logError 0x0200 3 7 (stackAt s.remapped a) 1 a
  else s.logError 0x0105 2 7 (stackAt s.remapped a) 0 0

/-- Log what made an access fault, when an entry was unreadable (09 R457). -/
def State.logXlat (s : State) (session a : Nat) : State :=
  match s.xlat session a with
  | .unreadable e => s.logUnreadable e
  | _ => s

/-- The control node address of an aperture address whose page is resident. -/
def State.hostAddr (s : State) (session a : Nat) : Nat :=
  match s.xlat session a with
  | .page h _ => h
  | _ => 0

/-- The 4 KiB-aligned page of an aperture address (11 R543, section 0x0007). -/
def pageOf (a : Nat) : Nat := a / 4096 * 4096

/-- The port on which a session's requests go out; a bonded port is port 0 (12 R767). -/
def State.requestPort (s : State) (session : Nat) : Nat := if s.link.bonded then 0 else s.sessionPort session
/-- Data credits that a request needs, 64 B each (12 R608). -/
def HaReq.credits (r : HaReq) : Nat := ceilDiv r.data.length 64
/-- The message of a request: HA_WRITE when it carries data (12 R605). -/
def HaReq.message (r : HaReq) : Out :=
  if r.data.isEmpty then .haRead r.session r.tag r.host r.size else .haWrite r.session r.tag r.host r.data
/-- The port has the credits for a request (12 R608). -/
def State.affords (s : State) (r : HaReq) : Bool :=
  let l := s.link.ports.get {} (s.requestPort r.session)
  decide (1 ≤ l.hostReq) && decide (r.credits ≤ l.hostData)
/-- Send a request, which takes its credits (12 R608). -/
def State.sendRequest (s : State) (r : HaReq) : State :=
  let s := { s with link := { s.link with ports := s.link.ports.modify {} (s.requestPort r.session) fun l =>
    { l with hostReq := l.hostReq - 1, hostData := l.hostData - r.credits } } }
  s.send r.message
/-- A request is made: it goes out when its port has the credits and no earlier one of the port waits, and is remembered until its
answer comes (12 R608). -/
def State.request (s : State) (r : HaReq) : State :=
  let wait := !s.affords r || s.ha.any fun x => x.held && s.requestPort x.session == s.requestPort r.session
  let s := if wait then s else s.sendRequest r
  { s with ha := s.ha ++ [{ r with held := wait }], nextTag := (s.nextTag + 1) % 2 ^ 32 }

/-- Requests of a port that wait go out in order as far as its credits reach (12 R608). -/
def State.pumpFrom (s : State) (port : Nat) : List HaReq → State
  | [] => s
  | r :: rest =>
    if !r.held || s.requestPort r.session != port then s.pumpFrom port rest
    else if !s.affords r then s
    else ({ s.sendRequest r with ha := mapIf (fun (x : HaReq) => x.tag == r.tag) (fun x => { x with held := false }) s.ha }).pumpFrom port rest
/-- Credits of a port have come (12 R608). -/
def State.pump (s : State) (port : Nat) : State := s.pumpFrom port s.ha

/-- HA_READ for the whole words that hold `len` bytes of a resident page (12 R605). -/
def State.haRead (s : State) (session a len : Nat) (use : HaUse) : State :=
  s.request { tag := s.nextTag, session := session, page := pageOf a, lead := a % 4, use := use,
              host := s.hostAddr session (a / 4 * 4), size := (a % 4 + len + 3) / 4 * 4 }

/-- HA_WRITE of bytes to a writable page (12 R605; 11 R551). -/
def State.haWrite (s : State) (session a : Nat) (data : List Byte) (use : HaUse) : State :=
  s.request { tag := s.nextTag, session := session, page := pageOf a, use := use, host := s.hostAddr session a, data := data }

end Sys2Proof.Machine
end

