-- ==== Sys2Proof/Machine/Codes.lean ====
section
/-! DEFINITION. Code forms (03 R96 to R104), their ladder and weight parameters (02 R52, R59, R81), rounding to a form, stored types and output types. -/

namespace Sys2Proof.Machine

/-! ## Code forms (03 R96; 11 R526) -/

/-- The code forms, in the order of 11 R526. -/
inductive Form where
  | int4 | uint4 | s2 | u2 | ternary | fp4 | cb16 | int8 | uint8 | e4m3 | e5m2 | cb256
  deriving DecidableEq, Repr

/-- The form of a form code; 0xC to 0xF are reserved (11 R526). -/
def Form.ofCode : Nat → Option Form
  | 0 => some .int4
  | 1 => some .uint4
  | 2 => some .s2
  | 3 => some .u2
  | 4 => some .ternary
  | 5 => some .fp4
  | 6 => some .cb16
  | 7 => some .int8
  | 8 => some .uint8
  | 9 => some .e4m3
  | 10 => some .e5m2
  | 11 => some .cb256
  | _ => none

/-- The form is a codebook. -/
def Form.isCb : Form → Bool
  | .cb16 | .cb256 => true
  | _ => false
/-- The form is an 8-bit integer, carried as two slices (02 R81). -/
def Form.isInt8 : Form → Bool
  | .int8 | .uint8 => true
  | _ => false
/-- The form is narrow: 2-bit or ternary (02 R83). -/
def Form.isNarrow : Form → Bool
  | .s2 | .u2 | .ternary => true
  | _ => false
/-- Slices of the form (02 R81, R83). -/
def Form.slices (f : Form) : Nat := if f.isInt8 then 2 else 1
/-- The form may stand on the modulators (03 R96). -/
def Form.isInput : Form → Bool
  | .s2 => false
  | _ => true
/-- The form is unsigned (03 R96). -/
def Form.unsigned : Form → Bool
  | .uint4 | .u2 | .uint8 => true
  | _ => false
/-- Bits of a weight code in a tile; each slice of an 8-bit integer is a 4-bit tile (03 R106, R109). -/
def Form.tileBits : Form → Nat
  | .e4m3 | .e5m2 | .cb256 => 8
  | _ => 4
/-- The pair of weight and input forms is a mode of 02 R83. -/
def modeOk (w i : Form) : Bool :=
  i.isInput && (w.isNarrow == i.isNarrow)

/-! ## Values of codes -/

/-- The value of an FP4 E2M1 code (03 R97). -/
def fp4Value (n : Nat) : Dy :=
  let e := bits n 1 2
  let m := bits n 0 1
  let v : Nat := if e = 0 then m else (2 + m) * 2 ^ (e - 1)
  ⟨if bit n 3 then -(v : Int) else v, -1⟩

/-- The datum of an FP8 code with `eb` exponent bits and `mb` fraction bits, bias `2^(eb−1) − 1`; E4M3 has no
infinities and its NaN at S.1111.111 (03 R98). -/
def fp8Value (eb mb : Nat) (n : Nat) : Fv :=
  let e := bits n mb eb
  let m := bits n 0 mb
  let neg := bit n 7
  let bias : Int := (2 ^ (eb - 1) - 1 : Nat)
  if eb = 4 ∧ e = 15 ∧ m = 7 then .nan false
  else if eb = 5 ∧ e = 31 then (if m = 0 then .inf neg else .nan false)
  else if e = 0 then .fin neg m (1 - bias - mb)
  else .fin neg (2 ^ mb + m) ((e : Int) - bias - mb)

/-- A codebook entry, a signed Q4.11 number (03 R112). -/
def cbValue (e : Int) : Dy := ⟨e, -11⟩

/-- The entries a stage uses of a codebook slot (03 R774): the first 16 of 256 under a 16-entry form. -/
def cbEntries (f : Form) (held : List Int) : List Int := if f = .cb16 then held.take 16 else held

/-- V_lo and V_hi of a form (03 R96); of a codebook its end entries, which ascend (03 R114). -/
def Form.range (f : Form) (cb : List Int) : Dy × Dy :=
  match f with
  | .int4 => (⟨-8, 0⟩, ⟨7, 0⟩)
  | .uint4 => (⟨0, 0⟩, ⟨15, 0⟩)
  | .s2 => (⟨-2, 0⟩, ⟨1, 0⟩)
  | .u2 => (⟨0, 0⟩, ⟨3, 0⟩)
  | .ternary => (⟨-1, 0⟩, ⟨1, 0⟩)
  | .fp4 => (⟨-6, 0⟩, ⟨6, 0⟩)
  | .int8 => (⟨-128, 0⟩, ⟨127, 0⟩)
  | .uint8 => (⟨0, 0⟩, ⟨255, 0⟩)
  | .e4m3 => (⟨-448, 0⟩, ⟨448, 0⟩)
  | .e5m2 => (⟨-57344, 0⟩, ⟨57344, 0⟩)
  | .cb16 | .cb256 => (cbValue (cb.headD 0), cbValue (cb.getLastD 0))

/-! ## Weight codes (03 R97 to R104, R117, R774) -/

/-- The value that the weight port loads for a code, and whether it sets SATURATION (03 R99, R104, R774). `hi` says
that an 8-bit integer's tile is the high slice; a codebook gives its entries. -/
def weightValue (f : Form) (hi : Bool) (cb : List Int) (n : Nat) : Dy × Bool :=
  match f with
  | .int4 => (Dy.ofInt (sext n 4), false)
  | .uint4 => (Dy.ofInt (n % 16 : Nat), false)
  | .int8 => (Dy.ofInt (if hi then sext n 4 else (n % 16 : Nat)), false)
  | .uint8 => (Dy.ofInt (n % 16 : Nat), false)
  | .s2 => let v := sext n 4
           let w := clampInt (-2) 1 v
           (Dy.ofInt w, w != v)
  | .ternary => let v := sext n 4
                let w := clampInt (-1) 1 v
                (Dy.ofInt w, w != v)
  | .u2 => let v := n % 16
           (Dy.ofInt (Nat.min v 3 : Nat), decide (3 < v))
  | .fp4 => (fp4Value n, false)
  | .e4m3 => match fp8Value 4 3 n with
    | .fin ng m e => ((Fv.fin ng m e).dy, false)
    | _ => (Dy.zero, true)
  | .e5m2 => match fp8Value 5 2 n with
    | .fin ng m e => ((Fv.fin ng m e).dy, false)
    | .inf neg => (Dy.ofInt (if neg then -57344 else 57344), true)
    | .nan _ => (Dy.zero, true)
  | .cb16 | .cb256 =>
    if n < cb.length then (cbValue (nth cb n 0), false) else (cbValue (cb.getLastD 0), true)

/-- The smallest power of two exponent `k ≥ lo` with `m ≤ 2^k` (02 R52, R59). -/
def pow2Above (m : Dy) (lo : Int) : Int :=
  if m.m ≤ 0 then lo
  else
    let k := m.log2
    let k := if m.le ⟨1, k⟩ then k else k + 1
    max lo k

/-- `log2 F`, the weight scale of a form (02 R59); for an 8-bit integer that of the slice. -/
def log2F (f : Form) (hi : Bool) (cb : List Int) : Int :=
  match f with
  | .int4 => 3
  | .uint4 => 4
  | .int8 => if hi then 3 else 4
  | .uint8 => 4
  | .s2 => 1
  | .u2 => 2
  | .ternary => 0
  | .fp4 => 3
  | .e4m3 => 9
  | .e5m2 => 16
  | .cb16 | .cb256 => pow2Above (cb.foldl (fun m e => Dy.max m (cbValue e).abs) Dy.zero) (-11)

/-! ## The input ladder (02 R52; 03 R130) -/

/-- The ladder of an input form or of an input slice: DAC width d, v_min, and `log2 P`. -/
structure Ladder where
  d    : Nat
  vmin : Dy
  p    : Int
  deriving DecidableEq, Repr

/-- The smallest power of two P with `(v_max − v_min) + P / 2^d ≤ P` (02 R52). -/
def spanOf (d : Nat) (span : Dy) (k : Int) : Nat → Int
  | 0 => k
  | n + 1 => if (span.add ⟨1, k - d⟩).le ⟨1, k⟩ then k else spanOf d span (k + 1) n

/-- The ladder of a form; an 8-bit integer's slices travel as UINT4 levels, the high slice of INT8 with v_min −8
(02 R52 and its table; 03 R129, R130). The manual gives no ladder of a codebook that is empty or has no entry above 0, of
which only the value 0 is sent (03 R774): the model takes v_min 0 and P 2⁻¹¹ for an empty one, and spans the entries of one
whose entries are all negative, so that the level of value 0 lies above its ladder (log 102). -/
def ladderOf (f : Form) (hi : Bool) (cb : List Int) : Ladder :=
  match f with
  | .uint4 => ⟨4, ⟨0, 0⟩, 4⟩
  | .int4 => ⟨4, ⟨-8, 0⟩, 4⟩
  | .int8 => if hi then ⟨4, ⟨-8, 0⟩, 4⟩ else ⟨4, ⟨0, 0⟩, 4⟩
  | .uint8 => ⟨4, ⟨0, 0⟩, 4⟩
  | .u2 => ⟨4, ⟨0, 0⟩, 2⟩
  | .s2 => ⟨4, ⟨-2, 0⟩, 2⟩
  | .ternary => ⟨4, ⟨-1, 0⟩, 2⟩
  | .fp4 => ⟨6, ⟨-6, 0⟩, 4⟩
  | .e4m3 => ⟨8, ⟨-448, 0⟩, 10⟩
  | .e5m2 => ⟨8, ⟨-57344, 0⟩, 17⟩
  | .cb16 | .cb256 =>
    let d := if f = .cb16 then 6 else 8
    let lo := cbValue (cb.headD 0)
    let span := (cbValue (cb.getLastD 0)).sub lo
    ⟨d, lo, spanOf d span (pow2Above span (-11)) 8⟩

/-- The correction constant c of a ladder (03 R130): `−v_min + P ÷ 2^d`. -/
def Ladder.c (l : Ladder) : Dy := l.vmin.neg.add ⟨1, l.p - l.d⟩

/-- The light level k of a value (02 R52). -/
def Ladder.level (l : Ladder) (v : Dy) : Int := ((v.sub l.vmin).scale (l.d - l.p)).roundEven

/-- The light value ℓ of an input value: `(k + 1) × P ÷ 2^d` with `k = round(2^d × (v − v_min) / P)`, nearest with ties
to even (02 R52; 03 R130). -/
def Ladder.light (l : Ladder) (v : Dy) : Dy :=
  ⟨l.level v + 1, l.p - l.d⟩

/-! ## Rounding to a form (03 R118, R128) -/

/-- A dyadic value rounded to a multiple of `2^lsb` by a mode. -/
def dyQuant (rm : Rnd) (d : Dy) (lsb : Int) : Dy :=
  let q := (quantQ rm (decide (d.m < 0)) d.m.natAbs 1 d.e lsb).1
  ⟨if d.m < 0 then -(q : Int) else q, lsb⟩

/-- A dyadic value rounded to a floating-point form with least normal exponent `emin` and `mb` fraction bits. -/
def dyToFloat (rm : Rnd) (emin : Int) (mb : Nat) (d : Dy) : Dy :=
  if d.m = 0 then Dy.zero else dyQuant rm d (max (d.log2 - mb) (emin - mb))

/-- The nearest codebook entry; on a tie the one with the even index (03 R118). -/
def nearestEntry (cb : List Int) (v : Dy) : Dy :=
  let cand := (List.range cb.length).map fun i => (i, cbValue (nth cb i 0), (v.sub (cbValue (nth cb i 0))).abs)
  match cand with
  | [] => Dy.zero
  | c :: cs => (cs.foldl (fun best x =>
      if x.2.2.lt best.2.2 then x
      else if x.2.2.eq best.2.2 && x.1 % 2 == 0 then x else best) c).2.1

/-- A scaled value inside the form's range rounded to the form; rounding ties go to even, or away from zero in the
re-run path (03 R128, R169). -/
def toForm (f : Form) (cb : List Int) (rm : Rnd) (v : Dy) : Dy :=
  match f with
  | .fp4 => dyToFloat rm 0 1 v
  | .e4m3 => dyToFloat rm (-6) 3 v
  | .e5m2 => dyToFloat rm (-14) 2 v
  | .cb16 | .cb256 => nearestEntry cb v
  | _ => dyQuant rm v 0

/-! ## Stored and output types (03 R145) -/

/-- The output types of 03 R145, which also encode stored input types (11 R525). -/
inductive OutType where
  | e4m3 | e5m2 | int8 | uint8 | int4 | uint4 | fp4 | bf16 | fp32 | mxfp4 | mxint8
  deriving DecidableEq, Repr

/-- The type of a code; 0xB to 0xF are rejected (03 R145). -/
def OutType.ofCode : Nat → Option OutType
  | 0 => some .e4m3
  | 1 => some .e5m2
  | 2 => some .int8
  | 3 => some .uint8
  | 4 => some .int4
  | 5 => some .uint4
  | 6 => some .fp4
  | 7 => some .bf16
  | 8 => some .fp32
  | 9 => some .mxfp4
  | 10 => some .mxint8
  | _ => none

/-- The type carries a running scale: 0x0 to 0x6 (03 R145, R150). -/
def OutType.running : OutType → Bool
  | .bf16 | .fp32 | .mxfp4 | .mxint8 => false
  | _ => true
/-- The type is an MX layout (03 R105). -/
def OutType.isMx : OutType → Bool
  | .mxfp4 | .mxint8 => true
  | _ => false
/-- The type is stored in 4-bit codes (08 R401). -/
def OutType.is4 : OutType → Bool
  | .int4 | .uint4 | .fp4 | .mxfp4 => true
  | _ => false
/-- The element size code of one output value or of one input element (08 R400, R401). -/
def OutType.esize : OutType → Nat
  | .bf16 => 1
  | .fp32 => 2
  | _ => 0
/-- ZERO_POINT applies: UINT8 and UINT4 (03 R139, R146). -/
def OutType.hasZp : OutType → Bool
  | .uint8 | .uint4 => true
  | _ => false

/-- Q_eff of a type with zero point z (03 R145). -/
def OutType.qEff (t : OutType) (z : Int) : Int :=
  match t with
  | .e4m3 => 448
  | .e5m2 => 57344
  | .int8 => 127
  | .uint8 => 255 - z
  | .int4 => 7
  | .uint4 => 15 - z
  | _ => 6

/-- The value of a stored code before zero point and scale (03 R97 to R98, R105, R121). -/
def OutType.value (t : OutType) (n : Nat) : Fv :=
  match t with
  | .e4m3 => fp8Value 4 3 n
  | .e5m2 => fp8Value 5 2 n
  | .int8 => .fin (decide (sext n 8 < 0)) (sext n 8).natAbs 0
  | .uint8 => .fin false (n % 256) 0
  | .int4 => .fin (decide (sext n 4 < 0)) (sext n 4).natAbs 0
  | .uint4 => .fin false (n % 16) 0
  | .fp4 | .mxfp4 => .fin (decide ((fp4Value n).m < 0)) (fp4Value n).m.natAbs (-1)
  | .bf16 => FpFmt.decode Sys2Proof.Machine.fp32 (n * 65536)
  | .fp32 => FpFmt.decode Sys2Proof.Machine.fp32 n
  | .mxint8 => .fin (decide (sext n 8 < 0)) (sext n 8).natAbs (-6)

/-- The bits of a finite value of an 8-bit floating-point type that it represents exactly. -/
def fp8Bits (eb mb : Nat) (d : Dy) : Nat :=
  let bias : Int := (2 ^ (eb - 1) - 1 : Nat)
  let s := if d.m < 0 then 128 else 0
  if d.m = 0 then 0
  else
    let ex := max d.log2 (1 - bias)
    let q := ((d.abs).scale (mb - ex)).roundEven.toNat
    if q < 2 ^ mb then s + q else s + (ex + bias).toNat * 2 ^ mb + (q - 2 ^ mb)

/-- The bits of a value of FP4 E2M1. -/
def fp4Bits (d : Dy) : Nat :=
  let h := (d.abs.scale 1).roundEven.toNat
  let k := if h ≤ 4 then h else if h = 6 then 5 else if h = 8 then 6 else 7
  if d.m < 0 ∧ k ≠ 0 then 8 + k else k

/-- The largest magnitude of the code range below and above zero (03 R145). -/
def OutType.codeRange (t : OutType) : Dy × Dy :=
  match t with
  | .e4m3 => (⟨-448, 0⟩, ⟨448, 0⟩)
  | .e5m2 => (⟨-57344, 0⟩, ⟨57344, 0⟩)
  | .int8 => (⟨-128, 0⟩, ⟨127, 0⟩)
  | .uint8 => (⟨0, 0⟩, ⟨255, 0⟩)
  | .int4 => (⟨-8, 0⟩, ⟨7, 0⟩)
  | .uint4 => (⟨0, 0⟩, ⟨15, 0⟩)
  | _ => (⟨-6, 0⟩, ⟨6, 0⟩)

/-- The code bits of a value that the type represents exactly. -/
def OutType.bitsOf (t : OutType) (v : Dy) : Nat :=
  match t with
  | .e4m3 => fp8Bits 4 3 v
  | .e5m2 => fp8Bits 5 2 v
  | .int8 | .uint8 => toBits v.roundEven 8
  | .int4 | .uint4 => toBits v.roundEven 4
  | _ => fp4Bits v

/-- An exact quotient `(-1)^neg × num / den × 2^e` rounded to a type's grid (03 R146, R169). -/
def OutType.roundQ (t : OutType) (rm : Rnd) (neg : Bool) (num den : Nat) (e : Int) : Dy :=
  if num = 0 then Dy.zero else
  let ex := log2Q num den + e
  let lsb : Int := match t with
    | .e4m3 => max (ex - 3) (-9)
    | .e5m2 => max (ex - 2) (-16)
    | .fp4 => max (ex - 1) (-1)
    | _ => 0
  let q := (quantQ rm neg num den e lsb).1
  ⟨if neg then -(q : Int) else q, lsb⟩

end Sys2Proof.Machine
end

