-- ==== Sys2Proof/Machine/Flags.lean ====
section
/-! DEFINITION. Codes of admission results and completion statuses (11 R540, R541) and the quality flags (11 R542). -/

namespace Sys2Proof.Machine

/-- The code of an admission result or completion status (11 R540, R541). -/
def Status.code : Status → Nat
  | .accepted => 0x00
  | .rejectMalformed => 0x01
  | .rejectFeature => 0x02
  | .rejectCapacity => 0x03
  | .rejectDeadline => 0x04
  | .rejectConflict => 0x05
  | .rejectQueueFull => 0x06
  | .rejectSession => 0x07
  | .done => 0x10
  | .doneFlagged => 0x11
  | .doneRerun => 0x12
  | .budgetExhausted => 0x13
  | .cancelled => 0x14
  | .translationFault => 0x15
  | .dataUncorrectable => 0x16
  | .unitFailed => 0x17
  | .lateEnvelope => 0x18
  | .peerUnreachable => 0x19

/-- The status is one of DONE, DONE_FLAGGED and DONE_RERUN. -/
def Status.isDone : Status → Bool
  | .done | .doneFlagged | .doneRerun => true
  | _ => false

/-- A command completes with the status at a frame boundary (10 R500). -/
def Status.waitsBoundary : Status → Bool
  | .translationFault | .dataUncorrectable | .unitFailed | .peerUnreachable => true
  | _ => false

/-- A fault of a descriptor also waits for the accesses in flight (10 R500). -/
def Status.waitsAccess : Status → Bool
  | .translationFault | .dataUncorrectable => true
  | _ => false

/-- The FLAGS word (11 R542). -/
def Flags.word (f : Flags) : Nat :=
  b2n f.lockExcursion + 2 * b2n f.saturation + 4 * b2n f.mseHigh + 8 * b2n f.range + 16 * b2n f.supplyDip +
    32 * b2n f.residualHigh + 64 * b2n f.remapped + 128 * b2n f.holdover + 256 * b2n f.staleScale

/-- At least one flag is set. -/
def Flags.any (f : Flags) : Bool := f.word != 0

/-- What a command's final record carries: of a command that ended well, DONE_RERUN when a re-run ran (03 R171),
LATE_ENVELOPE past its deadline or time guard (10 R496, R501), DONE_FLAGGED when a flag is set (11 R541). -/
def finalStatus (j : Job) (st : Status) (late : Bool) : Status :=
  if st.isDone then
    if late then .lateEnvelope
    else if j.reran then .doneRerun
    else if j.flags.any then .doneFlagged
    else .done
  else st

end Sys2Proof.Machine
end

