-- ==== Sys2Proof/Machine/Operands.lean ====
section
/-! DEFINITION. The operand forms of commands: transfer descriptors (08 R397 to R405) with their elements and extents, the structures that admission reads (11 R770), and what a rejection carries (11 R540, R543). -/

namespace Sys2Proof.Machine

/-! ## Rejections and report sections (11 R540, R543) -/

/-- A rejection: its code, the sections of its extended report, a block that could not be read (11 R764), and an entry of the host
aperture tables that could not be (09 R457). -/
structure Rej where
  st     : Status
  report : Report := []
  bad    : Option Nat := none
  entry  : Option Nat := none
  deriving DecidableEq, Repr

/-- Pad a section to a multiple of 32 B (11 R543). -/
def pad32 (bs : List Byte) : List Byte := bs ++ leBytes ((32 - bs.length % 32) % 32) 0

/-- The fault locus section (11 R543): role, stage, COLLECT entry, page. -/
def faultLocus (role stage entry page : Nat) : List Byte :=
  pad32 (leBytes 2 0x0007 ++ leBytes 2 0 ++ leBytes 1 role ++ leBytes 1 stage ++ leBytes 2 entry ++ leBytes 8 page)
/-- The unreadable structure section (11 R543). -/
def unreadableSection (kind block : Nat) : List Byte :=
  pad32 (leBytes 2 0x000C ++ leBytes 2 0 ++ leBytes 1 kind ++ leBytes 3 0 ++ leBytes 8 block)
/-- The earliest deadline section (10 R493). -/
def earliestSection (frame : Nat) : List Byte :=
  pad32 (leBytes 2 0x0002 ++ leBytes 2 0 ++ leBytes 4 0 ++ leBytes 8 frame)
/-- The offending index section (03 R114; 04 R236). -/
def offendingSection (index slot : Nat) : List Byte :=
  pad32 (leBytes 2 0x0004 ++ leBytes 2 0 ++ leBytes 4 index ++ leBytes 1 slot)
/-- The entry count section (03 R143). -/
def entryCountSection (n : Nat) : List Byte := pad32 (leBytes 2 0x0005 ++ leBytes 2 0 ++ leBytes 4 n)
/-- The cancel target section (08 R428). -/
def cancelSection (outcome status frame : Nat) : List Byte :=
  pad32 (leBytes 2 0x0008 ++ leBytes 2 0 ++ leBytes 1 outcome ++ leBytes 1 status ++ leBytes 2 0 ++ leBytes 8 frame)
/-- The tile range section (04 R182): engines whose tile carries sticky RANGE. -/
def tileRangeSection (mask : Nat) : List Byte := leBytes 2 0x000A ++ leBytes 2 0 ++ leBytes 28 0 ++ leBytes 32 mask

/-- Which descriptor of a command is at fault: role, stage, COLLECT entry (11 R543, R763). -/
structure Locus where
  role  : Nat
  stage : Nat := 0
  entry : Nat := 0
  deriving DecidableEq, Repr

/-- REJECT_MALFORMED with nothing to name. -/
def malformed : Rej := { st := .rejectMalformed }
/-- REJECT_MALFORMED naming a descriptor and a page. -/
def malformedAt (l : Locus) (page : Nat) : Rej :=
  { st := .rejectMalformed, report := [faultLocus l.role l.stage l.entry page] }

/-- Refuse unless a condition holds. -/
def need (r : Rej) (b : Bool) : Except Rej Unit := if b then .ok () else .error r

/-! ## Structures in memory (11 R764, R770) -/

/-- The range `[a, a + n)` lies wholly in HBM or wholly in one cluster's SRAM (11 R770). -/
def State.inOneMemory (s : State) (a n : Nat) : Bool :=
  match s.space a with
  | .hbm => s.space (a + n - 1) == .hbm
  | .sram c => s.space (a + n - 1) == .sram c
  | _ => false

/-- The first 64 B block of a range that cannot be read: poisoned, or on a failed stack (11 R764). -/
def State.unreadableBlock (s : State) (a n : Nat) : Option Nat :=
  ((List.range ((a + n - 1) / 64 - a / 64 + 1)).map fun i => (a / 64 + i) * 64).find? fun b =>
    s.poisoned b || s.onBadStack b

/-- Read a structure that a pointer names: at its alignment, in HBM or one cluster's SRAM (11 R770), and readable
(11 R764). `kind` is the structure's number in section 0x000C. -/
def State.readStruct (s : State) (bad : Rej) (kind a align n : Nat) : Except Rej (List Byte) :=
  if a % align ≠ 0 ∨ !s.inOneMemory a n then .error bad
  else match s.unreadableBlock a n with
    | some b => .error { st := .rejectMalformed, report := [unreadableSection kind b], bad := some b }
    | none => .ok (s.bytes a n)

/-! ## Transfer descriptors (08 R397 to R401) -/

/-- The 96 B of a transfer descriptor (08 R397). -/
def parseTDesc (bs : List Byte) : TDesc :=
  let cs := (List.range 5).map fun k => field bs (24 + 4 * k) 4
  let ss := (List.range 5).map fun k => sext (field bs (48 + 8 * k) 8) 64
  { base := field bs 0 6, resume := field bs 8 6, esize := field bs 16 1, ndim := bits (field bs 17 1) 0 3,
    mcast := bit (field bs 18 1) 0, counts := cs, strides := ss, mask := field bs 88 8,
    badRes := field bs 6 2 != 0 || field bs 14 2 != 0 || bits (field bs 17 1) 3 5 != 0 ||
      bits (field bs 18 1) 1 7 != 0 || field bs 19 5 != 0 || field bs 44 4 != 0 }

/-- Element size in bytes (08 R400); `tile` is the size of one weight tile of the stage. -/
def TDesc.size (d : TDesc) (tile : Nat) : Nat :=
  match d.esize with
  | 0 => 1
  | 1 => 2
  | 2 => 4
  | 3 => 8
  | 4 => 16
  | 5 => 32
  | 6 => 40
  | 7 => 64
  | 8 => 256
  | 9 => 2048
  | _ => tile
/-- Alignment of BASE and strides (08 R400). -/
def TDesc.align (d : TDesc) : Nat :=
  match d.esize with
  | 0 => 1
  | 1 => 2
  | 2 => 4
  | 3 => 8
  | 4 => 16
  | 5 => 32
  | 6 => 8
  | 7 => 64
  | 8 => 64
  | 9 => 64
  | _ => 128

/-- The counts and strides of the dimensions that NDIM gives. -/
def TDesc.dims (d : TDesc) : List (Nat × Int) := (d.counts.zip d.strides).take d.ndim
/-- The number of elements (08 R398). -/
def TDesc.count (d : TDesc) : Nat := d.dims.foldl (fun n c => n * c.1) 1

/-- The offset of element `i` over dimensions, innermost first (08 R398). -/
def dimOffset : List (Nat × Int) → Nat → Int
  | [], _ => 0
  | (c, st) :: rest, i => (i % c : Nat) * st + dimOffset rest (i / c)
/-- The address of element `i` (08 R398). -/
def TDesc.addr (d : TDesc) (i : Nat) : Nat := ((d.base : Int) + dimOffset d.dims i).toNat

/-- The lowest and highest offset over dimensions whose indices range freely. -/
def boxOffset : List (Nat × Int) → Int × Int
  | [] => (0, 0)
  | (c, st) :: rest =>
    let r := boxOffset rest
    let far : Int := ((c : Int) - 1) * st
    (r.1 + min 0 far, r.2 + max 0 far)

/-- The lowest and highest offset of the elements with index at least `r` (08 R399): those that agree with `r` in every
outer index and exceed it in the present one, whose inner indices range freely. -/
def coveredOffset : List (Nat × Int) → List (Nat × Int) → Nat → Int × Int → Int × Int
  | _, [], _, acc => acc
  | inner, (c, st) :: rest, r, acc =>
    let k := r % c
    let outer := dimOffset rest (r / c)
    let acc := if k + 1 < c then
        let b := boxOffset inner
        let lo := min ((k + 1 : Nat) * st) ((c - 1 : Nat) * st)
        let hi := max ((k + 1 : Nat) * st) ((c - 1 : Nat) * st)
        (min acc.1 (b.1 + lo + outer), max acc.2 (b.2 + hi + outer))
      else acc
    coveredOffset (inner ++ [(c, st)]) rest (r / c) acc

/-- The extent of the covered elements: first and last byte (08, after R405; R399). -/
def TDesc.extentFrom (d : TDesc) (tile r : Nat) : Int × Int :=
  let o := dimOffset d.dims r
  let c := coveredOffset [] d.dims r (o, o)
  ((d.base : Int) + c.1, (d.base : Int) + c.2 + (d.size tile : Nat) - 1)

/-- The extent of a descriptor (08, after R405). -/
def TDesc.extent (d : TDesc) (tile : Nat) : Int × Int := d.extentFrom tile 0

/-- The covered element indices (08 R399). -/
def TDesc.covered (d : TDesc) : List Nat := (List.range (d.count - d.resume)).map fun i => d.resume + i

/-! ## Checks of a descriptor (08 R402 to R404, R429; 09 R439, R457, R458) -/

/-- What a role may name. -/
inductive Role where
  /-- Read by the Leader: HBM, SRAM, the host aperture. -/
  | read
  /-- An XFER source: also the scale tables (03 R140). -/
  | xferSource
  /-- Written: HBM, SRAM, the host aperture. -/
  | write
  deriving DecidableEq, Repr

/-- The role allows the space (09 R438; 03 R140; 04 R216). -/
def Role.allows (r : Role) : Space → Bool
  | .hbm => true
  | .sram _ => true
  | .aperture => true
  | .scales => r == .xferSource
  | _ => false
/-- The role writes. -/
def Role.writes : Role → Bool
  | .write => true
  | _ => false

/-- Two ranges of bytes meet. -/
def meets (a b : Int × Int) : Bool := decide (a.1 ≤ b.2) && decide (b.1 ≤ a.2)

/-- The valid entries of a table of `n` bytes, found among the bytes that memory lists. -/
def State.validEntries (s : State) (table n : Nat) : List Nat :=
  (s.mem.filter fun kv => decide (table ≤ kv.1) && decide (kv.1 < table + n) && (kv.1 - table) % 8 == 0 &&
    kv.2.toNat % 2 == 1).map fun kv => s.word kv.1 8

/-- The byte ranges of a session's host aperture tables (09 R455). -/
def State.tableRanges (s : State) (ss : Session) : List (Int × Int) :=
  let mids := (s.validEntries ss.table 0x100000).filter (pointerOk s)
  let midTables := mids.map fun n => bits n 12 36 * 4096
  let leaves := midTables.flatMap fun m => ((s.validEntries m 4096).filter fun n => !bit n 1 && pointerOk s n).map
    fun n => bits n 12 36 * 4096
  ((ss.table : Int), (ss.table : Int) + 0xFFFFF) :: (midTables ++ leaves).map fun (m : Nat) => ((m : Int), (m : Int) + 4095)

/-- The extent reaches into some session's host aperture tables (09 R458). -/
def State.reachesTables (s : State) (x : Int × Int) : Bool :=
  s.sessions.any fun kv => match kv.2 with
    | some ss => (s.tableRanges ss).any (meets x)
    | none => false

/-- The first page of `[a, last]` that is not resident, or that may not be written when the role writes (08 R429;
09 R457); `fuel` bounds the pages. -/
def State.firstBadPage (s : State) (session : Nat) (wr : Bool) (last : Nat) : Nat → Nat → Option Nat
  | 0, _ => none
  | fuel + 1, a =>
    if last < a then none
    else if (if wr then s.canWrite session a else s.canRead session a) then
      s.firstBadPage session wr last fuel (pageOf a + 4096)
    else some (pageOf a)

/-- A range reaches reserved addresses that a remap leaves between the regions of HBM (09 R453). -/
def State.holeIn (s : State) (x : Int × Int) : Bool :=
  (List.range 4).any fun k => meets x ((k * 0x003000000000 + regionSize s.remapped k : Nat), (k + 1 : Nat) * 0x003000000000 - 1)

/-- The entry that makes a page unreadable in the tables of a session (09 R457). -/
def State.badEntry (s : State) (session a : Nat) : Option Nat :=
  match s.xlat session a with
  | .unreadable e => some e
  | _ => none

/-- The rules of 08 R404 for one descriptor, its space (R402; 09 R439, R772), its pages (R429) and the tables (09
R458). -/
def State.checkDesc (s : State) (session : Nat) (role : Role) (l : Locus) (tile : Nat) (esizes : List Nat)
    (d : TDesc) : Except Rej Unit := do
  let bad := malformedAt l 0
  need bad (!d.badRes)
  need bad (decide (1 ≤ d.ndim) && decide (d.ndim ≤ 5))
  need bad (d.dims.all fun c => c.1 != 0)
  need bad (((d.counts.zip d.strides).drop d.ndim).all fun c => c.1 == 0 && c.2 == 0)
  need bad (esizes.contains d.esize)
  need bad (d.base % d.align == 0 && d.dims.all fun c => c.2 % (d.align : Int) == 0)
  need bad (decide (d.resume < d.count) && decide (d.count < 2 ^ 48))
  let x := d.extent tile
  need bad (decide (0 ≤ x.1) && decide (x.2 < 2 ^ 48))
  let sp := s.space x.1.toNat
  need bad (sp == s.space x.2.toNat && role.allows sp)
  need bad (sp != .hbm || !s.holeIn x || (List.range d.count).all fun i => s.inOneMemory (d.addr i) (d.size tile))
  need bad (!d.mcast || (role.writes && d.mask != 0 && (match sp with
    | .sram c => bit d.mask c
    | _ => false)))
  need bad (d.mcast || d.mask == 0)
  need bad (!s.reachesTables x)
  if sp = .aperture then
    let c := d.extentFrom tile d.resume
    let lo := c.1.toNat
    let hi := c.2.toNat
    match s.firstBadPage session role.writes hi ((hi - lo) / 4096 + 2) lo with
    | some p => .error { malformedAt l p with entry := s.badEntry session p }
    | none => .ok ()
  else .ok ()

/-- Read and check the descriptor that a pointer names (08 R405; 11 R770). -/
def State.desc (s : State) (session : Nat) (role : Role) (l : Locus) (tile : Nat) (esizes : List Nat) (ptr : Nat) :
    Except Rej TDesc := do
  let bs ← s.readStruct (malformedAt l 0) 1 ptr 32 96
  let d := parseTDesc bs
  s.checkDesc session role l tile esizes d
  return d

/-- Every element size but the weight tile's. -/
def plainSizes : List Nat := [0, 1, 2, 3, 4, 5, 6, 7, 8, 9]

/-- The clusters a destination is written to: those of MCAST_MASK, or the one its address lies in (08 R403). -/
def copiesOf (d : TDesc) (a : Nat) : List Nat :=
  if d.mcast then (bitList 64 d.mask).map fun n => 0x100000000000 + n * 0x1000000 + (a - 0x100000000000) % 0x1000000
  else [a]

end Sys2Proof.Machine
end

