-- ==== Sys2Proof/WellFormed.lean ====
section
/-! DEFINITION. Well-formed vector core instructions, and well-formed commands: every unit a command names exists. -/

namespace Sys2Proof

/-- A vector core instruction that an image may hold (07 R353, R354): its fields are those of its opcode's format,
its type and width are assigned, and a 32-bit V has no VX field. -/
def CoreInstr.wf (i : CoreInstr) : Bool :=
  match fmtOf i.op, i.fields with
  | some .v, .v f => !f.x && f.vc == 0 && f.rnd == 0 && !f.sat && typeOk i.op f.t f.vb
  | some .vx, .v f => f.x && typeOk i.op f.t f.vb
  | some .s, .s _ => true
  | some .e, .e _ => true
  | some .si, .si _ => true
  | some .m, .m f => f.w != 3
  | some .b, .b _ => true
  | some .bc, .bc _ => true
  | _, _ => false

/-- The OP of an instruction that has both a V and a VX form (07 R355). -/
def vxOp (op : BitVec 8) (f : FV) : BitVec 8 := if f.x then op ||| 0x80 else op

/-- The thread and the instruction word of a command that is a vector core instruction (07 R355). -/
def Instr.core? : Instr → Option (Nat × CoreInstr)
  | .xfer _ => none
  | .matmul _ => none
  | .suite _ => none
  | .reduce _ => none
  | .collect _ => none
  | .vkernel _ => none
  | .accLoad _ => none
  | .accStore _ => none
  | .scaleLoad _ => none
  | .scaleRead _ => none
  | .fence _ => none
  | .eventSignal _ => none
  | .waitFrame _ => none
  | .calibrate _ => none
  | .selftest _ _ => none
  | .restoreFactory _ => none
  | .query _ => none
  | .cancel _ => none
  | .descriptorTake => none
  | .frameBoundary _ => none
  | .boundaryMarker _ _ _ => none
  | .numberedMarker _ _ _ => none
  | .markerTimeout => none
  | .holdover1s => none
  | .refclkLoss => none
  | .refclkReturn => none
  | .groupIssue _ _ _ _ _ => none
  | .conversionArrival _ _ _ => none
  | .bankLoad _ _ _ _ _ _ => none
  | .bankSwap _ => none
  | .tileDrain _ _ => none
  | .activationFetch _ _ => none
  | .hbmReadReturn _ _ => none
  | .farandoleSend _ _ _ _ _ _ => none
  | .farandoleHop _ => none
  | .polonaiseHop _ _ _ => none
  | .stepDecision _ => none
  | .rerunDrain _ => none
  | .suiteHandover _ => none
  | .completionWrite _ => none
  | .cancelEffect _ => none
  | .cancelCompletion _ => none
  | .kernelStart _ => none
  | .kernelBudgetStop _ => none
  | .loadReturn _ => none
  | .vadd t f => some (t, ⟨vxOp 0x01 f, .v f⟩)
  | .vsub t f => some (t, ⟨vxOp 0x02 f, .v f⟩)
  | .vmul t f => some (t, ⟨vxOp 0x03 f, .v f⟩)
  | .vmin t f => some (t, ⟨vxOp 0x04 f, .v f⟩)
  | .vmax t f => some (t, ⟨vxOp 0x05 f, .v f⟩)
  | .vabs t f => some (t, ⟨vxOp 0x06 f, .v f⟩)
  | .vneg t f => some (t, ⟨vxOp 0x07 f, .v f⟩)
  | .vcmpeq t f => some (t, ⟨0x08, .v f⟩)
  | .vcmplt t f => some (t, ⟨0x09, .v f⟩)
  | .vcmple t f => some (t, ⟨0x0a, .v f⟩)
  | .vsel t f => some (t, ⟨0x0b, .v f⟩)
  | .vrcpe t f => some (t, ⟨0x0c, .v f⟩)
  | .vrsqe t f => some (t, ⟨0x0d, .v f⟩)
  | .vcvt t f => some (t, ⟨vxOp 0x18 f, .v f⟩)
  | .vand t f => some (t, ⟨0x20, .v f⟩)
  | .vor t f => some (t, ⟨0x21, .v f⟩)
  | .vxor t f => some (t, ⟨0x22, .v f⟩)
  | .vshl t f => some (t, ⟨0x23, .v f⟩)
  | .vshr t f => some (t, ⟨0x24, .v f⟩)
  | .vperm t f => some (t, ⟨0x30, .v f⟩)
  | .vbcast t f => some (t, ⟨0x31, .v f⟩)
  | .vslup t f => some (t, ⟨0x32, .v f⟩)
  | .vsldn t f => some (t, ⟨0x33, .v f⟩)
  | .vcomp t f => some (t, ⟨0x34, .v f⟩)
  | .viota t f => some (t, ⟨0x35, .v f⟩)
  | .vrsum t f => some (t, ⟨0x38, .v f⟩)
  | .vrmax t f => some (t, ⟨0x39, .v f⟩)
  | .vrmin t f => some (t, ⟨0x3a, .v f⟩)
  | .pand t f => some (t, ⟨0x3c, .v f⟩)
  | .por t f => some (t, ⟨0x3d, .v f⟩)
  | .pxor t f => some (t, ⟨0x3e, .v f⟩)
  | .pnot t f => some (t, ⟨0x3f, .v f⟩)
  | .vfma t f => some (t, ⟨0x90, .v f⟩)
  | .vfms t f => some (t, ⟨0x91, .v f⟩)
  | .vfnma t f => some (t, ⟨0x92, .v f⟩)
  | .vfnms t f => some (t, ⟨0x93, .v f⟩)
  | .vdiv t f => some (t, ⟨0x94, .v f⟩)
  | .vsqrt t f => some (t, ⟨0x95, .v f⟩)
  | .sadd t f => some (t, ⟨0x40, .s f⟩)
  | .ssub t f => some (t, ⟨0x41, .s f⟩)
  | .smul t f => some (t, ⟨0x42, .s f⟩)
  | .sand t f => some (t, ⟨0x43, .s f⟩)
  | .sor t f => some (t, ⟨0x44, .s f⟩)
  | .sxor t f => some (t, ⟨0x45, .s f⟩)
  | .sshl t f => some (t, ⟨0x46, .s f⟩)
  | .sshr t f => some (t, ⟨0x47, .s f⟩)
  | .sfadd t f => some (t, ⟨0x48, .s f⟩)
  | .sfmul t f => some (t, ⟨0x49, .s f⟩)
  | .sfdiv t f => some (t, ⟨0x4a, .s f⟩)
  | .sfcmplt t f => some (t, ⟨0x4b, .s f⟩)
  | .sli t f => some (t, ⟨0xc0, .si f⟩)
  | .slih t f => some (t, ⟨0xc1, .si f⟩)
  | .vld t f => some (t, ⟨0xa0, .m f⟩)
  | .vst t f => some (t, ⟨0xa1, .m f⟩)
  | .vlds t f => some (t, ⟨0xa2, .m f⟩)
  | .vsts t f => some (t, ⟨0xa3, .m f⟩)
  | .vgath t f => some (t, ⟨0xa4, .m f⟩)
  | .vscat t f => some (t, ⟨0xa5, .m f⟩)
  | .sld t f => some (t, ⟨0xa6, .m f⟩)
  | .sst t f => some (t, ⟨0xa7, .m f⟩)
  | .aaddD t f => some (t, ⟨0xa8, .m f⟩)
  | .saaddD t f => some (t, ⟨0xa9, .m f⟩)
  | .br t f => some (t, ⟨0x60, .b f⟩)
  | .call t f => some (t, ⟨0x67, .b f⟩)
  | .bany t f => some (t, ⟨0x61, .b f⟩)
  | .ball t f => some (t, ⟨0x62, .b f⟩)
  | .bnone t f => some (t, ⟨0x63, .b f⟩)
  | .beq t f => some (t, ⟨0x64, .bc f⟩)
  | .bne t f => some (t, ⟨0x65, .bc f⟩)
  | .blt t f => some (t, ⟨0x66, .bc f⟩)
  | .ret t f => some (t, ⟨0x68, .e f⟩)
  | .endThread t f => some (t, ⟨0x69, .e f⟩)
  | .barT t f => some (t, ⟨0x70, .e f⟩)
  | .barK t f => some (t, ⟨0x71, .e f⟩)
  | .mfence t f => some (t, ⟨0x72, .e f⟩)
  | .setprog t f => some (t, ⟨0x73, .e f⟩)
  | .rdcyc t f => some (t, ⟨0x74, .e f⟩)
  | .rdbud t f => some (t, ⟨0x75, .e f⟩)
  | .epost t f => some (t, ⟨0x76, .e f⟩)
  | .ewait t f => some (t, ⟨0x77, .e f⟩)
  | .evsig t f => some (t, ⟨0x78, .e f⟩)
  | .evwait t f => some (t, ⟨0x79, .e f⟩)
  | .rdfps t f => some (t, ⟨0x7b, .e f⟩)
  | .engineRemoval _ => none
  | .relockStart _ => none
  | .vectorCheckComplete _ _ => none
  | .toneCheckComplete _ _ _ => none
  | .indexSearchComplete _ _ _ => none
  | .acquisitionComplete _ => none
  | .recoveryRunComplete _ _ _ => none
  | .rateExcursion _ => none
  | .calibSlotStart _ => none
  | .calibSlotEnd _ _ => none
  | .unitMapOut _ => none
  | .combStable _ => none
  | .combOutputDrop _ => none
  | .slewUpdate _ _ => none
  | .monitorOutput _ _ => none
  | .monitorSelfcalComplete _ _ _ _ => none
  | .lossLocatorRun _ _ => none
  | .ageingRecordWrite _ => none
  | .residWindowEnd => none
  | .laneWindowEnd _ => none
  | .scrubRead _ _ _ _ => none
  | .flashSaveComplete => none
  | .planValidation => none
  | .planActivation => none
  | .laneTrainingStart _ => none
  | .laneTrained _ _ => none
  | .lossOfLight _ => none
  | .probePulse _ => none
  | .laneFecFailure _ => none
  | .rendezvous _ => none
  | .collectData _ => none
  | .polonaiseValues _ => none
  | .acknowledgement _ _ _ => none
  | .cancelNotice _ => none
  | .slotResend _ => none
  | .peerContractLapse _ _ => none
  | .attnPress _ => none
  | .connectorQuiesce _ => none
  | .attentionCycleEnd _ => none
  | .doorbell _ _ _ => none
  | .memRead _ _ _ => none
  | .memWrite _ _ _ => none
  | .heartbeat _ => none
  | .haResp _ _ _ => none
  | .credit _ _ _ => none
  | .linkNak _ => none
  | .linkReplayTimeout _ => none
  | .haRespTimeout _ => none
  | .openSession _ _ => none
  | .close _ => none
  | .claim _ _ _ _ => none
  | .timers _ _ _ => none
  | .attest _ _ => none
  | .stage _ _ _ => none
  | .stageComplete => none
  | .activate _ _ => none
  | .confirm _ => none
  | .heartbeatLost _ => none
  | .graceEnd _ => none
  | .reaper _ => none
  | .watchdogExpiry _ _ => none
  | .processorResumed _ => none
  | .processorSwitch _ => none
  | .processorReady _ => none
  | .updateRollback _ => none
  | .activateLatchTimeout => none
  | .powerLimiter _ _ _ _ => none
  | .thermalLoop _ => none
  | .thermalTrip _ _ => none
  | .emergencyLatchClear => none
  | .supplyDipStart _ _ _ => none
  | .supplyDipEnd _ => none
  | .dipReferenceCheck _ => none
  | .powerFailWarning _ _ => none
  | .supplyReset _ _ _ => none
  | .powerOnReset => none
  | .coldReset => none
  | .hubRelease _ => none
  | .wakeEvent _ => none
  | .retainEntryComplete => none
  | .retainExitComplete _ => none
  | .powerdownComplete => none
  | .sqDoorbellWrite _ _ _ => none
  | .cqHeadWrite _ _ _ => none
  | .sqEnable _ _ _ => none
  | .sqDisable _ _ _ => none
  | .sqQfullClear _ _ => none
  | .cqEnable _ _ _ => none
  | .frameStepRequest _ => none
  | .planArm _ => none
  | .planDisarm _ => none
  | .shadowCtrlWrite _ _ => none
  | .wideSelWrite _ _ => none
  | .wideSnapshotReady _ => none
  | .wideData3Read _ => none
  | .cfgCommit _ => none
  | .cfgSuspend _ => none
  | .lockWrite _ _ => none
  | .assetTagWrite _ _ => none
  | .powerCapWrite _ _ => none
  | .powerCapCWrite _ _ => none
  | .tripLimitWrite _ _ => none
  | .tripLimitCWrite _ _ => none
  | .laserEnableWrite _ _ => none
  | .laserEnableCWrite _ _ => none
  | .guardPendingExpiry _ => none
  | .scalePageWrite _ _ => none
  | .scalePageRefresh _ => none
  | .scaleWindowWrite _ _ _ => none
  | .pwrReqRun _ _ => none
  | .pwrReqDoze _ _ => none
  | .pwrReqRetain _ _ => none
  | .pwrReqOff _ _ => none
  | .pwrWakeWrite _ _ _ => none
  | .resetCtrlWarm _ => none
  | .issueFloorWrite _ _ => none
  | .aliasWrite _ _ _ _ => none
  | .registerWrite _ _ _ _ => none
  | .entdaa _ => none
  | .setdasa _ => none
  | .rstdaa => none
  | .enec _ => none
  | .disec _ => none
  | .getpid => none
  | .getbcr => none
  | .getdcr => none
  | .getstatus => none
  | .i3cPrivateRead _ => none
  | .blockWrite _ _ => none
  | .bootSlotA _ => none
  | .debugHalt _ => none
  | .debugStep _ => none
  | .debugReadWord _ _ => none
  | .debugWriteWord _ _ _ => none
  | .staleCopyRefresh => none
  | .toneOscillatorCycle _ => none
  | .slotFrameSend _ => none
  | .linkLayerAck _ _ => none
  | .combStartTimeout _ => none
  | .hbmStackNoAnswer _ => none
  | .alertWindowExpiry _ => none
  | .retainRailWaitEnd => none
  | .retainRailWaitTimeout => none
  | .restoreFactoryWriteComplete => none
  | .confirmWriteComplete => none

/-- A well-formed vector core command names one of the 2,048 threads and holds an instruction that an image may
hold; a well-formed command of any other kind needs no more than its operand types say, and what it names is tested
by its meaning. -/
def Instr.wf (i : Instr) : Bool :=
  match i.core? with
  | some (t, c) => decide (t < 2048) && c.wf
  | none => true

end Sys2Proof
end

