-- ==== Sys2Proof/Machine/Cores.lean ====
section
/-! DEFINITION. The vector cores (07): registers, fetching an instruction, what every instruction shares, typed lanes, and the memory of a kernel. -/

namespace Sys2Proof.Machine

/-! ## Registers (07 R340) -/

/-- A scalar register; s0 reads as 0. -/
def Thread.sreg (th : Thread) (n : BitVec 5) : Word64 := if n = 0 then 0 else th.s.get 0 n.toNat
/-- Write a scalar register; s0 ignores writes. -/
def Thread.setS (th : Thread) (n : BitVec 5) (v : Word64) : Thread :=
  if n = 0 then th else { th with s := th.s.set 0 n.toNat v }
/-- Lane `i` of a vector register. -/
def Thread.lane (th : Thread) (v : BitVec 6) (i : Nat) : Word64 := th.v.get 0 (32 * v.toNat + i)
/-- Write lane `i` of a vector register. -/
def Thread.setLane (th : Thread) (v : BitVec 6) (i : Nat) (w : Word64) : Thread :=
  { th with v := th.v.set 0 (32 * v.toNat + i) w }
/-- A predicate register; p0 reads as all ones. -/
def Thread.preg (th : Thread) (p : BitVec 3) : BitVec 32 := if p = 0 then BitVec.allOnes 32 else th.p.get 0 p.toNat
/-- Write a predicate register; p0 ignores writes. -/
def Thread.setP (th : Thread) (p : BitVec 3) (v : BitVec 32) : Thread :=
  if p = 0 then th else { th with p := th.p.set 0 p.toNat v }
/-- Record floating-point conditions in FPSTAT, which is sticky (07 R357). -/
def Thread.raise (th : Thread) (fl : BitVec 5) : Thread := { th with fpstat := th.fpstat ||| fl }
/-- Lane `i` is active under predicate `p` (07 R341). -/
def Thread.active (th : Thread) (p : BitVec 3) (i : Nat) : Bool := (th.preg p).getLsbD i
/-- The scalar register a 6-bit vector field names by its low five bits (07 R355). -/
def lowS (v : BitVec 6) : BitVec 5 := v.extractLsb' 0 5
/-- The predicate register a vector field names by its low three bits (07 R355). -/
def lowP (v : BitVec 6) : BitVec 3 := v.extractLsb' 0 3
/-- The lane numbers. -/
def lanes : List Nat := List.range 32

/-! ## Kernels and fetching (07 R337, R344) -/

/-- The key of a byte of the local store window of a kernel on a core. -/
def localKey (job core a : Nat) : Nat := (job * 256 + core) * 0x80000 + a
/-- A byte of a local store window; undefined until something is written there (07 R345; log 16). -/
def State.localByte (s : State) (job core a : Nat) : Byte :=
  match s.locals.get none (localKey job core a) with
  | some b => b
  | none => Config.localByte (localKey job core a)
/-- Bytes of a local store window. -/
def State.localBytes (s : State) (job core a : Nat) : Nat → List Byte
  | 0 => []
  | n + 1 => s.localByte job core a :: s.localBytes job core (a + 1) n
/-- Local store with bytes written from a key on. -/
def writeLocals (m : Sparse (Option Byte)) (k : Nat) : List Byte → Sparse (Option Byte)
  | [] => m
  | b :: bs => writeLocals (m.set none k (some b)) (k + 1) bs
/-- Write bytes of a local store window. -/
def State.writeLocal (s : State) (job core a : Nat) (bs : List Byte) : State :=
  { s with locals := writeLocals s.locals (localKey job core a) bs }

/-- The kernel of a job. -/
def State.kernel? (s : State) (job : Nat) : Option Kernel := s.kernels.find? fun k => k.job == job
/-- Change the kernel of a job. -/
def State.modKernel (s : State) (job : Nat) (f : Kernel → Kernel) : State :=
  { s with kernels := mapIf (fun k => k.job == job) f s.kernels }
/-- Budget cycles a kernel has used: from the boundary that begins frame S, 0.16 of a cycle per symbol (07 R368;
00, Device time). -/
def State.cyclesUsed (s : State) (k : Kernel) : Nat :=
  (s.frame.counter - k.start) * Config.cyclesPerFrame + s.frame.symbol * 4 / 25
/-- The core of a thread. -/
def coreOf (t : Nat) : Nat := t / 8
/-- The instruction at a thread's program counter, fetched from the image region of its window (07 R344). -/
def State.fetch (s : State) (k : Kernel) (t : Nat) : Option CoreInstr :=
  let pc := (s.thread t).pc
  match decodeCore (BitVec.ofNat 64 (ofLe (s.localBytes k.job (coreOf t) pc 8))) with
  | some c => if pc + c.len ≤ k.size then some c else none
  | none => none

/-- The scalar registers that an instruction reads (07 R353, R355). -/
def coreScalars (c : CoreInstr) : List (BitVec 5) :=
  match c.fields with
  | .v f => if c.op = 0x31 then [lowS f.va] else if c.op = 0x32 ∨ c.op = 0x33 then [lowS f.vb] else []
  | .s f => [f.sa, f.sb]
  | .e f =>
    if c.op = 0x68 then [31]
    else if c.op = 0x73 ∨ c.op = 0x77 then [f.sa]
    else if c.op = 0x76 ∨ c.op = 0x78 ∨ c.op = 0x79 then [f.sa, f.sb]
    else []
  | .si f => if c.op = 0xC1 then [f.sd] else []
  | .m f => [f.sa] ++ (if c.op = 0xA2 ∨ c.op = 0xA3 then [f.sb] else []) ++
      (if c.op = 0xA7 ∨ c.op = 0xA9 then [lowS f.vd] else [])
  | .b _ => []
  | .bc f => [f.sa, f.sb]

/-- The vector registers that an instruction reads (07 R353, R355). -/
def coreVectors (c : CoreInstr) : List (BitVec 6) :=
  match c.fields with
  | .v f =>
    let low := c.op &&& 0x7F
    let a := if low = 0x31 ∨ low = 0x35 ∨ 0x3C ≤ low then [] else [f.va]
    let b := if low = 0x06 ∨ low = 0x07 ∨ low = 0x0C ∨ low = 0x0D ∨ low = 0x15 ∨ low = 0x18 ∨ 0x31 ≤ low then [] else [f.vb]
    a ++ b ++ (if 0x90 ≤ c.op ∧ c.op ≤ 0x93 then [f.vc] else [])
  | .m f => (if c.op = 0xA4 ∨ c.op = 0xA5 ∨ c.op = 0xA8 then [f.vi] else []) ++
      (if c.op = 0xA1 ∨ c.op = 0xA3 ∨ c.op = 0xA5 ∨ c.op = 0xA8 then [f.vd] else [])
  | _ => []

/-- The scalar registers that an instruction writes (07 R353, R355). -/
def coreWrites (c : CoreInstr) : List (BitVec 5) :=
  match c.fields with
  | .v f => if c.op = 0x38 then [lowS f.vd] else if c.op = 0x39 ∨ c.op = 0x3A then [lowS f.vd, lowS f.vb] else []
  | .s f => [f.sd]
  | .e f => if c.op = 0x74 ∨ c.op = 0x75 ∨ c.op = 0x76 ∨ c.op = 0x77 ∨ c.op = 0x7B then [f.sd] else []
  | .si f => [f.sd]
  | .m f => if c.op = 0xA6 ∨ c.op = 0xA9 then [lowS f.vd] else []
  | .b _ => if c.op = 0x67 then [31] else []
  | .bc _ => []

/-- An instruction of the thread writes lane `l` of vector register `v` (07 R341, R353, R355). -/
def Thread.writesLane (th : Thread) (c : CoreInstr) (v l : Nat) : Bool :=
  match c.fields with
  | .v f =>
    let low := c.op &&& 0x7F
    !(decide (0x08 ≤ low) && decide (low ≤ 0x0A)) && decide (low < 0x38) && f.vd.toNat == v &&
      (c.op == 0x0B || c.op == 0x34 || th.active f.p l)
  | .m f => (c.op == 0xA0 || c.op == 0xA2 || c.op == 0xA4) && f.vd.toNat == v && th.active f.p l
  | _ => false

/-- The load's register is one that the instruction reads. -/
def LoadDest.meets (d : LoadDest) (c : CoreInstr) : Bool :=
  match d with
  | .scalar sd _ => decide (sd ≠ 0) && (coreScalars c).any fun r => r.toNat == sd
  | .vec vd l => l.any Option.isSome && (coreVectors c).any fun r => r.toNat == vd

/-- What an outstanding load still brings once a later instruction of its thread has written its register: nothing in what that
instruction wrote. -/
def LoadDest.without (d : LoadDest) (th : Thread) (c : CoreInstr) : LoadDest :=
  match d with
  | .scalar sd v => if (coreWrites c).any fun r => r.toNat == sd then .scalar 0 v else d
  | .vec vd l => .vec vd (((List.range l.length).zip l).map fun x => if th.writesLane c vd x.1 then none else x.2)

/-- The source operands of an instruction are available: no outstanding load of the thread brings one (07 R339). -/
def Thread.operandsIn (th : Thread) (c : CoreInstr) : Bool := !(th.loads.any fun l => l.dest.meets c)
/-- The loads that are outstanding after an instruction of the thread. -/
def Thread.loadsAfter (th : Thread) (c : CoreInstr) : List LoadOut := th.loads.map fun l => { l with dest := l.dest.without th c }

/-- The kernel whose instruction a thread can issue now: the thread is ready (07 R339) or waits in EPOST, EWAIT or EVWAIT,
its kernel is within its budgets (07 R370), and the instruction at its program counter is `c` (07 R337). -/
def State.issuing (s : State) (t : Nat) (c : CoreInstr) : Option Kernel :=
  match s.kernel? (s.thread t).kernel with
  | none => none
  | some k =>
    if k.started && ((s.thread t).st == .ready || (s.thread t).st == .waiting) && (s.thread t).operandsIn c &&
        decide (s.cyclesUsed k < k.cycles) && decide (k.traffic < k.budget) && s.fetch k t == some c then some k
    else none

/-- Run an instruction of a thread where it can issue; elsewhere the command does not come about (log 17). -/
def coreRun (t : Nat) (c : CoreInstr) (s : State) (f : Kernel → State → State) : Res :=
  match s.issuing t c with
  | some k => ok (f k s)
  | none => ok s

/-- The thread goes on behind an instruction. -/
def Thread.next (th : Thread) (c : CoreInstr) : Thread :=
  { th with pc := th.pc + c.len, st := .ready, loads := th.loadsAfter c }

/-- An instruction that only changes its thread's registers. -/
def regOp (t : Nat) (c : CoreInstr) (s : State) (f : Thread → Thread) : Res :=
  coreRun t c s fun _ s => s.modThread t fun th => (f th).next c

/-- A branch that is taken by a condition; offsets count instruction words from the branch itself (07, before R353). -/
def branchOp (t : Nat) (c : CoreInstr) (s : State) (taken : Thread → Bool) (ofs : Int) (link : Bool) : Res :=
  coreRun t c s fun _ s => s.modThread t fun th =>
    let target := toBits ((th.pc : Int) + 4 * ofs) 64
    let th' := th.next c
    let th' := if link then th'.setS 31 (BitVec.ofNat 64 (th.pc + 4)) else th'
    if taken th then { th' with pc := target } else th'

/-! ## The end of a kernel (07 R357, R370, R371) -/

/-- Section 0x0006 of the extended report (11 R543). -/
def kernelSection (k : Kernel) (fp : BitVec 5) : List Byte :=
  leBytes 2 0x0006 ++ leBytes 2 0 ++ leBytes 4 k.refused ++ leBytes 4 k.refusedPc ++ leBytes 1 fp.toNat ++
    leBytes 19 0

/-- The OR of every thread's FPSTAT. -/
def State.fpOr (s : State) (k : Kernel) : BitVec 5 :=
  k.ids.foldl (fun fl t => fl ||| (s.thread t).fpstat) 0

/-- The smallest progress value set among a kernel's threads, or 0 (07 R370). -/
def State.progressOf (s : State) (k : Kernel) : Nat :=
  minNat (k.ids.filterMap fun t => (s.thread t).progress)

/-- Stores that a kernel has issued complete, those too that waited for a frame (07 R369, R370). -/
def State.finishStores (s : State) (k : Kernel) : State :=
  k.late.foldl (fun s x => match x.1 with
    | .store _ a bs => if s.onBadStack a then s else s.write a bs
    | .hostStore t a bs => if s.canWrite k.session a then s.haWrite k.session a bs (.write k.job (some t)) else s
    | _ => s) s

/-- End a kernel with a status: its threads stop, loads already issued are dropped, stores already issued complete, its local store is
not kept (07 R345, R370, R371). -/
def State.endKernel (s : State) (k : Kernel) (st : Status) : State :=
  let s := s.finishStores k
  let sec := kernelSection k (s.fpOr k)
  let ofs := if st = .done then 0 else s.progressOf k
  let s := s.modJob k.job fun j => { j.finish st with faultOfs := ofs, report := j.report ++ [sec] }
  { s with
    kernels := s.kernels.filter fun x => x.job != k.job
    reads := s.reads.filter fun r => r.job != k.job
    threads := s.threads.keep fun t => !(k.ids.contains t && (s.thread t).kernel == k.job)
    locals := s.locals.keep fun a => a / (256 * 0x80000) != k.job }

/-- Stop the kernel of a job, when it has one, as at the end of its budget (07 R370). -/
def State.stopKernel (s : State) (job : Nat) (st : Status) : State :=
  match s.kernel? job with
  | some k => s.endKernel k st
  | none => s

/-! ## Typed lanes (07 R341, R353) -/

/-- The lane types. -/
inductive VTy where
  | f64 | f32 | bf | i64 | i32 | i16
  deriving DecidableEq, Repr

/-- The type that T selects (07 R353); the reserved codes are no instruction. -/
def vty (t : BitVec 3) : VTy :=
  match t.toNat with
  | 0 => .f64
  | 1 => .f32
  | 2 => .bf
  | 3 => .i64
  | 4 => .i32
  | _ => .i16

/-- Bits of an element. -/
def VTy.width : VTy → Nat
  | .f64 | .i64 => 64
  | .f32 | .i32 => 32
  | .bf | .i16 => 16
/-- Elements of a lane. -/
def VTy.count (ty : VTy) : Nat := 64 / ty.width
/-- The type is a floating-point one. -/
def VTy.isFp : VTy → Bool
  | .f64 | .f32 | .bf => true
  | _ => false
/-- The code of a type (07 R353). -/
def VTy.code : VTy → Nat
  | .f64 => 0
  | .f32 => 1
  | .bf => 2
  | .i64 => 3
  | .i32 => 4
  | .i16 => 5

/-- Element `j` of a lane. -/
def VTy.elem (ty : VTy) (w : Word64) (j : Nat) : Nat := bits w.toNat (j * ty.width) ty.width
/-- A lane from its elements, in ascending order. -/
def VTy.pack (ty : VTy) (es : List Nat) : Word64 :=
  BitVec.ofNat 64 (es.foldr (fun e n => e % 2 ^ ty.width + 2 ^ ty.width * n) 0)
/-- The elements of a lane. -/
def VTy.elems (ty : VTy) (w : Word64) : List Nat := (List.range ty.count).map (ty.elem w)

/-- The datum of a floating-point element; BF16 is the upper half of binary32 (07 R356). -/
def VTy.fp (ty : VTy) (n : Nat) : Fv :=
  match ty with
  | .f64 => fp64.decode n
  | .f32 => fp32.decode n
  | _ => fp32.decode (n * 65536)

/-- The rounded result in a type: BF16 rounds the binary32 result to its upper 16 bits under the same mode
(07 R356). -/
def VTy.finish (ty : VTy) (rm : Rnd) (r : Ex × BitVec 5) : Nat × BitVec 5 :=
  match ty with
  | .f64 => fp64.finish rm r
  | .f32 => fp32.finish rm r
  | _ =>
    match fp32.finish rm r with
    | (n, fl) => match fp32.decode n with
      | .nan _ => (bf16.qnan, fl)
      | .inf s => (bf16.infBits s, fl)
      | .fin s m e => match bf16.round rm s m 1 e with
        | (n, fl') => (n, fl ||| fl')

/-- The canonical quiet NaN of a type (07 R358). -/
def VTy.qnan : VTy → Nat
  | .f64 => fp64.qnan
  | .f32 => fp32.qnan
  | _ => bf16.qnan
/-- The largest finite value of a type. -/
def VTy.maxBits (ty : VTy) (neg : Bool) : Nat :=
  match ty with
  | .f64 => fp64.maxBits neg
  | .f32 => fp32.maxBits neg
  | _ => bf16.maxBits neg

/-- The free value of an element that the manual does not state (log 9). -/
def freeEl (op : Nat) (ty : VTy) (a b : Nat) : Nat :=
  (Config.vectorValue op ty.code (BitVec.ofNat 64 a) (BitVec.ofNat 64 b)).toNat % 2 ^ ty.width
/-- A free choice between two values the manual both allows (log 9). -/
def freePick {α : Type} (op : Nat) (ty : VTy) (a b : Nat) (x y : α) : α :=
  if freeEl op ty a b % 2 = 1 then x else y

/-- The integer an element holds. -/
def VTy.int (ty : VTy) (n : Nat) : Int := sext n ty.width
/-- The least integer of a type. -/
def VTy.minInt (ty : VTy) : Int := -(2 ^ (ty.width - 1) : Nat)
/-- The largest integer of a type. -/
def VTy.maxInt (ty : VTy) : Int := (2 ^ (ty.width - 1) : Nat) - 1
/-- The integer fits the type. -/
def VTy.fits (ty : VTy) (i : Int) : Bool := decide (ty.minInt ≤ i) && decide (i ≤ ty.maxInt)
/-- An exact integer result; the manual states none that falls outside the type, which is a free value (log 9). -/
def intEl (op : Nat) (ty : VTy) (a b : Nat) (i : Int) : Nat :=
  if ty.fits i then toBits i ty.width else freeEl op ty a b

/-! ## Loads and stores (07 R346 to R352) -/

/-- Where a core's access goes. -/
inductive Target where
  | local' | sram (cluster : Nat) | hbm | host | refused
  deriving DecidableEq, Repr

/-- The target of an access of `n` bytes at an address, with the reasons for refusing it: the space, the image region for a store,
alignment (07 R347); and a store into a session's host aperture tables, which the device forbids (09 R458; log 133). -/
def State.target (s : State) (k : Kernel) (device store : Bool) (a : Int) (n : Nat) : Target :=
  if a < 0 ∨ a % (n : Int) ≠ 0 then .refused
  else if !device then
    if a.toNat + n ≤ k.lsBytes ∧ ¬(store = true ∧ a.toNat < k.size) then .local' else .refused
  else match s.space a.toNat with
    | .hbm => if store && s.reachesTables (a, a + n - 1) then .refused else .hbm
    | .sram c => .sram c
    | .aperture => .host
    | _ => .refused

/-- What one element access of a kernel leads to: it is performed, refused (07 R347), or stops the kernel with a
status (07 R348; 09 R449, R453; 16 R725). -/
inductive Access where
  | fine | refused | stop (st : Status)
  deriving DecidableEq, Repr

/-- The outcome of one element access; `reads` says that it consumes what it finds. -/
def State.access (s : State) (k : Kernel) (tg : Target) (a : Nat) (reads : Bool) : Access :=
  match tg with
  | .refused => .refused
  | .local' => .fine
  | .sram _ => if s.onBadCluster a then .stop .unitFailed
      else if reads && s.poisoned a then .stop .dataUncorrectable else .fine
  | .hbm => if s.onBadStack a then .stop .unitFailed
      else if reads && s.poisoned a then .stop .dataUncorrectable else .fine
  | .host => if (if reads then s.canRead k.session a else s.canWrite k.session a) then .fine
      else .stop .translationFault

/-- Count a refused access: RANGE, the count and the first PC (07 R347). -/
def State.refuse (s : State) (k : Kernel) (pc : Nat) : State :=
  (s.modKernel k.job fun k => { k with refused := k.refused + 1,
                                       refusedPc := if k.refused = 0 then pc else k.refusedPc }).modJob k.job
    fun j => { j with flags := { j.flags with range := true } }

/-- One element of an access: its lane, its address, and its byte position within the lane. -/
structure Elem where
  lane : Nat
  addr : Int
  sub  : Nat := 0
  deriving DecidableEq, Repr

/-- Counted traffic of an access (07 R346, R349): 2,048 B for each distinct HBM granule, and the bytes of the host
aperture. -/
def State.trafficOf (s : State) (k : Kernel) (device store : Bool) (n : Nat) (es : List Elem) : Nat :=
  let hit := es.map fun e => (s.target k device store e.addr n, e.addr.toNat)
  let grans := (hit.filter fun x => x.1 == .hbm).foldl (fun l x => insertNat (x.2 / 2048) l) []
  2048 * grans.length + n * (hit.filter fun x => x.1 == .host).length

/-- Counted requests of a kernel wait once its traffic of the frame has reached TRAFFIC_RATE (07 R369). -/
def Kernel.throttled (k : Kernel) (traffic : Nat) : Bool := decide (0 < traffic) && (decide (k.rate ≤ k.inFrame) || !k.late.isEmpty)

/-- Count traffic. -/
def State.count (s : State) (k : Kernel) (n : Nat) : State :=
  s.modKernel k.job fun k => { k with traffic := k.traffic + n, inFrame := k.inFrame + n }

/-- Request one HBM granule (08 R390). -/
def State.readGranule (s : State) (job a : Nat) (use : ReadUse) : State :=
  { s with reads := s.reads ++ [{ id := s.nextRead, stack := stackAt s.remapped a, address := a, job := job, use := use }],
           nextRead := s.nextRead + 1 }

/-- A request of a kernel goes out; one that waited can meet a page revoked or a stack failed since (07 R348; 09 R453). -/
def State.perform (s : State) (k : Kernel) : KernelReq → State
  | .granule t n a parts => s.readGranule k.job a (.load t n parts)
  | .image a => s.readGranule k.job a .image
  | .hostRead t n lane sub a size =>
    if s.canRead k.session a then s.haRead k.session a size (.load k.job t n lane sub size)
    else (s.logXlat k.session a).stopKernel k.job .translationFault
  | .store _ a bs => if s.onBadStack a then s.stopKernel k.job .unitFailed else s.write a bs
  | .hostStore t a bs =>
    if s.canWrite k.session a then s.haWrite k.session a bs (.write k.job (some t))
    else (s.logXlat k.session a).stopKernel k.job .translationFault

/-- A request that counts `cost` bytes can go out in this frame (07 R369). -/
def Kernel.mayAsk (k : Kernel) (cost : Nat) : Bool := decide (cost = 0) || decide (k.inFrame < k.rate)

/-- A request of a kernel goes out, or waits for the next frame behind those that wait (07 R369). -/
def State.ask (s : State) (job : Nat) (x : KernelReq × Nat) : State :=
  match s.kernel? job with
  | none => s
  | some k =>
    if k.late.isEmpty && k.mayAsk x.2 then (s.count k x.2).perform k x.1
    else s.modKernel job fun k => { k with late := k.late ++ [x] }

/-- Requests that waited go out in order as far as TRAFFIC_RATE reaches (07 R369). -/
def State.askLate (job : Nat) : List (KernelReq × Nat) → State → State
  | [], s => s
  | x :: rest, s => match s.kernel? job with
    | none => s
    | some k =>
      if k.mayAsk x.2 then
        State.askLate job rest (((s.modKernel job fun k => { k with late := rest }).count k x.2).perform k x.1)
      else s

/-- What a thread's load gathers: the value of each lane accessed, the elements it can access, and the status that
stops its kernel. -/
structure Gather where
  st    : State
  vals  : List (Nat × Nat) := []
  done  : List Elem := []
  /-- Floating-point conditions that the accesses raised (07 R357). -/
  fl    : BitVec 5 := 0
  stop  : Option Status := none

/-- Load one element of `n` bytes: data of the device is read at issue and reaches the register when the load returns (log 18). -/
def loadElem (k : Kernel) (t : Nat) (device : Bool) (n pc : Nat) (g : Gather) (e : Elem) : Gather :=
  if g.stop.isSome then g else
  let tg := g.st.target k device false e.addr n
  let a := e.addr.toNat
  match g.st.access k tg a true with
  | .refused => { g with st := g.st.refuse k pc, vals := g.vals ++ [(e.lane, 0)] }
  | .stop st => { g with st := if st = .translationFault then g.st.logXlat k.session a else g.st, stop := some st }
  | .fine => match tg with
    | .local' => { g with vals := g.vals ++ [(e.lane, 2 ^ (8 * e.sub) * ofLe (g.st.localBytes k.job (coreOf t) a n))] }
    | .host => { g with vals := g.vals ++ [(e.lane, 0)], done := g.done ++ [e] }
    | _ => { g with vals := g.vals ++ [(e.lane, 2 ^ (8 * e.sub) * g.st.word a n)], done := g.done ++ [e] }

/-- The elements of an access that lie in HBM. -/
def State.hbmElems (s : State) (k : Kernel) (device store : Bool) (n : Nat) (es : List Elem) : List Elem :=
  es.filter fun e => s.target k device store e.addr n == .hbm

/-- The counted requests of a load: one for each HBM granule, one for each element in the host aperture (07 R346, R349). -/
def State.loadRequests (s : State) (k : Kernel) (t : Nat) (device : Bool) (n : Nat) (es : List Elem) : List (KernelReq × Nat) :=
  let hbm := s.hbmElems k device false n es
  let nl := (s.thread t).nextLoad
  (hbm.foldl (fun l e => insertNat (e.addr.toNat / 2048) l) []).map (fun g =>
    (.granule t nl (2048 * g) ((hbm.filter fun e => e.addr.toNat / 2048 == g).map fun e => (e.addr.toNat, n)), 2048)) ++
  (es.filter fun e => s.target k device false e.addr n == .host).map fun e => (.hostRead t nl e.lane e.sub e.addr.toNat n, n)

/-- The bytes that a store leaves for an element. -/
def Elem.bytes (e : Elem) (n : Nat) (val : Nat → Word64) : List Byte := leBytes n ((val e.lane).toNat / 2 ^ (8 * e.sub))

/-- Store one element in local store or cluster SRAM. -/
def storeElem (k : Kernel) (t : Nat) (device : Bool) (n pc : Nat) (val : Nat → Word64) (g : Gather) (e : Elem) :
    Gather :=
  if g.stop.isSome then g else
  let tg := g.st.target k device true e.addr n
  let a := e.addr.toNat
  match g.st.access k tg a false with
  | .refused => { g with st := g.st.refuse k pc }
  | .stop st => { g with st := if st = .translationFault then g.st.logXlat k.session a else g.st, stop := some st }
  | .fine => match tg with
    | .local' => { g with st := g.st.writeLocal k.job (coreOf t) a (e.bytes n val) }
    | .sram _ => { g with st := g.st.write a (e.bytes n val) }
    | _ => { g with done := g.done ++ [e] }

/-- The counted requests of a store, in the order of its elements: an HBM granule counts with its first element (07 R346, R349). -/
def State.storeRequests (s : State) (k : Kernel) (t : Nat) (device : Bool) (n : Nat) (val : Nat → Word64) (es : List Elem) :
    List (KernelReq × Nat) :=
  ((List.range es.length).zip es).filterMap fun x => match s.target k device true x.2.addr n with
    | .hbm => some (.store t x.2.addr.toNat (x.2.bytes n val),
        if (s.hbmElems k device true n (es.take x.1)).any fun e => e.addr.toNat / 2048 == x.2.addr.toNat / 2048 then 0 else 2048)
    | .host => some (.hostStore t x.2.addr.toNat (x.2.bytes n val), n)
    | _ => none

/-- A load becomes outstanding (07 R346). -/
def Thread.awaits (th : Thread) (d : LoadDest) (waits : Nat) : Thread :=
  { th with loads := th.loads ++ [⟨th.nextLoad, d, waits⟩], nextLoad := th.nextLoad + 1 }

/-- The reads of a load's elements in HBM and cluster SRAM find the errors there (09 R448, R449). -/
def State.findElems (s : State) (k : Kernel) (device : Bool) (n : Nat) (es : List Elem) : State :=
  es.foldl (fun s e => match s.target k device false e.addr n with
    | .hbm | .sram _ => s.findIn e.addr.toNat n
    | _ => s) s

/-- A load of a thread: it waits while throttled (07 R369), stops its kernel, or becomes outstanding until
LOAD_RETURN. -/
def loadOp (t : Nat) (c : CoreInstr) (s : State) (device : Bool) (n : Nat) (es : Thread → List Elem)
    (dest : Thread → List (Nat × Nat) → LoadDest) : Res :=
  coreRun t c s fun k s =>
    let th := s.thread t
    let l := es th
    let tr := s.trafficOf k device false n l
    if k.throttled tr then s else
    let g := l.foldl (loadElem k t device n th.pc) { st := s.findElems k device n l }
    let rs := s.loadRequests k t device n g.done
    let s := forEach rs (fun s x => s.ask k.job x) g.st
    match g.stop with
    | some st => s.stopKernel k.job st
    | none => s.modThread t fun th => (th.next c).awaits (dest th g.vals) rs.length

/-- A contiguous store writes whole every block that its elements cover together (09 R450). -/
def State.clearCovered (s : State) (k : Kernel) (device : Bool) (n : Nat) (es : List Elem) : State :=
  let hit := fun (a : Nat) => es.any fun e => decide (e.addr ≤ a) && decide ((a : Int) < e.addr + n) && (match s.target k device true e.addr n with
    | .hbm | .sram _ => true
    | _ => false)
  let whole := fun (b : Nat) => !s.onBadStack (64 * b) && (List.range 64).all fun i => hit (64 * b + i)
  { s with poison := s.poison.filter fun b => !whole b, latent := s.latent.filter fun x => !whole x.1 }

/-- A store of a thread; `whole` says that its elements are one contiguous write. -/
def storeOp (t : Nat) (c : CoreInstr) (s : State) (device : Bool) (n : Nat) (es : Thread → List Elem)
    (val : Thread → Nat → Word64) (whole : Bool := false) : Res :=
  coreRun t c s fun k s =>
    let th := s.thread t
    let l := es th
    let tr := s.trafficOf k device true n l
    if k.throttled tr then s else
    let g := l.foldl (storeElem k t device n th.pc (val th)) { st := s }
    let u := forEach (s.storeRequests k t device n (val th) g.done) (fun s x => s.ask k.job x) g.st
    match g.stop with
    | some st => u.stopKernel k.job st
    | none => (if whole then u.clearCovered k device n l else u).modThread t fun th => th.next c

/-- Every access of a thread is complete: its loads have returned, its writes are answered and none of its requests waits (07 R350). -/
def State.accessesDone (s : State) (k : Kernel) (t : Nat) : Bool :=
  (s.thread t).loads.isEmpty && !(s.ha.any fun r => r.use == .write k.job (some t)) &&
    !(k.late.any fun x => match x.1 with
      | .granule n _ _ _ | .hostRead n _ _ _ _ _ | .store n _ _ | .hostStore n _ _ => n == t
      | .image _ => false)

/-- An answer to a load of a thread has come; one whose kernel has stopped takes none (07 R370). -/
def State.loadReturned (s : State) (job thread n : Nat) : State :=
  s.modThread thread fun th => if th.kernel = job then
    { th with loads := mapIf (fun l => l.n == n) (fun l => { l with waits := l.waits - 1 }) th.loads } else th

/-- Element width in bytes that W selects (07 R353). -/
def widthOf (w : BitVec 2) : Nat := if w = 0 then 8 else if w = 1 then 4 else 2

/-- The lanes that a memory instruction accesses (07 R341). -/
def activeLanes (th : Thread) (p : BitVec 3) : List Nat := lanes.filter (th.active p)

/-- `s(SA) + OFS24`. -/
def baseAddr (th : Thread) (f : FM) : Int := ((th.sreg f.sa).toNat : Int) + f.ofs.toInt

/-- The 256 contiguous bytes of VLD and VST: lane i is the 8 bytes at `base + 8 i`, in elements of `n` bytes, each
aligned to its own width (07 R347, R355). -/
def contiguous (th : Thread) (f : FM) (n : Nat) : List Elem :=
  (activeLanes th f.p).flatMap fun i => (List.range (8 / n)).map fun (j : Nat) =>
    { lane := i, addr := baseAddr th f + 8 * (i : Int) + (n : Int) * (j : Int), sub := n * j }
/-- The lanes of VLDS and VSTS: lane i at `base + i × s(SB)`. -/
def strided (th : Thread) (f : FM) : List Elem :=
  (activeLanes th f.p).map fun i => { lane := i, addr := baseAddr th f + (i : Int) * (th.sreg f.sb).toInt }
/-- The lanes of VGATH and VSCAT: lane i at `base + VI[i] × element size` (07 R349). -/
def indexed (th : Thread) (f : FM) (n : Nat) : List Elem :=
  (activeLanes th f.p).map fun i => { lane := i, addr := baseAddr th f + (th.lane f.vi i).toInt * (n : Int) }

/-- The whole lanes that a contiguous load writes. -/
def wholeDest (vd : BitVec 6) (vals : List (Nat × Nat)) : LoadDest :=
  .vec vd.toNat (lanes.map fun i =>
    if vals.any fun x => x.1 == i then
      some (BitVec.ofNat 64 (sumNat ((vals.filter fun x => x.1 == i).map (·.2))))
    else none)

/-- The lanes that a load of one element each writes: the element in the low bits; the manual does not state the bits
above an element narrower than the lane, which are free (log 9). -/
def elemDest (op : Nat) (vd : BitVec 6) (n : Nat) (vals : List (Nat × Nat)) : LoadDest :=
  .vec vd.toNat (lanes.map fun i => (vals.find? fun x => x.1 == i).map fun x =>
    BitVec.ofNat 64 (x.2 % 2 ^ (8 * n) + 2 ^ (8 * n) *
      ((Config.vectorValue op n (BitVec.ofNat 64 x.2) (BitVec.ofNat 64 i)).toNat / 2 ^ (8 * n))))

end Sys2Proof.Machine
end

