-- ==== Sys2Proof/Machine/Generator.lean ====
section
/-! DEFINITION. The 128-bit linear feedback generators (04 R197). The spec gives their width and their period and no polynomial: the
generator of the model is some linear map of that period, of which a proof can know nothing else. That there is one is shown
with the map of the polynomial X¹²⁸ + X⁷ + X² + X + 1, whose order is 2¹²⁸ − 1. -/

namespace Sys2Proof.Config

/-- A linear feedback generator of 128 bits and period 2¹²⁸ − 1 (04 R197): a step adds modulo 2 and takes a state other than zero
back to itself after the multiples of the period only. -/
structure Lfsr where
  step : BitVec 128 → BitVec 128
  linear : ∀ a b, step (a ^^^ b) = step a ^^^ step b
  period : ∀ g, g ≠ 0 → ∀ n, step^[n] g = g ↔ 2 ^ 128 - 1 ∣ n

/-! ## That there is such a generator -/

/-- Multiplication by X modulo the polynomial, on coefficients. -/
def galoisStep (v : BitVec 128) : BitVec 128 := v <<< 1 ^^^ (if v.getLsbD 127 then 0x87#128 else 0#128)

/-- The sum of the steps of `v` that the low `n` bits of `a` choose. -/
def galoisSum : Nat → BitVec 128 → BitVec 128 → BitVec 128
  | 0, _, _ => 0#128
  | n + 1, a, v => (if a.getLsbD 0 then v else 0#128) ^^^ galoisSum n (a >>> 1) (galoisStep v)

/-- Multiplication modulo the polynomial. -/
def galoisMul (a v : BitVec 128) : BitVec 128 := galoisSum 128 a v

theorem galoisStep_xor (x y : BitVec 128) : galoisStep (x ^^^ y) = galoisStep x ^^^ galoisStep y := by
  have c (a b t : BitVec 128) : a ^^^ t ^^^ (b ^^^ t) = a ^^^ b := by
    rw [BitVec.xor_comm b t, BitVec.xor_assoc, ← BitVec.xor_assoc t t, BitVec.xor_self, BitVec.zero_xor]
  simp only [galoisStep, BitVec.getLsbD_xor, BitVec.shiftLeft_xor_distrib]
  cases x.getLsbD 127 <;> cases y.getLsbD 127 <;>
    simp only [Bool.xor_false, Bool.xor_self, ite_true, Bool.false_eq_true, ite_false, BitVec.xor_zero, Bool.xor_true, Bool.not_false]
  · ac_rfl
  · ac_rfl
  · rw [c]

theorem galoisSum_xor (n : Nat) : ∀ a x y, galoisSum n a (x ^^^ y) = galoisSum n a x ^^^ galoisSum n a y := by
  induction n with
  | zero => simp [galoisSum]
  | succ n ih => 
    intro a x y
    simp only [galoisSum, galoisStep_xor, ih]
    cases a.getLsbD 0 <;> simp; ac_rfl

/-- A map that keeps sums and commutes with the step. -/
structure OfStep (L : BitVec 128 → BitVec 128) : Prop where
  add : ∀ x y, L (x ^^^ y) = L x ^^^ L y
  comm : ∀ x, L (galoisStep x) = galoisStep (L x)

theorem OfStep.zero {L} (h : OfStep L) : L 0#128 = 0#128 := by
  have := h.add 0#128 0#128
  simpa using this

theorem OfStep.sum {L} (h : OfStep L) (n : Nat) : ∀ a v, L (galoisSum n a v) = galoisSum n a (L v) := by
  induction n with
  | zero => simp [galoisSum, h.zero]
  | succ n ih =>
    intro a v
    simp only [galoisSum, h.add, ih, h.comm]
    cases a.getLsbD 0 <;> simp [h.zero]

theorem ofStep_step : OfStep galoisStep := ⟨galoisStep_xor, fun _ => rfl⟩
theorem ofStep_mul (a) : OfStep (galoisMul a) := ⟨galoisSum_xor 128 a, fun x => (ofStep_step.sum 128 a x).symm⟩

theorem galoisSum_twoPow (n : Nat) : ∀ k a, n + k = 128 → galoisSum n a (BitVec.twoPow 128 k) = a <<< k := by
  induction n with
  | zero => intro k a h; simp [galoisSum, show k = 128 by omega, BitVec.shiftLeft_eq_zero]
  | succ n ih =>
    intro k a h
    have step : galoisSum n (a >>> 1) (galoisStep (BitVec.twoPow 128 k)) = (a >>> 1) <<< (k + 1) := by
      rcases Nat.eq_zero_or_pos n with rfl | hn
      · simp [galoisSum, show k = 127 by omega, BitVec.shiftLeft_eq_zero]
      · rw [show galoisStep (BitVec.twoPow 128 k) = BitVec.twoPow 128 (k + 1) from ?_, ih _ _ (by omega)]
        simp only [galoisStep, BitVec.getLsbD_twoPow, show ¬ (k = 127) by omega, decide_false, Bool.and_false,
          Bool.false_eq_true, ite_false, BitVec.xor_zero]
        simp only [BitVec.twoPow, ← BitVec.shiftLeft_add]
    simp only [galoisSum, step]
    apply BitVec.eq_of_getLsbD_eq
    intro i hi
    rcases Nat.lt_trichotomy i k with h | rfl | h
    · cases h0 : a.getLsbD 0 <;> simp [BitVec.getLsbD_twoPow, show i < k + 1 by omega, h, show ¬ k = i by omega]
    · cases h0 : a.getLsbD 0 <;> simp_all [BitVec.getLsbD_eq_getElem]
    · have h1 : 1 + (i - (k + 1)) = i - k := by omega
      cases h0 : a.getLsbD 0 <;> simp [hi, show ¬ (i < k + 1) by omega, show ¬ i < k by omega, h1, show ¬ i = k by omega,
        BitVec.getLsbD_eq_getElem (show i - k < 128 by omega)]

theorem galoisMul_one (a) : galoisMul a 1#128 = a := by
  simpa [galoisMul, BitVec.twoPow] using galoisSum_twoPow 128 0 a rfl

/-- Two such maps that agree at 1 agree. -/
theorem OfStep.ext {L M} (h : OfStep L) (k : OfStep M) (e : L 1#128 = M 1#128) (v) : L v = M v := by
  rw [← galoisMul_one v, galoisMul, h.sum, k.sum, e]

theorem galoisMul_mul (a b v) : galoisMul (galoisMul a b) v = galoisMul a (galoisMul b v) :=
  OfStep.ext (ofStep_mul _) (M := fun v => galoisMul a (galoisMul b v))
    ⟨fun x y => by rw [(ofStep_mul b).add, (ofStep_mul a).add], fun x => by rw [(ofStep_mul b).comm, (ofStep_mul a).comm]⟩
    (by simp only [galoisMul_one]) v

theorem one_galoisMul (v) : galoisMul 1#128 v = v :=
  OfStep.ext (ofStep_mul _) (M := fun v => v) ⟨fun _ _ => rfl, fun _ => rfl⟩ (galoisMul_one _) v

theorem xor_galoisMul (a b v) : galoisMul (a ^^^ b) v = galoisMul a v ^^^ galoisMul b v :=
  OfStep.ext (ofStep_mul _) (M := fun v => galoisMul a v ^^^ galoisMul b v)
    ⟨fun x y => by rw [(ofStep_mul a).add, (ofStep_mul b).add]; ac_rfl,
      fun x => by rw [(ofStep_mul a).comm, (ofStep_mul b).comm, galoisStep_xor]⟩
    (by simp only [galoisMul_one]) v

theorem step_galoisMul (a v) : galoisMul (galoisStep a) v = galoisStep (galoisMul a v) :=
  OfStep.ext (ofStep_mul _) (M := fun v => galoisStep (galoisMul a v))
    ⟨fun x y => by rw [(ofStep_mul a).add, galoisStep_xor], fun x => by rw [(ofStep_mul a).comm]⟩
    (by simp only [galoisMul_one]) v

/-- `galoisStep` on numbers, which the kernel computes with. -/
def stepN (v : Nat) : Nat := bif Nat.blt v (2 ^ 127) then 2 * v else (2 * v % 2 ^ 128) ^^^ 0x87
/-- `galoisSum` on numbers. -/
def sumN : Nat → Nat → Nat → Nat
  | 0, _, _ => 0
  | n + 1, a, v => bif Nat.beq (a % 2) 1 then v ^^^ sumN n (a / 2) (stepN v) else sumN n (a / 2) (stepN v)
/-- X to the power `e` modulo the polynomial, for `e` of `n` bits. -/
def powN : Nat → Nat → Nat
  | 0, _ => 1
  | n + 1, e =>
    bif Nat.beq (e % 2) 1 then stepN (sumN 128 (powN n (e / 2)) (powN n (e / 2))) else sumN 128 (powN n (e / 2)) (powN n (e / 2))

theorem stepN_eq (v : BitVec 128) : stepN v.toNat = (galoisStep v).toNat := by
  have hv := v.isLt
  have hb : v.getLsbD 127 = decide (2 ^ 127 ≤ v.toNat) := by
    rw [← BitVec.msb_eq_getLsbD_last (w := 128), BitVec.msb_eq_decide]
  have hl : Nat.blt v.toNat (2 ^ 127) = !decide (2 ^ 127 ≤ v.toNat) := by
    rw [Bool.eq_iff_iff, Nat.blt_eq, Bool.not_eq_true', decide_eq_false_iff_not, Nat.not_le]
  simp only [stepN, galoisStep, hb, hl]
  by_cases h : 2 ^ 127 ≤ v.toNat <;> simp only [h, decide_true, decide_false, Bool.not_true, Bool.not_false, cond_true, cond_false,
    ite_true, Bool.false_eq_true, ite_false, BitVec.xor_zero, BitVec.toNat_xor, BitVec.toNat_shiftLeft, Nat.shiftLeft_eq]
  · rw [Nat.pow_one, Nat.mul_comm v.toNat, show (0x87#128).toNat = 0x87 from rfl]
  · omega
theorem sumN_eq (n : Nat) : ∀ a v : BitVec 128, sumN n a.toNat v.toNat = (galoisSum n a v).toNat := by
  induction n with
  | zero => simp [sumN, galoisSum]
  | succ n ih =>
    intro a v
    have h2 : a.toNat / 2 = (a >>> 1).toNat := by simp [Nat.shiftRight_eq_div_pow]
    have h0 : Nat.beq (a.toNat % 2) 1 = a.getLsbD 0 := by
      simp only [BitVec.getLsbD, Nat.testBit_zero]
      rcases Nat.mod_two_eq_zero_or_one a.toNat with h | h <;> simp only [h] <;> rfl
    simp only [sumN, galoisSum, stepN_eq, h2, ih, h0]
    cases a.getLsbD 0 <;> simp

/-- Multiplication by that power is as many steps. -/
theorem powN_eq (n : Nat) : ∀ e, e < 2 ^ n → ∃ c : BitVec 128, powN n e = c.toNat ∧ ∀ v, galoisMul c v = galoisStep^[e] v := by
  induction n with
  | zero => intro e h; exact ⟨1#128, rfl, fun v => by simp [one_galoisMul, show e = 0 by omega]⟩
  | succ n ih =>
    intro e h
    obtain ⟨c, hc, hv⟩ := ih (e / 2) (by omega)
    have sq (v) : galoisMul (galoisMul c c) v = galoisStep^[e / 2 + e / 2] v := by
      rw [galoisMul_mul, hv, hv, Function.iterate_add_apply]
    simp only [powN, hc, sumN_eq, stepN_eq]
    rcases Nat.mod_two_eq_zero_or_one e with h | h
    · exact ⟨galoisMul c c, by simp only [h]; rfl, fun v => by rw [sq]; congr 2; omega⟩
    · exact ⟨galoisStep (galoisMul c c), by simp only [h]; rfl, fun v => by
        rw [step_galoisMul, sq, ← Function.iterate_succ_apply' galoisStep]; congr 2; omega⟩

theorem galoisStep_returns (v) : galoisStep^[2 ^ 128 - 1] v = v := by
  obtain ⟨c, hc, hv⟩ := powN_eq 128 (2 ^ 128 - 1) (by decide)
  rw [← hv, show c = 1#128 from BitVec.eq_of_toNat_eq (hc.symm.trans (by decide +kernel)), one_galoisMul]

/-- A power less 1 that has an inverse `w` moves every state but zero. -/
theorem galoisStep_moves {f w : Nat} (h : w < 2 ^ 128 ∧ sumN 128 w (powN 128 ((2 ^ 128 - 1) / f) ^^^ 1) = 1) {v}
    (e : galoisStep^[(2 ^ 128 - 1) / f] v = v) : v = 0#128 := by
  obtain ⟨c, hc, hv⟩ := powN_eq 128 ((2 ^ 128 - 1) / f) (Nat.lt_of_le_of_lt (Nat.div_le_self _ _) (by decide))
  have one : galoisMul (BitVec.ofNat 128 w) (c ^^^ 1#128) = 1#128 := by
    apply BitVec.eq_of_toNat_eq
    rw [galoisMul, ← sumN_eq, BitVec.toNat_ofNat, Nat.mod_eq_of_lt h.1, BitVec.toNat_xor, ← hc]
    exact h.2
  rw [← one_galoisMul v, ← one, galoisMul_mul, xor_galoisMul, hv, e, one_galoisMul, BitVec.xor_self, (ofStep_mul _).zero]

/-- 3 to the power `e` modulo the largest prime factor of 2¹²⁸ − 1, for `e` of `n` bits. -/
def modPow : Nat → Nat → Nat
  | 0, _ => 1
  | n + 1, e => modPow n (e / 2) * modPow n (e / 2) * (bif Nat.beq (e % 2) 1 then 3 else 1) % 67280421310721

theorem modPow_eq (n : Nat) : ∀ e, e < 2 ^ n → (modPow n e : ZMod 67280421310721) = 3 ^ e := by
  induction n with
  | zero => intro e h; simp [modPow, show e = 0 by omega]
  | succ n ih =>
    intro e h
    simp only [modPow, ZMod.natCast_mod, Nat.cast_mul, ih (e / 2) (by omega)]
    rcases Nat.mod_two_eq_zero_or_one e with h | h <;> simp only [h]
    · rw [show Nat.beq 0 1 = false from rfl, cond_false, ← pow_add, Nat.cast_one, mul_one]; congr 1; omega
    · rw [show Nat.beq 1 1 = true from rfl, cond_true, ← pow_add, Nat.cast_ofNat, ← pow_succ]; congr 1; omega

theorem prime_67280421310721 : Nat.Prime 67280421310721 := by
  have ne (e : Nat) (h : e < 2 ^ 46) (hm : 1 < modPow 46 e ∧ modPow 46 e < 67280421310721) :
      (3 : ZMod 67280421310721) ^ e ≠ 1 := by
    rw [← modPow_eq 46 e h]
    intro hc
    rw [← Nat.cast_one, ZMod.natCast_eq_natCast_iff', Nat.mod_eq_of_lt hm.2, Nat.mod_eq_of_lt (by decide)] at hc
    omega
  refine lucas_primality _ 3 ?_ fun q hq h => ?_
  · rw [← modPow_eq 46 _ (by decide), show modPow 46 (67280421310721 - 1) = 1 by decide +kernel, Nat.cast_one]
  · rw [show 67280421310721 - 1 = 2 ^ 8 * 5 * 47 * 373 * 2998279 by norm_num] at h
    simp only [hq.dvd_mul] at h
    have k {p} (hp : p.Prime) (h : q ∣ p) : q = p := (Nat.prime_dvd_prime_iff_eq hq hp).mp h
    rcases h with (((h | h) | h) | h) | h
    · obtain rfl := k (by norm_num) (hq.dvd_of_dvd_pow h); exact ne _ (by decide) (by decide +kernel)
    all_goals obtain rfl := k (by norm_num) h; exact ne _ (by decide) (by decide +kernel)

/-- The prime factors of 2¹²⁸ − 1. -/
theorem prime_factor_of_period {q : Nat} (hq : q.Prime) (h : q ∣ 2 ^ 128 - 1) : q ∈ [3, 5, 17, 257, 641, 65537, 274177, 6700417, 67280421310721] := by
  rw [show 2 ^ 128 - 1 = 3 * 5 * 17 * 257 * 641 * 65537 * 274177 * 6700417 * 67280421310721 by norm_num] at h
  simp only [hq.dvd_mul] at h
  have k {p} (hp : p.Prime) (h : q ∣ p) : q = p := (Nat.prime_dvd_prime_iff_eq hq hp).mp h
  simp only [List.mem_cons, List.not_mem_nil, or_false]
  rcases h with (((((((h | h) | h) | h) | h) | h) | h) | h) | h
  · exact .inl (k (by norm_num) h)
  · exact .inr (.inl (k (by norm_num) h))
  · exact .inr (.inr (.inl (k (by norm_num) h)))
  · exact .inr (.inr (.inr (.inl (k (by norm_num) h))))
  · exact .inr (.inr (.inr (.inr (.inl (k (by norm_num) h)))))
  · exact .inr (.inr (.inr (.inr (.inr (.inl (k (by norm_num) h))))))
  · exact .inr (.inr (.inr (.inr (.inr (.inr (.inl (k (by norm_num) h)))))))
  · exact .inr (.inr (.inr (.inr (.inr (.inr (.inr (.inl (k (by norm_num) h))))))))
  · exact .inr (.inr (.inr (.inr (.inr (.inr (.inr (.inr (k prime_67280421310721 h))))))))

theorem galoisStep_period (v : BitVec 128) (hv : v ≠ 0) (n : Nat) : galoisStep^[n] v = v ↔ 2 ^ 128 - 1 ∣ n := by
  have back (k : Nat) (h : Function.minimalPeriod galoisStep v ∣ k) : galoisStep^[k] v = v :=
    Function.isPeriodicPt_iff_minimalPeriod_dvd.mpr h
  have d : Function.minimalPeriod galoisStep v ∣ 2 ^ 128 - 1 :=
    Function.isPeriodicPt_iff_minimalPeriod_dvd.mp (galoisStep_returns v)
  suffices Function.minimalPeriod galoisStep v = 2 ^ 128 - 1 by
    rw [← this, ← Function.isPeriodicPt_iff_minimalPeriod_dvd]; rfl
  obtain ⟨k, hk⟩ := d
  by_contra hne
  have hk1 : k ≠ 1 := fun h => hne (by rw [hk, h, mul_one])
  obtain ⟨q, hq, hqk⟩ := Nat.exists_prime_and_dvd hk1
  have hqN : q ∣ 2 ^ 128 - 1 := hk ▸ Dvd.dvd.mul_left hqk _
  have e : galoisStep^[(2 ^ 128 - 1) / q] v = v := back _ (by
    obtain ⟨j, rfl⟩ := hqk
    rw [hk, ← mul_assoc, mul_comm _ q, mul_assoc, Nat.mul_div_cancel_left _ hq.pos]
    exact ⟨j, rfl⟩)
  have m := prime_factor_of_period hq hqN
  simp only [List.mem_cons, List.not_mem_nil, or_false] at m
  rcases m with rfl | rfl | rfl | rfl | rfl | rfl | rfl | rfl | rfl
  · exact hv (galoisStep_moves (w := 0x295ac0b1f4731af9676aac9fa4b20b09) (by decide +kernel) e)
  · exact hv (galoisStep_moves (w := 0x8b49849339334e30987a355cbf0c842b) (by decide +kernel) e)
  · exact hv (galoisStep_moves (w := 0x8f6b313e935b8e2cabcd8e4694e5644) (by decide +kernel) e)
  · exact hv (galoisStep_moves (w := 0x96b5056dc61c7d38d7c0dc96b4509564) (by decide +kernel) e)
  · exact hv (galoisStep_moves (w := 0xeac48ea483f4bb66dfd4ebf49c5eeea3) (by decide +kernel) e)
  · exact hv (galoisStep_moves (w := 0xca270b3ec93bb01087424ff269bb218c) (by decide +kernel) e)
  · exact hv (galoisStep_moves (w := 0x25690e2a74a8d35d41b4ccbdec90e864) (by decide +kernel) e)
  · exact hv (galoisStep_moves (w := 0xfb9043b5b964d0d44ce89147bf2b6a67) (by decide +kernel) e)
  · exact hv (galoisStep_moves (w := 0x160e54d7fb0564aeac2fd1f161f6cd1) (by decide +kernel) e)

/-! ## The generator of the device -/

/-- The linear feedback generator of the hardware, of which the spec gives the width and the period (04 R197; log 6). -/
opaque lfsrAny [h : Inhabited Lfsr] : Lfsr
/-- The device's generator; that there is one is all that `galoisStep` serves for. -/
def lfsr : Lfsr := lfsrAny (h := ⟨⟨galoisStep, galoisStep_xor, galoisStep_period⟩⟩)
/-- One step of a generator (04 R197; log 6). -/
def lfsrStep (g : BitVec 128) : BitVec 128 := lfsr.step g

end Sys2Proof.Config
end

