-- ==== Sys2Proof/Machine/Accum.lean ====
section
/-! DEFINITION. The accumulator files (04): slots, exact and compact values, group terms, stochastic rounding, and the records of ACC_STORE, ACC_LOAD and the Polonaise chain. -/

namespace Sys2Proof.Machine

/-! ## Slots and values (04 R185 to R191, R215) -/

/-- Write one accumulator slot; carries pending in a value that begins there go with it. -/
def State.setAccSlot (s : State) (e row slot : Nat) (v : Word64) : State :=
  { s with acc := s.acc.set none (accKey e row slot) (some v), carries := s.carries.set [] (accKey e row slot) [] }

/-- Write an exact value into five slots; it wraps modulo 2³²⁰ (04 R184, R186). -/
def State.setExact (s : State) (e row slot : Nat) (v : Int) : State :=
  let n := toBits v 320
  (List.range 5).foldl (fun s i => s.setAccSlot e row (slot + i) (BitVec.ofNat 64 (n / 2 ^ (64 * i)))) s

/-- Add an addend to an exact value, piece by piece in its redundant form (04 R187); the plain value is the sum modulo
2³²⁰. -/
def State.addExact (s : State) (e row slot : Nat) (t : Int) : State :=
  let x := (addendPieces t.natAbs).foldl (Redundant.addPiece (decide (t < 0))) (s.redundant (accKey e row slot))
  let s := s.setExact e row slot (s.exactAt e row slot + t)
  { s with carries := s.carries.set [] (accKey e row slot) (listed x.carry) }

/-- A number of units of 2⁻¹⁴⁸ as a dyadic number. -/
def exactDy (v : Int) : Dy := ⟨v, -148⟩

/-! ## Random bits (04 R193, R197 to R199) -/

/-- A generator's state is never zero, from which a linear feedback generator does not move (04 R197; log 6). -/
def nonZero (v : BitVec 128) : BitVec 128 := if v = 0 then 1 else v
/-- The state of a generator: where the entropy source left it, when it has not been drawn from. -/
def State.gen (s : State) (g : Nat) : BitVec 128 :=
  let v := s.gens.get 0 g
  if v = 0 then nonZero (Config.entropy128 g s.epoch) else v

/-- Whether the binary fraction of drawn bits is below `num / 2^k`, drawing bits, most significant first, only until
the comparison is decided (04 R193). -/
def drawBelow (g : BitVec 128) (num : Nat) : Nat → Bool × BitVec 128
  | 0 => (false, g)
  | k + 1 =>
    if num = 0 then (false, g) else
    let g' := Config.lfsrStep g
    let r := bit num k
    if Config.lfsrBit g' = r then drawBelow g' (num % 2 ^ k) k else (r, g')

/-- A dyadic value rounded to a multiple of `2^b`, down or up at random with probability its remainder (04 R193,
R194): the quotient and the generator after the draw. -/
def stochastic (g : BitVec 128) (t : Dy) (b : Int) : Int × BitVec 128 :=
  if b ≤ t.e then (t.m * (2 ^ (t.e - b).toNat : Nat), g)
  else
    let k := (b - t.e).toNat
    let q := t.m / (2 ^ k : Nat)
    let r := (t.m % (2 ^ k : Nat)).toNat
    if r = 0 then (q, g) else
    match drawBelow g r k with
    | (up, g') => (if up then q + 1 else q, g')

/-- A sum held to the 64-bit window, and whether it saturated (04 R193, R195). -/
def toWindow (w : Int) : Int × Bool :=
  if 2 ^ 63 ≤ w then (2 ^ 63 - 1, true) else if w < -(2 ^ 63) then (-(2 ^ 63), true) else (w, false)

/-! ## Group terms (03 R132; 04 R178 to R181) -/

/-- The largest magnitude of an addend, 2¹³⁹ − 2⁻¹⁴⁸, in units of 2⁻¹⁴⁸. -/
def addendMax : Int := 2 ^ 287 - 1

/-- An addend in units of 2⁻¹⁴⁸, and whether it was out of range: one that is `big` takes the largest magnitude, and bits
below 2⁻¹⁴⁸ round to nearest, ties to even (04 R180, R181). Of a zero addend with E above +126, which has no sign to
keep, 0 is added and RANGE set (log 100). -/
def addend (t : Dy) (big : Bool) : Int × Bool :=
  if big then (if t.m = 0 then 0 else if t.m < 0 then -addendMax else addendMax, true)
  else if -148 ≤ t.e then (t.m * (2 ^ (t.e + 148).toNat : Nat), false)
  else
    let exact := t.m % (2 ^ (-148 - t.e).toNat : Nat) == 0
    ((t.scale 148).roundEven, !exact)

/-- The magnitude of a value is at least 2¹³⁹. -/
def atLeast139 (t : Dy) : Bool := (⟨1, 139⟩ : Dy).le t.abs

/-- What the term former of a row receives for one conversion. -/
structure TermIn where
  /-- ADC code, the least-significant-bit exponent a, the constant c, Σw, ZW, Σv. -/
  code : Int
  a    : Int
  c    : Dy
  sumW : Dy
  zw   : Nat
  sumV : Dy
  /-- EW, ex, and the slice exponents sw and sx. -/
  ew   : Nat
  ex   : Int
  sw   : Int
  sx   : Int
  /-- K, when it enters this term (03 R134). -/
  k    : Option Dy
  deriving DecidableEq, Repr

/-- The addends of a conversion and whether one was out of range; a row whose EW is 0xFF contributes none (03 R101;
04 R178 to R181). -/
def termAddends (x : TermIn) : List Int × Bool :=
  if x.ew = 0xFF then ([], false) else
  let e := x.a + ((x.ew : Int) - 127) + x.ex + x.sw + x.sx
  let corr := (x.c.mul x.sumW).add ((Dy.ofInt (x.zw : Int)).mul x.sumV)
  let n := (Dy.ofInt x.code).sub (corr.scale (-x.a))
  let br := addend (n.scale e) (decide (126 < e))
  match x.k with
  | none => ([br.1], br.2)
  | some k =>
    if k.m = 0 then ([br.1], br.2) else
    let kt := k.scale ((x.ew : Int) - 127 + x.sw)
    let ka := addend kt (atLeast139 kt)
    ([br.1, ka.1], br.2 || ka.2)

/-! ## Records (04 R217, R218, R222, R223) -/

/-- The record forms of 11 R533. -/
inductive RecForm where
  | exact | compact | fp64 | fp32 | bf16
  deriving DecidableEq, Repr

/-- The form of a FORM code; 5 to 7 are reserved. -/
def RecForm.ofCode : Nat → Option RecForm
  | 0 => some .exact
  | 1 => some .compact
  | 2 => some .fp64
  | 3 => some .fp32
  | 4 => some .bf16
  | _ => none
/-- Bytes of a record (04 R217). -/
def RecForm.size : RecForm → Nat
  | .exact => 40
  | .compact => 16
  | .fp64 => 8
  | .fp32 => 4
  | .bf16 => 2
/-- The ESIZE that matches a form (11 R535). -/
def RecForm.esize : RecForm → Nat
  | .exact => 6
  | .compact => 4
  | .fp64 => 3
  | .fp32 => 2
  | .bf16 => 1

/-- The transport form of a value (04 R222, R223): window, exponent, and the generator after the draw. -/
def transport (g : BitVec 128) (t : Dy) : Int × Int × BitVec 128 :=
  if t.m = 0 then (0, -148, g) else
  let b := max (-148) (t.log2 - 62)
  match stochastic g t b with
  | (w, g') => if 2 ^ 63 ≤ w.natAbs then (w / 2, b + 1, g') else (w, b, g')

/-- A value rounded to a floating-point format for export, nearest ties to even; beyond the finite range it becomes
infinity with RANGE (04 R217, R218). Whether it lies beyond is decided after rounding: one just above the largest finite
value that rounds down to it is finite (log 101). A value that rounds to zero is written as +0 (log 21). -/
def exportFp (f : FpFmt) (t : Dy) : Nat × Bool :=
  let n := f.ofDy t
  (n, bits n f.mbits f.ebits == 2 ^ f.ebits - 1)

/-- What an import finds in a record: a value, a NaN, or an infinity (04 R217, R218). Bits 127 to 80 of a COMPACT record are not
looked at (log 140). -/
def importRecord (f : RecForm) (bs : List Byte) : Fv :=
  let n := ofLe bs
  match f with
  | .exact => let v := sext n 320
              .fin (decide (v < 0)) v.natAbs (-148)
  | .compact => let w := sext n 64
                .fin (decide (w < 0)) w.natAbs (sext (n / 2 ^ 64) 16)
  | .fp64 => FpFmt.decode Sys2Proof.Machine.fp64 n
  | .fp32 => FpFmt.decode Sys2Proof.Machine.fp32 n
  | .bf16 => FpFmt.decode Sys2Proof.Machine.fp32 (n * 65536)

/-- The largest exact value (04 R185), in units of 2⁻¹⁴⁸. -/
def exactMax : Int := 2 ^ 319 - 1

/-- An imported value for an exact tile, in units of 2⁻¹⁴⁸, and whether something was lost (04 R218). -/
def importExact (v : Fv) : Int × Bool :=
  match v with
  | .nan _ => (0, true)
  | .inf neg => (if neg then -(2 ^ 319) else exactMax, true)
  | .fin _ _ e =>
    let d := v.dy
    let r := (d.scale 148).roundEven
    let lost := decide (e < -148) && !(exactDy r).eq d
    if exactMax < r then (exactMax, true) else if r < -(2 ^ 319) then (-(2 ^ 319), true) else (r, lost)

/-- An imported value for a compact tile of exponent b: the window, whether it left the range, and the generator. -/
def importCompact (g : BitVec 128) (b : Int) (v : Fv) : Int × Bool × BitVec 128 :=
  match v with
  | .nan _ => (0, true, g)
  | .inf neg => (if neg then -(2 ^ 63) else 2 ^ 63 - 1, true, g)
  | v => match stochastic g v.dy b with
    | (q, g') => match toWindow q with
      | (w, sat) => (w, sat, g')

/-! ## The values of a tile -/

/-- The value of vector `vec` of a row of a tile: exact in units of 2⁻¹⁴⁸, or `W × 2^b` (04 R186, R191). -/
def State.tileValue (s : State) (e row base vec : Nat) (exact : Bool) (b : Int) : Dy :=
  if exact then exactDy (s.exactAt e row (base + 5 * vec))
  else ⟨(s.accSlot e row (base + vec)).toInt, b⟩

/-- Add one addend to a value of a tile (04 R187, R193): the state, and whether a compact window saturated. `g` is the
generator's key. -/
def State.addToTile (s : State) (e row base vec : Nat) (exact : Bool) (b : Int) (t : Int) : State × Bool :=
  if exact then (s.addExact e row (base + 5 * vec) t, false)
  else
    let g := 64 * e + row
    match stochastic (s.gen g) (exactDy t) b with
    | (q, g') => match toWindow ((s.accSlot e row (base + vec)).toInt + q) with
      | (w, sat) =>
        ({ s.setAccSlot e row (base + vec) (BitVec.ofNat 64 (toBits w 64)) with gens := s.gens.set 0 g g' }, sat)

/-- Set every value of a range of slots of a row to 0 (04 R208). -/
def State.zeroSlots (s : State) (e row base n : Nat) : State :=
  (List.range n).foldl (fun s i => s.setAccSlot e row (base + i) 0) s

/-- The sticky RANGE bit of a tile (04 R181, R182, R195); a tile into which a stage adds, and which no overwrite known here
opened, is listed with it. -/
def State.stickRange (s : State) (t : AccTile) : State :=
  if s.tiles.any fun x => x.engine == t.engine && x.base == t.base then
    { s with tiles := mapIf (fun x => x.engine == t.engine && x.base == t.base) (fun x => { x with range := true }) s.tiles }
  else { s with tiles := s.tiles ++ [{ t with range := true }] }

/-- Open a tile by an overwrite: its format and b are set and its sticky RANGE clears (04 R182, R192, R219). -/
def State.openTile (s : State) (t : AccTile) : State :=
  { s with tiles := (s.tiles.filter fun x => !(x.engine == t.engine && x.base == t.base)) ++ [t] }

/-- The values of a slot range are those of a tile: its activation tile, and the channels on its rows (08 R436). -/
def State.noteHeld (s : State) (e base u : Nat) (chans : List (Option Nat)) : State :=
  { s with accHolds := s.accHolds.set (0, []) (640 * e + base) (u, chans) }

/-! ## Errors of the files (09 R452) -/

/-- Errors have come to stand in memories (09 R448, R449, R452). -/
def State.takeDecay (s : State) (l : List Decay) : State :=
  l.foldl (fun s d => match d with
    | .block a u => if s.isHbm a || s.isSram a || s.space a == .scales then { s with latent := (s.latent.filter fun x => x.1 != a / 64) ++ [(a / 64, u)] } else s
    | .slot e r k => if e < 256 ∧ r < 64 ∧ k < 640 then { s with accBad := insertNat (accKey e r k) s.accBad } else s) s
/-- Some of a run of accumulator slots has an uncorrectable error (09 R452). -/
def State.badSlot (s : State) (e row slot n : Nat) : Bool := (List.range n).any fun i => s.accBad.contains (accKey e row (slot + i))
/-- Slots that an overwrite replaces have their errors no more (09 R450, R452). -/
def State.clearSlots (s : State) (e row slot n : Nat) : State :=
  { s with accBad := s.accBad.filter fun k => !(decide (accKey e row slot ≤ k) && decide (k < accKey e row slot + n)) }

/-- A slot that is copied from another row takes its error with it (16 R726; 09 R452). -/
def State.moveBad (s : State) (e row r dst slot : Nat) : State :=
  let t := s.clearSlots r dst slot 1
  if s.badSlot e row slot 1 then { t with accBad := insertNat (accKey r dst slot) t.accBad } else t
/-- The read of accumulator slots that cannot be corrected is logged (09 R449, R452). -/
def State.logSlot (s : State) (e : Nat) : State := s.logError 0x0200 3 1 e 1 0

end Sys2Proof.Machine
end

