-- ==== Sys2Proof/Machine/Parse.lean ====
section
/-! DEFINITION. Reading a command descriptor (11): the header (R521 to R524), the cost descriptor (10 R484 to R486), stage records with their extensions and part lists (R525 to R532, R771), and the other bodies (R533 to R537, R777), with every rule of form that needs no calendar. -/

namespace Sys2Proof.Machine

/-! ## Fields -/

/-- Every listed range of bytes is zero. -/
def zeros (bs : List Byte) (l : List (Nat × Nat)) : Bool :=
  l.all fun r => ((bs.drop r.1).take r.2).all fun (b : Byte) => b == 0
/-- A bit field of the little-endian number of `n` bytes at an offset. -/
def fbits (bs : List Byte) (ofs n lo w : Nat) : Nat := bits (field bs ofs n) lo w
/-- A bit of the number of `n` bytes at an offset. -/
def fbit (bs : List Byte) (ofs n i : Nat) : Bool := bit (field bs ofs n) i

/-! ## Opcodes (11 R522) -/

/-- What the table of R522 says of COST_PTR. -/
inductive CostRule where
  | zero | onePhase | required
  deriving DecidableEq, Repr

/-- The COST_PTR column of R522; `none` for an opcode that is not in the table. -/
def costRule (op : Nat) : Option CostRule :=
  if op = 0x01 ∨ op = 0x07 ∨ op = 0x08 then some .onePhase
  else if 0x02 ≤ op ∧ op ≤ 0x06 then some .required
  else if 0x09 ≤ op ∧ op ≤ 0x12 then some .zero
  else none
/-- The opcode carries stages. -/
def isStaged (op : Nat) : Bool := op == 0x02 || op == 0x03 || op == 0x04

/-! ## The header (11 R521, R524) -/

/-- A wait of 6 bytes at an offset: active, or disabled and zero (R524). -/
def parseWait (bs : List Byte) (ofs : Nat) : Except Rej (List Wait) := do
  need malformed (fbits bs ofs 2 12 3 == 0)
  if fbit bs ofs 2 15 then return [{ ctr := fbits bs ofs 2 0 12, val := field bs (ofs + 2) 4 }]
  else
    need malformed (field bs ofs 6 == 0)
    return []

/-- The header and the constraints of R522 that lie in it. -/
def parseHeader (bs : List Byte) : Except Rej Header := do
  let op := field bs 0 1
  let cls := fbits bs 1 1 0 2
  let relaxed := fbit bs 2 1 0
  let rerun := fbit bs 2 1 2
  match costRule op with
  | none => .error malformed
  | some rule =>
    need malformed (fbits bs 1 1 2 6 == 0 && fbits bs 2 1 5 3 == 0 && fbits bs 30 2 12 3 == 0)
    need malformed (cls == b2n (op == 0x06))
    need malformed (isStaged op || (!relaxed && !rerun))
    let cost := field bs 24 6
    need malformed (match rule with
      | .zero => cost == 0
      | .onePhase => true
      | .required => cost != 0)
    let w0 ← parseWait bs 4
    let w1 ← parseWait bs 10
    let sig := fbit bs 30 2 15
    need malformed (sig || fbits bs 30 2 0 12 == 0)
    return { opcode := op, cls := cls, relaxed := relaxed, add := fbit bs 2 1 1, rerun := rerun,
             dlRel := fbit bs 2 1 3, notify := fbit bs 2 1 4, ctx := field bs 3 1, waits := w0 ++ w1,
             deadline := field bs 16 8, costPtr := cost, sigEn := sig, sigCtr := fbits bs 30 2 0 12 }

/-! ## Cost descriptors (10 R484 to R486) -/

/-- A phase record (R486). -/
def parsePhase (bs : List Byte) : Phase :=
  let four := fun (o : Nat) => (List.range 4).map fun k => field bs (o + 4 * k) 4
  { minFrames := field bs 0 4, stage := field bs 4 1, kind := field bs 5 1, arrayRow := field bs 6 1,
    engSlots := field bs 8 8, sramBytes := field bs 16 4, accSlots := field bs 20 4, readGran := four 24,
    writeGran := four 40, mesh := (List.range 8).map fun k => field bs (56 + 4 * k) 4,
    linkMask := field bs 88 4, linkSlots := field bs 92 4, farSymbols := field bs 96 4,
    rustraBytes := field bs 100 4, badRes := !zeros bs [(7, 1), (104, 24)] }

/-- The rules of a phase of a given kind in a command of `stages` stages (R486, R489). -/
def phaseOk (stages kind : Nat) (p : Phase) : Bool :=
  !p.badRes && decide (1 ≤ p.minFrames) && decide (p.minFrames ≤ 2 ^ 20) && p.kind == kind &&
    decide (p.stage < Nat.max 1 stages) && decide (p.arrayRow ≤ 5)

/-- The `n` phases of a cost descriptor from its `lo`-th record on (R484). -/
def phasesFrom (bs : List Byte) (lo n : Nat) : List Phase :=
  (List.range n).map fun i => parsePhase ((bs.drop (64 + 128 * (lo + i))).take 128)

/-- Read a cost descriptor (R484, R485) of a command of class `cls`. The Elastic fields of a Deterministic descriptor
are zero (log 22). -/
def State.readCost (s : State) (cls a : Nat) : Except Rej Cost := do
  let h ← s.readStruct malformed 2 a 64 64
  let nm := field h 4 2
  let nr := field h 6 2
  let na := field h 8 2
  let fl := field h 3 1
  need malformed (field h 0 2 == 1 && field h 2 1 == cls && bits fl 2 6 == 0)
  need malformed (zeros h [(14, 2), (24, 8), (46, 2), (52, 12)])
  need malformed (if cls = 0 then decide (1 ≤ nm) && decide (nm ≤ 4096) && zeros h [(32, 20)] else nm == 0)
  need malformed ((nr != 0) == bit fl 0 && (na != 0) == bit fl 1)
  need malformed (decide (field h 10 2 ≤ 1310) && decide (field h 12 2 ≤ 1310))
  let all ← s.readStruct malformed 2 a 64 (64 + 128 * (nm + nr + na))
  return { version := 1, cls := cls, flags := fl, main := phasesFrom all 0 nm, rerun := phasesFrom all nm nr,
           alt := phasesFrom all (nm + nr) na, slew := field h 10 2,
           edge := field h 12 2, mask := field h 16 8, lsBytes := field h 32 4, cycles := field h 36 4,
           traffic := field h 40 6, rate := field h 48 4, badRes := false }

/-! ## Stage records (11 R525 to R529, R771) -/

/-- G, the group size. -/
def Stage.gsize (st : Stage) : Nat := 32 * 2 ^ st.g
/-- Output rows of a tile: 64, or 32 at G = 128 (R771). -/
def Stage.rows (st : Stage) : Nat := if st.g = 2 then 32 else 64
/-- The weight form. -/
def Stage.wf (st : Stage) : Form := (Form.ofCode st.wForm).getD .int4
/-- The input form. -/
def Stage.inf (st : Stage) : Form := (Form.ofCode st.inForm).getD .int4
/-- The stored input type. -/
def Stage.store (st : Stage) : OutType := (OutType.ofCode st.inStore).getD .e4m3
/-- The output type. -/
def Stage.out (st : Stage) : OutType := (OutType.ofCode st.outType).getD .e4m3
/-- Bytes of a weight tile with codes of `b` bits (03 R106). -/
def tileBytes (rows g b : Nat) : Nat := 128 + rows * g * b / 8
/-- Bytes of one weight tile of the stage (03 R106, R109). -/
def Stage.tile (st : Stage) : Nat := tileBytes st.rows st.gsize st.wf.tileBits
/-- Reduction blocks. -/
def Stage.nrb (st : Stage) : Nat := st.redLen / st.gsize
/-- The part of the chain that a cluster computes: its number, first block and blocks of the reduction; without a chain
the whole (11 R532). -/
def Stage.partOf (st : Stage) (c : Nat) : Option (Nat × Nat × Nat) :=
  if st.parts.isEmpty then some (0, 0, st.nrb) else
  ((List.range st.parts.length).zip st.parts).findSome? fun (x : Nat × Part) =>
    if x.2.peer = 0xFFFF ∧ bit x.2.mask c then some (x.1, x.2.start / st.gsize, x.2.len / st.gsize) else none
/-- Bytes of an activation tile of a stage on a cluster: its input elements and, for MX inputs, their scale bytes (08 R383; log
119). -/
def Stage.streamBytes (st : Stage) (c : Nat) : Nat :=
  match st.partOf c, st.inDesc with
  | some p, some d =>
    let n := p.2.2 * st.gsize
    if st.redLen = 0 then 0
    else st.vecB * ((if st.store.is4 then n / 2 else n) * d.size 0 + (if st.inMx.isSome then (n + 31) / 32 else 0))
  | _, _ => 0
/-- Weight slices. -/
def Stage.ws (st : Stage) : Nat := st.wf.slices
/-- W_DESC elements of one output block (R771). -/
def Stage.perBlock (st : Stage) : Nat := if st.redLen = 0 then 1 else st.ws * st.nrb
/-- Output blocks. -/
def Stage.blocks (st : Stage) : Nat := match st.wDesc with
  | some d => d.count / st.perBlock
  | none => 0
/-- Channel count C (R771). -/
def Stage.chans (st : Stage) : Nat := st.blocks * st.rows
/-- K_b, the reduction length in input elements (R771; 08 R401). -/
def Stage.kb (st : Stage) : Nat := if st.store.is4 then st.redLen / 2 else st.redLen
/-- Vector count V (R771). -/
def Stage.vecs (st : Stage) : Nat :=
  if st.redLen = 0 then (match st.outDesc with
    | some d => d.count / st.chans
    | none => 0)
  else match st.inDesc with
    | some d => d.count / st.kb
    | none => 0
/-- Accumulator slots of one value: 5 exact, 1 compact (04 R186, R191). -/
def Stage.vslots (st : Stage) : Nat := if st.exact then 5 else 1
/-- The stage's first slot and slot count per row (04 R200). -/
def Stage.range (st : Stage) : Nat × Nat := (st.accBase, st.vecB * st.vslots)
/-- The stage has a reserved re-run (03 R158). -/
def Stage.rerunReserved (st : Stage) (hdr : Header) : Bool := hdr.rerun && st.out.running && st.drain

/-- The fields of a stage record; descriptors and parts are filled in afterwards. -/
def parseStageFields (bs : List Byte) : Stage :=
  { redLen := field bs 24 4, vecB := fbits bs 28 2 0 10, accBase := fbits bs 30 2 0 10,
    compactExp := sext (field bs 32 2) 16, inForm := fbits bs 34 1 0 4, wForm := fbits bs 34 1 4 4,
    inStore := fbits bs 35 1 0 4, g := fbits bs 36 1 0 2, h := fbits bs 36 1 2 2, rotate := fbit bs 36 1 4,
    exact := !fbit bs 36 1 5, add := fbit bs 36 1 6, drain := !fbit bs 36 1 7, inCb := fbits bs 37 1 0 3,
    wCb := fbits bs 37 1 3 3, inScale := fbits bs 38 2 0 12, outScale := fbits bs 40 2 0 12,
    outType := fbits bs 42 4 0 4, histDepth := fbits bs 42 4 4 4, margin := fbits bs 42 4 8 2,
    satLim := fbits bs 42 4 10 4, uflLim := fbits bs 42 4 14 4, mseLim := fbits bs 42 4 18 8,
    biasEn := fbit bs 42 4 26, eltOp := fbits bs 42 4 27 2, eltType := fbits bs 42 4 29 1,
    act := fbits bs 46 2 0 3, arg := fbits bs 46 2 3 2, argAxis := fbits bs 46 2 5 1, rescaleEn := fbit bs 46 2 6,
    seed := BitVec.ofNat 32 (field bs 48 4), chainId := field bs 56 4, parts := [], rescaleOfs := 0,
    inDesc := none, wDesc := none, outDesc := none, inMx := none, outMx := none, eltDesc := none, rerunW := none,
    rerunBuf := none, argDesc := none }

/-- Reserved bits and bytes of a stage record are zero (R525). -/
def stageResOk (bs : List Byte) : Bool :=
  fbits bs 28 2 10 6 == 0 && fbits bs 30 2 10 6 == 0 && fbits bs 35 1 4 4 == 0 && fbits bs 37 1 6 2 == 0 &&
    fbits bs 38 2 12 4 == 0 && fbits bs 40 2 12 4 == 0 && fbits bs 42 4 30 2 == 0 && fbits bs 46 2 7 9 == 0 &&
    zeros bs [(53, 3), (60, 36)]

/-- An 8-bit or 4-bit part entry of R532. -/
def parsePart (bs : List Byte) : Part :=
  { mask := field bs 0 8, start := field bs 8 4, len := field bs 12 4, peer := field bs 16 2 }

/-- The parts cover the reduction in chain order, each a multiple of G, and positive but in a reduction of length zero (08 R436; log
130); local parts have clusters of the set, each once; parts on peers have none (R532; 04 R220). -/
def partsOk (g redLen mask : Nat) : Nat → Nat → List Part → Bool
  | pos, _, [] => pos == redLen
  | pos, seen, p :: ps =>
    p.start == pos && (p.len != 0 || redLen == 0) && p.len % g == 0 &&
      (if p.peer = 0xFFFF then
         p.mask != 0 && (bitList 64 p.mask).all fun c => bit mask c && !bit seen c
       else decide (p.peer < 4096) && p.mask == 0) &&
      partsOk g redLen mask (pos + p.len) (seen + p.mask) ps

/-- An optional descriptor: read when its pointer is nonzero. -/
def State.optDesc (s : State) (session : Nat) (role : Role) (l : Locus) (tile : Nat) (esizes : List Nat) (ptr : Nat) :
    Except Rej (Option TDesc) :=
  if ptr = 0 then .ok none else (s.desc session role l tile esizes ptr).map some

/-- A descriptor's count, 0 when it is absent. -/
def countOf (d : Option TDesc) : Nat := match d with
  | some d => d.count
  | none => 0

/-- Read stage `i` of a command (R525 to R529, R532, R771, R772; 02 R83; 03 R114 to R125, R138, R145; 04 R192, R200,
R201, R210, R228). `mask` is the command's cluster set. Element sizes are those that 08 R400 gives each use (log 23). -/
def State.readStage (s : State) (session i : Nat) (hdr : Header) (mask : Nat) (bs : List Byte) : Except Rej Stage := do
  need malformed (stageResOk bs)
  let st := parseStageFields bs
  need malformed (decide (st.g < 3) && (Form.ofCode st.inForm).isSome && (Form.ofCode st.wForm).isSome)
  need malformed ((OutType.ofCode st.inStore).isSome && (OutType.ofCode st.outType).isSome)
  need malformed (decide (st.eltOp < 3) && decide (st.act ≠ 2) && decide (st.act ≠ 3) && decide (st.arg < 3))
  need malformed (modeOk st.wf st.inf)
  need malformed ((st.inf.isCb || st.inCb == 0) && (st.wf.isCb || st.wCb == 0))
  need malformed (!(st.rotate && st.inf.unsigned))
  need malformed (st.redLen % st.gsize == 0 && (st.redLen != 0 || (st.add && st.drain)))
  need malformed (decide (1 ≤ st.vecB) && decide (st.vecB ≤ 640) && decide (st.accBase + st.vecB * st.vslots ≤ 640))
  need malformed (if st.exact then st.compactExp == 0 else decide (-148 ≤ st.compactExp) && decide (st.compactExp ≤ 108))
  need malformed (st.drain == (field bs 12 6 != 0))
  need malformed (!hdr.relaxed || (st.add && !st.drain))
  let np := field bs 52 1
  need malformed (if hdr.opcode = 0x02 then np == 0 else if hdr.opcode = 0x04 then decide (2 ≤ np) && decide (np ≤ 64)
    else np == 0 || (decide (2 ≤ np) && decide (np ≤ 64)))
  -- the extension (R528)
  let xp := field bs 18 6
  let x ← if xp = 0 then .ok (leBytes 64 0) else s.readStruct malformed 4 xp 64 64
  let rr := st.rerunReserved hdr
  need malformed (zeros x [(48, 16)])
  need malformed ((field x 0 6 != 0) == st.store.isMx && (field x 6 6 != 0) == st.out.isMx)
  need malformed ((field x 12 6 != 0) == (st.eltOp != 0) && (field x 30 6 != 0) == (st.arg != 0))
  need malformed ((rr || (field x 18 6 == 0 && field x 24 6 == 0)) && (field x 36 6 != 0) == st.rescaleEn)
  need malformed ((field x 42 6 != 0) == (np != 0))
  -- the descriptors
  need (malformedAt { role := 2, stage := i } 0) (st.redLen == 0 || field bs 0 6 != 0)
  need (malformedAt { role := 3, stage := i } 0) (field bs 6 6 != 0)
  let w ← s.desc session .read { role := 3, stage := i } st.tile [10] (field bs 6 6)
  let inD ← s.optDesc session .read { role := 2, stage := i } 0 [st.store.esize] (field bs 0 6)
  let outD ← s.optDesc session .write { role := 4, stage := i } 0 [st.out.esize] (field bs 12 6)
  let inMx ← s.optDesc session .read { role := 9, stage := i } 0 [0] (field x 0 6)
  let outMx ← s.optDesc session .write { role := 10, stage := i } 0 [0] (field x 6 6)
  let elt ← s.optDesc session .read { role := 5, stage := i } 0 [if st.eltType = 0 then 2 else 1] (field x 12 6)
  let rw ← s.optDesc session .read { role := 6, stage := i } (tileBytes st.rows st.gsize 4) [10] (field x 18 6)
  let rb ← s.optDesc session .write { role := 7, stage := i } 0 [1] (field x 24 6)
  let arg ← s.optDesc session .write { role := 8, stage := i } 0 [3] (field x 30 6)
  let st := { st with wDesc := some w, inDesc := inD, outDesc := outD, inMx := inMx, outMx := outMx, eltDesc := elt,
                      rerunW := rw, rerunBuf := rb, argDesc := arg, rescaleOfs := field x 36 6 }
  -- the counts (R771)
  need (malformedAt { role := 3, stage := i } 0) (w.count % st.perBlock == 0)
  need (malformedAt { role := 2, stage := i } 0) (st.redLen == 0 || countOf inD % st.kb == 0)
  need (malformedAt { role := 4, stage := i } 0)
    (!st.drain || (if st.redLen = 0 then countOf outD % st.chans == 0 else countOf outD == st.chans * st.vecs))
  need (malformedAt { role := 5, stage := i } 0) (elt.isNone || countOf elt == countOf outD)
  need (malformedAt { role := 8, stage := i } 0)
    (arg.isNone || countOf arg == (if st.argAxis = 0 then st.vecs else st.chans))
  need (malformedAt { role := 9, stage := i } 0) (inMx.isNone || decide (st.vecs * st.redLen / 32 ≤ countOf inMx))
  need (malformedAt { role := 10, stage := i } 0) (outMx.isNone || decide (st.vecs * st.chans / 32 ≤ countOf outMx))
  need (malformedAt { role := 6, stage := i } 0)
    (rw.isNone || (w.count / st.perBlock) * (2 * st.nrb) == countOf rw)
  need (malformedAt { role := 7, stage := i } 0) (rb.isNone || decide (st.chans * st.vecs ≤ countOf rb))
  need malformed (decide (st.inScale + st.redLen ≤ 4096) && decide (st.outScale + st.chans ≤ 4096))
  need (malformedAt { role := 12, stage := i } 0) (!st.rescaleEn || (st.rescaleOfs % 4 == 0 &&
    decide (st.rescaleOfs + 4 * st.chans ≤ 0x1000000)))
  -- the part list (R532)
  if np = 0 then
    need malformed (st.chainId == 0)
    return st
  else
    let ps ← s.readStruct malformed 5 (field x 42 6) 32 (32 * np)
    let parts := (List.range np).map fun k => parsePart ((ps.drop (32 * k)).take 32)
    need malformed ((List.range np).all fun k => zeros ((ps.drop (32 * k)).take 32) [(18, 14)])
    need malformed (partsOk st.gsize st.redLen mask 0 0 parts)
    need malformed ((parts.any fun p => p.peer != 0xFFFF) == (st.chainId != 0))
    return { st with parts := parts }

/-! ## Bodies (11 R531, R533 to R538, R777) -/

/-- The size of a QUERY item (R538). -/
def queryBytes (item : Nat) : Option Nat :=
  if item = 1 then some 2048 else if item = 2 then some 512 else if item = 3 then some 288
  else if item = 4 then some 16384 else if item = 5 then some 780 else if item = 6 then some 65536 else none

/-- The rules of ACC_LOAD and ACC_STORE that lie in their bodies (R533, R535; 04 R192, R200, R201). -/
def State.readAcc (s : State) (session : Nat) (bs : List Byte) (store : Bool) : Except Rej Body := do
  need malformed (zeros bs [(38, 2), (45, 1), (48, 16), (96, 32)] && fbits bs 40 2 10 6 == 0 && fbits bs 42 2 10 6 == 0 &&
    fbits bs 44 1 5 3 == 0)
  let base := fbits bs 40 2 0 10
  let vecB := fbits bs 42 2 0 10
  let exact := !fbit bs 44 1 3
  let b := sext (field bs 46 2) 16
  let engines := field bs 64 32
  match RecForm.ofCode (fbits bs 44 1 0 3) with
  | none => .error malformed
  | some form =>
    need malformed (decide (1 ≤ vecB) && decide (base + vecB * (if exact then 5 else 1) ≤ 640) && engines != 0)
    need malformed (exact || (decide (-148 ≤ b) && decide (b ≤ 108)))
    let l : Locus := { role := b2n store }
    let d ← s.desc session (if store then .write else .read) l 0 [form.esize] (field bs 32 6)
    let pair := fbit bs 44 1 4
    need (malformedAt l 0) (d.count == popCount 256 engines * (if pair then 32 else 64) * vecB)
    return .acc d base vecB (fbits bs 44 1 0 3) exact pair b engines

/-- SCALE_LOAD (R536, R777). -/
def State.readScaleLoad (s : State) (session : Nat) (bs : List Byte) : Except Rej Body := do
  need malformed (zeros bs [(39, 1), (46, 2), (56, 72)] && fbits bs 33 1 3 5 == 0 && fbits bs 34 2 12 4 == 0 &&
    fbit bs 38 1 7 == false)
  let t := field bs 32 1
  let slot := fbits bs 33 1 0 3
  let first := fbits bs 34 2 0 12
  let count := field bs 36 2
  let wmask := field bs 38 1
  need malformed (match t with
    | 0 => slot == 0 && decide (1 ≤ count) && decide (count ≤ 4096)
    | 1 => first == 0 && wmask == 0 && (count == 16 || count == 256)
    | 2 => first == 0 && wmask == 0 && decide (slot ≤ 3) && count == 64
    | _ => false)
  need malformed (decide (first + count ≤ 4096) && field bs 48 8 != 0)
  let l : Locus := { role := 0 }
  let d ← s.desc session .read l 0 [if t = 0 then 7 else if t = 1 then 1 else 4] (field bs 40 6)
  need (malformedAt l 0) (d.count == count && (t == 0 || d.resume == 0))
  return .scaleLoad t slot first count wmask d (field bs 48 8)

/-- SCALE_READ (R536, R777). -/
def State.readScaleRead (s : State) (session : Nat) (bs : List Byte) : Except Rej Body := do
  need malformed (zeros bs [(32, 2), (39, 1), (46, 2), (56, 72)] && fbits bs 34 2 12 4 == 0 && fbits bs 38 1 1 7 == 0)
  let first := fbits bs 34 2 0 12
  let count := field bs 36 2
  let clusters := field bs 48 8
  need malformed (decide (1 ≤ count) && decide (first + count ≤ 4096) && clusters != 0)
  let l : Locus := { role := 1 }
  let d ← s.desc session .write l 0 [7] (field bs 40 6)
  need (malformedAt l 0) (d.count == count * popCount 64 clusters)
  return .scaleRead first count (fbit bs 38 1 0) d clusters

/-- The entries of a COLLECT list, each with its descriptor (R534). -/
def State.readEntries (s : State) (session : Nat) (list : List Byte) : Nat → Nat → Except Rej (List CollEntry)
  | 0, _ => .ok []
  | n + 1, i => do
    let e := (list.drop (16 * i)).take 16
    need malformed (fbits e 0 2 12 4 == 0 && zeros e [(3, 1), (10, 6)] && decide (field e 2 1 ≤ 1))
    let recv := field e 2 1 == 1
    let d ← s.desc session (if recv then .write else .read) { role := 11, entry := i } 0 plainSizes (field e 4 6)
    let rest ← s.readEntries session list n (i + 1)
    return { peer := fbits e 0 2 0 12, recv := recv, desc := d } :: rest

/-- The words of an image decode from its start to its end (07 R354). -/
def imageOk : Nat → List Byte → Bool
  | 0, bs => bs.isEmpty
  | fuel + 1, bs =>
    if bs.isEmpty then true else
    match decodeCore (BitVec.ofNat 64 (ofLe (bs.take 8))) with
    | none => false
    | some i => decide (i.len ≤ bs.length) && imageOk fuel (bs.drop i.len)

/-- VKERNEL (R533; 07 R354, R366). -/
def State.readVkernel (s : State) (bs : List Byte) (c : Cost) : Except Rej Body := do
  need malformed (zeros bs [(38, 2), (55, 9), (96, 32)] && fbits bs 54 1 5 3 == 0)
  let a := field bs 32 6
  let size := field bs 40 4
  let entry := field bs 44 4
  let arg := field bs 48 6
  let threads := fbits bs 54 1 0 4
  let cores := field bs 64 32
  need malformed (decide (4 ≤ size) && decide (size ≤ 65536) && size % 4 == 0 && a % 4 == 0 && s.inOneMemory a size)
  need malformed (decide (entry < size) && entry % 4 == 0 && decide (1 ≤ threads) && decide (threads ≤ 8) && cores != 0)
  need malformed (match s.space arg with
    | .hbm | .sram _ | .aperture => true
    | _ => false)
  need malformed (decide (0x1000 ≤ c.lsBytes) && decide (c.lsBytes ≤ 0x80000) && c.lsBytes % 0x1000 == 0 &&
    decide (size ≤ c.lsBytes))
  need malformed (decide (16384 ≤ c.cycles) && decide (2048 ≤ c.traffic))
  need malformed (decide (2048 ≤ c.rate) && decide (c.rate ≤ 0x4000000) && c.rate % 2048 == 0)
  need malformed (imageOk size (s.bytes a size))
  return .vkernel a size entry arg threads (fbit bs 54 1 4) cores

/-- XFER (R533; 08 R406). -/
def State.readXfer (s : State) (session : Nat) (bs : List Byte) : Except Rej Body := do
  need malformed (zeros bs [(38, 2), (46, 82)])
  let src ← s.desc session .xferSource { role := 0 } 0 plainSizes (field bs 32 6)
  let dst ← s.desc session .write { role := 1 } 0 plainSizes (field bs 40 6)
  need malformed (src.count == dst.count && src.esize == dst.esize && src.resume == dst.resume)
  need malformed (!(if dst.mcast then
      (copiesOf dst dst.base).any fun b =>
        let x := dst.extent 0
        let o : Int := (b : Int) - (dst.base : Int)
        meets (src.extent 0) (x.1 + o, x.2 + o)
    else meets (src.extent 0) (dst.extent 0)))
  return .xfer src dst

/-- The extra waits of a FENCE (R537). -/
def parseWaits (bs : List Byte) : List Nat → Except Rej (List Wait)
  | [] => .ok []
  | k :: ks => do
    let w ← parseWait bs (40 + 6 * k)
    let rest ← parseWaits bs ks
    return w ++ rest

/-- The bodies of the control and service commands (R537), and what waits a FENCE adds. -/
def State.readControl (s : State) (session op : Nat) (bs : List Byte) : Except Rej (Body × List Wait) := do
  if op = 0x0B then
    let kind := field bs 32 1
    let extra := field bs 33 1
    need malformed (decide (1 ≤ kind) && decide (kind ≤ 3) && decide (extra ≤ 12) && zeros bs [(34, 6), (112, 16)])
    need malformed (zeros bs [(40 + 6 * extra, 72 - 6 * extra)])
    let ws ← parseWaits bs (List.range extra)
    return (.fence kind, ws)
  else if op = 0x0C then
    let reset := field bs 34 1
    need malformed (zeros bs [(35, 1), (40, 88)] && fbits bs 32 2 12 4 == 0 && decide (reset ≤ 1) &&
      (reset == 0 || field bs 36 4 == 0))
    return (.signal (fbits bs 32 2 0 12) (reset == 1) (field bs 36 4), [])
  else if op = 0x0D then
    need malformed (zeros bs [(41, 87)] && fbits bs 40 1 1 7 == 0)
    return (.waitFrame (field bs 32 8), [])
  else if op = 0x0E then
    need malformed (zeros bs [(33, 31), (96, 32)] && fbits bs 32 1 2 6 == 0)
    let all := fbit bs 32 1 0
    let m := field bs 64 32
    need malformed (!all || m == 0)
    return (.calibrate (fbit bs 32 1 1) (if all then 2 ^ 256 - 1 else m), [])
  else if op = 0x0F then
    let units := field bs 33 1
    need malformed (zeros bs [(34, 30), (96, 32)] && decide (field bs 32 1 ≤ 1) && bits units 6 2 == 0)
    need malformed (field bs 32 1 == 1 || bits units 1 4 == 0)
    return (.selftest (field bs 32 1 == 1) units (field bs 64 32), [])
  else if op = 0x11 then
    need malformed (zeros bs [(34, 6), (46, 82)])
    match queryBytes (field bs 32 2) with
    | none => .error malformed
    | some n =>
      let l : Locus := { role := 1 }
      let d ← s.desc session .write l 0 [0] (field bs 40 6)
      need (malformedAt l 0) (decide (n ≤ d.count))
      return (.query (field bs 32 2) d, [])
  else if op = 0x12 then
    need malformed (zeros bs [(33, 3), (40, 88)] && !fbit bs 32 1 6)
    return (.cancel (fbits bs 32 1 0 6) (fbit bs 32 1 7) (field bs 36 4), [])
  else
    need malformed (zeros bs [(32, 96)])
    return (.none, [])

/-- Read the stages that lie one after another in 96 B records. -/
def State.readStages (s : State) (session : Nat) (hdr : Header) (mask : Nat) (recs : List Byte) :
    Nat → Nat → Except Rej (List Stage)
  | 0, _ => .ok []
  | n + 1, i => do
    let st ← s.readStage session i hdr mask ((recs.drop (96 * i)).take 96)
    let rest ← s.readStages session hdr mask recs n (i + 1)
    return st :: rest

/-- What admission has read of a descriptor. -/
structure Parsed where
  hdr  : Header
  body : Body
  cost : Option Cost
  deriving DecidableEq, Repr

/-- The stages of a body. -/
def Body.stageList : Body → List Stage
  | .stages l => l
  | _ => []

/-- The rules that tie a cost descriptor to its command (R522; 10 R484, R489; 03 R160). -/
def costOk (hdr : Header) (body : Body) (c : Cost) : Bool :=
  let n := body.stageList.length
  let ok := c.main.all (phaseOk n 0) && c.rerun.all (phaseOk n 1) && c.alt.all (phaseOk n 2)
  let reruns := ((List.range n).zip body.stageList).all fun x =>
    !x.2.rerunReserved hdr || c.rerun.any fun p => p.stage == x.1
  ok && reruns && (costRule hdr.opcode != some .onePhase || (c.main.length == 1 && c.rerun.isEmpty && c.alt.isEmpty))

/-- Read a whole descriptor of 128 B. -/
def State.parse (s : State) (session : Nat) (bs : List Byte) : Except Rej Parsed := do
  let hdr ← parseHeader bs
  let op := hdr.opcode
  let cost ← if hdr.costPtr = 0 then .ok none else (s.readCost hdr.cls hdr.costPtr).map some
  let mask := match cost with
    | some c => c.mask
    | none => 0
  let r ← (if op = 0x01 then (s.readXfer session bs).map fun b => (b, [])
    else if op = 0x03 then do
      let n := field bs 32 1
      need malformed (decide (1 ≤ n) && decide (n ≤ 8) && zeros bs [(33, 7), (46, 82)])
      let recs ← s.readStruct malformed 3 (field bs 40 6) 32 (96 * n)
      let l ← s.readStages session hdr mask recs n 0
      return (.stages l, [])
    else if isStaged op then do
      let st ← s.readStage session 0 hdr mask (bs.drop 32)
      return (.stages [st], [])
    else if op = 0x05 then do
      let n := field bs 32 2
      need malformed (decide (1 ≤ n) && decide (n ≤ 4096) && zeros bs [(34, 2), (46, 82)])
      let list ← s.readStruct malformed 6 (field bs 40 6) 16 (16 * n)
      let es ← s.readEntries session list n 0
      return (.collect (field bs 36 4) es, [])
    else if op = 0x06 then (match cost with
      | some c => (s.readVkernel bs c).map fun b => (b, [])
      | none => .error malformed)
    else if op = 0x07 then (s.readAcc session bs false).map fun b => (b, [])
    else if op = 0x08 then (s.readAcc session bs true).map fun b => (b, [])
    else if op = 0x09 then (s.readScaleLoad session bs).map fun b => (b, [])
    else if op = 0x0A then (s.readScaleRead session bs).map fun b => (b, [])
    else s.readControl session op bs : Except Rej (Body × List Wait))
  let hdr := { hdr with waits := hdr.waits ++ r.2 }
  need malformed (hdr.add == r.1.stageList.any fun st => st.add)
  need malformed (match cost with
    | some c => costOk hdr r.1 c
    | none => true)
  return { hdr := hdr, body := r.1, cost := cost }

end Sys2Proof.Machine
end

