-- ==== Sys2Proof/Machine/Calendar.lean ====
section
/-! DEFINITION. Noon's calendar (10 R478 to R480, R487 to R489, R494): what each accepted command holds in each frame, the planned limits, and planned power (01 R41 to R43, R768; 02 R86; 15 R695, R700 to R706). -/

namespace Sys2Proof.Machine

/-! ## The rotation and the engines that admission plans (05 R275 to R277) -/

/-- The engine is mapped out. -/
def State.engineOut (s : State) (e : Nat) : Bool := (s.engine e).lock == .mappedOut
/-- The rotation of sector `k` in the slot of frame `f`: its engines in ascending order, without those that a boundary up to the
one that begins the slot has mapped out (R275, R276). -/
def State.rotation (s : State) (k f : Nat) : List Nat :=
  ((List.range 64).map fun i => 64 * k + i).filter fun e => !(s.engineOut e && decide ((s.engine e).outAt ≤ f / 16 * 16))
/-- The engine of sector `k` whose calibration slot holds frame `f` (R275). -/
def State.slotEngine (s : State) (k f : Nat) : Option Nat :=
  let r := s.rotation k f
  if r.isEmpty then none else r[f / 16 % r.length]?
/-- The engine computes products: LOCKED or HELD (R260). -/
def State.inService (s : State) (e : Nat) : Bool :=
  match (s.engine e).lock with
  | .locked | .held => true
  | _ => false
/-- While the rotation is paused, the engine that R275 assigns to the present slot stays idle (R277). -/
def State.slotIdle (s : State) (e : Nat) : Bool := !s.cal.rotating && s.slotEngine (e / 64) s.frame.counter == some e
/-- Admission plans work on the engine: in service, or in its calibration slot (R277). -/
def State.plannable (s : State) (e : Nat) : Bool := s.inService e || (s.engine e).lock == .calib
/-- Engine-slots that cluster `c` has in frame `f` (R277; 10 R478, R488). -/
def State.engCap (s : State) (f c : Nat) : Nat :=
  128 * (((List.range 4).map fun i => 4 * c + i).filter fun e =>
    s.plannable e && s.slotEngine (sectorOfEngine e) f != some e).length
/-- Engine-slots of a set of clusters in frame `f`. -/
def State.engCaps (s : State) (f mask : Nat) : Nat := sumNat ((bitList 64 mask).map (s.engCap f))

/-! ## Power units

A power unit is 1/21,626,880,000 W, in which every nominal figure of the manual is a whole number. -/

/-- One watt. -/
def watt : Nat := 21626880000
/-- The slew limit of a sector in one frame: 40 W per 100 µs over 8.192 µs (15 R700). -/
def slewUnits : Nat := 70868960256
/-- Array power at full issue above the fixed 185 W, in W, by row of the table of 02 R86. -/
def arrayWatts : Nat → Nat
  | 0 => 510
  | 1 => 331
  | 2 => 380
  | 3 => 258
  | 4 => 435
  | _ => 313
/-- Power of `e` engine-slots in a frame (R768). -/
def issueUnits (row e : Nat) : Nat := arrayWatts row * 660000 * e
/-- Power of HBM granules in a frame: 680 W at 12 × 11,264 (01 R43). -/
def hbmUnits (g : Nat) : Nat := 680 * 160000 * g
/-- Power of link slots in a frame: 200 W at full payload of both directions (01 R43). -/
def linkUnits (n : Nat) : Nat := 200 * 330000 * n
/-- Power of one vector core at full issue: a 256th of 330 W (01 R43). -/
def coreUnits : Nat := 330 * watt / 256
/-- A sector's full group-issue power, 127.5 W (15 R703). -/
def sectorFull : Nat := 255 * watt / 2
/-- A floor of `p` percent (15 R705). -/
def floorUnits (p : Nat) : Nat := sectorFull * p / 100
/-- Power of an engine in its calibration slot (R768). -/
def calibUnits : Nat := issueUnits 0 128

/-! ## What commands hold -/

/-- A resource of the calendar, with its unit (R478). Engine-slots are one pool over a set of clusters (R487), and a Farandole hop goes
by the place of its first cluster in the ring. -/
inductive Key where
  | eng (mask : Nat) | gran (stack : Nat) | tag (stack : Nat) | mesh (j : Nat) | link (n : Nat) | far (hop : Nat)
  | rustra (port : Nat) | sram (cluster : Nat) | acc (engine : Nat) | threads (core : Nat) | store (core : Nat) | power
  deriving DecidableEq, Repr

/-- The accumulator slot ranges that a command names: engines, first slot, slots, format exact, b, and how it uses them
(04 R200, R211). -/
inductive AccUse where
  | relaxed | add | overwrite | load | store
  deriving DecidableEq, Repr

/-- One named range of slots. -/
structure AccName where
  engines : List Nat
  lo      : Nat
  n       : Nat
  exact   : Bool
  b       : Int
  use     : AccUse
  deriving DecidableEq, Repr

/-- The engines of a set of clusters. -/
def enginesOf (mask : Nat) : List Nat := (bitList 64 mask).flatMap fun c => (List.range 4).map fun i => 4 * c + i

/-- The cluster set of a command (10 R484). -/
def Job.mask (j : Job) : Nat := match j.cost with
  | some c => c.mask
  | none => 0

/-- The slot ranges that a command names (04 R200, R219). -/
def Job.accNames (j : Job) : List AccName :=
  match j.body with
  | .stages l => l.map fun st =>
      { engines := enginesOf j.mask, lo := st.accBase, n := st.vecB * st.vslots, exact := st.exact, b := st.compactExp,
        use := if st.add then (if j.hdr.relaxed then .relaxed else .add) else .overwrite }
  | .acc _ base vecB _ exact _ b engines =>
      [{ engines := bitList 256 engines, lo := base, n := vecB * (if exact then 5 else 1), exact := exact, b := b,
         use := if j.hdr.opcode = 0x07 then .load else .store }]
  | _ => []

/-- Slots per row that a command holds on engine `e`; concurrent RELAXED adders share theirs (04 R211; 10 R486). -/
def Job.accSlots (j : Job) (e : Nat) : Nat :=
  let named := sumNat (((j.accNames.filter fun n => n.engines.contains e && n.use != .relaxed).map
    fun n => (n.lo, n.n)).eraseDups.map (·.2))
  match j.cost with
  | some c => if j.hdr.relaxed || !bit c.mask (e / 4) then named else
      Nat.max named (((c.main ++ c.rerun).map (·.accSlots)).foldl Nat.max 0)
  | none => named

/-- SRAM that a command holds in a cluster of its set: that of the cost descriptor's phase, and five activation tile buffers of its
stage (08 R386; 10 R486, R489). -/
def Job.sramAt (j : Job) (n : Nat) : Nat := match j.cost with
  | some c => ((c.main ++ c.rerun).map fun p => p.sramBytes + (match j.body.stageList[p.stage]? with
      | some st => 5 * st.streamBytes n
      | none => 0)).foldl Nat.max 0
  | none => 0
/-- The most SRAM that a command holds in a cluster of its set. -/
def Job.sramBytes (j : Job) : Nat := ((bitList 64 j.mask).map j.sramAt).foldl Nat.max 0

/-- The share of a demand in one frame (10 R488). -/
def Placed.share (p : Placed) (d : Nat) : Nat := ceilDiv d p.n
/-- The phase is placed in frame `f`, and the frame has not been given back (03 R166). -/
def Placed.covers (p : Placed) (f : Nat) : Bool := decide (p.first ≤ f) && decide (f < p.first + p.n) && p.cut.all (decide <| f ≤ ·)

/-- A reservation of a command still stands in frame `f`: after its final record, only inside the horizon that was
committed then (10 R497; 07 R371; 08 R427). -/
def Job.stands (j : Job) (f : Nat) : Bool :=
  match j.phase with
  | .written _ fr => decide (f ≤ fr + 63)
  | _ => true

/-- The Elastic parameters of a command: cores, threads, exclusive, local store, rate (07 R366, R367). -/
def Job.elastic? (j : Job) : Option (Nat × Nat × Nat × Nat) :=
  match j.body, j.cost with
  | .vkernel _ _ _ _ threads excl cores, some c => some (cores, if excl then 8 else threads, c.lsBytes, c.rate)
  | _, _ => none

/-- The last frame in which a command holds what it works with: that of its time guard, or, while work runs on past it, the frame
after the present one (10 R494, R496). -/
def State.holdEnd (s : State) (j : Job) : Nat :=
  if j.phase == .running && decide (j.guardEnd < s.frame.counter) then s.frame.counter + 1 else j.guardEnd
/-- The command holds something in the frame. -/
def State.holdsIn (s : State) (j : Job) (f : Nat) : Bool :=
  j.stands f && decide (j.first ≤ f) && decide (f ≤ s.holdEnd j)

/-- The phases whose engine work and power the frame carries: those placed in it, and in the time guard, and for work past it, the last
one (10 R494, R496). -/
def State.phasesAt (s : State) (j : Job) (f : Nat) : List Placed :=
  if j.last < f && decide (f ≤ s.holdEnd j) then j.placed.getLast?.toList else j.placed.filter fun p => p.covers f

/-- The Rustra port of a session's traffic; bonded ports count as port 0 (12 R603). -/
def State.portOf (s : State) (session : Nat) : Nat :=
  if s.link.bonded then 0 else match s.session session with
    | some ss => ss.port
    | none => 0

/-- Engine-slots that a command holds in a frame, on any engines of its set (10 R487, R488). -/
def State.engUse (s : State) (j : Job) (f : Nat) : Nat :=
  if s.holdsIn j f then sumNat ((s.phasesAt j f).map fun p => p.share p.phase.engSlots) else 0
/-- The engine work of several commands, each a pool over its cluster set, finds engines: that of a set `m` with demand `d`, with
any others, has room in the union of their sets (10 R487, R488). -/
def poolFits (cap : Nat → Nat) : List (Nat × Nat) → Nat → Nat → Bool
  | [], m, d => decide (d ≤ cap m)
  | x :: xs, m, d => poolFits cap xs m d && (x.2 == 0 || poolFits cap xs (m ||| x.1) (d + x.2))

/-- The place of a cluster in the ring of the Farandole chain (08 R411). -/
def ringPlace (c : Nat) : Nat := if c < 32 then c else if 48 ≤ c then c - 16 else c + 16
/-- The hops of the ring that a command's sends use: from its first cluster in ring order to its last (08 R413, R415; log 128). -/
def farHops (mask : Nat) : List Nat :=
  let ps := (bitList 64 mask).map ringPlace
  (List.range 64).filter fun p => ps.any (decide <| · ≤ p) && ps.any (decide <| p < ·)

/-- What a command holds of a resource in a frame. -/
def State.uses (s : State) (j : Job) (f : Nat) (k : Key) : Nat :=
  if !s.holdsIn j f then 0 else
  let now := if j.guardEnd < f then j.placed.getLast?.toList else j.placed.filter fun p => p.covers f
  let el := fun (g : Nat × Nat × Nat × Nat → Nat) => match j.elastic? with
    | some x => g x
    | none => 0
  match k with
  | .eng m => if (j.mask &&& m) = 0 then 0 else s.engUse j f
  | .gran st => sumNat (now.map fun p => p.share (nth p.gran st 0)) +
      (if s.stackOut st then 0 else el fun x => ceilDiv (x.2.2.2 / 2048) s.stacksUp)
  | .tag st => sumNat (now.map fun p => p.share (nth p.tag st 0)) +
      (if s.stackOut st then 0 else el fun x => 1256 * ceilDiv (x.2.2.2 / 2048) s.stacksUp)
  | .mesh m => sumNat (now.map fun p => p.share (nth p.phase.mesh m 0))
  | .link n => sumNat (now.map fun p => if bit p.phase.linkMask n then p.share p.phase.linkSlots else 0)
  | .far p => if (farHops j.mask).contains p then sumNat (now.map fun p => p.share p.phase.farSymbols) else 0
  | .rustra p => if s.portOf j.session = p then sumNat (now.map fun q => q.share q.phase.rustraBytes) else 0
  | .sram c => if bit j.mask c then j.sramAt c else 0
  | .acc e => j.accSlots e
  | .threads n => el fun x => if bit x.1 n then x.2.1 else 0
  | .store n => el fun x => if bit x.1 n then x.2.2.1 else 0
  | .power => 0

/-- What all accepted commands hold of a resource in a frame. -/
def State.held (s : State) (f : Nat) (k : Key) : Nat := sumNat (s.jobs.map fun j => s.uses j f k)

/-- The plan under which a frame is planned (12 R570). -/
def State.planFor (s : State) (f : Nat) : Option Plan :=
  match s.link.armedPlan with
  | some p => if s.link.armed = 2 ∧ s.link.armedAt ≤ f then some p else s.link.active
  | none => s.link.active

/-- An entry of a plan changes the line of the transmit lane (12 R571). -/
def Lane.txChanges (l : Lane) (p : PlanLane) : Bool := p.txEn && p.txLine != l.txLine
/-- An entry of a plan changes the line of the receive lane (12 R571). -/
def Lane.rxChanges (l : Lane) (p : PlanLane) : Bool := p.rxEn && p.rxLine != l.rxLine

/-- Noon plans no slot of the lanes of a connector that quiesces, from the frame after the press on for the frames from P + 2 on (12
R598). -/
def State.quiescing (s : State) (c f : Nat) : Bool :=
  let x := s.link.conns.get {} c
  x.attn && x.ind == 1 && decide (x.frameP < s.frame.counter) && decide (x.frameP + 2 ≤ f)

/-- Link slots of link `n` in a frame, both directions: 121 per transmit and per receive lane that is up and enabled by the frame's plan,
less the slots held for relay; none of a lane while it trains on a new line of an armed plan, and none on a connector that quiesces
(10 R478, R486; 12 R570, R571, R574, R598). -/
def State.linkCap (s : State) (f n : Nat) : Nat :=
  let armed := s.link.armed == 2 && decide (s.link.armedAt ≤ f)
  if s.quiescing (n / 8) f then 0 else
  sumNat ((List.range 8).map fun l =>
    let i := 8 * n + l
    let ln := s.lane i
    match (s.planFor f).bind fun p => p.lanes[i]? with
    | none => 0
    | some x =>
      let trains := armed && decide (f ≤ s.link.armedAt + 244)
      (if ln.tx == 3 && x.txEn && decide (ln.noSlotsUntil ≤ f) && !(trains && ln.txChanges x && !ln.txLines.contains x.txLine)
        then 121 - x.relay else 0) +
      (if ln.rx == 3 && x.rxEn && decide (ln.noRxUntil ≤ f) && !(trains && ln.rxChanges x && !ln.rxLines.contains x.rxLine)
        then 121 else 0))

/-- The planned limit of a resource in a frame (R478; tags in thousandths of a tag-microsecond). -/
def State.limit (s : State) (f : Nat) (k : Key) : Nat :=
  match k with
  | .eng m => s.engCaps f m
  | .gran st => if s.stackOut st then 0 else 10700
  | .tag st => if s.stackOut st then 0 else 11953000
  | .mesh _ => 22800
  | .link n => s.linkCap f n
  | .far _ => 97280
  | .rustra _ => if s.link.bonded && [256, 257].all (fun i => (s.lane i).tx == 3 && (s.lane i).rx == 3) then 778240 else 389120
  | .sram _ => 16777216
  | .acc _ => 640
  | .threads _ => 8
  | .store _ => 524288
  | .power => 0

/-! ## Planned power -/

/-- Group issue that a command plans on sector `k` in a frame, in power units. -/
def State.issueOf (s : State) (j : Job) (f k : Nat) : Nat :=
  if !s.holdsIn j f then 0 else
  let tot := s.engCaps f j.mask
  let mine := s.engCaps f (j.mask / 2 ^ (16 * k) % 2 ^ 16 * 2 ^ (16 * k))
  sumNat ((s.phasesAt j f).map fun p =>
    if tot = 0 then 0 else ceilDiv (issueUnits p.phase.arrayRow (p.share p.phase.engSlots) * mine) tot)

/-- Power of a command's HBM, link and vector core figures in a frame: links by their payload, none for lanes that are trained and
idle (log 24). The vector cores of an Elastic kernel are planned at full
issue, each core of its mask, however many threads it names and whatever other kernel shares the core (log 24). -/
def State.otherPower (s : State) (j : Job) (f : Nat) : Nat :=
  if !s.holdsIn j f then 0 else
  let ph := sumNat ((s.phasesAt j f).map fun p =>
    hbmUnits (p.share (sumNat p.gran)) + linkUnits (popCount 32 p.phase.linkMask * p.share p.phase.linkSlots))
  match j.elastic? with
  | some x => ph + coreUnits * popCount 256 x.1 + hbmUnits (x.2.2.2 / 2048)
  | none => ph

/-- The floor of sector `k` in the plan of frame `f` (15 R705, R706): it moves towards each target from the target's
first frame on at the slew limit. -/
def floorAt (k f : Nat) : List (Nat × List Nat) → Nat → Nat → Nat
  | [], _, v => v
  | (first, target) :: rest, from', v =>
    if f < first then v else
    let until' := match rest with
      | [] => f + 1
      | (n, _) :: _ => Nat.min n (f + 1)
    let t := nth target k 0
    let d := slewUnits * (until' - Nat.max first from')
    floorAt k f rest until' (if v < t then Nat.min t (v + d) else Nat.max t (v - d))

/-- The floor of a sector in a frame: none during a lock excursion and until Dusk's ramp has ended (15 R705). -/
def State.floor (s : State) (f k : Nat) : Nat :=
  let sec := s.sector k
  if sec.excursion ∨ sec.issueMw < 127500 then 0 else floorAt k f s.power.floorPlan 0 0

/-- Engines of a sector that convert discarded data while they are out of service (05 R263). -/
def State.discarding (s : State) (k : Nat) : Nat :=
  (s.engines.filter fun (x : Nat × Engine) => x.1 / 64 == k && x.2.discards).length
/-- The engines of `discarding`, but for the one whose calibration slot holds frame `f`, which counts there. -/
def State.discardingAt (s : State) (f k : Nat) : Nat :=
  (s.engines.filter fun (x : Nat × Engine) => x.1 / 64 == k && x.2.discards && s.slotEngine k f != some x.1).length
/-- Planned group-issue power of a sector without fill ramps: planned groups, an engine in its calibration slot at full issue, and
the discarded conversions of engines out of service (R768; 05 R263). How long an engine stays out the manual does not say: those out
now count in every frame (log 24). -/
def State.rawLevel (s : State) (f k : Nat) : Nat :=
  Nat.max (s.floor f k) ((if (s.rotation k f).isEmpty then 0 else calibUnits) + calibUnits * s.discardingAt f k +
    sumNat (s.jobs.map fun j => s.issueOf j f k))

/-- Planned group-issue and fill power of a sector: the least level that no pair of frames changes faster than the slew
limit (15 R702). -/
def State.level (s : State) (f k : Nat) : Nat :=
  (List.range 40).foldl (fun m d =>
    let m := Nat.max m (s.rawLevel (f + d) k - slewUnits * d)
    if d ≤ f then Nat.max m (s.rawLevel (f - d) k - slewUnits * d) else m) 0

/-- The planned package power of a frame: the hub's 40 W, the array's fixed 185 W, the sectors and the rest (01 R41,
R43). -/
def State.plannedPower (s : State) (f : Nat) : Nat :=
  225 * watt + sumNat ((List.range 4).map (s.level f)) + sumNat (s.jobs.map fun j => s.otherPower j f)

/-- The same without fill ramps. -/
def State.rawPower (s : State) (f : Nat) : Nat :=
  225 * watt + sumNat ((List.range 4).map (s.rawLevel f)) + sumNat (s.jobs.map fun j => s.otherPower j f)

/-- The cap that new work is planned against (15 R695, R697). -/
def State.planCap (s : State) : Nat :=
  (if s.power.forced then Nat.min 800 (5 * s.power.cap) else 5 * s.power.cap) * watt

/-! ## Fitting a candidate -/

/-- The resources that a command uses. -/
def Job.keys (j : Job) : List Key :=
  let cl := bitList 64 j.mask
  let ph := match j.cost with
    | some c => c.main ++ c.rerun
    | none => j.placed.map fun (p : Placed) => p.phase
  let el := match j.elastic? with
    | some x => (bitList 256 x.1).flatMap fun n => [Key.threads n, Key.store n]
    | none => []
  (if ph.any fun p => p.engSlots != 0 then [Key.eng j.mask] else []) ++
    (if j.sramBytes = 0 then [] else cl.map Key.sram) ++
    ((j.accNames.flatMap (·.engines)).eraseDups.map Key.acc) ++
    (if j.elastic?.isSome || ph.any (fun p => p.readGran.any (· != 0) || p.writeGran.any (· != 0)) ||
        j.placed.any (fun p => p.gran.any (· != 0)) then
      (List.range 12).flatMap fun k => [Key.gran k, Key.tag k] else []) ++
    (if ph.any fun p => p.mesh.any (· != 0) then (List.range 8).map Key.mesh else []) ++
    (((List.range 32).filter fun n => ph.any fun p => bit p.linkMask n).map Key.link) ++
    (if ph.any fun p => p.farSymbols != 0 then (farHops j.mask).map Key.far else []) ++
    (if ph.any fun p => p.rustraBytes != 0 then [Key.rustra 0, Key.rustra 1] else []) ++ el ++
    (if ph.isEmpty && el.isEmpty then [] else [Key.power])

/-- The commands but for one. -/
def State.others (s : State) (j : Job) : State := { s with jobs := s.jobs.filter fun x => x.id != j.id }

/-- Every resource that `j` uses has room for all commands in frame `f`, and the planned power is within the cap, or the command adds
none to it (01 R41; 15 R695); `s.jobs` holds the candidate. -/
def State.fitsAt (s : State) (j : Job) (f : Nat) : Bool :=
  j.keys.all fun k => match k with
    | .power => decide (s.rawPower f ≤ s.planCap) || decide (s.rawPower f ≤ (s.others j).rawPower f)
    | .eng m => poolFits (s.engCaps f) ((s.others j).jobs.map fun x => (x.mask, s.engUse x f)) m (s.engUse j f)
    | k => s.uses j f k == 0 || decide (s.held f k ≤ s.limit f k)

/-- With its fill the planned power of a frame is within the cap, or the command adds none to it (01 R41; 15 R695, R702); `s.jobs`
holds the candidate. -/
def State.powerFits (s : State) (j : Job) (f : Nat) : Bool :=
  decide (s.plannedPower f ≤ s.planCap) || decide (s.plannedPower f ≤ (s.others j).plannedPower f)

/-- Frames `[f, f + n)` all satisfy a test. -/
def framesAll (p : Nat → Bool) (f : Nat) : Nat → Bool
  | 0 => true
  | n + 1 => p f && framesAll p (f + 1) n

/-- The least count from `n` on, within `fuel` tries, that satisfies a test. -/
def least (p : Nat → Bool) : Nat → Nat → Option Nat
  | 0, _ => none
  | fuel + 1, n => if p n then some n else least p fuel (n + 1)

/-- The total of a resource that commands reserve in a frame, power with its fill. -/
def State.reserved (s : State) (f : Nat) (k : Key) : Nat :=
  match k with
  | .power => s.plannedPower f
  | k => s.held f k

/-- Frames at which a total can fall: as a reservation ends, as fill ramps down after it, and as a floor moves down (15 R702, R706). -/
def State.ends (s : State) : List Nat :=
  let ramp := fun (f : Nat) => (List.range 41).map fun i => f + i
  (s.jobs.flatMap fun j =>
    (j.placed.flatMap fun p => ramp (p.first + p.n) ++ p.cut.toList.map (· + 1)) ++ ramp (j.guardEnd + 1) ++ [j.last + 1] ++
      (match j.phase with
        | .written _ fr => ramp (fr + 64)
        | _ => [])) ++ s.power.floorPlan.flatMap fun x => ramp x.1

/-- The next trial start after `f`: the first frame in which the total reserved on one of the resources falls
(10 R490). -/
def State.nextFall (s : State) (keys : List Key) (f : Nat) : Option Nat :=
  match s.ends.filter fun g => decide (f < g) && keys.any fun k => decide (s.reserved g k < s.reserved (g - 1) k) with
  | [] => none
  | l => some (minNat l)

end Sys2Proof.Machine
end

