-- ==== Sys2Proof/Machine/Admission.lean ====
section
/-! DEFINITION. Noon's admission (10 R490 to R494, R502 to R504): the order of its checks, what commands name and how they wait on each other (03 R174; 04 R211; 11 R491, R547 to R552), placement, and the reports of a rejection. -/

namespace Sys2Proof.Machine

/-! ## Features (13 FEATURES_LO; 14 R666) -/

/-- The descriptors of a stage, each with its element size in bytes. -/
def Stage.sized (st : Stage) : List (TDesc × Nat) :=
  [(st.inDesc, 0), (st.wDesc, st.tile), (st.outDesc, 0), (st.inMx, 0), (st.outMx, 0), (st.eltDesc, 0),
    (st.rerunW, tileBytes st.rows st.gsize 4), (st.rerunBuf, 0), (st.argDesc, 0)].filterMap fun x =>
    x.1.map fun d => (d, d.size x.2)

/-- The descriptors of a body, each with its element size in bytes. -/
def Body.sized : Body → List (TDesc × Nat)
  | .xfer a b => [(a, a.size 0), (b, b.size 0)]
  | .stages l => l.flatMap Stage.sized
  | .collect _ es => es.map fun (e : CollEntry) => (e.desc, e.desc.size 0)
  | .acc d _ _ _ _ _ _ _ => [(d, d.size 0)]
  | .scaleLoad _ _ _ _ _ d _ => [(d, d.size 0)]
  | .scaleRead _ _ _ d _ => [(d, d.size 0)]
  | .query _ d => [(d, d.size 0)]
  | _ => []

/-- The descriptors of a body. -/
def Body.descs (b : Body) : List TDesc := b.sized.map (·.1)

/-- A form code belongs to a list. -/
def Stage.forms (st : Stage) (l : List Nat) : Bool := l.contains st.inForm || l.contains st.wForm

/-- The feature bits that a command needs (13 FEATURES_LO). -/
def State.featuresOf (s : State) (p : Parsed) : Nat :=
  let st := p.body.stageList
  let op := p.hdr.opcode
  ofBitList <|
    (if op = 0x03 then [0] else []) ++ (if op = 0x06 then [1] else []) ++ (if op = 0x05 then [2] else []) ++
    (if st.any fun x => x.parts.any fun q => q.peer != 0xFFFF then [3] else []) ++
    (if p.hdr.relaxed then [4] else []) ++ (if p.hdr.rerun then [5] else []) ++
    (if (st.any fun x => !x.exact) || (match p.body with
      | .acc _ _ _ _ exact _ _ _ => !exact
      | _ => false) then [6] else []) ++
    (if st.any fun x => x.rotate then [7] else []) ++ (if st.any fun x => x.forms [6, 11] then [8] else []) ++
    (if st.any fun x => x.store.isMx || x.out.isMx then [9] else []) ++
    (if st.any fun x => x.forms [2, 3, 4] then [10] else []) ++
    (if st.any fun x => x.forms [9, 10] || decide (x.inStore ≤ 1) || decide (x.outType ≤ 1) then [11] else []) ++
    (if st.any fun x => x.g == 2 then [12] else []) ++ (if op = 0x07 ∨ op = 0x08 then [13] else []) ++
    (match p.body with
      | .selftest true _ _ => [14]
      | _ => []) ++
    (if p.body.descs.any fun d => s.space d.base == .aperture then [15] else [])

/-! ## What commands name (03 R174; 04 R238) -/

/-- A range of scale entries in a set of clusters. -/
structure EntryRange where
  mask : Nat
  lo   : Nat
  n    : Nat
  deriving DecidableEq, Repr

/-- Two ranges share an entry of one cluster; an empty range, as a drain-only stage reads, shares none. -/
def EntryRange.meets (a b : EntryRange) : Bool :=
  (a.mask &&& b.mask) != 0 && a.n != 0 && b.n != 0 && decide (a.lo < b.lo + b.n) && decide (b.lo < a.lo + a.n)
/-- Some range of one list meets some range of another. -/
def anyMeet (a b : List EntryRange) : Bool := a.any fun x => b.any x.meets

/-- The entries that SCALE_READ reads, cluster after cluster: those from its destination's RESUME on (03 R141; 08 R399). -/
def readRanges (first count resume mask : Nat) : List EntryRange :=
  let cs := bitList 64 mask
  ((List.range cs.length).zip cs).map fun x =>
    let skip := Nat.min count (resume - x.1 * count)
    { mask := 2 ^ x.2, lo := first + skip, n := count - skip }

/-- Entries read for de-quantisation, or by SCALE_READ. -/
def Job.entryReads (j : Job) : List EntryRange :=
  match j.body with
  | .stages l => l.flatMap fun st =>
      if st.parts.isEmpty then [{ mask := j.mask, lo := st.inScale, n := st.redLen }]
      else st.parts.map fun q => { mask := q.mask, lo := st.inScale + q.start, n := q.len }
  | .scaleRead first count _ d m => readRanges first count d.resume m
  | _ => []
/-- The stage's outputs drain on this device: without a chain, or with its last part here (11 R532). -/
def Stage.endsHere (st : Stage) : Bool := match st.parts.getLast? with
  | some q => q.peer == 0xFFFF
  | none => true
/-- Entries updated by a step or written by SCALE_LOAD, from RESUME on (11 R777), or cleared by SCALE_READ (03 R156); a stage whose last part lies on a
peer updates none here. -/
def Job.entryWrites (j : Job) : List EntryRange :=
  match j.body with
  | .stages l => (l.filter fun (st : Stage) => st.drain && st.endsHere).map fun st =>
      { mask := j.mask, lo := st.outScale, n := st.chans }
  | .scaleLoad 0 _ first count _ d m => [{ mask := m, lo := first + d.resume, n := count - d.resume }]
  | .scaleRead first count true d m => readRanges first count d.resume m
  | _ => []
/-- Codebook slots named: clusters and slot. -/
def Job.codebooks (j : Job) : List (Nat × Nat) :=
  match j.body with
  | .stages l => l.flatMap fun st =>
      (if st.inf.isCb then [(j.mask, st.inCb)] else []) ++ (if st.wf.isCb then [(j.mask, st.wCb)] else [])
  | .scaleLoad 1 slot _ _ _ _ m => [(m, slot)]
  | _ => []
/-- Activation table slots named. -/
def Job.tables (j : Job) : List (Nat × Nat) :=
  match j.body with
  | .stages l => l.flatMap fun st => if 4 ≤ st.act then [(j.mask, st.act - 4)] else []
  | .scaleLoad 2 slot _ _ _ _ m => [(m, slot)]
  | _ => []
/-- The command is a SCALE_LOAD. -/
def Job.isLoad (j : Job) : Bool := j.hdr.opcode == 0x09
/-- Two lists name one slot of one cluster. -/
def slotsMeet (a b : List (Nat × Nat)) : Bool := a.any fun x => b.any fun y => x.2 == y.2 && (x.1 &&& y.1) != 0

/-! ## Slots and openers (03 R115; 04 R192, R238) -/

/-- The held entries of a codebook slot. -/
def State.codebook (s : State) (c slot : Nat) : List Int :=
  match (s.cluster c).codebooks.find? fun x => x.1 == slot with
  | some x => x.2
  | none => []
/-- The entries of an activation table slot. -/
def State.table (s : State) (c slot : Nat) : List ActEntry :=
  match (s.cluster c).tables.find? fun x => x.1 == slot with
  | some x => x.2
  | none => []

/-- An earlier accepted SCALE_LOAD without a final record writes the slot in the cluster. -/
def State.loadPending (s : State) (names : Job → List (Nat × Nat)) (c slot : Nat) : Bool :=
  s.jobs.any fun j => j.open' && j.isLoad && (names j).any fun x => x.2 == slot && bit x.1 c

/-- The slots that a stage names hold what it needs, or will (03 R115; 04 R238). -/
def State.slotsOk (s : State) (mask : Nat) (st : Stage) : Bool :=
  (bitList 64 mask).all fun c =>
    (!st.inf.isCb || s.loadPending Job.codebooks c st.inCb || (s.codebook c st.inCb).any fun e => decide (0 < e)) &&
    (!st.wf.isCb || s.loadPending Job.codebooks c st.wCb || !(s.codebook c st.wCb).isEmpty) &&
    (decide (st.act < 4) || s.loadPending Job.tables c (st.act - 4) || !(s.table c (st.act - 4)).isEmpty)

/-- The base exponent of the last overwrite of a range that precedes a command: of an accepted command, or of the tile
that stands open; `none` when nothing is known or it was exact. -/
def State.openerB (s : State) (e base : Nat) : Option Int :=
  let own := s.jobs.reverse.flatMap fun j => if j.open' then
    (j.accNames.reverse.filter fun n => n.engines.contains e && n.lo == base && (n.use == .overwrite || n.use == .load)).map
      fun n => (n.exact, n.b) else []
  match own with
  | (exact, b) :: _ => if exact then none else some b
  | [] => match s.tiles.find? fun t => t.engine == e && t.base == base with
    | some t => if t.exact then none else some t.b
    | none => none

/-- Stages that add into a compact tile name the b of the overwrite that opened it (04 R192); with no known opener, or one in exact
format, any b will do (log 137). -/
def State.addsOk (s : State) : List AccName → List AccName → Bool
  | _, [] => true
  | before, n :: rest =>
    (n.exact || !(n.use == .add || n.use == .relaxed) || n.engines.all fun e =>
      match before.find? fun m => m.lo == n.lo && m.use == .overwrite with
      | some m => m.exact || m.b == n.b
      | none => match s.openerB e n.lo with
        | some b => b == n.b
        | none => true) && s.addsOk (n :: before) rest

/-! ## Counters and queues of other sessions (11 R524, R540) -/

/-- The session holds the counter. -/
def State.ownsCtr (s : State) (session ctr : Nat) : Bool :=
  match s.session session with
  | some ss => decide (ss.ctrBase ≤ ctr) && decide (ctr < ss.ctrBase + ss.ctrCount)
  | none => false
/-- The session holds the submission queue. -/
def State.ownsSq (s : State) (session q : Nat) : Bool :=
  match s.session session with
  | some ss => ss.sqs.contains q
  | none => false

/-- A command names only its session's counters and queues. -/
def State.namesOwn (s : State) (session : Nat) (p : Parsed) : Bool :=
  (p.hdr.waits.all fun w => s.ownsCtr session w.ctr) && (!p.hdr.sigEn || s.ownsCtr session p.hdr.sigCtr) &&
    (match p.body with
      | .signal ctr _ _ => s.ownsCtr session ctr
      | .cancel q _ _ => s.ownsSq session q
      | _ => true)

/-! ## Conflicts (03 R174; 04 R211; 11 R548) -/

/-- How a later command stands to an earlier one. -/
inductive Relation where
  | free | serial | conflict
  deriving DecidableEq, Repr

/-- Of two relations, the stricter. -/
def Relation.and : Relation → Relation → Relation
  | .conflict, _ => .conflict
  | _, .conflict => .conflict
  | .serial, _ => .serial
  | _, .serial => .serial
  | _, _ => .free

/-- Two names of overlapping slot ranges on one engine (04 R211). -/
def accRelation (x c : AccName) : Relation :=
  if !(x.engines.any c.engines.contains && decide (x.lo < c.lo + c.n) && decide (c.lo < x.lo + x.n)) then .free
  else match x.use, c.use with
    | .relaxed, .relaxed => if x.exact = c.exact ∧ (x.exact = true ∨ x.b = c.b) then .free else .conflict
    | .relaxed, .overwrite => .conflict
    | .relaxed, .load => .conflict
    | .relaxed, _ => .serial
    | .store, .store => .free
    | _, _ => .serial

/-- The relation of a later command `c` to an earlier accepted command `x` (03 R174; 04 R211, R238). An earlier reader
and a later writer are serialised (log 25). -/
def relation (x c : Job) : Relation :=
  let steps := fun (j : Job) => !j.body.stageList.isEmpty
  let ww := anyMeet x.entryWrites c.entryWrites
  let entries : Relation :=
    if ww && steps x && steps c then (if x.hdr.ctx = c.hdr.ctx then .serial else .conflict)
    else if ww || anyMeet x.entryWrites c.entryReads || anyMeet x.entryReads c.entryWrites then .serial else .free
  let slots : Relation :=
    if (x.isLoad || c.isLoad) && (slotsMeet x.codebooks c.codebooks || slotsMeet x.tables c.tables) then .serial
    else .free
  let accs := x.accNames.foldl (fun r n => c.accNames.foldl (fun r m => r.and (accRelation n m)) r) Relation.free
  let excl : Relation := match x.body with
    | .selftest true _ _ => .serial
    | _ => .free
  let flash := fun (j : Job) => match j.body with
    | .calibrate true _ => true
    | _ => j.hdr.opcode == 0x10
  ((entries.and slots).and accs).and (excl.and (if flash x && flash c then .serial else .free))

/-- Commands in one queue of one origin (11 R550), of one opening of the session. -/
def sameScope (x c : Job) : Bool := x.session == c.session && x.past == c.past && x.sq == c.sq && x.posted == c.posted
/-- The end of a command's time guard, as far as its completion has left it reserved (10 R497). -/
def Job.guardHeld (j : Job) : Nat :=
  match j.phase with
  | .written _ fr => Nat.min j.guardEnd (fr + 63)
  | _ => j.guardEnd
/-- A cancelled fence holds back nothing (11 R556). -/
def Job.released (j : Job) : Bool :=
  match j.phase with
  | .finished st | .written st _ => st == .cancelled
  | _ => j.stopped
/-- The first frame that an ORDER or FULL fence allows to a later command: ORDER the frame after the time guard of every command before
the fence, FULL the frame after the fence completes (11 R551). -/
def State.fenceFrame (s : State) (x : Job) : Nat :=
  if x.released then 0 else
  match x.body with
  | .fence 1 => ((s.jobs.filter fun y => decide (y.id < x.id) && sameScope y x).map fun y => y.guardHeld + 1).foldl Nat.max 0
  | .fence 3 => match x.phase with
    | .written _ fr => fr + 1
    | _ => x.last + 1
  | _ => 0

/-- The first frame that the relations of `c` to earlier commands and the fences before it allow, or a conflict. CANCEL waits for neither
(log 26). -/
def State.orderOf (s : State) (c : Job) : Option Nat :=
  if c.hdr.opcode = 0x12 then some 0 else
  s.jobs.foldl (fun acc x => match acc with
    | none => none
    | some f =>
      let r := if x.open' then relation x c else .free
      let fence := if sameScope x c then s.fenceFrame x else 0
      match r with
      | .conflict => none
      | .serial => some (Nat.max (Nat.max f fence) (x.guardEnd + 1))
      | .free => some (Nat.max f fence)) (some 0)

/-- What an accepted command without a final record adds to a counter when it completes (11 R545, R547). -/
def Job.raises (j : Job) (ctr : Nat) : Nat :=
  (if j.hdr.sigEn ∧ j.hdr.sigCtr = ctr then 1 else 0) + (match j.body with
    | .signal c false v => if c = ctr then v else 0
    | _ => 0)

/-- The earliest-ending raises that bring a counter to a value: the frame after the last of them. -/
def takeRaises (val : Nat) : List (Nat × Nat) → Nat → Option Nat
  | [], have' => if val ≤ have' then some 0 else none
  | (f, n) :: rest, have' => if val ≤ have' then some 0 else
    if val ≤ have' + n then some f else takeRaises val rest (have' + n)

/-- Insert by the first component. -/
def insertPair (p : Nat × Nat) : List (Nat × Nat) → List (Nat × Nat)
  | [] => [p]
  | q :: qs => if p.1 ≤ q.1 then p :: q :: qs else q :: insertPair p qs

/-- The first frame that a command's waits allow, or not satisfiable (10 R491; 11 R547). -/
def State.waitsOf (s : State) (c : Job) : Option Nat :=
  c.hdr.waits.foldl (fun acc w => match acc with
    | none => none
    | some f =>
      let ups := ((s.jobs.filter fun j => j.open' && j.raises w.ctr != 0).map fun j => (j.guardEnd + 1, j.raises w.ctr)).foldr
        insertPair []
      match takeRaises w.val ups (s.counter w.ctr) with
      | some g => some (Nat.max f g)
      | none => none) (some 0)

/-- A command signals a counter, by its header or as an EVENT_SIGNAL ADD of any value (11 R545, R548). -/
def Job.signals (j : Job) (ctr : Nat) : Bool :=
  (j.hdr.sigEn && j.hdr.sigCtr == ctr) || (match j.body with
    | .signal c false _ => c == ctr
    | _ => false)
/-- EVENT_SIGNAL RESET while an accepted command waits on the counter or signals it (11 R548). -/
def State.resetConflict (s : State) (c : Job) : Bool :=
  match c.body with
  | .signal ctr true _ => s.jobs.any fun j => j.open' && (j.signals ctr || j.hdr.waits.any fun w => w.ctr == ctr)
  | _ => false

/-- Services that a lock or a pause refuses (05 R287, R294). -/
def State.lockedService (s : State) (c : Job) : Bool :=
  s.power.lock.getLsbD 4 && (match c.body with
    | .calibrate true _ => true
    | _ => c.hdr.opcode == 0x10)

/-! ## Static needs (10 R492; 05 R287; 09 R453; 12 R574; 16 R724) -/

/-- The device's cluster is mapped out. -/
def State.clusterOut (s : State) (c : Nat) : Bool := s.mapped.any fun u => match u with
  | .sram n _ => n == c
  | _ => false

/-- Clusters that a command names: its set, those of its body, and those in whose SRAM its descriptors lie. -/
def State.clustersNamed (s : State) (c : Job) : List Nat :=
  bitList 64 c.mask ++ (match c.body with
    | .scaleLoad _ _ _ _ _ _ m => bitList 64 m
    | .scaleRead _ _ _ _ m => bitList 64 m
    | .acc _ _ _ _ _ _ _ e => (bitList 256 e).map (· / 4)
    | _ => []) ++ c.body.descs.flatMap fun d => (if d.mcast then bitList 64 d.mask else []) ++ (match s.space d.base with
      | .sram n => [n]
      | _ => [])

/-- Peer contexts that a command names (12 R574). -/
def Job.peersNamed (c : Job) : List Nat :=
  match c.body with
  | .collect _ es => es.map fun (e : CollEntry) => e.peer
  | .stages l => l.flatMap fun st => (st.parts.filter fun (q : Part) => q.peer != 0xFFFF).map fun (q : Part) => q.peer
  | _ => []

/-- A peer context is VALID in the plan of a frame (12 R574). -/
def State.peerValid (s : State) (f p : Nat) : Bool :=
  match s.planFor f with
  | some pl => match pl.peers[p]? with
    | some r => r.valid
    | none => false
  | none => false

/-- A command's needs exceed the device in service. -/
def State.staticShort (s : State) (c : Job) : Bool :=
  (!s.stackBad.isEmpty && c.body.sized.any fun x => s.isHbm x.1.base && x.1.covered.any fun i =>
    (List.range ((x.1.addr i + x.2 - 1) / 2048 - x.1.addr i / 2048 + 1)).any fun g =>
      s.onBadStack ((x.1.addr i / 2048 + g) * 2048)) ||
  (match c.body with
    | .vkernel a size _ _ _ _ _ => (List.range ((a + size - 1) / 2048 - a / 2048 + 1)).any fun g => s.onBadStack ((a / 2048 + g) * 2048)
    | _ => false) ||
  (s.clustersNamed c).any s.clusterOut || decide (16777216 < c.sramBytes) ||
  ((c.accNames.flatMap (·.engines)).any fun e => decide (640 < c.accSlots e)) ||
  (match c.body with
    | .vkernel _ _ _ _ _ _ cores => (bitList 256 cores).any fun n => s.mapped.contains (.core n) || s.clusterOut (n / 4)
    | .calibrate _ _ => !s.cal.rotating
    | .selftest false _ _ => !s.cal.rotating
    | _ => false)
/-- Every peer context that a command names is VALID in frames `f` to `g` (12 R574). -/
def State.peersValid (s : State) (c : Job) (f g : Nat) : Bool :=
  c.peersNamed.isEmpty || framesAll (fun x => c.peersNamed.all (s.peerValid x)) f (g + 1 - f)

/-! ## Placement (10 R488, R489, R494; 08 R417; 07 R367) -/

/-- Mesh links on the route from sector `a` to sector `b` (09 R443; 10 R486). -/
def route (a b : Nat) : List Nat :=
  match a, b with
  | 0, 1 => [0]
  | 1, 0 => [1]
  | 0, 2 => [2]
  | 2, 0 => [3]
  | 1, 3 => [4]
  | 3, 1 => [5]
  | 2, 3 => [6]
  | 3, 2 => [7]
  | 0, 3 => [0, 4]
  | 3, 0 => [5, 1]
  | 1, 2 => [1, 2]
  | 2, 1 => [3, 0]
  | _, _ => []

/-- Thousandths of a tag-microsecond of one read granule by links crossed (09 R445). -/
def tagCost (links : Nat) : Nat := if links = 0 then 1000 else if links = 1 then 1128 else 1256

/-- The sectors of a cluster set. -/
def sectorsOf (mask : Nat) : List Nat := (List.range 4).filter fun k => bits mask (16 * k) 16 != 0

/-- A phase of a cost descriptor at frame `f` over `n` frames: a region's granules spread evenly over its stacks in
service; a region is read from the nearest sector of the set (log 24). -/
def State.placedOf (s : State) (mask : Nat) (rerun : Bool) (f n : Nat) (p : Phase) : Placed :=
  let up := fun (k : Nat) => (stacksOf s.remapped k).filter fun st => !s.stackOut st
  let each := fun (g k st : Nat) => if (up k).contains st then ceilDiv g (up k).length else 0
  let near := fun (k : Nat) => minNat ((sectorsOf mask).map fun t => (route k t).length)
  { phase := p, first := f, n := n, rerun := rerun
    gran := (List.range 12).map fun st => each (nth p.readGran (st / 3) 0 + nth p.writeGran (st / 3) 0) (st / 3) st
    tag := (List.range 12).map fun st => each (nth p.readGran (st / 3) 0) (st / 3) st * tagCost (near (st / 3)) }

/-- The granules that the listed elements, of `z` bytes each, of a descriptor touch. -/
def granulesOf (d : TDesc) (z : Nat) (els : List Nat) : List Nat :=
  els.foldl (fun l i => (List.range ((d.addr i + z - 1) / 2048 - d.addr i / 2048 + 1)).foldl
    (fun l k => insertNat (d.addr i / 2048 + k) l) l) []

/-- One flow of data of a command without a cost descriptor: its elements, whether it reads, its Leader's sector, and, of a multicast
destination, the sectors that get a copy (08 R403, R409). -/
structure Flow where
  desc : TDesc
  els  : List Nat
  read : Bool
  lead : Nat
  copies : Option (List Nat) := none
  deriving DecidableEq, Repr

/-- The sector whose SRAM or region holds an address. -/
def State.sectorAt (s : State) (a : Nat) : Option Nat :=
  match s.space a with
  | .sram c => some (c / 16)
  | .hbm => some (regionOf a)
  | _ => none

/-- The Leader's sector of an XFER, in the order of 11 R523. -/
def State.leadOf (s : State) (src dst : TDesc) : Nat :=
  match s.space dst.base, s.space src.base with
  | .sram c, _ => c / 16
  | _, .sram c => c / 16
  | _, .hbm => regionOf src.base
  | .hbm, _ => regionOf dst.base
  | _, _ => 0

/-- The flows of XFER, ACC_LOAD and ACC_STORE (11 R523). -/
def State.flowsOf (s : State) (b : Body) : List Flow :=
  match b with
  | .xfer src dst =>
    let m := s.leadOf src dst
    [{ desc := src, els := src.covered, read := true, lead := m },
     { desc := dst, els := dst.covered, read := false, lead := m, copies := if dst.mcast then some (sectorsOf dst.mask) else none }]
  | .acc d _ _ _ _ _ _ engines =>
    let es := bitList 256 engines
    let per := d.count / es.length
    ((List.range es.length).zip es).map fun x =>
      { desc := d, els := ((List.range per).map (· + x.1 * per)).filter fun i => decide (d.resume ≤ i), read := true,
        lead := x.2 / 64 }
  | _ => []

/-- The derived phase of a command with COST_PTR 0, planned at the planned limits (11 R523; 08 R393; 09 R445, R446). -/
def State.derived (s : State) (op : Nat) (b : Body) (f : Nat) : Placed :=
  let flows := (s.flowsOf b).map fun w => if op = 0x08 then { w with read := false } else w
  let per := flows.map fun w => (w, granulesOf w.desc (w.desc.size 0) w.els)
  let onStack := fun (st : Nat) (rd : Bool) => sumNat (per.map fun x =>
    if rd && !x.1.read then 0 else (x.2.filter fun g => s.isHbm (g * 2048) && stackAt s.remapped (g * 2048) == st).length)
  let tagOn := fun (st : Nat) => sumNat (per.map fun x => if !x.1.read then 0 else
    (x.2.filter fun g => s.isHbm (g * 2048) && stackAt s.remapped (g * 2048) == st).length *
      tagCost (route (st / 3) x.1.lead).length)
  let ends := fun (w : Flow) (g : Nat) => w.copies.getD (s.sectorAt (g * 2048)).toList
  let meshOn := fun (m : Nat) => sumNat (per.map fun x => sumNat (x.2.map fun g => ((ends x.1 g).filter fun k =>
    (if x.1.read then route k x.1.lead else route x.1.lead k).contains m).length))
  let rust := sumNat (flows.map fun w => if s.space w.desc.base = .aperture then w.els.length * w.desc.size 0 else 0)
  let gran := (List.range 12).map fun st => onStack st false
  let tag := (List.range 12).map tagOn
  let mesh := (List.range 8).map meshOn
  let n := (gran.map (ceilDiv · 10700) ++ tag.map (ceilDiv · 11953000) ++ mesh.map (ceilDiv · 22800) ++
    [ceilDiv rust (if s.link.bonded then 778240 else 389120)]).foldl Nat.max 1
  let p : Phase := { minFrames := n, stage := 0, kind := 0, arrayRow := 0, engSlots := 0, sramBytes := 0, accSlots := 0,
                     readGran := [], writeGran := [], mesh := mesh, linkMask := 0, linkSlots := 0, farSymbols := 0,
                     rustraBytes := rust, badRes := false }
  { phase := p, first := f, n := n, gran := gran, tag := tag }

/-- Place one phase from frame `f` on for candidate `c` (10 R488): the smallest count, at least MIN_FRAMES and at most
2²⁰, for which every frame fits. -/
def State.placePhase (s : State) (c : Job) (mk : Nat → Placed) (f min : Nat) : Option Placed :=
  let cand := fun (n : Nat) => { c with placed := c.placed ++ [mk n], last := f + n - 1, guardEnd := f + n - 1 }
  let ok := fun (n : Nat) =>
    let c := cand n
    let s := { s with jobs := s.jobs ++ [c] }
    framesAll (s.fitsAt c) f n
  (least ok (2 ^ 20 + 1 - min) min).map mk

/-- Place a list of phases one after another. -/
def State.placeRun (s : State) (rerun : Bool) : List Phase → Job → Nat → Option (Job × Nat)
  | [], c, f => some (c, f)
  | p :: ps, c, f =>
    match s.placePhase c (fun n => s.placedOf c.mask rerun f n p) f p.minFrames with
    | none => none
    | some q => s.placeRun rerun ps { c with placed := c.placed ++ [q], last := f + q.n - 1, guardEnd := f + q.n - 1 }
        (f + q.n)

/-- Place the stages in order: the main phases of each, its reserved re-run from D + 2 on, and the next stage at the
hand-over frame (10 R489; 08 R417, R419; 03 R164; log 129). Answers the command with its phases, and D of the last stage. -/
def State.placeStages (s : State) (main rerun : List Phase) : List Nat → Job → Nat → Option (Job × Nat)
  | [], c, f => some (c, f - 1)
  | k :: ks, c, f =>
    match s.placeRun false (main.filter fun p => p.stage == k) c f with
    | none => none
    | some (c, g) =>
      let d := g - 1
      let rr := rerun.filter fun p => p.stage == k
      let drains := match c.body.stageList[k]? with
        | some st => st.drain
        | none => false
      match s.placeRun true rr c (d + 2) with
      | none => none
      | some (c, g') => if ks.isEmpty then some (c, d)
        else s.placeStages main rerun ks c (if !rr.isEmpty then g' else if drains then d + 2 else d + 1)

/-- The stages that phase lists name, in order. -/
def stagesIn (main rerun : List Phase) : List Nat :=
  (List.range 8).filter fun k => main.any (fun p => p.stage == k) || rerun.any (fun p => p.stage == k)

/-- Frames of the time guard (10 R494). -/
def guardFrames (c : Job) (main : List Phase) : Nat :=
  if main.any fun p => p.engSlots != 0 then
    Nat.max 1 (ceilDiv (sumNat ((c.placed.filter fun p => !p.rerun).map (·.n))) 19) else 0

/-- A command of phases placed from frame `f` on, or `none` when it does not fit there. `late` says that only the fill
ramp before the first frame does not fit after the decision frame `a` (15 R702). -/
def State.placeWork (s : State) (main rerun : List Phase) (c : Job) (a f : Nat) : Option Job × Bool :=
  let c := { c with placed := [], first := f, last := f, guardEnd := f }
  let r := if main.isEmpty then
      let q := s.derived c.hdr.opcode c.body f
      (s.placePhase c (fun n => { q with n := n }) f q.phase.minFrames).map fun q =>
        ({ c with placed := [q], last := f + q.n - 1, guardEnd := f + q.n - 1 }, f + q.n - 1)
    else s.placeStages main rerun (stagesIn main rerun) c f
  match r with
  | none => (none, false)
  | some (c, d) =>
    let tests := match c.body.stageList.getLast? with
      | some st => st.drain
      | none => false
    let g := Nat.max (c.last + guardFrames c main) (if tests then d + 1 else 0)
    let c := { c with guardEnd := g }
    let t := { s with jobs := s.jobs ++ [c] }
    let early := (List.range 4).all fun k => decide (t.level a k ≤ s.level a k)
    let fits := framesAll (t.fitsAt c) f (g + 1 - f) && s.peersValid c f g &&
      (!c.keys.contains .power || framesAll (fun x => decide (x ≤ a) || t.powerFits c x) (f - 40) (g + 41 - (f - 40)))
    if !fits then (none, false) else if early then (some c, false) else (none, true)

/-- The command's reservations stand in some frame of `a` to `b`. -/
def Job.standsIn (j : Job) (a b : Nat) : Bool :=
  decide (Nat.max j.first a ≤ Nat.min j.guardEnd b) && j.stands (Nat.max j.first a)

/-- The lowest threads of a core that no accepted command has reserved in frames `a` to `b`. -/
def State.freeThreads (s : State) (core a b : Nat) : List Nat :=
  ((List.range 8).map fun i => 8 * core + i).filter fun t => !(s.jobs.any fun j => j.threadIds.contains t && j.standsIn a b)

/-- The threads that an Elastic command reserves in frames `a` to `b`: the same in every frame, all eight of a core where it is
exclusive (07 R367). The kernel runs on the first ones of each core. -/
def State.threadsFor (s : State) (c : Job) (a b : Nat) : Option (List Nat) :=
  match c.body with
  | .vkernel _ _ _ _ threads excl cores =>
    let per := (bitList 256 cores).map fun n => s.freeThreads n a b
    if per.all fun l => decide ((if excl then 8 else threads) ≤ l.length) then some (per.flatMap fun l => l.take threads) else none
  | _ => some []

/-- An Elastic command placed at frame `f` (07 R367). -/
def State.placeElastic (s : State) (c : Job) (f : Nat) : Option Job :=
  let n := match c.cost with
    | some k => ceilDiv k.cycles 16384
    | none => 0
  (s.threadsFor c f (f + n)).bind fun ids =>
  let c := { c with placed := [], first := f, last := f + n, guardEnd := f + n, threadIds := ids }
  let t := { s with jobs := s.jobs ++ [c] }
  if framesAll (fun x => t.fitsAt c x && t.powerFits c x) f (n + 1) then some c else none

/-- The end of the last calibration slot, among the named engines, that begins after frame `a` (05 R283, R285). -/
def State.lastSlotEnd (s : State) (engines a : Nat) : Nat :=
  ((bitList 256 engines).map fun e =>
    match least (fun q => s.slotEngine (sectorOfEngine e) (16 * q) == some e) 64 (a / 16 + 1) with
    | some q => 16 * q + 15
    | none => a + 1).foldl Nat.max (a + 1)

/-- First and completion frame of a service command placed from frame `f` on (11 R538, R552, R554; 03 R119; 05 R283 to
R286, R293; 08 R424; 16 R730). Of the four frames by which a codebook SCALE_LOAD completes, the model plans the fourth (log
108). -/
def State.serviceFrames (s : State) (c : Job) (f : Nat) : Nat × Nat :=
  match c.body with
  | .scaleLoad 1 _ _ _ _ _ _ => (f, f + 4)
  | .query _ _ => (f, f + 1)
  | .waitFrame n => (f, Nat.max f n)
  | .calibrate save e =>
    let g := s.lastSlotEnd e (f - 1)
    (f, if save then g + 1 + 488282 else g)
  | .selftest true _ _ =>
    let g := (s.jobs.map fun j => if j.open' then j.guardEnd + 1 else 0).foldl Nat.max f
    (g, g + 47)
  | .selftest false u e =>
    (f, Nat.max (if bit u 0 then s.lastSlotEnd e (f - 1) else f) (if bit u 5 then (f / 128 + 2) * 128 else f))
  | .fence kind =>
    let es := s.jobs.filter fun j => sameScope j c
    let g := (es.map fun j => match j.phase with
      | .written _ fr => fr
      | _ => j.guardEnd).foldl Nat.max 0
    (f, if es.isEmpty then f else Nat.max f (if kind = 1 then g else g + 2))
  | .cancel _ _ _ => (f, f + 1)
  | _ => if c.hdr.opcode = 0x10 then (f, f + 6104) else (f, f)

/-- The command is placed by its phases. -/
def Job.hasPhases (c : Job) : Bool := c.cost.isSome || c.hdr.opcode == 0x01 || c.hdr.opcode == 0x07 || c.hdr.opcode == 0x08

/-- Try to place a command from frame `f` on; the second component asks for the next frame (15 R702). -/
def State.place (s : State) (main rerun : List Phase) (c : Job) (a f : Nat) : Option Job × Bool :=
  if c.hdr.cls = 1 then (s.placeElastic c f, false)
  else if c.hasPhases then s.placeWork main rerun c a f
  else
    let r := s.serviceFrames c f
    (some { c with first := r.1, last := r.2, guardEnd := r.2 }, false)

/-- The resources that a candidate needs: of a command without a cost descriptor those of its derived phase (11 R523). -/
def State.needs (s : State) (c : Job) (f : Nat) : List Key :=
  if c.cost.isNone && c.hasPhases then { c with placed := [s.derived c.hdr.opcode c.body f] }.keys else c.keys

/-- The search of 10 R490: trial starts up to a + 1,048,575. -/
def State.search (s : State) (main rerun : List Phase) (c : Job) (a : Nat) : Nat → Nat → Option Job
  | 0, _ => none
  | fuel + 1, f =>
    if a + 1048575 < f then none else
    match s.place main rerun c a f with
    | (some c, _) => some c
    | (none, true) => s.search main rerun c a fuel (f + 1)
    | (none, false) => match s.nextFall (s.needs c f) f with
      | some g => s.search main rerun c a fuel g
      | none => none

/-! ## The shortfall report (10 R502 to R504) -/

/-- A row: the unit of the largest shortfall, else of the tightest fit; the lowest of equals. -/
def shortRow (res : Nat) (units : List (Nat × Nat × Nat)) : List Byte :=
  let best := match units with
    | [] => (0, 0, 0)
    | u :: us => us.foldl (fun (b x : Nat × Nat × Nat) =>
        if decide ((b.2.1 : Int) - b.2.2 < (x.2.1 : Int) - x.2.2) then x else b) u
  leBytes 2 res ++ leBytes 1 (b2n (decide (best.2.2 < best.2.1))) ++ leBytes 1 0 ++ leBytes 4 best.1 ++
    leBytes 8 best.2.1 ++ leBytes 8 best.2.2 ++ leBytes 8 0

/-- The frames that a phase takes with every other reservation removed: the least count for which each share fits (10 R488, R503). -/
def State.aloneFrames (s : State) (c : Job) (p : Phase) : Nat :=
  let f := s.frame.counter + 1
  let q := s.placedOf c.mask (p.kind == 1) f 1 p
  let fit := fun (d : Nat) (k : Key) => if d = 0 then 1 else if s.limit f k = 0 then 2 ^ 20 else ceilDiv d (s.limit f k)
  let per := fun (n : Nat) (l : List Nat) (k : Nat → Key) => (List.range n).map fun i => fit (nth l i 0) (k i)
  let links := ((List.range 32).filter fun n => bit p.linkMask n).map fun n => fit p.linkSlots (.link n)
  Nat.min (2 ^ 20) (([fit p.engSlots (.eng c.mask), fit p.farSymbols (.far 0), fit p.rustraBytes (.rustra (s.portOf c.session))] ++
    per 12 q.gran .gran ++ per 12 q.tag .tag ++ per 8 p.mesh .mesh ++ links).foldl Nat.max (Nat.max 1 p.minFrames))

/-- The units of a row: those that the command names, or all of them where it names none. -/
def rowUnits (named all : List Nat) : List Nat := if named.isEmpty then all else named

/-- The report of REJECT_CAPACITY: five rows under a 32 B header (R502, R503). `all` sets every SHORT, as in Doze and
Retain (15 R687). A unit out of service has nothing available. -/
def State.shortfall (s : State) (c : Job) (inFlight all : Bool) (alt : Option Nat) : List Byte :=
  let f := s.frame.counter + 1
  let grains := (c.body.sized.flatMap fun x => granulesOf x.1 x.2 x.1.covered) ++ (match c.body with
    | .vkernel a size _ _ _ _ _ => (List.range ((a + size - 1) / 2048 - a / 2048 + 1)).map fun g => a / 2048 + g
    | _ => [])
  let hbm := (List.range 12).map fun st =>
    (st, 2048 * (grains.filter fun g => s.isHbm (g * 2048) && stackAt s.remapped (g * 2048) == st).length,
      if s.stackOut st then 0 else 0x1000000000)
  let sram := (rowUnits (bitList 64 c.mask) (List.range 64)).map fun n =>
    (n, if bit c.mask n then c.sramAt n else 0, if s.clusterOut n then 0 else 16777216)
  let acc := (rowUnits (c.accNames.flatMap (·.engines)).eraseDups (List.range 256)).map fun e =>
    (e, c.accSlots e, if s.engineOut e || s.clusterOut (e / 4) then 0 else 640)
  let phases := match c.cost with
    | some k => k.main ++ (if c.hdr.rerun then k.rerun else [])
    | none => []
  let most := fun (d : Phase → Nat) => (phases.map fun p => ceilDiv (d p) (s.aloneFrames c p)).foldl Nat.max 0
  let eng := [(0, most Phase.engSlots, s.engCaps f c.mask)]
  let ok := c.peersNamed.all (s.peerValid f)
  let link := (rowUnits ((List.range 32).filter fun n => phases.any fun p => bit p.linkMask n) (List.range 32)).map fun n =>
    (n, most fun p => if bit p.linkMask n then p.linkSlots else 0, if ok then s.linkCap f n else 0)
  let rows := [shortRow 0 hbm, shortRow 1 sram, shortRow 2 acc, shortRow 3 eng, shortRow 4 link]
  let rows := if all then rows.map fun r => r.take 2 ++ [1] ++ r.drop 3 else rows
  leBytes 2 1 ++ leBytes 2 5 ++ leBytes 1 (b2n inFlight + (if alt.isSome then 2 else 0)) ++ leBytes 3 0 ++
    leBytes 8 (alt.getD 0xFFFFFFFFFFFFFFFF) ++ leBytes 16 0 ++ rows.flatten

/-! ## Admission (10 R490) -/

/-- An absolute target frame of a WAIT_FRAME (11 R554): relative counts are resolved at admission. -/
def resolveWait (bs : List Byte) (a : Nat) : Body → Body
  | .waitFrame n =>
    let t := if fbit bs 40 1 0 then a + n else n
    .waitFrame (if t ≤ a then a + 1 else t)
  | b => b

/-! ## When a command may run (10 R482, R496; 11 R547 to R552) -/

/-- The waits of a command are met (11 R547). -/
def State.waitsMet (s : State) (j : Job) : Bool := j.hdr.waits.all fun w => decide (w.val ≤ s.counter w.ctr)

/-- The present frame is one that Noon has committed: the sequencers execute no other (10 R482). -/
def State.committedNow (s : State) : Bool := decide (s.frame.counter ≤ s.frame.committed)
/-- A FULL fence before the command has not completed, or completes in this frame: a later command starts no earlier than the frame
after (11 R551, R552). -/
def State.fullHolds (s : State) (j : Job) : Bool :=
  s.jobs.any fun x => decide (x.id < j.id) && x.body == .fence 3 && sameScope x j && !x.released && (match x.phase with
    | .written _ fr => decide (s.frame.counter ≤ fr)
    | _ => true)
/-- Work past the end of a command's time guard runs in capacity that no reservation takes (10 R496). -/
def State.hasRoom (s : State) (j : Job) : Bool := decide (s.frame.counter ≤ j.guardEnd) || s.fitsAt j s.frame.counter

/-! ## The verdict -/

/-- What admission answers: the command with its placement, or a rejection. -/
abbrev Verdict := Except Rej Job

/-- A rejection with a code only. -/
def deny (st : Status) (report : Report) : Verdict := .error { st := st, report := report }

/-- The later checks of 10 R490, for a command whose form is right. -/
def State.admitNamed (s : State) (c : Job) (a : Nat) : Verdict :=
  if s.resetConflict c || s.lockedService c then deny .rejectConflict [] else
  match s.orderOf c, s.waitsOf c with
  | some f, some g =>
    let start := Nat.max (a + 1) (Nat.max f g)
    let main := match c.cost with
      | some k => k.main
      | none => []
    let rerun := match c.cost with
      | some k => if c.hdr.rerun then k.rerun else []
      | none => []
    let alt : Option Nat := match c.cost with
      | some k => if k.alt.isEmpty then none else
          let c' := { c with cost := some { k with main := k.alt } }
          if s.staticShort c' then none else (s.search k.alt rerun c' a 1048576 start).map fun j => j.guardEnd
      | none => none
    if 4096 ≤ (s.jobs.filter fun j => j.open').length then deny .rejectCapacity [s.shortfall c true false alt]
    else if s.staticShort c then deny .rejectCapacity [s.shortfall c false false alt]
    else match s.search main rerun c a 1048576 start with
      | none => deny .rejectCapacity [s.shortfall c false false alt]
      | some j => if j.deadline < j.guardEnd then deny .rejectDeadline [earliestSection j.guardEnd] else .ok j
  | _, _ => deny .rejectConflict []

/-- Symbols that a tile of a stage takes on an engine with both banks and on a single-bank one: max(N, T) + 4 and N + T + 8, N its
symbols streamed and T its load time (02 R80; 04 R206). -/
def Stage.tileSymbols (st : Stage) : Nat × Nat :=
  let n := st.vecB * (if st.inf.isInt8 then 2 else 1) * (if st.g = 2 then 2 else 1)
  let t := st.gsize.min 64 * st.wf.tileBits / 2
  (Nat.max n t + 4, n + t + 8)
/-- Engine-slots that a stage costs in patch tiles: one tile for each masked row of an engine, input block of its cluster, weight
slice and vector range (16 R724, R727). -/
def State.patchSlots (s : State) (st : Stage) (mask : Nat) : Nat :=
  if st.g = 2 ∨ st.vecB = 0 then 0 else
  let rows := fun (c : Nat) => sumNat ((List.range 4).map fun i => (s.engine (4 * c + i)).masked.length)
  let blocks := fun (c : Nat) => match st.partOf c with
    | some p => p.2.2
    | none => 0
  ceilDiv (sumNat ((bitList 64 mask).map fun c => rows c * blocks c) * st.ws * ceilDiv st.vecs st.vecB * st.tileSymbols.1) 800
/-- Engine-slots of a stage's work on the engines of a set: each single-bank engine counts for the part of an engine that η₁ gives it
(04 R206; 16 R724). -/
def State.bankSlots (s : State) (st : Stage) (mask slots : Nat) : Nat :=
  let es := ((bitList 64 mask).flatMap fun c => (List.range 4).map (4 * c + ·)).filter s.plannable
  let one := (es.filter fun e => (s.engine e).bankAFailed != (s.engine e).bankBFailed).length
  let v := st.tileSymbols
  if one = 0 then slots else ceilDiv (slots * es.length * v.2) ((es.length - one) * v.2 + one * v.1)
/-- The phases of a command on the set as it is: the engine work of its stages with their patch tiles, and at the efficiency of the
engines in service (16 R724, R727; log 126). -/
def State.phasesOn (s : State) (c : Job) (ps : List Phase) : List Phase :=
  ps.map fun p => match c.body.stageList[p.stage]? with
    | none => p
    | some st =>
      let total := sumNat ((ps.filter fun q => q.stage == p.stage).map (·.engSlots))
      let extra := if total = 0 then 0 else ceilDiv (s.patchSlots st c.mask * p.engSlots) total
      { p with engSlots := s.bankSlots st c.mask (p.engSlots + extra) }
/-- A command with its phases as Noon plans them. -/
def State.planned (s : State) (c : Job) : Job :=
  { c with cost := c.cost.map fun k => { k with main := s.phasesOn c k.main, rerun := s.phasesOn c k.rerun,
                                                alt := s.phasesOn c k.alt } }

/-- Decide a descriptor taken in frame `a` (10 R490). Doze and Retain reject every command (15 R687). -/
def State.verdict (s : State) (session sq seq : Nat) (posted : Bool) (bs : List Byte) : Verdict := do
  let a := s.frame.counter
  let blank : Job := { id := s.nextJob, session := session, sq := sq, posted := posted, seq := seq,
                       hdr := { opcode := 0, cls := 0, relaxed := false, add := false, rerun := false, dlRel := false,
                                notify := false, ctx := 0, waits := [], deadline := 0, costPtr := 0, sigEn := false,
                                sigCtr := 0 },
                       body := .none, cost := none, decided := a, deadline := 0, placed := [], first := a + 1,
                       last := a + 1, guardEnd := a + 1 }
  let of := fun (p : Parsed) => { blank with hdr := p.hdr, body := resolveWait bs a p.body, cost := p.cost,
                                             deadline := if p.hdr.dlRel then a + p.hdr.deadline else p.hdr.deadline }
  if s.power.state = .doze ∨ s.power.state = .retain then
    let c := match s.parse session bs with
      | .ok p => of p
      | .error _ => blank
    deny .rejectCapacity [s.shortfall c false true none]
  else
    let p ← s.parse session bs
    let c := s.planned (of p)
    need malformed (c.body.stageList.all (s.slotsOk c.mask) && s.addsOk [] c.accNames)
    let features := match s.session session with
      | some ss => ss.features.toNat
      | none => 0
    need { st := .rejectFeature } (decide (s.featuresOf p &&& features = s.featuresOf p))
    need { st := .rejectSession } (s.namesOwn session p)
    s.admitNamed c a

end Sys2Proof.Machine
end

