-- ==== Sys2Proof/Machine/Sequencer.lean ====
section
/-! DEFINITION. The cluster sequencers' Leader and Follower queues (01 R37; 08 R380; 10 R479; 11 R523): which entries a command has, their writing by Noon, and their removal. -/

namespace Sys2Proof.Machine

/-- The kind belongs to the Leader (08 R380). -/
def SeqKind.leads : SeqKind → Bool
  | .activationFetch | .weightFetch | .xferSegment | .farandoleSend | .peerReceive => true
  | .bankLoad | .groupIssue | .bankSwap | .polonaiseHop | .drain | .epilogueStore => false

/-- The queue of a cluster that holds entries of a kind. -/
def Cluster.queue (x : Cluster) (k : SeqKind) : List SeqEntry := if k.leads then x.leader else x.follower

/-- The cluster whose Leader moves the data of an XFER, in the order of 11 R523; where the rule names a sector, its lowest
cluster (log 120). -/
def State.xferLeader (s : State) (src dst : TDesc) : Nat :=
  match s.space dst.base, s.space src.base with
  | .sram c, _ => c
  | _, .sram c => c
  | _, _ => 16 * s.leadOf src dst

/-- The kinds of entries of a stage (08 R380). -/
def State.stageKinds (s : State) (st : Stage) : List SeqKind :=
  (if st.redLen = 0 then [] else [.activationFetch, .bankLoad, .groupIssue, .bankSwap]) ++
  (if st.wDesc.any fun d => s.isHbm d.base then [.weightFetch] else []) ++
  (if st.parts.isEmpty then [] else [.peerReceive, .polonaiseHop]) ++
  (if st.drain then [.drain, .epilogueStore] else [])

/-- The clusters on which a command has entries, and their kinds; the manual does not tie each command to the kinds (log
120). -/
def State.seqWork (s : State) (j : Job) : List (Nat × SeqKind) :=
  match j.body with
  | .stages l =>
    let far := j.placed.any fun p => p.phase.farSymbols != 0
    let kinds := ((l.flatMap s.stageKinds) ++ (if far then [SeqKind.farandoleSend] else [])).eraseDups
    (bitList 64 j.mask).flatMap fun c => kinds.map fun k => (c, k)
  | .xfer src dst => [(s.xferLeader src dst, .xferSegment)]
  | .collect _ es => (bitList 64 j.mask).flatMap fun c =>
      (if es.any fun e => e.recv then [(c, .peerReceive)] else []) ++ (if es.any fun e => !e.recv then [(c, .xferSegment)] else [])
  | .acc _ _ _ _ _ _ _ engines =>
    let cs := ((bitList 256 engines).map fun e => e / 4).eraseDups
    if j.hdr.opcode = 0x07 then cs.map fun c => (c, .xferSegment) else cs.flatMap fun c => [(c, .drain), (c, .epilogueStore)]
  | _ => []

/-- Put an entry at the end of its queue. -/
def State.enqueue (s : State) (c : Nat) (e : SeqEntry) : State :=
  s.modCluster c fun x => if e.kind.leads then { x with leader := x.leader ++ [e] } else { x with follower := x.follower ++ [e] }

/-- Noon writes a command's entries for the frames `lo` to `hi - 1` of its reservation (08 R380). -/
def State.enter (s : State) (j : Job) (lo hi : Nat) : State :=
  let w := s.seqWork j
  forEach ((List.range (hi - lo)).map (· + lo)) (fun s f =>
    if j.placed.any fun p => p.covers f then forEach w (fun s x => s.enqueue x.1 ⟨j.id, f, x.2⟩) s else s) s

/-- Noon commits the frames up to 63 past the present one (10 R479), and writes their entries into the sequencers' queues (08 R380). -/
def State.commitFrames (s : State) : State :=
  let n := Nat.max s.frame.committed (s.frame.counter + 63)
  let s' := forEach s.jobs (fun s' j => if j.live && !j.stopped then s'.enter j (s.frame.committed + 1) (n + 1) else s') s
  { s' with frame := { s'.frame with committed := n } }

/-- The sequencers hold the command's entries of a frame that has begun, of every kind that it has (08 R380). -/
def State.entered (s : State) (j : Job) : Bool :=
  (s.seqWork j).all fun x => ((s.cluster x.1).queue x.2).any fun e =>
    e.job == j.id && e.kind == x.2 && decide (e.frame ≤ s.frame.counter)

/-- The oldest segment of an XFER whose frame has begun (08 R380). -/
def State.segment? (s : State) (j : Job) (c : Nat) : Option SeqEntry :=
  (s.cluster c).leader.find? fun e => e.job == j.id && e.kind == .xferSegment && decide (e.frame ≤ s.frame.counter)

/-- The Leader has executed an entry. -/
def State.dequeue (s : State) (c : Nat) (e : SeqEntry) : State :=
  s.modCluster c fun x => { x with leader := x.leader.erase e }

/-- The entries of commands that have ended or have been stopped leave the queues (08 R421). -/
def State.clearQueues (s : State) : State :=
  let keep := fun (e : SeqEntry) => s.jobs.any fun j => j.id == e.job && j.live && !j.stopped
  { s with clusters := (s.clusters.map fun (x : Nat × Cluster) => (x.1, { x.2 with
      leader := x.2.leader.filter keep, follower := x.2.follower.filter keep })).filter fun x => x.2 != {} }

end Sys2Proof.Machine
end

