-- ==== Sys2Proof/Machine/Queues.lean ====
section
/-! DEFINITION. Submission and completion queues (11 R505 to R520, R539 to R546, R764): taking a descriptor, writing records and extended reports, completing a command, and when an accepted command may start (10 R479, R482; 11 R547 to R551). -/

namespace Sys2Proof.Machine

/-! ## When a command may start and end -/

/-- An accepted command may start: its first frame has begun and is committed (10 R479, R482), the sequencers hold its entries (08 R380), its waits are met, every
earlier command it is serialised after has completed (03 R174; 04 R211), and no FULL fence holds it back (11 R551). -/
def State.mayStart (s : State) (j : Job) : Bool :=
  j.phase == .planned && decide (j.first ≤ s.frame.counter) && s.committedNow && !j.stopped && s.entered j && s.waitsMet j &&
    (j.hdr.opcode == 0x12 || (!s.fullHolds j && s.jobs.all fun x => !(decide (x.id < j.id) && x.open') || relation x j != .serial))

/-- The frame before which a command whose work has ended does not complete: the target of WAIT_FRAME (11 R554), the
second boundary after a QUERY's decision (R538), the planned end of SCALE_LOAD (03 R119). -/
def Job.doneFrame (j : Job) : Nat :=
  match j.body with
  | .waitFrame n => n
  | .query _ _ => j.decided + 2
  | .scaleLoad _ _ _ _ _ _ _ => j.last
  | _ => 0

/-- How far ranges of bytes cover from `pos` on; `fuel` bounds the ranges. -/
def coverTo (l : List (Nat × Nat)) : Nat → Nat → Nat
  | 0, pos => pos
  | fuel + 1, pos => match l.find? fun x => decide (x.1 ≤ pos) && decide (pos ≤ x.2) with
    | some x => coverTo l fuel (x.2 + 1)
    | none => pos
/-- Bytes 0 to `n - 1` of entry `e` lie in the listed ranges. -/
def entryCovered (l : List (Nat × Nat × Nat)) (e n : Nat) : Bool :=
  let mine := (l.filter fun x => x.1 == e).map fun x => x.2
  decide (n ≤ coverTo mine (mine.length + 1) 0)
/-- Every COLLECT send of a command has been acknowledged by its peer (12 R578). -/
def Job.sendsAcked (j : Job) : Bool :=
  match j.body with
  | .collect _ es => ((List.range es.length).zip es).all fun (x : Nat × CollEntry) =>
      x.2.recv || entryCovered j.acked x.1 (x.2.desc.covered.length * x.2.desc.size 0)
  | _ => true
/-- A write of the command to the host aperture is not yet acknowledged (11 R551). -/
def State.haPending (s : State) (id : Nat) : Bool := s.ha.any fun r => match r.use with
  | .write k _ => k == id
  | _ => false

/-- The commands before `j` in its scope (11 R550). -/
def State.earlier (s : State) (j : Job) : List Job := s.jobs.filter fun x => decide (x.id < j.id) && sameScope x j
/-- What a fence of a kind waits for has come (11 R551). -/
def State.fenceMet (s : State) (j : Job) (kind : Nat) : Bool :=
  (s.earlier j).all fun x => !x.open' && (kind == 1 || (!s.haPending x.id && x.sendsAcked))

/-! ## Records (11 R508, R509, R539, R543) -/

/-- Free entries of a completion queue; a disabled queue has none (11 R515). -/
def Cq.free (c : Cq) : Nat :=
  if c.enable then 2 ^ c.log2 - (c.t + 65536 - c.head) % 65536 - c.reserved else 0

/-- What a record says of its command. -/
structure RecHead where
  status   : Nat
  sq       : Nat
  posted   : Bool
  stage    : Nat := 0
  isAdmit  : Bool := false
  flags    : Nat := 0
  frame    : Nat
  seq      : Nat
  faultOfs : Nat := 0
  deriving DecidableEq, Repr

/-- The 32 bytes of a record (11 R539). -/
def recordBytes (r : RecHead) (phase : Bool) (ext : Nat) : List Byte :=
  leBytes 1 r.status ++ leBytes 1 (r.sq % 64 + 64 * b2n r.posted + 128 * b2n phase) ++ leBytes 1 r.stage ++
    leBytes 1 (b2n r.isAdmit) ++ leBytes 4 r.flags ++ leBytes 8 r.frame ++ leBytes 4 r.seq ++ leBytes 6 r.faultOfs ++
    leBytes 6 ext

/-- Write a record, its extended report first (11 R508, R509). The caller holds a reservation in the queue. -/
def State.writeRecord (s : State) (c : Nat) (r : RecHead) (report : Report) : State :=
  let q := s.cq c
  let j := q.t % 2 ^ q.log2
  let slot := q.base + 0x20000 + j * 0x2000
  let ext := if report.isEmpty then 0 else slot
  let s := if report.isEmpty then s else s.writeAll slot (report.flatten ++ leBytes 32 0)
  (s.write (q.base + 32 * j) (recordBytes r (q.t / 2 ^ q.log2 % 2 == 0) ext)).modCq c fun q =>
    { q with t := q.t + 1, reserved := q.reserved - 1, wrote := true }

/-- Change the handle that a posted descriptor gave its kernel (07 R360 to R363). -/
def State.modHandle (s : State) (kernel handle : Nat) (f : Handle → Handle) : State :=
  s.modKernel kernel fun k => { k with handles := mapIf (fun x => x.handle == handle) f k.handles }

/-! ## Taking a descriptor (11 R513 to R518, R764) -/

/-- Noon takes descriptors of the session: it is open, not closing (14 R668), and its grace has not ended (R670). -/
def State.takesFrom (s : State) (n : Nat) : Bool :=
  match s.session n with
  | some ss => ss.closing.isNone && !ss.grace
  | none => false
/-- The session that holds a submission queue. -/
def State.sqOwner (s : State) (q : Nat) : Option Nat :=
  s.openSessions.find? fun n => s.ownsSq n q
/-- The ring of a queue holds descriptors that Noon may take. -/
def State.ringWork (s : State) (q : Nat) : Bool :=
  let x := s.sq q
  x.enable && !x.qfull && (x.tail + 65536 - x.seq % 65536) % 65536 != 0 && (match s.sqOwner q with
    | some n => s.takesFrom n
    | none => false)
/-- The first descriptor that a kernel has posted to a queue of its own session. -/
def State.postedWork (s : State) (q : Nat) : Option Posted :=
  if (s.sq q).enable then
    s.posted.find? fun (p : Posted) => p.sq == q && s.ownsSq p.session q && s.takesFrom p.session
  else none
/-- The queue whose turn it is (11 R513). -/
def State.turn (s : State) : Option Nat :=
  ((List.range 64).map fun i => (s.rrNext + i) % 64).find? fun q => s.ringWork q || (s.postedWork q).isSome

/-- What a decision writes for a rejected descriptor (11 R505, R540, R764; 09 R457). -/
def State.reject (s : State) (c q : Nat) (posted : Bool) (seq : Nat) (r : Rej) : State :=
  let s := match r.bad, r.entry with
    | some b, _ =>
      let s := if s.poisoned b then s.foundBad b else s
      s.logError 0x0200 3 (s.memUnit b).1 (s.memUnit b).2 1 b
    | none, some e => s.logUnreadable e
    | none, none => s
  { s with rejected := s.rejected + 1 }.writeRecord c
    { status := r.st.code, sq := q, posted := posted, frame := s.frame.counter, seq := seq } r.report

/-- Admission reads a block for a descriptor: with that block alone unreadable it would meet it (11 R764). -/
def State.admissionReads (s : State) (session : Nat) (bs : List Byte) (b : Nat) : Bool :=
  match ({ s with poison := [b / 64], latent := [] } : State).parse session bs with
  | .error r => r.bad == some b
  | .ok _ => false
/-- The reads of admission find the correctable errors of the structures that a descriptor names (09 R448). -/
def State.findInStructs (s : State) (session : Nat) (bs : List Byte) : State :=
  (s.latent.filter fun x => !x.2 && s.admissionReads session bs (64 * x.1)).foldl State.foundError s

/-- Decide one descriptor that has been copied, or could not be (`block`): the reservation in the completion queue, the
verdict, and the records of a rejection or of NOTIFY_ADMIT (11 R515 to R517; 10 R490). -/
def State.decide' (s : State) (session q seq : Nat) (post : Option Posted) (bs : List Byte) (block : Option Nat) : State :=
  let c := (s.sq q).cq
  let want := if block.isNone && fbit bs 2 1 4 then 2 else 1
  let told := fun (s : State) (f : Handle → Handle) => match post with
    | some p => s.modHandle p.kernel p.handle f
    | none => s
  if (s.cq c).free < want then
    match post with
    | none => s.modSq q fun x => { x with qfull := true }
    | some _ => told s fun h => { h with result := some .rejectQueueFull }
  else
    let s := s.modCq c fun x => { x with reserved := x.reserved + want }
    let refuse := fun (s : State) (r : Rej) =>
      let s := s.modCq c fun x => { x with reserved := x.reserved - (want - 1) }
      told (s.reject c q post.isSome seq r) fun h => { h with result := some r.st }
    match block with
    | some b => refuse s { st := .rejectMalformed, report := [unreadableSection 0 b], bad := some b }
    | none =>
      let s := s.findInStructs session bs
      match s.verdict session q seq post.isSome bs with
      | .error r => refuse s r
      | .ok j =>
        let s := { s with jobs := s.jobs ++ [{ j with cq := c }], nextJob := s.nextJob + 1, admitted := s.admitted + 1 }
        let s := s.enter { j with cq := c } s.frame.counter (s.frame.committed + 1)
        let s := told s fun h => { h with result := some .accepted, job := some j.id }
        if want = 2 then
          s.writeRecord c { status := 0, sq := q, posted := post.isSome, isAdmit := true, frame := s.frame.counter,
                            seq := seq } []
        else s

/-- Take the next descriptor of a queue's ring (11 R506, R513). -/
def State.takeRing (s : State) (q : Nat) : State :=
  let x := s.sq q
  let a := x.base + 128 * (x.seq % 2 ^ x.log2)
  let s := s.modSq q fun x => { x with seq := (x.seq + 1) % 2 ^ 32 }
  match s.sqOwner q with
  | none => s
  | some n =>
    let s := s.findSoft a 128
    s.decide' n q x.seq none (s.bytes a 128) (s.unreadableBlock a 128)

/-- Take a posted descriptor (11 R517, R518). One that could not be read when it was posted lies in no readable
structure and is malformed (log 20). -/
def State.takePosted (s : State) (p : Posted) : State :=
  let seq := (s.sq p.sq).posted
  let s := { s with posted := s.posted.filter fun (x : Posted) => !(x.kernel == p.kernel && x.handle == p.handle) }
  (s.modSq p.sq fun x => { x with posted := (x.posted + 1) % 2 ^ 32 }).decide' p.session p.sq seq (some p)
    (if p.desc.isEmpty then leBytes 128 0 else p.desc) none

/-- DESCRIPTOR_TAKE: while Noon runs and does not enter Retain or Off (15 R690), the next descriptor in turn is taken,
copied and decided. Posted descriptors that name another session's queue are answered first (07 R361). Where a queue has
both kinds of work the order is free (log 29). -/
def execDescriptorTake (s : State) : Res :=
  if !s.runs .noon || s.power.state = .entering then ok s else
  match s.posted.find? fun (p : Posted) => !s.ownsSq p.session p.sq with
  | some p =>
    ok ({ s with posted := s.posted.filter fun (x : Posted) => !(x.kernel == p.kernel && x.handle == p.handle) }.modHandle
      p.kernel p.handle fun h => { h with result := some .rejectSession })
  | none => match s.turn with
    | none => ok s
    | some q =>
      let s := { s with rrNext := (q + 1) % 64 }
      match s.ringWork q, s.postedWork q with
      | true, some p => match takeNat s with
        | (n, s) => ok (if n % 2 = 0 then s.takeRing q else s.takePosted p)
      | true, none => ok (s.takeRing q)
      | false, some p => ok (s.takePosted p)
      | false, none => ok s

/-! ## Completing a command (10 R481, R496, R500, R501; 11 R539 to R546; 05 R297) -/

/-- An 8.8 fixed-point figure of a value whose 256-fold has this square, saturated (log 28). -/
def figure88 (num den : Nat) : Nat :=
  let q := isqrt (num / den)
  let up := Config.figureUp && !(decide (num % den = 0) && q * q == num / den)
  Nat.min 0xFFFF (q + b2n up)
/-- A dyadic square as a quotient of whole numbers. -/
def Dy.quot (d : Dy) : Nat × Nat :=
  if 0 ≤ d.e then (d.m.natAbs * 2 ^ d.e.toNat, 1) else (d.m.natAbs, 2 ^ (-d.e).toNat)
/-- The 8.8 RMS figure of `n` samples with this sum of squares. -/
def rms88 (sumSq : Dy) (n : Nat) : Nat :=
  let q := Dy.quot sumSq
  if n = 0 then 0 else figure88 (65536 * q.1) (q.2 * n)
/-- The 8.8 figure of a peak magnitude. -/
def peak88 (p : Dy) : Nat :=
  let q := Dy.quot (p.mul p)
  figure88 (65536 * q.1) q.2

/-- The samples of one engine exceed the residual limits (05 R297). -/
def State.residualHigh (s : State) (x : Nat × Dy × Dy × Nat) : Bool :=
  let q := Dy.quot x.2.1
  let p := Dy.quot x.2.2.1
  decide (0 < x.2.2.2) && (decide (s.cal.rmsLim * s.cal.rmsLim * q.2 * x.2.2.2 < 65536 * q.1) ||
    decide (s.cal.peakLim * p.2 < 256 * p.1))

/-- The shadow residual section (11 R543). -/
def shadowSection (l : List (Nat × Dy × Dy × Nat)) : List Byte :=
  let l := (List.range 256).filterMap fun e => l.find? fun x => x.1 == e
  pad32 (leBytes 2 0x0003 ++ leBytes 2 l.length ++ leBytes 28 0 ++ leBytes 32 (ofBitList (l.map (·.1))) ++
    l.flatMap fun x => leBytes 2 (rms88 x.2.1 x.2.2.2) ++ leBytes 2 (peak88 x.2.2.1) ++ leBytes 4 x.2.2.2)

/-- The stage statistics section (11 R543). -/
def statsSection (l : List (List Byte)) : List Byte :=
  leBytes 2 0x000B ++ leBytes 2 l.length ++ leBytes 28 0 ++ l.flatten

/-- The frame in which a command ends that ends now: the boundary that ends a calibration slot counts to the frame that it ends
(05 R283, R285; log 113). -/
def Job.endFrame (j : Job) (frame : Nat) : Nat :=
  match j.body with
  | .calibrate false _ | .selftest false _ _ => if frame % 16 = 0 then frame - 1 else frame
  | _ => frame

/-- The command completes late: after its deadline frame (10 R501); a command of stages, whose work can be displaced or
delayed, after the end of its time guard (R496); a VISIBLE or FULL fence after its planned frame (11 R552). -/
def Job.late (j : Job) (frame : Nat) : Bool :=
  decide (j.deadline < j.endFrame frame) || ((match j.body with
    | .stages _ => true
    | .fence kind => kind != 1
    | _ => false) && decide (j.guardEnd < frame))

/-- Free what a session holds, once it is closed: its queues are disabled, its counters read 0 when they are granted
again, and its number is free (14 R668). -/
def State.endSession (s : State) (n : Nat) : State :=
  match s.session n with
  | none => s
  | some ss =>
    let s := forEach ss.sqs (fun s q => s.modSq q fun _ => {}) s
    let s := forEach ss.cqs (fun s c => s.modCq c fun _ => {}) s
    { s with jobs := mapIf (fun (j : Job) => j.session == n) (fun j => { j with past := true }) s.jobs
             sessions := s.sessions.set none n none, windows := s.windows.set {} n {},
             counters := s.counters.keep fun c => !(decide (ss.ctrBase ≤ c) && decide (c < ss.ctrBase + ss.ctrCount)) }

/-- A closing session ends when every accepted command of it has completed, and a waiting CLOSE is answered (14 R668). -/
def State.tryClose (s : State) (n : Nat) : State :=
  match s.session n with
  | some ss => match ss.closing with
    | some w =>
      if s.jobs.any fun j => j.session == n && j.open' then s else
      let s := s.endSession n
      match w with
      | some m => s.send (.session m 0x82 0 0 [])
      | none => s
    | none => s
  | none => s

/-- Write the final record of a command whose work has ended (10 R481; 11 R539 to R546). -/
def State.completeJob (s : State) (j : Job) (st : Status) : State :=
  let high := j.resid.any s.residualHigh
  let j := if high then { j with flags := { j.flags with residualHigh := true } } else j
  let fin := finalStatus j st (j.late s.frame.counter)
  let report := (if high then [shadowSection j.resid] else []) ++ j.report ++
    (if j.stageStats.isEmpty then [] else [statsSection j.stageStats])
  let s := s.writeRecord j.cq
    { status := fin.code, sq := j.sq, posted := j.posted, stage := j.faultStage, flags := j.flags.word,
      frame := s.frame.counter, seq := j.seq, faultOfs := j.faultOfs } report
  let s := s.modJob j.id fun x => { x with phase := .written fin s.frame.counter, flags := j.flags }
  let s := if j.hdr.sigEn then s.raise j.hdr.sigCtr 1 else s
  let s := { s with kernels := s.kernels.map fun (k : Kernel) =>
    { k with handles := mapIf (fun (h : Handle) => h.job == some j.id) (fun (h : Handle) => { h with done := some (fin, j.flags) })
                          k.handles } }
  s.tryClose j.session

/-- COMPLETION_WRITE: the record of a command whose work has ended is written, report first; it needs no firmware
(10 R481). A fault's waits for its boundary (R500). -/
def execCompletionWrite (job : Nat) (s : State) : Res :=
  match s.job? job with
  | some j => match j.phase with
    | .finished st => if (s.frame.counter < j.doneFrame && st.isDone) || (st.waitsBoundary && !j.endDue) then ok s
                      else ok (s.completeJob j st)
    | _ => ok s
  | none => ok s

end Sys2Proof.Machine
end

