-- ==== Sys2Proof/Machine/Transfer.lean ====
section
/-! DEFINITION. Moving data for commands (08 R397 to R408, R429 to R434; 09 R449 to R453; 16 R725): reading an element from any space, with the host aperture's answers held until they are used, writing, and how a stop is reported. -/

namespace Sys2Proof.Machine

/-! ## Reading -/

/-- What a read finds: its bytes, an answer still to come from the host, or a stop with its status and the page of the host aperture or the
block that cannot be read. -/
inductive Got where
  | bytes (l : List Byte)
  | wait
  | stop (st : Status) (page : Nat)
  deriving DecidableEq, Repr

/-- Some byte range lies on a failed stack, or in the SRAM or scale entries of a mapped-out cluster (16 R725). -/
def State.unitBad (s : State) (a n : Nat) : Bool :=
  ((List.range ((a + n - 1) / 64 - a / 64 + 1)).any fun i => s.onBadStack ((a / 64 + i) * 64)) || s.onBadCluster a ||
    (match s.space a with
      | .scales => s.clusterOut ((a - 0x120000000000) / 0x40000)
      | _ => false)

/-- A range of bytes cut at the multiples of `z`; `fuel` bounds the pieces. -/
def cutsAt (z : Nat) : Nat → Nat → Nat → List (Nat × Nat)
  | 0, _, _ => []
  | fuel + 1, a, n => if n = 0 then [] else
    let k := Nat.min n (z - a % z)
    (a, k) :: cutsAt z fuel (a + k) (n - k)
/-- A range of bytes cut at 4 KiB pages. -/
def pagesOf (a n : Nat) : List (Nat × Nat) := cutsAt 4096 (n / 4096 + 2) a n

/-- The bytes that a command holds of the host aperture, when it holds them all. -/
def Job.held? (j : Job) (a : Nat) : Nat → Option (List Byte)
  | 0 => some []
  | n + 1 => match j.staged.get none a, j.held? (a + 1) n with
    | some b, some l => some (b :: l)
    | _, _ => none

/-- Bytes that a command holds, after more have come. -/
def stageBytes (m : Sparse (Option Byte)) (a : Nat) : List Byte → Sparse (Option Byte)
  | [] => m
  | b :: bs => stageBytes (m.set none a (some b)) (a + 1) bs

/-- What a read of `n` bytes finds for a command; HBM and the host aperture are read by requests, whose bytes the command holds
once they have come (08 R390, R430 to R432; 09 R449, R452, R453; 16 R725). -/
def State.readFor (s : State) (j : Job) (a n : Nat) : Got :=
  match s.space a with
  | .aperture => match j.held? a n with
    | some l => .bytes l
    | none => match (pagesOf a n).find? fun p => j.hostBad.contains (pageOf p.1) || !s.canRead j.session p.1 with
      | some p => .stop .translationFault (pageOf p.1)
      | none => .wait
  | .hbm => match j.held? a n with
    | some l => .bytes l
    | none => if s.unitBad a n then .stop .unitFailed 0 else match s.badBlock a n with
      | some b => .stop .dataUncorrectable b
      | none => .wait
  | _ => if s.unitBad a n then .stop .unitFailed 0 else match s.badBlock a n with
    | some b => .stop .dataUncorrectable b
    | none => .bytes (s.bytes a n)

/-- An HA_READ of the command for these bytes is on its way. -/
def State.feeding (s : State) (id a : Nat) : Bool := s.ha.any fun r => match r.use with
  | .feed k b _ => k == id && b == a
  | _ => false
/-- A granule read of the command for bytes of its own is on its way. -/
def ReadReq.feeds (r : ReadReq) (id : Nat) : Bool := r.job == id && (match r.use with
  | .feed _ => true
  | _ => false)
/-- Some read of the command is on its way. -/
def State.feedingAny (s : State) (id : Nat) : Bool := s.reads.any (·.feeds id) || s.ha.any fun r => match r.use with
  | .feed k _ _ => k == id
  | _ => false

/-- Some access of the command is in flight (10 R500). -/
def State.inFlight (s : State) (id : Nat) : Bool := s.reads.any (·.job == id) || s.ha.any fun r => match r.use with
  | .feed k _ _ | .tile k _ _ _ | .load k _ _ _ _ _ | .write k _ => k == id

/-- Ask the host for bytes of the aperture that the command does not hold yet (12 R605). -/
def State.want (s : State) (j : Job) (a n : Nat) : State :=
  forEach (pagesOf a n) (fun s p =>
    if s.feeding j.id p.1 || (j.held? p.1 p.2).isSome then s else s.haRead j.session p.1 p.2 (.feed j.id p.1 p.2)) s

/-- The granules that ranges of bytes touch, by number, ascending. -/
def grainsOf (l : List (Nat × Nat)) : List Nat := l.foldl (fun acc x => insertNat (x.1 / 2048) acc) []

/-- Join runs of bytes that follow each other. -/
def joinRuns : List (Nat × Nat) → List (Nat × Nat)
  | [] => []
  | (a, n) :: rest => match joinRuns rest with
    | (b, m) :: more => if a + n = b then (a, n + m) :: more else (a, n) :: (b, m) :: more
    | [] => [(a, n)]

/-- Ask for ranges of bytes that a command does not hold: one request for each granule of HBM, one for each page of the host
aperture (08 R390; 12 R605). -/
def State.wantAll (s : State) (j : Job) (l : List (Nat × Nat)) : State :=
  let l := joinRuns l
  let s := forEach (l.filter fun x => s.space x.1 == .aperture) (fun s p => s.want j p.1 p.2) s
  let parts := (l.filter fun x => s.isHbm x.1).flatMap fun x => cutsAt 2048 (x.2 / 2048 + 2) x.1 x.2
  forEach (grainsOf parts) (fun s g =>
    if s.reads.any fun r => r.feeds j.id && r.address == 2048 * g then s
    else s.readGranule j.id (2048 * g) (.feed (parts.filter fun x => x.1 / 2048 == g))) s

/-- What reading a list of elements answers: their bytes up to the first stop; or the state that has asked for what is
missing. -/
inductive Reads where
  | done (l : List (List Byte)) (stop : Option (Nat × Status × Nat))
  | asked (s : State)

/-- The reads of elements in order, up to the first stop: bytes, and the ranges that wait. -/
def State.scanReads (s : State) (j : Job) (f : Nat → Nat × Nat) :
    List Nat → List (List Byte) × List (Nat × Nat) × Option (Nat × Status × Nat)
  | [] => ([], [], none)
  | i :: is => match s.readFor j (f i).1 (f i).2 with
    | .stop st p => ([], [], some (i, st, p))
    | .wait => let r := s.scanReads j f is
               ([] :: r.1, f i :: r.2.1, r.2.2)
    | .bytes l => let r := s.scanReads j f is
                  (l :: r.1, r.2.1, r.2.2)

/-- Read elements for a command; `f` gives the address and size of element `i`. -/
def State.readAll (s : State) (j : Job) (f : Nat → Nat × Nat) (is : List Nat) : Reads :=
  match s.scanReads j f is with
  | (l, [], stop) => .done l stop
  | (_, ws, _) => .asked (s.wantAll j ws)

/-! ## Writing -/

/-- The stop that a write of `n` bytes meets (08 R430, R432; 09 R457; 16 R725). -/
def State.writeStop (s : State) (session a n : Nat) : Option (Status × Nat) :=
  match s.space a with
  | .aperture => match (pagesOf a n).find? fun p => !s.canWrite session p.1 with
    | some p => some (.translationFault, pageOf p.1)
    | none => none
  | .hbm => if (List.range ((a + n - 1) / 2048 - a / 2048 + 1)).any fun i => s.onBadStack ((a / 2048 + i) * 2048) then
      some (.unitFailed, 0) else none
  | _ => none

/-- Join writes that follow each other. -/
def joinWrites : List (Nat × List Byte) → List (Nat × List Byte)
  | [] => []
  | (a, l) :: rest => match joinWrites rest with
    | (b, m) :: more => if a + l.length = b then (a, l ++ m) :: more else (a, l) :: (b, m) :: more
    | [] => [(a, l)]

/-- Write bytes for a command, to memory or to the control node (12 R605). -/
def State.put (s : State) (j : Job) (a : Nat) (bs : List Byte) : State :=
  match s.space a with
  | .aperture => forEach (pagesOf a bs.length) (fun s p =>
      s.haWrite j.session p.1 ((bs.drop (p.1 - a)).take p.2) (.write j.id none)) s
  | _ => s.writeAll a bs

/-- The writes of elements in order, up to the first that stops (08 R403, R431). -/
def State.scanWrites (s : State) (session : Nat) (d : TDesc) :
    List (Nat × List Byte) → List (Nat × List Byte) × Option (Nat × Status × Nat)
  | [] => ([], none)
  | (i, bs) :: rest => match s.writeStop session (d.addr i) bs.length with
    | some (st, p) => ([], some (i, st, p))
    | none => let r := s.scanWrites session d rest
              (((copiesOf d (d.addr i)).map fun a => (a, bs)) ++ r.1, r.2)

/-- Write elements of a destination for a command, up to the first that stops. -/
def State.writeElems (s : State) (j : Job) (d : TDesc) (l : List (Nat × List Byte)) :
    State × Option (Nat × Status × Nat) :=
  let r := s.scanWrites j.session d l
  (forEach (joinWrites r.1) (fun s x => s.put j x.1 x.2) s, r.2)

/-! ## Ends -/

/-- The page that a fault locus shows: 0 outside the host aperture (11 R543). -/
def pageShown (st : Status) (p : Nat) : Nat := if st = .translationFault then p else 0

/-- A command ends with a fault: its offset, its locus (11 R543, R763), and the log entry of an unreadable table entry
(09 R457). -/
def State.faultJob (s : State) (j : Job) (l : Locus) (x : Nat × Status × Nat) : State :=
  let s := if x.2.1 = .translationFault then s.logXlat j.session x.2.2
    else if x.2.1 = .dataUncorrectable && s.latent.contains (x.2.2 / 64, true) then s.foundError (x.2.2 / 64, true) else s
  s.modJob j.id fun c => { (c.finish x.2.1) with faultOfs := x.1, report := c.report ++ [faultLocus l.role l.stage l.entry (pageShown x.2.1 x.2.2)] }

/-- A failed unit or a lapsed peer ends a command. Of one of stages the report names the stage, with no descriptor and no page (08 R420;
log 131). -/
def Job.failStage (j : Job) (st : Status) : Job :=
  match j.body with
  | .stages _ => { (j.finish st) with faultStage := j.run.stage, report := j.report ++ [faultLocus 0 j.run.stage 0 0] }
  | _ => j.finish st

/-- A command under way has begun. -/
def State.begin' (s : State) (j : Job) : State := s.modJob j.id fun c => c.execute s.frame

/-- The command may do its work now, in a committed frame: it may start, or it has begun and waits for no read (10 R482, R496). -/
def State.mayWork (s : State) (j : Job) : Bool :=
  (s.mayStart j || (j.phase == .running && !j.stopped && !s.feedingAny j.id && s.committedNow)) && s.hasRoom j

/-- Run the work of a command of a kind when it may. -/
def jobRun (job op : Nat) (s : State) (f : Job → State → State) : Res :=
  match s.job? job with
  | some j => if j.hdr.opcode = op ∧ s.mayWork j = true then ok (f j (s.begin' j)) else ok s
  | none => ok s

/-! ## XFER (08 R406, R407, R431 to R433) -/

/-- Elements past the first stop may or may not have been delivered: which of them have is free (08 R433; log 30). -/
def State.strays (s : State) (j : Job) (src dst : TDesc) (n : Nat) : List Nat → State
  | [] => s
  | i :: is =>
    match takeNat s with
    | (k, s) =>
      match s.readFor j (src.addr i) n with
      | .bytes l => if k % 2 = 1 then ((s.writeElems j dst [(i, l)]).1).strays j src dst n is else s.strays j src dst n is
      | _ => s.strays j src dst n is

/-- Elements of each segment of an XFER: an even share for each of its frames (08 R380; log 120). -/
def Job.segmentSize (j : Job) (n : Nat) : Nat := ceilDiv n (Nat.max 1 (sumNat (j.placed.map fun p => p.n)))

/-- A segment of an XFER is over: its elements are delivered, and with the last of them the command ends. -/
def State.segmentDone (s : State) (job c : Nat) (e : SeqEntry) (done n : Nat) : State :=
  let s := (s.dequeue c e).modJob job fun x => { x with progress := done }
  if n ≤ done then s.finishJob job .done else s

/-- XFER: the Leader executes the next segment: each of its source elements is copied to the destination element of its index,
up to the first that cannot be (08 R380, R406, R431; 09 R449, R453). -/
def execXfer (job : Nat) (s : State) : Res :=
  jobRun job 0x01 s fun j s => match j.body with
    | .xfer src dst =>
      let c := s.xferLeader src dst
      match s.segment? j c with
      | none => s
      | some e =>
        let all := src.covered
        let els := (all.drop j.progress).take (j.segmentSize all.length)
        let n := src.size 0
        let later := fun (i : Nat) => all.filter fun k => decide (i < k)
        match s.readAll j (fun i => (src.addr i, n)) els with
        | .asked s => s
        | .done l stop =>
          match s.writeElems j dst (els.zip l) with
          | (s, wstop) =>
            match wstop, stop with
            | some x, _ => (s.strays j src dst n (later x.1)).faultJob j { role := 1 } x
            | none, some x => (s.strays j src dst n (later x.1)).faultJob j { role := 0 } x
            | none, none => s.segmentDone job c e (j.progress + els.length) all.length
    | _ => s

end Sys2Proof.Machine
end

