-- ==== Sys2Proof/Machine/Records.lean ====
section
/-! DEFINITION. ACC_LOAD and ACC_STORE (04 R215 to R219; 11 R535) and the scale, codebook and activation tables (03 R111 to R119, R136 to R143, R156; 04 R235, R236; 11 R536, R777). -/

namespace Sys2Proof.Machine

/-! ## ACC_STORE and ACC_LOAD -/

/-- The accumulator file that holds output row `r` of an engine's tile: at G = 128 row 2r, or row 2r + 1 when the pair
converts on that row's ADC (02 R74; 04 R205; 11 R535). What row 2r's file holds of a tile when its ADC is masked stays there
and counts no more: the manual does not say that it moves (log 106). -/
def State.fileRow (s : State) (e : Nat) (pair : Bool) (r : Nat) : Nat :=
  if pair then (if (s.engine e).masked.contains (2 * r) then 2 * r + 1 else 2 * r) else r

/-- Where record `k` of a command lies: engine, file row, vector (11 R535). -/
def State.recordAt (s : State) (engines vecB : Nat) (pair : Bool) (k : Nat) : Nat × Nat × Nat :=
  let rows := if pair then 32 else 64
  let e := nth (bitList 256 engines) (k / (rows * vecB)) 0
  (e, s.fileRow e pair (k / vecB % rows), k % vecB)

/-- The record of one value and whether it left the finite range (04 R217, R218, R222, R223); the state carries the
export generator of the engine's cluster (04 R197). -/
def State.exportRecord (s : State) (form : RecForm) (e row base vec : Nat) (exact : Bool) (b : Int) :
    State × List Byte × Bool :=
  let t := s.tileValue e row base vec exact b
  match form with
  | .exact => (s, leBytes 40 (toBits (t.m * (2 ^ (t.e + 148).toNat : Nat)) 320), false)
  | .compact =>
    if exact then
      let g := 16384 + e / 4
      match transport (s.gen g) t with
      | (w, x, g') => ({ s with gens := s.gens.set 0 g g' }, leBytes 8 (toBits w 64) ++ leBytes 2 (toBits x 16) ++ leBytes 6 0, false)
    else (s, leBytes 8 (toBits t.m 64) ++ leBytes 2 (toBits t.e 16) ++ leBytes 6 0, false)
  | .fp64 => let r := exportFp fp64 t
             (s, leBytes 8 r.1, r.2)
  | .fp32 => let r := exportFp fp32 t
             (s, leBytes 4 r.1, r.2)
  | .bf16 => let r := exportFp bf16 t
             (s, leBytes 2 r.1, r.2)

/-- Export records in order. -/
def State.exportAll (s : State) (form : RecForm) (engines base vecB : Nat) (exact pair : Bool) (b : Int) :
    List Nat → State × List (Nat × List Byte) × Bool
  | [] => (s, [], false)
  | k :: ks =>
    let p := s.recordAt engines vecB pair k
    match s.exportRecord form p.1 p.2.1 base p.2.2 exact b with
    | (s, bs, big) => match s.exportAll form engines base vecB exact pair b ks with
      | (s, l, more) => (s, (k, bs) :: l, big || more)

/-- Engines of a command whose accumulator file has failed (16 R724, R725). -/
def State.fileLost (s : State) (e : Nat) : Bool := s.mapped.contains (.accFile e)

/-- The slots of a record hold an uncorrectable error (09 R452). -/
def State.recordBad (s : State) (base : Nat) (exact : Bool) (p : Nat × Nat × Nat) : Bool :=
  s.badSlot p.1 p.2.1 (base + (if exact then 5 * p.2.2 else p.2.2)) (if exact then 5 else 1)

/-- ACC_STORE: the named range is exported in the named form from RESUME on; it reports each tile's sticky RANGE
(04 R182, R217 to R219). -/
def execAccStore (job : Nat) (s : State) : Res :=
  jobRun job 0x08 s fun j s => match j.body with
    | .acc d base vecB f exact pair b engines => match RecForm.ofCode f with
      | none => s
      | some form =>
        let sticky := (bitList 256 engines).filter fun e => s.tiles.any fun t => t.engine == e && t.base == base && t.range
        match d.covered.find? fun k => s.fileLost (s.recordAt engines vecB pair k).1 with
        | some k => s.faultJob j { role := 1 } (k, .unitFailed, 0)
        | none =>
        match d.covered.find? fun k => s.recordBad base exact (s.recordAt engines vecB pair k) with
        | some k => (s.logSlot (s.recordAt engines vecB pair k).1).faultJob j { role := 1 } (k, .dataUncorrectable, 0)
        | none =>
          match s.exportAll form engines base vecB exact pair b d.covered with
          | (s, l, big) =>
            let s := s.modJob job fun c =>
              { c with flags := { c.flags with range := c.flags.range || big || !sticky.isEmpty },
                       report := if sticky.isEmpty then c.report else c.report ++ [tileRangeSection (ofBitList sticky)] }
            match s.writeElems j d l with
            | (s, some x) => s.faultJob j { role := 1 } x
            | (s, none) => s.finishJob job .done
    | _ => s

/-- Import one record into a value of a tile; whether something was lost (04 R217, R218). -/
def State.importTo (s : State) (form : RecForm) (e row base vec : Nat) (exact : Bool) (b : Int) (bs : List Byte) :
    State × Bool :=
  let v := importRecord form bs
  if exact then
    let r := importExact v
    (s.setExact e row (base + 5 * vec) r.1, r.2)
  else
    let g := 64 * e + row
    let same := form == .compact && sext (field bs 8 2) 16 == b
    if same then (s.setAccSlot e row (base + vec) (BitVec.ofNat 64 (field bs 0 8)), false)
    else match importCompact (s.gen g) b v with
      | (w, lost, g') =>
        ({ s.setAccSlot e row (base + vec) (BitVec.ofNat 64 (toBits w 64)) with gens := s.gens.set 0 g g' }, lost)

/-- Slots that records replace. -/
def State.clearRecords (s : State) (engines base vecB : Nat) (exact pair : Bool) (ks : List Nat) : State :=
  forEach ks (fun s k =>
    let p := s.recordAt engines vecB pair k
    s.clearSlots p.1 p.2.1 (base + (if exact then 5 * p.2.2 else p.2.2)) (if exact then 5 else 1)) s

/-- Import records in order. -/
def State.importAll (s : State) (form : RecForm) (engines base vecB : Nat) (exact pair : Bool) (b : Int) :
    List (Nat × List Byte) → State × Bool
  | [] => (s, false)
  | (k, bs) :: rest =>
    let p := s.recordAt engines vecB pair k
    match s.importTo form p.1 p.2.1 base p.2.2 exact b bs with
    | (s, lost) => match s.importAll form engines base vecB exact pair b rest with
      | (s, more) => (s, lost || more)

/-- ACC_LOAD: opens the tile in the format and b that it names and writes the records from RESUME on (04 R217 to
R219). -/
def execAccLoad (job : Nat) (s : State) : Res :=
  jobRun job 0x07 s fun j s => match j.body with
    | .acc d base vecB f exact pair b engines => match RecForm.ofCode f with
      | none => s
      | some form =>
        match s.readAll j (fun k => (d.addr k, form.size)) d.covered with
        | .asked s => s
        | .done l stop =>
          let s := forEach (bitList 256 engines) (fun s e => s.openTile
            { engine := e, base := base, slots := vecB * (if exact then 5 else 1), exact := exact, b := b, range := false } |>.noteHeld e base 0 []) s
          let lost := d.covered.find? fun k => s.fileLost (s.recordAt engines vecB pair k).1
          let s := s.clearRecords engines base vecB exact pair (d.covered.take l.length)
          match s.importAll form engines base vecB exact pair b (d.covered.zip l) with
          | (s, big) =>
            let s := s.modJob job fun c => { c with flags := { c.flags with range := c.flags.range || big } }
            match lost, stop with
            | some k, _ => s.faultJob j { role := 0 } (k, .unitFailed, 0)
            | none, some x => s.faultJob j { role := 0 } x
            | none, none => s.finishJob job .done
    | _ => s

/-! ## Scale entries (03 R139) -/

/-- An FP32 scale is positive, normal and finite (03 R143). -/
def scaleValid (n : Nat) : Bool := n / 2 ^ 31 == 0 && decide (0x00800000 ≤ n) && decide (n < 0x7F800000)

/-- The fields that WMASK selects: low bit, width (11 R536). -/
def wmaskFields (wmask : Nat) : List (Nat × Nat) :=
  (if bit wmask 0 then [(0, 32)] else []) ++ (if bit wmask 1 then [(32, 32)] else []) ++
  (if bit wmask 2 then [(64, 32), (121, 1)] else []) ++ (if bit wmask 3 then [(96, 16)] else []) ++
  (if bit wmask 4 then [(112, 5), (117, 4), (128, 256)] else []) ++ (if bit wmask 5 then [(122, 1)] else []) ++
  (if bit wmask 6 then [(384, 128)] else [])
/-- An entry with the selected fields of an image. -/
def mergeEntry (old new wmask : Nat) : Nat :=
  (wmaskFields wmask).foldl (fun n f => setBits n f.1 f.2 (bits new f.1 f.2)) old
/-- The device address of a scale entry (03 R136). -/
def scaleAddr (n e : Nat) : Nat := 0x120000000000 + 64 * (4096 * n + e)
/-- The first of some scale entries of a cluster of which a read is uncorrectable (09 R452). -/
def State.badEntry? (s : State) (n : Nat) (es : List Nat) : Option Nat := es.find? fun e => s.poisoned (scaleAddr n e)
/-- A load of all the fields of a scale entry writes its block whole (09 R450, R452). -/
def State.cleanEntry (s : State) (n e wmask : Nat) : State :=
  if wmask % 128 ≠ 127 then s else
  { s with poison := clearPoison s.poison (scaleAddr n e) 64, latent := s.latent.filter fun x => x.1 != scaleAddr n e / 64 }
/-- Change scale entry `e` of cluster `n`. -/
def State.modScale (s : State) (n e : Nat) (f : Nat → Nat) : State :=
  { s with scales := s.scales.modify 0 (4096 * n + e) fun v => BitVec.ofNat 512 (f v.toNat) }

/-! ## SCALE_LOAD and SCALE_READ -/

/-- The first index at which entries do not rise strictly as signed integers (03 R114). -/
def firstNotRising : Nat → List Int → Option Nat
  | i, a :: b :: rest => if a < b then firstNotRising (i + 1) (b :: rest) else some (i + 1)
  | _, _ => none
/-- The first entry of an activation table that breaks R236. -/
def firstBadTable : Nat → List ActEntry → Option Nat
  | _, [] => none
  | i, e :: rest =>
    let here := FpFmt.decode fp32 e.xLo.toNat
    let bad := if i = 0 then e.xLo != 0xFF800000 else match here with
      | .nan _ => true
      | _ => false
    if bad then some i else match rest with
      | [] => none
      | n :: _ => match fpCmp here (FpFmt.decode fp32 n.xLo.toNat) with
        | some .lt => firstBadTable (i + 1) rest
        | _ => some (i + 1)
/-- An activation table entry of a load image (04 R235); its reserved bits [127:96] are not looked at (log 107). -/
def parseActEntry (bs : List Byte) : ActEntry :=
  { xLo := BitVec.ofNat 32 (field bs 0 4), slope := BitVec.ofNat 32 (field bs 4 4), offset := BitVec.ofNat 32 (field bs 8 4) }

/-- Load an image into a slot, or leave the slot and report the first offending index (03 R114; 04 R236). -/
def State.loadSlot (s : State) (job slot : Nat) (bad : Option Nat) (mask : Nat) (f : Cluster → Cluster) : State :=
  match bad with
  | some i => (s.modJob job fun c => { c with flags := { c.flags with range := true },
                                              report := c.report ++ [offendingSection i slot] }).finishJob job .done
  | none => (forEach (bitList 64 mask) (fun s n => s.modCluster n f) s).finishJob job .done

/-- SCALE_LOAD: writes scale entries, a codebook slot or an activation table slot in each named cluster (03 R111 to
R114, R143; 04 R235, R236; 11 R536, R777). The count of refused entries is that of the image (log 31). -/
def execScaleLoad (job : Nat) (s : State) : Res :=
  jobRun job 0x09 s fun j s => match j.body with
    | .scaleLoad target slot first _ wmask d mask =>
      match s.readAll j (fun i => (d.addr i, d.size 0)) d.covered with
      | .asked s => s
      | .done l stop =>
        if target = 0 then
          let items := (d.covered.zip l).map fun x => (first + x.1, ofLe x.2)
          let ok' := fun (n : Nat) => !bit wmask 0 || scaleValid (bits n 0 32)
          let bad := (items.filter fun x => !ok' x.2).length
          let s := forEach (bitList 64 mask) (fun s n => forEach items (fun s x =>
            if ok' x.2 then (s.cleanEntry n x.1 wmask).modScale n x.1 fun old => mergeEntry old x.2 wmask else s) s) s
          let s := if bad = 0 then s else s.modJob job fun c =>
            { c with flags := { c.flags with range := true }, report := c.report ++ [entryCountSection bad] }
          match stop with
          | some x => s.faultJob j { role := 0 } x
          | none => s.finishJob job .done
        else match stop with
          | some x => s.faultJob j { role := 0 } x
          | none =>
            if target = 1 then
              let es := l.map fun b => sext (ofLe b) 16
              s.loadSlot job slot (firstNotRising 0 es) mask fun c =>
                { c with codebooks := (c.codebooks.filter fun x => x.1 != slot) ++ [(slot, es)] }
            else
              let es := l.map parseActEntry
              s.loadSlot job slot (firstBadTable 0 es) mask fun c =>
                { c with tables := (c.tables.filter fun x => x.1 != slot) ++ [(slot, es)] }
    | _ => s

/-- SCALE_READ: 64 B records, cluster ascending, then entry; CLEAR clears the counters of each entry read, in the same
update (03 R141, R156; 11 R536). -/
def execScaleRead (job : Nat) (s : State) : Res :=
  jobRun job 0x0A s fun j s => match j.body with
    | .scaleRead first count clear d mask =>
      let cs := bitList 64 mask
      let at' := fun (k : Nat) => (nth cs (k / count) 0, first + k % count)
      match d.covered.find? fun k => s.clusterOut (at' k).1 with
      | some k => s.faultJob j { role := 1 } (k, .unitFailed, 0)
      | none =>
      match d.covered.find? fun k => (s.badEntry? (at' k).1 [(at' k).2]).isSome with
      | some k => s.faultJob j { role := 1 } (k, .dataUncorrectable, scaleAddr (at' k).1 (at' k).2)
      | none =>
        match s.writeElems j d (d.covered.map fun k => (k, leBytes 64 (s.scale (at' k).1 (at' k).2).toNat)) with
        | (s, stop) =>
          let read := d.covered.filter fun k => match stop with
            | some x => decide (k < x.1)
            | none => true
          let s := if clear then forEach read (fun s k => s.modScale (at' k).1 (at' k).2 fun n => n % 2 ^ 384) s else s
          match stop with
          | some x => s.faultJob j { role := 1 } x
          | none => s.finishJob job .done
    | _ => s

end Sys2Proof.Machine
end

