-- ==== Sys2Proof/Machine/Quantiser.lean ====
section
/-! DEFINITION. The input quantiser (03 R120 to R130, R133, R765, R774) and a stage as one run of it executes: main run or re-run (03 R167), its parts (11 R532), tiles and channels. -/

namespace Sys2Proof.Machine

/-! ## A stage as a run executes it -/

/-- The stage with the differences of a re-run: INT8 inputs, exact accumulation, and the re-run weight source when it is
named (03 R167). -/
def Stage.eff (st : Stage) (rerun : Bool) : Stage :=
  if !rerun then st else
  let st := { st with inForm := 7, inCb := 0, exact := true }
  match st.rerunW with
  | some w => { st with wForm := 7, wCb := 0, wDesc := some w }
  | none => st

/-- The rounding of a path (03 R169, R173). -/
def pathRnd (rerun : Bool) : Rnd := if rerun then .na else .ne
/-- The stage's passes are narrow: both its forms are (02 R83, R84). A re-run with INT8 inputs is not. -/
def Stage.narrow (st : Stage) : Bool := st.wf.isNarrow && st.inf.isNarrow
/-- Output tiles in progress on one engine (04 R201). -/
def Stage.inProgress (st : Stage) : Nat := Config.accSlots / (st.vecB * st.vslots)
/-- A stage that adds to the named range, or keeps its values there: each of its tiles stands in that range (log 48). -/
def Stage.ranged (st : Stage) : Bool := st.add || !st.drain
/-- The channels that bank rows convert: at G = 128 each output stands once, at its first row (02 R73). -/
def Stage.tileChans (st : Stage) (rows : List (Option Nat)) : List (Option Nat) :=
  if st.g = 2 then ((List.range rows.length).zip rows).map fun x => if x.1 % 2 = 0 then x.2 else none else rows
/-- Input slices (02 R83). -/
def Stage.inSlices (st : Stage) : Nat := if st.inf.isInt8 then 2 else 1
/-- The first activation tile that the stage streams: that of its input's RESUME (08 R435; log 32). -/
def Stage.firstTile (st : Stage) : Nat := match st.inDesc with
  | some d => if st.redLen = 0 then 0 else d.resume / (st.vecB * st.kb)
  | none => 0
/-- Activation tiles of the stage. -/
def Stage.tileCount (st : Stage) : Nat := ceilDiv st.vecs st.vecB
/-- Vectors of tile `u`. -/
def Stage.vecsIn (st : Stage) (u : Nat) : Nat := Nat.min st.vecB (st.vecs - u * st.vecB)
/-- The output element of a vector and channel (11 R527). -/
def Stage.element (st : Stage) (vec ch : Nat) : Nat := vec * st.chans + ch
/-- The key under which a run keeps the value of an element in a part of the chain. -/
def Stage.cell (st : Stage) (part k : Nat) : Nat := part * (st.chans * st.vecs) + k
/-- Output elements that the run computes. -/
def Stage.total (st : Stage) : Nat := st.chans * (st.vecs - st.firstTile * st.vecB)

/-- The parts that this device computes. -/
def Stage.localParts (st : Stage) : List Nat :=
  if st.parts.isEmpty then [0] else
  ((List.range st.parts.length).zip st.parts).filterMap fun (x : Nat × Part) => if x.2.peer = 0xFFFF then some x.1 else none
/-- The last part of the chain. -/
def Stage.lastPart (st : Stage) : Nat := st.parts.length - 1

/-- The running sum of the previous part has been added to every channel of a tile (04 R220). -/
def TileRun.summed (t : TileRun) : Bool := (t.chans.any Option.isSome) && t.chans.all fun c => c.all t.sums.contains

/-- The stage of a command that is under way, as its run executes it. -/
def Job.stage? (j : Job) : Option Stage :=
  if j.phase == .running && j.run.started && !j.stopped then
    (j.body.stageList[j.run.stage]?).map fun st => st.eff j.run.rerun
  else none

/-! ## FP32 operations by bits -/

/-- One FP32 operation rounded by a path's mode. -/
def f32op (rm : Rnd) (op : Fv → Fv → Ex × BitVec 5) (a b : Nat) : Nat :=
  (fp32.finish rm (op (fp32.decode a) (fp32.decode b))).1
/-- FP32 sum. -/
def f32add (rm : Rnd) : Nat → Nat → Nat := f32op rm (fpAdd rm)
/-- FP32 difference. -/
def f32sub (rm : Rnd) (a b : Nat) : Nat := (fp32.finish rm (fpAdd rm (fp32.decode a) (fp32.decode b).negate)).1
/-- FP32 product. -/
def f32mul (rm : Rnd) : Nat → Nat → Nat := f32op rm fpMul
/-- The FP32 bits of a power of two in the range of E8M0, subnormal ones included. -/
def f32pow2 (k : Int) : Nat := fp32.ofDy ⟨1, k⟩
/-- A datum's FP32 bits, rounded by a mode. -/
def f32of (rm : Rnd) (v : Fv) : Nat :=
  match v with
  | .nan _ => fp32.qnan
  | .inf n => fp32.infBits n
  | .fin n m e => (fp32.round rm n m 1 e).1

/-- A value the quantiser takes up: NaN becomes 0 and an infinity the largest finite value, and the replacement counts
(03 R126). -/
def replaceBad (n : Nat) : Nat × Bool :=
  match fp32.decode n with
  | .nan _ => (0, true)
  | .inf neg => (fp32.maxBits neg, true)
  | .fin _ _ _ => (n, false)

/-! ## De-quantisation and rotation (03 R121, R122, R126, R127, R765) -/

/-- One stage of the butterfly: every pair of indices that differ in bit `k` (03 R765). -/
def butterfly (rm : Rnd) (x : List Nat) (k : Nat) : List Nat :=
  (List.range x.length).map fun i =>
    if bit i k then f32sub rm (nth x (i - 2 ^ k) 0) (nth x i 0)
    else f32add rm (nth x i 0) (nth x (i + 2 ^ k) 0)
/-- The rotated group (03 R122, R765). -/
def rotateGroup (rm : Rnd) (x : List Nat) : List Nat :=
  (List.range x.length.log2).foldl (butterfly rm) x

/-- Replace what R126 replaces, and count. -/
def cleanGroup (x : List Nat) : List Nat × Nat :=
  (x.map fun n => (replaceBad n).1, (x.filter fun n => (replaceBad n).2).length)

/-- What the quantiser makes of a group: the values, the exponent, the clips and replacements it counted, and whether the
input codebook was unusable (03 R774). -/
structure Quantised where
  v     : List Dy
  ex    : Int
  clips : Nat
  noCb  : Bool
  deriving DecidableEq, Repr

/-- The activation block exponent (03 R123). -/
def blockExp (lo hi : Dy) (unsigned : Bool) (x : List Dy) : Int :=
  if x.all fun d => d.m == 0 then -127 else
  match (List.range 255).find? fun i =>
      let e : Int := (i : Int) - 127
      x.all fun d => (d.scale (-e)).le hi && (unsigned || lo.le (d.scale (-e))) with
  | some i => (i : Int) - 127
  | none => 127

/-- Quantise a group of FP32 values (03 R121 to R128, R774). The slot is unusable when it holds no entry above 0, and then no
clip, replacement or infinity of the group is counted (log 132). A code of a
group that is all zero does not clip, whatever the codebook's range (03 R124). -/
def quantise (f : Form) (held : List Int) (rot : Bool) (rm : Rnd) (x : List Nat) : Quantised :=
  let cb := cbEntries f held
  let noCb := f.isCb && !(held.any fun e => decide (0 < e))
  if noCb then { v := x.map fun _ => Dy.zero, ex := -127, clips := 0, noCb := true } else
  let a := cleanGroup x
  let b := if rot then cleanGroup (rotateGroup rm a.1) else (a.1, 0)
  let d := b.1.map fun n => (fp32.decode n).dy
  let r := f.range cb
  let e := blockExp r.1 r.2 f.unsigned d
  let out := d.map fun t =>
    let t := t.scale (-e)
    if r.2.lt t then (r.2, true) else if t.lt r.1 then (r.1, true) else (toForm f cb rm t, false)
  { v := out.map (·.1), ex := e, noCb := false,
    clips := a.2 + b.2 + (if d.all fun t => t.m == 0 then 0 else (out.filter (·.2)).length) }

/-! ## Reading a group from an activation tile -/

/-- Fields of a scale entry that the quantiser uses: CONST, CONST_VALUE, ZERO_POINT, SCALE (03 R139). -/
def entryConst (n : Nat) : Bool := bit n 121
/-- CONST_VALUE. -/
def entryConstValue (n : Nat) : Nat := bits n 64 32
/-- ZERO_POINT, signed. -/
def entryZp (n : Nat) : Int := sext (bits n 96 16) 16
/-- SCALE. -/
def entryScale (n : Nat) : Nat := bits n 0 32

/-- The stored code of reduction element `j` of a vector, out of its input element's bytes (03 R102; 08 R401). -/
def storedCode (st : Stage) (bs : List Byte) (j : Nat) : Nat :=
  if st.store.is4 then bits (ofLe bs) (4 * (j % 2)) 4 else ofLe bs
/-- The input element that holds reduction element `j` of vector `vec` (08 R401). -/
def Stage.inElement (st : Stage) (vec j : Nat) : Nat := vec * st.kb + (if st.store.is4 then j / 2 else j)
/-- The MX block of reduction element `j` of vector `vec` (03 R105). -/
def Stage.mxBlock (st : Stage) (vec j : Nat) : Nat := (vec * st.redLen + j) / 32

/-- The cells of a tile buffer at an address. -/
def TileBuf.bytes (b : TileBuf) (a n : Nat) : List Byte := (List.range n).map fun i => b.cells.get 0 (a + i)

/-- The de-quantised FP32 value of reduction element `j` of a vector on a cluster; a NaN block scale makes it NaN
(03 R121, R127), but for a constant channel, which is 0 without a look at the block (log 136). -/
def State.dequant (s : State) (st : Stage) (rm : Rnd) (c : Nat) (b : TileBuf) (vec j : Nat) : Nat :=
  let e := (s.scale c (st.inScale + j)).toNat
  if entryConst e then 0 else
  match st.inDesc with
  | none => 0
  | some d =>
    let code := storedCode st (b.bytes (d.addr (st.inElement vec j)) (d.size 0)) j
    let v := f32of rm (st.store.value code)
    let v := if st.store.hasZp then f32sub rm v (f32of rm (.fin (decide (entryZp e < 0)) (entryZp e).natAbs 0)) else v
    let v := f32mul rm v (entryScale e)
    match st.inMx with
    | none => v
    | some m =>
      let k := ofLe (b.bytes (m.addr (st.mxBlock vec j)) 1)
      if k = 255 then fp32.qnan else f32mul rm v (f32pow2 ((k : Int) - 127))

/-- Quantise group `g` of a vector on a cluster (03 R120). -/
def State.quantGroup (s : State) (st : Stage) (rerun : Bool) (c : Nat) (b : TileBuf) (vec g : Nat) : Quantised :=
  let rm := pathRnd rerun
  quantise st.inf (s.codebook c st.inCb) st.rotate rm
    ((List.range st.gsize).map fun i => s.dequant st rm c b vec (g * st.gsize + i))

/-- The values of an input slice pass, its exponent sx, c, and its ladder: 8-bit integers travel as two slices, the high
one first (02 R81 to R83; 03 R129, R130). -/
def sliceValues (f : Form) (held : List Int) (slice : Nat) (v : List Dy) : List Dy × Int × Ladder :=
  let hi := slice == 0
  let l := ladderOf f hi (cbEntries f held)
  if !f.isInt8 then (v, 0, l) else
  let ofs : Int := if f = .int8 then 128 else 0
  let level := fun (d : Dy) => d.roundEven + ofs
  if hi then (v.map fun d => Dy.ofInt (level d / 16 - ofs / 16), 4, l)
  else (v.map fun d => Dy.ofInt (level d % 16), 0, l)

/-! ## Constant channels (03 R133, R134) -/

/-- κ of a group on a cluster, and the replacements counted; `none` when the group has no constant channel (03 R133). -/
def State.kappaOf (s : State) (st : Stage) (rerun : Bool) (c g : Nat) : Option (List Dy) × Nat :=
  let js := (List.range st.gsize).map fun i => (s.scale c (st.inScale + g * st.gsize + i)).toNat
  if js.any entryConst then
    let a := cleanGroup (js.map fun e => if entryConst e then entryConstValue e else 0)
    let b := if st.rotate then cleanGroup (rotateGroup (pathRnd rerun) a.1) else (a.1, 0)
    (some (b.1.map fun n => (fp32.decode n).dy), a.2 + b.2)
  else (none, 0)

/-- Count clips and replacements of a cluster's quantiser for a command (03 R124, R126). -/
def State.countClips (s : State) (job c n : Nat) : State :=
  if n = 0 then s else
  (s.modCluster c fun x => { x with inputClips := x.inputClips + n }).modJob job fun j =>
    { j with flags := { j.flags with saturation := true } }

end Sys2Proof.Machine
end

