-- ==== Sys2Proof/Machine/Light.lean ====
section
/-! DEFINITION. The light path (02 R57 to R83; 03 R99 to R110, R130 to R134, R774; 04 R178 to R208; 07 R373 to R377): starting a stage, bank loads and swaps, group issue and conversions. -/

namespace Sys2Proof.Machine

/-! ## Starting a stage (08 R416; 11 R530; 08 R436) -/

/-- The rows on which the channels of output block `b` stand in an unmasked tile. -/
def Stage.blockRows (st : Stage) (b : Nat) : List (Option Nat) :=
  (List.range 64).map fun i => if st.g = 2 then (if i % 2 = 0 then some (b * st.rows + i / 2) else none) else some (b * st.rows + i)

/-- The tiles of a drain-only stage on the engines of a part: those that a stage has left in the named range, patch tiles among them;
of a channel that no engine is known to hold, as after ACC_LOAD, output block `b` lies on the `b`-th engine in service (log 33). -/
def State.drainOnlyPart (s : State) (mask : Nat) (st : Stage) (part : Nat) : List TileRun :=
  let es := (enginesOf mask).filter fun e => s.inService e && (st.partOf (e / 4)).map (·.1) == some part
  let known := (es.map fun e => (e, s.accHolds.get (0, []) (640 * e + st.accBase))).filter fun x =>
    decide (x.2.1 < st.tileCount) && x.2.2.any fun c => c.any (decide <| · < st.chans)
  let held := known.map fun x =>
    ({ engine := x.1, u := x.2.1, part := part, chans := x.2.2.map fun c => c.filter (decide <| · < st.chans) } : TileRun)
  held ++ (List.range st.blocks).flatMap fun b => (List.range st.tileCount).filterMap fun u =>
    let chans := (st.blockRows b).map fun c => c.filter fun ch => !held.any fun (t : TileRun) => t.u == u && t.chans.contains (some ch)
    if chans.all Option.isNone then none
    else some { engine := nth es (b % Nat.max 1 es.length) 0, u := u, part := part, chans := chans }

/-- The tiles of a drain-only stage: those of each part of the chain that this device computes (04 R220; 08 R436). -/
def State.drainOnlyTiles (s : State) (mask : Nat) (st : Stage) : List TileRun :=
  if st.redLen ≠ 0 then [] else st.localParts.flatMap (s.drainOnlyPart mask st)

/-- The accumulator file of row `i` of a tile on an engine (04 R205). -/
def State.rowFile (s : State) (st : Stage) (e i : Nat) : Nat := if st.g = 2 then s.fileRow e true (i / 2) else i

/-- The value of an element of the named range, in units of 2⁻¹⁴⁸. -/
def State.unitsAt (s : State) (st : Stage) (e row vi : Nat) : Int :=
  if st.exact then s.exactAt e row (st.accBase + 5 * vi)
  else (s.accSlot e row (st.accBase + vi)).toInt * (2 ^ (st.compactExp + 148).toNat : Nat)

/-- The elements of a tile: row, vector within the tile, and the key under which a run keeps the element's value. -/
def TileRun.cells (t : TileRun) (st : Stage) : List (Nat × Nat × Nat) :=
  ((List.range t.chans.length).zip t.chans).flatMap fun (x : Nat × Option Nat) => match x.2 with
    | none => []
    | some ch => (List.range (st.vecsIn t.u)).map fun vi => (x.1, vi, st.cell t.part (st.element (t.u * st.vecB + vi) ch))

/-- The values that the named range holds for a tile's elements, put beside those saved before (03 R167). -/
def State.saveValues (s : State) (st : Stage) (t : TileRun) (m : Sparse Int) : Sparse Int :=
  (t.cells st).foldl (fun m x => m.set 0 x.2.2 (s.unitsAt st t.engine (s.rowFile st t.engine x.1) x.2.1)) m

/-- Stage `k` of a command begins; what was fetched for it ahead stands in its buffers (08 R418). A drain-only stage with a reserved re-run saves the values it drains (03 R158, R167). -/
def State.startStage (s : State) (j : Job) (k : Nat) : State :=
  let run : StageRun := match j.body.stageList[k]? with
    | some st =>
      let ts := s.drainOnlyTiles j.mask st
      { tiles := ts, saved := if st.rerunReserved j.hdr then ts.foldl (fun m t => s.saveValues st t m) [] else [] }
    | none => {}
  s.modJob j.id fun c => { c with
    run := { run with stage := k, started := true, nextFetch := if c.run.stage < k then c.run.ahead else [] }
    handover := none, acked := [], got := [], staged := [] }

/-- A command of stages begins with its first. -/
def startJob (job op : Nat) (s : State) : Res :=
  match s.job? job with
  | some j => if j.hdr.opcode = op ∧ s.mayStart j = true then ok ((s.begin' j).startStage j 0) else ok s
  | none => ok s

/-- MATMUL (11 R530). -/
def execMatmul (job : Nat) (s : State) : Res := startJob job 0x02 s
/-- SUITE (08 R416). -/
def execSuite (job : Nat) (s : State) : Res := startJob job 0x03 s
/-- REDUCE (04 R220; 11 R530). -/
def execReduce (job : Nat) (s : State) : Res := startJob job 0x04 s

/-- The tile buffers that hold tiles of a command are freed, and the weight tiles fetched for it (08 R386, R388, R422). -/
def State.freeBufs (s : State) (job : Nat) : State :=
  { s with
    clusters := (List.range 64).foldl (fun m c => m.modify {} c fun (x : Cluster) =>
      { x with bufs := x.bufs.filter fun (b : TileBuf) => b.job != job }) s.clusters
    engines := (s.engines.map fun (x : Nat × Engine) =>
      (x.1, { x.2 with wbufs := x.2.wbufs.filter fun b => b.job != job })).filter fun x => x.2 != {} }

/-- A stage under way ends the command with a fault (08 R420, R432, R435, R436). Its tile buffers are freed. -/
def State.faultStage (s : State) (j : Job) (role : Nat) (x : Nat × Status × Nat) : State :=
  let s := (s.faultJob j { role := role, stage := j.run.stage } x).modJob j.id fun c => { c with faultStage := j.run.stage }
  s.freeBufs j.id

/-- The buffers of a stage that is over are freed; what has been fetched for the next one stays (08 R386, R418). -/
def State.freeStage (s : State) (j : Job) : State :=
  let gone := fun (job stage : Nat) => job == j.id && decide (stage ≤ j.run.stage)
  { s with
    clusters := (List.range 64).foldl (fun m c => m.modify {} c fun (x : Cluster) =>
      { x with bufs := x.bufs.filter fun (b : TileBuf) => !gone b.job b.stage }) s.clusters
    engines := (s.engines.map fun (x : Nat × Engine) =>
      (x.1, { x.2 with wbufs := x.2.wbufs.filter fun b => !gone b.job b.stage })).filter fun x => x.2 != {} }

/-- The part whose tiles end the stage's work on this device (11 R532). -/
def Stage.finalPart (st : Stage) : Nat := (st.localParts.getLast?).getD 0

/-- The banks of an engine that hold a tile of a run that is over are parked (02 R62, R92). -/
def Engine.park (x : Engine) (done : Bank → Bool) : Engine :=
  { x with bankA := if done x.bankA then {} else x.bankA, bankB := if done x.bankB then {} else x.bankB }
/-- The sequencer parks the banks that hold tiles of a command: no further tile is due on them (02 R62, R92). -/
def State.parkRun (s : State) (id : Nat) : State :=
  { s with engines := (s.engines.map fun (x : Nat × Engine) =>
      (x.1, x.2.park fun b => b.job == id && !b.rows.isEmpty)).filter fun x => x.2 != {} }

/-- A stage's last output has drained, or its last term has been added: a stage that keeps its tiles ends here, and the
next begins in the following frame (08 R417; 04 R239). A device whose last part hands its sums to a peer drains
nothing. -/
def State.stageSettled (s : State) (j : Job) (st : Stage) : State :=
  let s := (s.parkRun j.id).freeStage j
  if st.drain && st.finalPart == st.lastPart then s.modJob j.id fun c => { c with run := { c.run with drainFrame := some s.frame.counter } }
  else if j.run.stage + 1 < j.body.stageList.length then
    s.modJob j.id fun c => { c with run := { c.run with drainFrame := some s.frame.counter },
                                    handover := some (s.frame.counter + 1) }
  else s.finishJob j.id .done

/-! ## Tiles that are still due on an engine (02 R62, R78, R92)

Which engine takes a tile that has begun nowhere is decided when its first group is issued; until then it is due on every engine of
its part (log 127). -/

/-- Passes of a tile that have not been issued. -/
def TileRun.passesLeft (t : TileRun) : Bool :=
  !t.closed && decide (t.issued * (t.chans.filter Option.isSome).length < t.need)
/-- A channel and tile of a part belong to some tile already. -/
def StageRun.claimed (r : StageRun) (u part : Nat) (chans : List (Option Nat)) : Bool :=
  r.tiles.any fun (t : TileRun) => t.u == u && t.part == part && chans.any fun c => c.isSome && t.chans.contains c
/-- Passes of one weight tile over an activation tile. -/
def Stage.passes (st : Stage) (u : Nat) : Nat := st.vecsIn u * st.inSlices
/-- Weight tiles of one output block in a part. -/
def Stage.weightTiles (st : Stage) (p : Nat × Nat × Nat) : Nat := p.2.2 * st.ws
/-- A bank's place among the weight tiles of its output block. -/
def Bank.pos (b : Bank) (st : Stage) (p : Nat × Nat × Nat) : Nat := (b.rb - p.2.1) * st.ws + b.ws
/-- The channels of a bank's tile. -/
def Bank.chans (b : Bank) (st : Stage) : List (Option Nat) := st.tileChans (b.rows.map (·.chan))
/-- The activation tiles for which the outputs of a bank belong to no tile yet. -/
def StageRun.fresh (r : StageRun) (st : Stage) (part : Nat) (b : Bank) : List Nat :=
  (List.range st.tileCount).filter fun u => decide (st.firstTile ≤ u) && !r.claimed u part (b.chans st)
/-- Output elements of a part that belong to no tile yet. -/
def StageRun.unclaimed (r : StageRun) (st : Stage) (part : Nat) : Nat :=
  st.total - sumNat ((r.tiles.filter fun (t : TileRun) => t.part == part).map fun t => (t.chans.filter Option.isSome).length * st.vecsIn t.u)
/-- A bank's tile is the next one of an activation tile on an engine. -/
def StageRun.nextOn (r : StageRun) (st : Stage) (p : Nat × Nat × Nat) (e : Nat) (b : Bank) : Bool :=
  (r.tiles.any fun (t : TileRun) => t.engine == e && t.part == p.1 && t.chans == b.chans st && t.passesLeft &&
    t.issued / st.passes t.u == b.pos st p) || (b.pos st p == 0 && !(r.fresh st p.1 b).isEmpty)
/-- Something is left on an engine for the run. -/
def StageRun.leftOn (r : StageRun) (st : Stage) (p : Nat × Nat × Nat) (e : Nat) : Bool :=
  (r.tiles.any fun (t : TileRun) => t.engine == e && t.part == p.1 && t.passesLeft) || decide (0 < r.unclaimed st p.1)
/-- Something is left on an engine for the run when the tile of a bank has streamed. -/
def StageRun.leftAfter (r : StageRun) (st : Stage) (p : Nat × Nat × Nat) (e : Nat) (b : Bank) : Bool :=
  let last := b.pos st p + 1 == st.weightTiles p
  let new := r.fresh st p.1 b
  (r.tiles.any fun (t : TileRun) => t.engine == e && t.part == p.1 && t.passesLeft &&
    !(t.chans == b.chans st && last && t.issued / st.passes t.u == b.pos st p)) ||
  (!new.isEmpty && !last) ||
  decide (sumNat (new.map fun u => ((b.chans st).filter Option.isSome).length * st.vecsIn u) < r.unclaimed st p.1)

/-- The run and the part whose tile a bank of an engine holds, while the run goes on there. -/
def State.runOf (s : State) (e : Nat) (b : Bank) : Option (Job × Stage × Nat × Nat × Nat) :=
  if b.rows.isEmpty || !s.inService e then none else
  match s.job? b.job with
  | none => none
  | some j => match j.stage? with
    | none => none
    | some st => match st.partOf (e / 4) with
      | none => none
      | some p => if j.run.stage == b.stage && j.run.rerun == b.rerun then some (j, st, p) else none
/-- A bank's tile is the next to stream on its engine. -/
def State.bankReady (s : State) (e : Nat) (b : Bank) : Bool :=
  match s.runOf e b with
  | some x => x.1.run.nextOn x.2.1 x.2.2 e b
  | none => false
/-- A further tile is due on the engine for the run of a bank. -/
def State.bankDue (s : State) (e : Nat) (b : Bank) : Bool :=
  match s.runOf e b with
  | some x => x.1.run.leftOn x.2.1 x.2.2 e
  | none => false
/-- A further tile is due for the run of bank `a` once the tile of bank `b` has streamed (02 R62). -/
def State.bankKept (s : State) (e : Nat) (a b : Bank) : Bool :=
  match s.runOf e a with
  | some x => if b.job == a.job && b.stage == a.stage && b.rerun == a.rerun && !b.rows.isEmpty then x.1.run.leftAfter x.2.1 x.2.2 e b
      else x.1.run.leftOn x.2.1 x.2.2 e
  | none => false
/-- A bank holds a tile of a run with nothing more to stream on its engine, and nothing of it is under way. -/
def State.bankDone (s : State) (e : Nat) (b : Bank) : Bool :=
  !b.rows.isEmpty && !b.pattern && !s.bankDue e b && !((s.engine e).issues.any fun i => i.job == b.job)
/-- The sequencer parks the banks of an engine whose last tile has streamed: the engine is idle (02 R62, R92). -/
def State.parkDone (s : State) (e : Nat) : State := s.modEngine e fun x => x.park (s.bankDone e)

/-- Count the elements of a tile that has ended, and the end of the stage with the last of them. -/
def State.closeTile (s : State) (id : Nat) (st : Stage) (t : TileRun) : State :=
  let n := if t.part = st.finalPart then (t.chans.filter Option.isSome).length * st.vecsIn t.u else 0
  let s := s.modJob id fun c => { c with run := { c.run with
    drained := c.run.drained + n
    tiles := mapIf (fun (x : TileRun) => x.engine == t.engine && x.u == t.u && x.part == t.part && x.chans == t.chans && !x.closed)
      (fun x => { x with closed := true }) c.run.tiles } }
  match s.job? id with
  | some j => if st.total ≤ j.run.drained then s.stageSettled j st else s.parkDone t.engine
  | none => s

/-! ## Bank loads and swaps (02 R76 to R79; 04 R206) -/

/-- The W_DESC element of a tile (11 R527). -/
def Stage.wElement (st : Stage) (ob rb ws : Nat) : Nat := (ob * st.nrb + rb) * st.ws + ws

/-- The code of reduction element `i` of output row `r` of a tile (03 R102, R106). -/
def tileCode (st : Stage) (bs : List Byte) (r i : Nat) : Nat :=
  let k := r * st.gsize + i
  if st.wf.tileBits = 4 then bits (field bs (128 + k / 2) 1) (4 * (k % 2)) 4 else field bs (128 + k) 1

/-- A bank row as the weight port loads it, with the levels that the transfer table of bank `b` gives (02 R60), and whether it sets SATURATION and RANGE (03 R99, R101, R104, R106, R110,
R131, R133, R774): its 64 rings, or G of them at G = 32, take output row `r`'s elements from `lo` on; at G = 128 an output
lies on two rows (02 R73). -/
def State.bankRow (s : State) (b : Nat) (st : Stage) (hi : Bool) (held : List Int) (kappa : Option (List Dy)) (bs : List Byte)
    (chan r lo : Nat) : BankRow × Bool × Bool :=
  let cb := cbEntries st.wf held
  let ew := field bs (2 * r) 1
  let zw := if st.wf = .uint4 ∨ st.wf = .u2 then field bs (2 * r + 1) 1 else 0
  let zero := ew == 0xFF || (st.wf.isCb && cb.isEmpty)
  let ws := (List.range (Nat.min 64 st.gsize)).map fun i =>
    if zero then (Dy.zero, false) else weightValue st.wf hi cb (tileCode st bs r (lo + i))
  let w := ws.map (·.1)
  let wn := w.map fun x => x.scale (-log2F st.wf hi cb)
  let k := match kappa with
    | none => Dy.zero
    | some l => Dy.sum ((w.zip (l.drop lo)).map fun x => (x.1.sub (Dy.ofInt (zw : Int))).mul x.2)
  ({ chan := some chan, w := w, sumW := Dy.sum w, ew := ew, zw := zw, k := k, levels := wn.map (s.weightLevel b),
     load := rowLoad wn }, ws.any (·.2), zero)

/-- Where output rows of a bank stand: for each of its 64 rows the channel whose weights it holds, leaving masked rows parked
at G = 32 and 64 (02 R73, R74, R94; 16 R727); at G = 128 each channel stands on a pair of rows. A patch tile takes displaced
channels in the order of its unmasked rows. -/
def State.bankChans (s : State) (st : Stage) (e ob : Nat) (patch : List Nat) : List (Option Nat) :=
  let masked := (s.engine e).masked
  if st.g = 2 then
    (List.range 64).map fun i => some (ob * 32 + i / 2)
  else if patch.isEmpty then
    (List.range 64).map fun i => if masked.contains i then none else some (ob * 64 + i)
  else
    let free := (List.range 64).filter fun i => !masked.contains i
    (List.range 64).map fun i => match free.findIdx? (· == i) with
      | some k => patch[k]?
      | none => none

/-- The tile elements that a bank's channels need. -/
def Stage.tilesOf (st : Stage) (chans : List (Option Nat)) (rb ws : Nat) : List Nat :=
  (chans.filterMap fun c => c.map fun ch => st.wElement (ch / st.rows) rb ws).eraseDups

/-- The bank that the weight port writes: the idle one, or on a single-bank engine the good one while the light is on
the failed one (02 R79; 04 R206). -/
def Engine.loadB (x : Engine) : Bool :=
  if x.bankAFailed then true else if x.bankBFailed then false else !x.activeB

/-- The pieces of a weight tile that are read: W_DESC's role, element, address, bytes (08 R399). -/
def Stage.weightPieces (st : Stage) (d : TDesc) (els : List Nat) : List (Nat × Nat × Nat × Nat) :=
  (els.filter (decide <| d.resume ≤ ·)).map fun k => (3, k, d.addr k, st.tile)
/-- A weight tile below W_DESC's RESUME (08 R399; log 32). -/
def Stage.skippedTile (st : Stage) (d : TDesc) (k : Nat) : List Byte := (List.range st.tile).map fun i => Config.skippedByte (d.addr k + i)
/-- The bytes of weight tiles, from those that were read. -/
def Stage.withSkipped (st : Stage) (d : TDesc) : List Nat → List (List Byte) → List (List Byte)
  | [], _ => []
  | k :: ks, l => if k < d.resume then st.skippedTile d k :: st.withSkipped d ks l else match l with
    | x :: xs => x :: st.withSkipped d ks xs
    | [] => []

/-- The weight tiles that an engine holds for a stage ahead of the one being issued: those in buffers, and one that waits in the idle
bank (08 R388). -/
def State.weightLead (s : State) (j : Job) (stage engine : Nat) : Nat :=
  let x := s.engine engine
  (x.wbufs.filter fun b => b.job == j.id && b.stage == stage).length +
    b2n (x.activeB != x.loadB && (x.bank x.loadB).job == j.id && (x.bank x.loadB).stage == stage && s.bankReady engine (x.bank x.loadB))

/-- The Leader fetches a weight tile that a stage streams from HBM, at most four ahead on an engine (08 R388). -/
def State.fetchWeights (s : State) (j : Job) (stage : Nat) (st : Stage) (d : TDesc) (engine : Nat) (els : List Nat) : State :=
  if 4 ≤ s.weightLead j stage engine then s else
  let grains := grainsOf ((st.weightPieces d els).flatMap fun x => cutsAt 2048 (x.2.2.2 / 2048 + 2) x.2.2.1 x.2.2.2)
  let buf : WeightBuf := { job := j.id, stage := stage, rerun := stage == j.run.stage && j.run.rerun, els := els,
                           reads := (List.range grains.length).map fun i => s.nextRead + i }
  forEach grains (fun s g => s.readGranule j.id (2048 * g) (.weight engine))
    (s.modEngine engine fun x => { x with wbufs := x.wbufs ++ [buf] })

/-- The buffer of a weight tile of the run on an engine. -/
def State.weightBuf? (s : State) (j : Job) (engine : Nat) (els : List Nat) : Option WeightBuf :=
  (s.engine engine).wbufs.find? fun b => b.job == j.id && b.stage == j.run.stage && b.rerun == j.run.rerun && b.els == els

/-- The bytes of a weight tile: resident in SRAM, or streamed from HBM through a buffer; one that is in no buffer is fetched
first (08 R388; log 34). -/
def State.weightTile (s : State) (j : Job) (st : Stage) (d : TDesc) (engine : Nat) (els : List Nat) : Reads :=
  if !s.isHbm d.base then match s.readAll j (fun k => (d.addr k, st.tile)) (els.filter (decide <| d.resume ≤ ·)) with
    | .done l stop => .done (st.withSkipped d els l) stop
    | .asked s => .asked s
  else
  match s.weightBuf? j engine els with
  | none => .asked (s.fetchWeights j j.run.stage st d engine els)
  | some b =>
    if !b.reads.isEmpty then .asked s else
    match b.bad with
    | some x => .done [] (some x.2)
    | none => .done (els.map fun k => if k < d.resume then st.skippedTile d k
        else (List.range st.tile).map fun i => b.cells.get 0 (d.addr k + i)) none

/-- The weight port has written a tile into the idle bank: its rows, the flags that it raises, and the buffer that it frees. -/
def State.loadBank (s : State) (j : Job) (st : Stage) (engine rb ws : Nat) (chans : List (Option Nat)) (els : List Nat)
    (l : List (List Byte)) : State :=
  let c := engine / 4
  let hi := ws == 0
  let held := s.codebook c st.wCb
  let kap := s.kappaOf st j.run.rerun c rb
  let new := !j.run.kappa.contains (c, rb)
  let rows : List (BankRow × Bool × Bool) := ((List.range chans.length).zip chans).map fun y => match y.2 with
    | none => ({}, false, false)
    | some ch => match (els.zip l).find? fun (x : Nat × List Byte) => x.1 == st.wElement (ch / st.rows) rb ws with
      | some x => s.bankRow (heaterChan engine y.1 (s.engine engine).loadB) st hi held kap.1 x.2 ch (ch % st.rows)
          (if st.g = 2 then 64 * (y.1 % 2) else 0)
      | none => ({}, false, false)
  let bank : Bank := { job := j.id, stage := j.run.stage, rerun := j.run.rerun, rb := rb, ws := ws, h := st.h,
                       pair := st.g == 2, rows := rows.map (·.1) }
  let s := s.modEngine engine fun x =>
    let b := x.loadB
    { (x.setBank b bank) with
      activeB := !b
      wbufs := x.wbufs.filter fun w => !(w.job == j.id && w.stage == j.run.stage && w.rerun == j.run.rerun && w.els == els) }
  let s := s.modJob j.id fun j => { j with
    flags := { j.flags with saturation := j.flags.saturation || rows.any (·.2.1),
                            range := j.flags.range || rows.any (·.2.2) }
    run := { j.run with kappa := if new then j.run.kappa ++ [(c, rb)] else j.run.kappa, wGot := els.foldl (fun m k => insertNat k m) j.run.wGot } }
  if new then s.countClips j.id c kap.2 else s

/-- The lowest element of W_DESC that no weight port has taken, when the load of element `k` meets a stop (08 R432). -/
def StageRun.firstMissing (r : StageRun) (d : TDesc) (k : Nat) : Nat :=
  (((List.range (k + 1)).filter (decide <| d.resume ≤ ·)).find? fun i => !r.wGot.contains i).getD k

/-- The running stage has nothing more to stream on an engine, and a further stage follows (08 R418). -/
def Job.aheadOn (j : Job) (st : Stage) (engine : Nat) : Bool :=
  decide (j.run.stage + 1 < j.body.stageList.length) && (j.run.drainFrame.isSome || match st.partOf (engine / 4) with
    | some p => !j.run.leftOn st p engine
    | none => true)

/-- The operands of a bank load name a weight tile of a stage on an engine. -/
def Stage.loadFits (st : Stage) (engine ob rb ws : Nat) (patch : List Nat) : Bool :=
  (match st.partOf (engine / 4) with
    | some p => decide (p.2.1 ≤ rb) && decide (rb < p.2.1 + p.2.2)
    | none => false) && decide (ws < st.ws) && decide (ob < st.blocks) && patch.all fun ch => decide (ch < st.chans)

/-- The Leader may fetch a weight tile of the next stage into SRAM that admission has reserved for it (08 R418). -/
def State.prefetchWeights (s : State) (j : Job) (engine ob rb ws : Nat) (patch : List Nat) : State :=
  match j.body.stageList[j.run.stage + 1]? with
  | none => s
  | some st => match st.wDesc with
    | none => s
    | some d =>
      let els := st.tilesOf (s.bankChans st engine ob patch) rb ws
      let fetched := (s.engine engine).wbufs.any fun b => b.job == j.id && b.stage == j.run.stage + 1 && b.els == els
      if !st.loadFits engine ob rb ws patch || fetched || !s.isHbm d.base then s
      else s.fetchWeights j (j.run.stage + 1) st d engine els

/-- BANK_LOAD: the weight port writes the tile of an output block, reduction block and weight slice, or a patch tile,
into the idle bank, in a committed frame (02 R76, R79; 10 R482; 16 R727). A tile in SRAM is read when it is loaded; one that the stage streams from HBM
must be in a buffer of the engine, and its fetch begins here when it is in none (08 R388; log 34). Where the running stage has nothing
more to stream, the tile is one of the next stage, and is fetched alone (R418). -/
def execBankLoad (job engine ob rb ws : Nat) (patch : List Nat) (s : State) : Res :=
  match s.job? job with
  | none => ok s
  | some j => match j.stage? with
    | none => ok s
    | some st =>
      if !(s.committedNow && bit j.mask (engine / 4) && s.inService engine && !s.slotIdle engine && decide (engine < 256)) then ok s
      else if j.aheadOn st engine then ok (s.prefetchWeights j engine ob rb ws patch)
      else if !st.loadFits engine ob rb ws patch then ok s else
      let chans := s.bankChans st engine ob patch
      match st.wDesc with
      | none => ok s
      | some d =>
        let els := st.tilesOf chans rb ws
        match s.weightTile j st d engine els with
        | .asked s => ok s
        | .done _ (some x) => ok (s.faultStage j 3 (j.run.firstMissing d x.1, x.2))
        | .done l none => ok (s.loadBank j st engine rb ws chans els l)

/-- BANK_SWAP: once the load of the tile that is next to stream is complete, all rows of the engine switch to its bank, with its
range shift (02 R69, R77, R78); until then the swap waits. The outgoing bank keeps its tile while a further tile is due and is
parked otherwise; with no tile due the engine goes idle on a parked bank (R62, R92). -/
def execBankSwap (engine : Nat) (s : State) : Res :=
  let x := s.engine engine
  let b := x.loadB
  let next := x.bank b
  if x.activeB = b then ok s
  else if s.bankReady engine next then
    ok (s.modEngine engine fun x => { (x.setBank (!b) (if s.bankKept engine x.active next then x.active else {})) with
      activeB := b, h := next.h })
  else if s.bankDue engine x.active || s.bankDue engine next then ok s
  else ok (s.modEngine engine fun x => { x with bankA := {}, bankB := {}, activeB := b, h := 0 })

/-! ## Group issue (02 R57, R63 to R69; 03 R120, R129; 04 R200, R208; 08 R384 to R387) -/

/-- Group issue is held: a frame that Noon never committed (10 R482), a supply dip (15 R712), or a comb that the comparator stopped
(16 R728). -/
def State.issueHeld (s : State) (c : Nat) : Bool :=
  !s.committedNow || s.power.dip || s.power.issueHeld || (List.range 4).any fun i => (s.engine (4 * c + i)).combStopped

/-- The exponent a of one least significant bit (02 R67): 10-bit mode, or 8-bit mode for a narrow pass (02 R83, R84). -/
def lsbExp (st : Stage) (f p : Int) (h : Nat) : Int :=
  (st.gsize.log2 : Int) + f + p - (if st.narrow then 7 else 9) - h

/-- The tile in progress on an engine that holds these channels of an activation tile and part. -/
def StageRun.tileFor (r : StageRun) (e u part : Nat) (chans : List (Option Nat)) : Option TileRun :=
  r.tiles.find? fun (t : TileRun) => t.engine == e && !t.closed && t.u == u && t.part == part && t.chans == chans
/-- Tiles in progress on an engine. -/
def StageRun.openCount (r : StageRun) (e : Nat) : Nat := (r.tiles.filter fun (t : TileRun) => t.engine == e && !t.closed).length
/-- A tile in progress on an engine stands in the named range. -/
def StageRun.holdsRange (r : StageRun) (e : Nat) : Bool := r.tiles.any fun (t : TileRun) => t.engine == e && !t.closed && t.inFile

/-- Open a tile of a run on an engine (03 R167; 04 R192, R208): the values of the named range are set to 0 unless ADD is set;
with ADD and a reserved re-run they are saved first; a re-run starts from the saved values. A tile that stands elsewhere
starts from 0. -/
def State.openRun (s : State) (j : Job) (st : Stage) (t : TileRun) : State :=
  let s := s.modJob j.id fun c => { c with run := { c.run with tiles := c.run.tiles ++ [t] } }
  if j.run.rerun then
    if st.add then s.modJob j.id fun c => { c with run := { c.run with
      values := (t.cells st).foldl (fun m x => m.set 0 x.2.2 (c.run.saved.get 0 x.2.2)) c.run.values } }
    else s
  else if !t.inFile then s
  else
  let s := s.noteHeld t.engine st.accBase t.u t.chans
  if st.add then
    if st.rerunReserved j.hdr then s.modJob j.id fun c => { c with run := { c.run with saved := s.saveValues st t c.run.saved } }
    else s
  else
    let s := s.openTile { engine := t.engine, base := st.accBase, slots := st.vecB * st.vslots, exact := st.exact,
                          b := st.compactExp, range := false }
    forEach (List.range 64) (fun s row => (s.clearSlots t.engine row st.accBase (st.vecB * st.vslots)).zeroSlots t.engine row st.accBase
      (st.vecB * st.vslots)) s

/-- One row of an issue: its channel, Σ w × ℓ, Σ w × v and the bank row. -/
def issueRow (l : Ladder) (v : List Dy) (b : BankRow) : Option (Nat × Dy × Dy × BankRow) :=
  b.chan.map fun ch => (ch, Dy.sum ((b.w.zip v).map fun x => x.1.mul (l.light x.2)),
    Dy.sum ((b.w.zip v).map fun x => x.1.mul x.2), b)

/-- The two rows of a pair as one: the second holds elements 64 to 127 of the first's output (02 R73). -/
def pairRow (a b : BankRow) : BankRow :=
  { a with w := a.w ++ b.w, sumW := a.sumW.add b.sumW, k := a.k.add b.k }

/-- The rows that convert: each row of the bank, or of each pair the one whose ADC is in service (02 R73, R74). -/
def State.convRows (s : State) (e : Nat) (bank : Bank) : List BankRow :=
  if bank.pair then (List.range bank.rows.length).map fun i =>
    if i = s.fileRow e true (i / 2) then pairRow (nth bank.rows (i / 2 * 2) {}) (nth bank.rows (i / 2 * 2 + 1) {}) else {}
  else bank.rows

/-- The pipeline of an engine holds nothing of another run: no group under way and no tile that is still to drain; concurrent
RELAXED adders may share the engine (01 R30; 04 R211). -/
def State.drainedFor (s : State) (j : Job) (e : Nat) : Bool :=
  !((s.engine e).issues.any fun (i : Issue) => !(i.job == j.id && i.stage == j.run.stage && i.rerun == j.run.rerun)) &&
  s.jobs.all fun (k : Job) => k.id == j.id || (k.hdr.relaxed && j.hdr.relaxed) || !k.stage?.isSome ||
    !(k.run.tiles.any fun (t : TileRun) => t.engine == e && !t.closed)

/-- The tile to which a pass belongs: one in progress, or, at the first pass of outputs that no tile holds, a new one while the
engine has room for it (04 R201, R204), and the named range is free for a tile that must stand in it (R209, R211; log 48), and when
what other runs have on the engine has drained (01 R30). -/
def State.tileFor (s : State) (j : Job) (st : Stage) (t : TileRun) (n : Nat) : State :=
  let e := t.engine
  if decide (n = 0) && (j.run.tileFor e t.u t.part t.chans).isNone && !j.run.claimed t.u t.part t.chans &&
      decide (j.run.openCount e < st.inProgress) && !(st.ranged && j.run.holdsRange e) && s.drainedFor j e then
    s.openRun j st { t with inFile := !j.run.rerun && !j.run.holdsRange e }
  else s

/-- Issue a quantised group on one engine of the quad: when its active bank holds the group's tile of the command and
the pass is the next in the stream's order (04 R214). -/
def State.issueOn (s : State) (id vec grp slice : Nat) (q : Quantised) (e : Nat) : State :=
  match s.job? id with
  | none => s
  | some j => match j.stage? with
    | none => s
    | some st => match st.partOf (e / 4) with
      | none => s
      | some p =>
        let x := s.engine e
        let bank := x.active
        if !(s.inService e && !s.slotIdle e && bank.job == id && bank.stage == j.run.stage && bank.rerun == j.run.rerun && bank.rb == grp &&
            !bank.rows.isEmpty) then s else
        let u := vec / st.vecB
        let chans := st.tileChans (bank.rows.map (·.chan))
        let per := st.vecsIn u * st.inSlices
        let n := ((grp - p.2.1) * st.ws + bank.ws) * per + (vec - u * st.vecB) * st.inSlices + slice
        let s := s.tileFor j st { engine := e, chans := chans, u := u, part := p.1,
                                  need := (chans.filter Option.isSome).length * p.2.2 * st.ws * per } n
        match s.job? id with
        | none => s
        | some j => match j.run.tileFor e u p.1 chans with
          | none => s
          | some t =>
            if t.issued ≠ n then s else
            let sl := sliceValues st.inf (s.codebook (e / 4) st.inCb) slice q.v
            let cb := cbEntries st.wf (s.codebook (e / 4) st.wCb)
            let is : Issue :=
              { job := id, stage := j.run.stage, rerun := j.run.rerun, vec := vec, grp := grp, ws := bank.ws,
                slice := slice, ex := q.ex, colsum := Dy.sum sl.1, c := sl.2.2.c,
                a := lsbExp st (log2F st.wf (bank.ws == 0) cb) sl.2.2.p x.h, narrow := st.narrow, pair := bank.pair,
                rows := (s.convRows e bank).map (issueRow sl.2.2 sl.1) }
            let s := s.modEngine e fun x => { x with issues := x.issues ++ [is], usedBy := insertNat id x.usedBy }
            s.modJob id fun c => { c with run := { c.run with
              tiles := mapIf (fun (y : TileRun) => y == t) (fun y => { y with issued := y.issued + 1 }) c.run.tiles } }

/-- The symbols in which a quad's modulators emit a slice of a group: one, or two at G = 128 (02 R52, R64, R73). -/
def streamed (l : Ladder) (v : List Dy) : List (List (Nat × Nat)) :=
  let k := v.map fun x => ((l.level x).toNat, l.d)
  if 64 < k.length then [k.take 64, k.drop 64] else [k]

/-- The tile buffer of a run on a cluster. -/
def State.buf? (s : State) (j : Job) (c u : Nat) : Option TileBuf :=
  (s.cluster c).bufs.find? fun (b : TileBuf) => b.job == j.id && b.stage == j.run.stage && b.rerun == j.run.rerun && b.u == u

/-- All group issues of earlier tiles on a cluster are done, so that the Follower may turn to tile `u`. -/
def StageRun.doneBefore (r : StageRun) (c u : Nat) : Bool :=
  r.tiles.all fun (t : TileRun) => !(t.engine / 4 == c && decide (t.u < u)) || decide (t.need ≤ t.issued * (t.chans.filter Option.isSome).length)

/-- The clusters of a command that take the same input vectors as a cluster: the multicast set of an activation fetch (08 R409; 10
R487; log 121). -/
def State.fetchSet (s : State) (j : Job) (st : Stage) (c : Nat) : List Nat :=
  (bitList 64 j.mask).filter fun n => (st.partOf n).map (·.1) == (st.partOf c).map (·.1) && (st.partOf n).isSome && !s.clusterOut n

/-- The last group of an activation tile of a part has been issued: every output of the tile belongs to a tile of the run, and
none of these has a pass left. -/
def StageRun.tileIssued (r : StageRun) (st : Stage) (part u : Nat) : Bool :=
  let mine := r.tiles.filter fun (t : TileRun) => t.part == part && t.u == u
  decide (st.chans ≤ sumNat (mine.map fun t => (t.chans.filter Option.isSome).length)) && !mine.any TileRun.passesLeft

/-- The Follower of a cluster is done with activation tiles before `u`: their buffers are freed, and the Leader's lead counts from
`u` (08 R384, R386). -/
def State.advanceTile (s : State) (id c u : Nat) : State :=
  match s.job? id with
  | none => s
  | some j =>
    let s := s.modJob id fun x => { x with run := { x.run with cur := x.run.cur.set 0 c u } }
    s.modCluster c fun x => { x with bufs := x.bufs.filter fun (y : TileBuf) =>
      !(y.job == id && y.stage == j.run.stage && y.rerun == j.run.rerun && decide (y.u < u)) }

/-- After the last group of an activation tile, every cluster of its set turns to the next one (08 R384, R386). -/
def State.retireTile (s : State) (id c u : Nat) : State :=
  match s.job? id with
  | none => s
  | some j => match j.stage? with
    | none => s
    | some st => match st.partOf c with
      | none => s
      | some p =>
        if j.run.tileIssued st p.1 u then
          forEach (s.fetchSet j st c) (fun s n => if j.run.cur.get 0 n ≤ u then s.advanceTile id n (u + 1) else s) s
        else s

/-- Every activation tile before `u` has been issued on all clusters of a set, and none of them has gone on: they have consumed exactly
the tiles below it (08 R435). -/
def State.consumedBelow (s : State) (j : Job) (st : Stage) (c u : Nat) : Bool :=
  (s.fetchSet j st c).all (j.run.doneBefore · u) && (List.range u).all fun v => decide (v < st.firstTile) || match st.partOf c with
    | some p => j.run.tileIssued st p.1 v
    | none => true

/-- The first input element of a group whose scale entry cannot be read on a cluster, and the entry's block (09 R449, R452). -/
def State.inputBad (s : State) (st : Stage) (c vec grp : Nat) : Option (Nat × Status × Nat) :=
  (s.badEntry? c ((List.range st.gsize).map fun i => st.inScale + grp * st.gsize + i)).map fun e =>
    (st.inElement vec (e - st.inScale), .dataUncorrectable, scaleAddr c e)

/-- GROUP_ISSUE: the quantised group of a vector streams on a quad (02 R57, R63; 03 R120), in a frame in which the command holds
engine-slots or finds free ones (10 R496). The tile must be wholly in
SRAM (08 R387), and one that cannot be read ends the stage once the set has consumed the tiles before it (R435); turning to a later tile, or the tile's last group, frees its buffer (08 R384, R386). Clips count when a group's first
slice is issued, in each pass that streams the group anew: of every weight slice and output block (log 35). -/
def execGroupIssue (job cluster vec grp slice : Nat) (s : State) : Res :=
  match s.job? job with
  | none => ok s
  | some j => match j.stage? with
    | none => ok s
    | some st =>
      let u := vec / st.vecB
      let inPart := match st.partOf cluster with
        | some p => decide (p.2.1 ≤ grp) && decide (grp < p.2.1 + p.2.2)
        | none => false
      if !(s.hasRoom j && bit j.mask cluster && inPart && decide (vec < st.vecs) && decide (st.firstTile ≤ u) &&
          decide (slice < st.inSlices) && j.run.drainFrame.isNone && !s.issueHeld cluster &&
          decide (j.run.cur.get 0 cluster ≤ u) && j.run.doneBefore cluster u) then ok s else
      match s.buf? j cluster u with
      | none => ok s
      | some b =>
        if !b.reads.isEmpty ∨ !b.hostReads.isEmpty then ok s else
        match b.bad with
        | some x => ok (if s.consumedBelow j st cluster u then s.faultStage j x.1 x.2 else s)
        | none =>
        match s.inputBad st cluster vec grp with
        | some x => ok (s.faultStage j 2 x)
        | none =>
          let q := s.quantGroup st j.run.rerun cluster b vec grp
          let s := s.advanceTile job cluster u
          let s := if slice = 0 then s.countClips job cluster q.clips else s
          let sl := sliceValues st.inf (s.codebook cluster st.inCb) slice q.v
          let s := s.modCluster cluster fun x => { x with emit := x.emit ++ streamed sl.2.2 sl.1 }
          let s := if q.noCb then s.modJob job fun c => { c with flags := { c.flags with range := true } } else s
          ok ((forEach [0, 1, 2, 3] (fun s i => s.issueOn job vec grp slice q (4 * cluster + i)) s).retireTile job cluster u)

/-! ## Conversions (02 R65 to R70; 03 R132, R134; 04 R178 to R199; 05 R295; 07 R374 to R376) -/

/-- The ADC's code range (02 R65). -/
def adcRange (narrow : Bool) : Int × Int := if narrow then (-128, 127) else (-512, 511)

/-- The generator that a compact add of a command uses is loaded from SR_SEED at the command's first draw from it (04
R199). -/
def State.seedFor (s : State) (id : Nat) (st : Stage) (g unit engine stage : Nat) (draws : Bool) : State :=
  match s.job? id with
  | none => s
  | some j =>
    if st.seed = 0 ∨ draws = false ∨ j.seeded.contains g = true then s else
    { s with gens := s.gens.set 0 g (nonZero (Config.seedState st.seed engine unit stage)) }.modJob id fun c =>
      { c with seeded := c.seeded ++ [g] }

/-- A dyadic value is no multiple of `2^b`, so that rounding it draws random bits (04 R193). -/
def draws (t : Dy) (b : Int) : Bool := decide (t.e < b) && t.m % (2 ^ (b - t.e).toNat : Nat) != 0

/-- An exact value holds 320 bits (04 R184, R185). -/
def wrapExact (v : Int) : Int := sext (toBits v 320) 320

/-- Add one addend to the value of an element of a tile; whether a compact window saturated (04 R187, R193, R195). -/
def State.addTerm (s : State) (id : Nat) (st : Stage) (t : TileRun) (i vec : Nat) (x : Int) : State × Bool :=
  match s.job? id with
  | none => (s, false)
  | some j =>
    let row := s.rowFile st t.engine i
    let g := 64 * t.engine + row
    let s := s.seedFor id st g row t.engine j.run.stage (!st.exact && draws (exactDy x) st.compactExp)
    if t.inFile then s.addToTile t.engine row st.accBase (vec - t.u * st.vecB) st.exact st.compactExp x
    else match nth t.chans i none with
      | none => (s, false)
      | some ch =>
        let k := st.cell t.part (st.element vec ch)
        let put := fun (s : State) (f : Int → Int) =>
          s.modJob id fun c => { c with run := { c.run with values := c.run.values.set 0 k (f (c.run.values.get 0 k)) } }
        if st.exact then (put s fun v => wrapExact (v + x), false)
        else match stochastic (s.gen g) (exactDy x) st.compactExp with
          | (q, g') =>
            ({ put s (fun v => (toWindow (v + q)).1) with gens := s.gens.set 0 g g' },
             (toWindow (j.run.values.get 0 k + q)).2)

/-- Add the addends of a term in order. -/
def State.addTerms (s : State) (id : Nat) (st : Stage) (t : TileRun) (i vec : Nat) : List Int → State × Bool
  | [] => (s, false)
  | x :: xs => match s.addTerm id st t i vec x with
    | (s, a) => match s.addTerms id st t i vec xs with
      | (s, b) => (s, a || b)

/-- A command's RANGE flag and the sticky bit of the tile, in the named range or elsewhere (04 R181, R195). -/
def State.markRange (s : State) (id : Nat) (st : Stage) (t : TileRun) (b : Bool) : State :=
  if !b then s else
  let s := s.modJob id fun c => { c with flags := { c.flags with range := true } }
  if t.inFile then s.stickRange { engine := t.engine, base := st.accBase, slots := st.vecB * st.vslots, exact := st.exact,
                                  b := st.compactExp, range := true }
  else s.modJob id fun c => { c with run := { c.run with
    tiles := mapIf (fun (y : TileRun) => y.engine == t.engine && y.u == t.u && y.part == t.part && y.chans == t.chans && !y.closed)
      (fun y => { y with range := true }) c.run.tiles } }

/-- Put a residual sample into a list of figures per engine. -/
def addResid (l : List (Nat × Dy × Dy × Nat)) (e : Nat) (r : Dy) : List (Nat × Dy × Dy × Nat) :=
  if l.any fun x => x.1 == e then
    mapIf (fun x => x.1 == e) (fun x => (x.1, x.2.1.add (r.mul r), x.2.2.1.max r.abs, x.2.2.2 + 1)) l
  else l ++ [(e, r.mul r, r.abs, 1)]

/-- The length N of an engine's runs: 2^14 in CALIB and VERIFY (07 R374). -/
def State.runLen (s : State) (e : Nat) : Nat :=
  match (s.engine e).lock with
  | .calib | .verify => 2 ^ 14
  | _ => 2 ^ s.cal.log2N

/-- A run that begins draws the position of its sample, a free value below N (07 R374; log 36). -/
def State.drawRun (s : State) (e n : Nat) : Nat × State :=
  match (s.engine e).runPos with
  | some p => (p, s)
  | none => ((takeNat s).1 % n, (takeNat s).2)

/-- The shadow unit counts a conversion and takes the sample of its run when its position has come (07 R374 to R376). -/
def State.shadow (s : State) (id e : Nat) (r : Dy) (clipped : Bool) : State :=
  let n := s.runLen e
  let x := s.engine e
  let d := s.drawRun e n
  let hit := s.cal.sampleEn && x.runCount == d.1 && !clipped
  let s := d.2.modEngine e fun x => { x with
    runCount := if n ≤ x.runCount + 1 then 0 else x.runCount + 1
    runPos := if n ≤ x.runCount + 1 then none else some d.1
    sumSq := if hit then x.sumSq.add (r.mul r) else x.sumSq
    peakAbs := if hit then x.peakAbs.max r.abs else x.peakAbs
    samples := if hit then x.samples + 1 else x.samples }
  if hit then s.modJob id fun c => { c with resid := addResid c.resid e r } else s

/-- A conversion has reached a tile whose stage keeps its values: the tile ends with its last term (04 R209). -/
def State.keepDone (s : State) (id : Nat) (st : Stage) (t : TileRun) : State :=
  if !st.drain && st.parts.isEmpty && t.need == t.terms then s.closeTile id st t else s

/-- The group of the oldest issue on an engine that still waits for a row's code. -/
def Engine.waiting (x : Engine) (row : Nat) : Option Issue :=
  x.issues.find? fun (is : Issue) => !is.arrived.contains row && (nth is.rows row none).isSome

/-- All rows of an issue that convert have their codes. -/
def Issue.over (y : Issue) : Bool := (List.range y.rows.length).all fun i => (nth y.rows i none).isNone || y.arrived.contains i

/-- A row's code has arrived for its oldest issue; an issue whose rows have all arrived is over. -/
def Engine.arrive (x : Engine) (row : Nat) (clip : Bool) : Engine :=
  let mine := fun (is : Issue) => !is.arrived.contains row && (nth is.rows row none).isSome
  { x with
    issues := (((List.range x.issues.length).zip x.issues).map fun (y : Nat × Issue) =>
      if x.issues.findIdx? mine == some y.1 then { y.2 with arrived := y.2.arrived ++ [row] } else y.2).filter fun y => !y.over
    convs := x.convs + 1
    clips := x.clips + b2n clip }

/-- The tile in progress to which a channel's conversion belongs. -/
def StageRun.tileOf (r : StageRun) (st : Stage) (e u ch : Nat) : Option TileRun :=
  r.tiles.find? fun (t : TileRun) => t.u == u && !t.closed && t.chans.contains (some ch) && (match st.partOf (e / 4) with
    | some p => t.part == p.1
    | none => false)

/-- The flags that a conversion under a supply dip or a lock excursion sets on its command, and the symbol at which it came
(05 R261; 15 R712, R713; 16 R728). -/
def State.flagConversion (s : State) (e : Nat) (is : Issue) : State :=
  let x := s.engine e
  let now := s.now
  let held := s.power.dip || s.power.issueHeld
  let exc := x.lossEvent.isSome || x.heldLoss || x.combStopped || is.excursion
  s.modJob is.job fun c => { c with
    lastConv := some now
    flags := { c.flags with supplyDip := c.flags.supplyDip || held, lockExcursion := c.flags.lockExcursion || exc } }

/-- The term that a conversion forms (03 R132, R134; 04 R178). -/
def Issue.term (is : Issue) (st : Stage) (b : BankRow) (code : Int) : TermIn :=
  { code := code, a := is.a, c := is.c, sumW := b.sumW, zw := b.zw, sumV := is.colsum, ew := b.ew, ex := is.ex,
    sw := if st.wf.isInt8 && is.ws == 0 then 4 else 0, sx := if st.inf.isInt8 && is.slice == 0 then 4 else 0,
    k := if is.slice = 0 then some b.k else none }

/-- CONVERSION_ARRIVAL: the row's code, its exact sum rounded by the converter with the noise of the analogue path, is
clamped to the code range and forms the group term (02 R65 to R70; 03 R132; 04 R178). `noise` is in least significant
bits. A clip counts, and sets SATURATION, whether or not the command still runs; a command that has stopped keeps what its
open tiles receive (02 R70). -/
def execConversionArrival (engine row : Nat) (noise : Int) (s : State) : Res :=
  match (s.engine engine).waiting row with
  | none => ok s
  | some is => match nth is.rows row none with
    | none => ok s
    | some (ch, light, wv, b) =>
      let raw := (light.scale (-is.a)).roundEven + noise
      let r := adcRange is.narrow
      let code := clampInt r.1 r.2 raw
      let clip := code != raw
      let s := s.modEngine engine fun x => x.arrive row clip
      let s := if clip then s.flagJobs (fun j => j.id == is.job) fun f => { f with saturation := true } else s
      match s.job? is.job with
      | none => ok s
      | some j => match j.body.stageList[is.stage]? with
        | none => ok s
        | some st0 =>
          let st := st0.eff is.rerun
          if !(j.open' && j.run.stage == is.stage && j.run.rerun == is.rerun) then ok s else
          match j.run.tileOf st engine (is.vec / st.vecB) ch with
          | none => ok s
          | some t =>
            let exact := (wv.add (is.c.mul b.sumW)).scale (-is.a)
            let s := (s.shadow is.job engine ((Dy.ofInt code).sub exact) clip).flagConversion engine is
            let ts := termAddends (is.term st b code)
            let i := (t.chans.findIdx? (· == some ch)).getD 0
            match s.addTerms is.job st t i is.vec ts.1 with
            | (s, sat) =>
              let s := s.markRange is.job st t (ts.2 || sat)
              let t' := { t with terms := t.terms + 1 }
              let s := s.modJob is.job fun c => { c with run := { c.run with
                tiles := mapIf (fun (y : TileRun) => ({ y with range := t.range } : TileRun) == t) (fun y => { y with terms := y.terms + 1 }) c.run.tiles } }
              ok (if j.phase = .running then s.keepDone is.job st t' else s)

end Sys2Proof.Machine
end

