-- ==== Sys2Proof/Machine/Epilogue.lean ====
section
/-! DEFINITION. The epilogue (04 R228 to R239) and delayed scaling (03 R145 to R173, R766): draining a tile, conversion, statistics, the step decision, the re-run's end and the hand-over. -/

namespace Sys2Proof.Machine

/-! ## Output conversion (03 R146, R147, R155, R766; 04 R231) -/

/-- A converted element: its code, whether it counts as a saturation and as an underflow, and its squared error in FP64
bits; an element left out of the error has none. -/
structure Conv where
  code : Nat
  sat  : Bool
  ufl  : Bool
  err  : Option Nat
  deriving DecidableEq, Repr

/-- The code in which an output type stores a NaN (04 R231; log 37); FP32 stores y unchanged (03 R146). -/
def nanCode (t : OutType) (ty y : Nat) : Nat :=
  let k := Config.outNan ty y
  match t with
  | .e4m3 => 0x7F + 128 * (k % 2)
  | .e5m2 => 0x7D + k % 3 + 128 * (k / 3 % 2)
  | .bf16 => 0x7F81 + k % 127 + 0x8000 * (k / 127 % 2)
  | .fp32 => y
  | _ => 0

/-- The FP64 square of an exact error (03 R155). -/
def squareErr (d : Dy) : Nat := fp64.ofDy (d.mul d)

/-- Code bits of a value on a type's grid; a negative value that rounded to zero keeps its sign in a floating-point type
(log 21). -/
def signedBits (t : OutType) (neg : Bool) (v : Dy) : Nat :=
  if v.m = 0 ∧ neg = true then match t with
    | .e4m3 | .e5m2 => 0x80
    | .fp4 => 0x8
    | _ => t.bitsOf v
  else t.bitsOf v

/-- Conversion to a type with a running scale (03 R146). `sc` is the FP32 SCALE in use, `z` the zero point. A NaN stored as
code 0, and a −∞ that is clamped to it, count as a saturation and as no underflow (03 R766; log 103). -/
def convScaled (t : OutType) (ty : Nat) (rm : Rnd) (sc : Nat) (z : Int) (y : Nat) : Conv :=
  let z := if t.hasZp then z else 0
  let r := t.codeRange
  match fp32.decode y with
  | .nan _ => { code := nanCode t ty y, sat := true, ufl := false, err := none }
  | .inf neg => { code := t.bitsOf (if neg then r.1 else r.2), sat := true, ufl := false, err := none }
  | .fin neg m e =>
    let s := (fp32.decode sc).dy
    let ng := neg != decide (s.m < 0)
    let q := t.roundQ rm ng m s.m.natAbs (e - s.e)
    let c := q.add (Dy.ofInt z)
    let v := if r.2.lt c then r.2 else if c.lt r.1 then r.1 else c
    let back := (v.sub (Dy.ofInt z)).mul s
    { code := signedBits t ng v, sat := r.2.lt c || c.lt r.1, ufl := m != 0 && back.m == 0,
      err := some (squareErr ((⟨if neg then -(m : Int) else m, e⟩ : Dy).sub back)) }

/-- Conversion to BF16 or FP32 (03 R146, R766). -/
def convPlain (t : OutType) (ty : Nat) (rm : Rnd) (y : Nat) : Conv :=
  match fp32.decode y with
  | .nan _ => { code := nanCode t ty y, sat := true, ufl := false, err := none }
  | .inf neg => { code := if t = .bf16 then bf16.infBits neg else y, sat := true, ufl := false, err := none }
  | .fin neg m e =>
    let code := if t = .bf16 then (bf16.round rm neg m 1 e).1 else y
    let back := fp32.decode (if t = .bf16 then code * 65536 else code)
    let err := match back with
      | .fin _ _ _ => squareErr ((⟨if neg then -(m : Int) else m, e⟩ : Dy).sub back.dy)
      | _ => fp64.infBits false
    { code := code, sat := false, ufl := m != 0 && back.dy.m == 0, err := some err }

/-- The E8M0 scale of an MX block of finite values: the largest power of two not above its maximum, over that of the
element type (03 R147). -/
def mxBlockScale (t : OutType) (ys : List Nat) : Nat :=
  let fin := ys.all fun y => match fp32.decode y with
    | .fin _ _ _ => true
    | _ => false
  let m := ys.foldl (fun m y => m.max (fp32.decode y).dy.abs) Dy.zero
  if !fin then Config.mxScale ys % 256
  else if m.m = 0 then Config.mxScale ys % 255
  else (clampInt 0 254 (m.log2 - (if t = .mxfp4 then 2 else 0) + 127)).toNat

/-- Conversion of an element of an MX block of scale code `k`, with the error divided by the square of the scale
(03 R147, R766; logs 38, 101). A finite element under the scale code 255 is no clamp and no underflow and has no error (log 38). -/
def convMx (t : OutType) (k y : Nat) : Conv × Option Nat :=
  match fp32.decode y with
  | .fin neg m e =>
    if k = 255 then ({ code := Config.mxElement y % (if t = .mxfp4 then 16 else 256), sat := false, ufl := false, err := none }, none)
    else
      let d : Dy := ⟨if neg then -(m : Int) else m, e⟩
      let x := d.scale (127 - (k : Int))
      let q := if t = .mxfp4 then dyToFloat .ne 0 1 x else dyQuant .ne x (-6)
      let hi : Dy := if t = .mxfp4 then ⟨6, 0⟩ else ⟨127, -6⟩
      let lo : Dy := if t = .mxfp4 then ⟨-6, 0⟩ else ⟨if Config.mxSymmetric then -127 else -128, -6⟩
      let v := if hi.lt q then hi else if q.lt lo then lo else q
      let code := if t = .mxfp4 then signedBits .fp4 neg v else toBits (v.scale 6).roundEven 8
      ({ code := code, sat := hi.lt q || q.lt lo, ufl := m != 0 && v.m == 0,
         err := some (squareErr (d.sub (v.scale ((k : Int) - 127)))) }, some (squareErr (x.sub v)))
  | _ => ({ code := Config.mxElement y % (if t = .mxfp4 then 16 else 256), sat := true, ufl := false, err := none }, none)

/-! ## Step statistics (03 R148, R155, R766) -/

/-- Two FP32 values are the same, with the zeros counted as the same (03 R148). -/
def sameY (a b : Word32) : Bool := a == b || (a.toNat % 2 ^ 31 == 0 && b.toNat % 2 ^ 31 == 0)

/-- A channel's maximum, constancy and element count after one more value (03 R148, R766). -/
def ChanStat.see (c : ChanStat) (y : Nat) : ChanStat :=
  let w := BitVec.ofNat 32 y
  match fp32.decode y with
  | .fin _ _ _ =>
    let a := y % 2 ^ 31
    { c with n := c.n + 1, max := if c.max.toNat < a then BitVec.ofNat 32 a else c.max,
             first := if c.first.isNone then some w else c.first,
             const := c.const && (match c.first with
               | none => true
               | some f => sameY f w) }
  | _ => { c with n := c.n + 1, const := false }

/-- FP64 sum of two figures. -/
def f64add (a b : Nat) : Nat := (fp64.finish .ne (fpAdd .ne (fp64.decode a) (fp64.decode b))).1

/-- A channel's counts after one more converted value (03 R155); `big` marks one that normalisation saturated (04 R230),
which counts once whatever else saturates it; `sc` is the SCALE that converted it. -/
def ChanStat.count (c : ChanStat) (sc : Nat) (big : Bool) (v : Conv) (norm : Option Nat) : ChanStat :=
  { c with sat := c.sat + b2n (v.sat || big), ufl := c.ufl + b2n v.ufl,
           scale := if c.scale = 0 then BitVec.ofNat 32 sc else c.scale,
           sq := match v.err with
             | some e => BitVec.ofNat 64 (f64add c.sq.toNat e)
             | none => c.sq
           norm := match norm with
             | some e => BitVec.ofNat 64 (f64add c.norm.toNat e)
             | none => c.norm }

/-! ## Stages 1 to 6 (04 R228 to R238) -/

/-- The activation table that `act` names, on a cluster. -/
def State.actTable (s : State) (c act : Nat) : List ActEntry :=
  match (s.cluster c).tables.find? fun (x : Nat × List ActEntry) => x.1 == act - 4 with
  | some x => x.2
  | none => []

/-- A table's value (04 R237): the entry with the largest X_LO not above y. -/
def tableValue (rm : Rnd) (l : List ActEntry) (y : Nat) : Nat :=
  match fp32.decode y with
  | .nan _ => fp32.qnan
  | v =>
    match (l.reverse).find? fun (x : ActEntry) => match fpCmp (fp32.decode x.xLo.toNat) v with
        | some .gt => false
        | some _ => true
        | none => false with
    | none => fp32.qnan
    | some x => (fp32.finish rm (fpFma rm (fp32.decode x.slope.toNat) v (fp32.decode x.offset.toNat))).1

/-- Activation: identity, ReLU, or a table; an empty table gives NaN (04 R228, R235, R237, R238). -/
def activate (rm : Rnd) (act : Nat) (table : List ActEntry) (y : Nat) : Nat :=
  if act = 0 then y
  else if act = 1 then match fp32.decode y with
    | .nan _ => y
    | .inf neg => if neg then 0 else y
    | .fin neg m _ => if neg || m == 0 then 0 else y
  else tableValue rm table y

/-- What the epilogue uses of a channel: the rescale entry, the bias, the element-wise operand. -/
structure Operands where
  rs   : Option Nat
  bias : Option Nat
  elt  : Option Nat
  deriving DecidableEq, Repr

/-- Stages 1 to 5 on one value: y and whether normalisation left the finite range (04 R228 to R230), which is decided after
rounding: a value above the largest finite FP32 that rounds down to it is not counted (log 101). -/
def epilogueY (st : Stage) (rm : Rnd) (table : List ActEntry) (o : Operands) (v : Dy) : Nat × Bool :=
  let n := (fp32.round rm (decide (v.m < 0)) v.m.natAbs 1 v.e).1
  let big := n % 2 ^ 31 == fp32.infBits false
  let y := if big then fp32.maxBits (decide (v.m < 0)) else n
  let y := match o.rs with
    | some r => f32mul rm y r
    | none => y
  let y := match o.bias with
    | some b => f32add rm y b
    | none => y
  let y := match o.elt with
    | some z => if st.eltOp = 1 then f32add rm y z else f32mul rm y z
    | none => y
  (activate rm st.act table y, big)

/-- A candidate takes the place of the running winner (04 R232, R233). -/
def beats (isMax : Bool) (w : Word32 × Nat) (y : Nat) (i : Nat) : Bool :=
  match fpCmp (fp32.decode y) (fp32.decode w.1.toNat) with
  | some .eq => decide (i < w.2)
  | some .gt => isMax
  | some .lt => !isMax
  | none => match fp32.decode w.1.toNat, fp32.decode y with
    | .nan _, .nan _ => decide (i < w.2)
    | .nan _, _ => true
    | _, _ => false

/-- Put a candidate into the winners. -/
def putWinner (isMax : Bool) (m : Sparse (Option (Word32 × Nat))) (p y i : Nat) : Sparse (Option (Word32 × Nat)) :=
  match m.get none p with
  | none => m.set none p (some (BitVec.ofNat 32 y, i))
  | some w => if beats isMax w y i then m.set none p (some (BitVec.ofNat 32 y, i)) else m

/-- The value of an element of a tile, exact or compact, in the named range or apart from it (03 R167; 04 R186, R191,
R201). -/
def State.runValue (s : State) (j : Job) (st : Stage) (t : TileRun) (i vec ch : Nat) : Dy :=
  if !t.inFile then
    let v := j.run.values.get 0 (st.cell t.part (st.element vec ch))
    if st.exact then exactDy v else ⟨v, st.compactExp⟩
  else s.tileValue t.engine (s.rowFile st t.engine i) st.accBase (vec - t.u * st.vecB) st.exact st.compactExp

/-- An element that drains: its index, vector, channel, y, and whether normalisation saturated. -/
structure DrainY where
  elem : Nat
  vec  : Nat
  ch   : Nat
  y    : Nat
  big  : Bool
  deriving DecidableEq, Repr

/-- The rows of a tile that hold channels: row, channel. -/
def TileRun.rowsOf (t : TileRun) : List (Nat × Nat) :=
  ((List.range t.chans.length).zip t.chans).filterMap fun (x : Nat × Option Nat) => x.2.map fun ch => (x.1, ch)

/-- A kept result as an element that drains. -/
def KeptY.drainY (k : KeptY) (st : Stage) : DrainY :=
  { elem := k.elem, vec := k.elem / st.chans, ch := k.elem % st.chans, y := k.y.toNat, big := k.big }

/-- The tile's elements in rising order: index, vector, channel, row. -/
def TileRun.elems (t : TileRun) (st : Stage) : List (Nat × Nat × Nat × Nat) :=
  (List.range (st.vecsIn t.u)).flatMap fun vi =>
    let vec := t.u * st.vecB + vi
    (List.range st.chans).filterMap fun ch => (t.rowsOf.find? fun (x : Nat × Nat) => x.2 == ch).map fun x =>
      (st.element vec ch, vec, ch, x.1)

/-- The SRAM address of a channel's rescale entry on a cluster (11 R528). -/
def rescaleAddr (st : Stage) (c ch : Nat) : Nat := 0x100000000000 + c * 0x1000000 + st.rescaleOfs + 4 * ch

/-- FP32 bits of an element-wise operand (04 R228). -/
def eltBits (st : Stage) (bs : List Byte) : Nat := if st.eltType = 1 then ofLe bs * 65536 else ofLe bs

/-- Stages 1 to 5 of a tile's elements; `elts` are the element-wise operands in the same order. -/
def State.drainYs (s : State) (j : Job) (st : Stage) (t : TileRun) (els : List (Nat × Nat × Nat × Nat))
    (elts : List (List Byte)) : List DrainY :=
  let c := t.engine / 4
  let rm := pathRnd j.run.rerun
  let table := s.actTable c st.act
  ((List.range els.length).zip els).map fun (x : Nat × Nat × Nat × Nat × Nat) =>
    let ch := x.2.2.2.1
    let o : Operands :=
      { rs := if st.rescaleEn then some (s.word (rescaleAddr st c ch) 4) else none
        bias := if st.biasEn then some (bits (s.scale c (st.outScale + ch)).toNat 32 32) else none
        elt := if st.eltOp = 0 then none else some (eltBits st (nth elts x.1 [])) }
    let r := epilogueY st rm table o (s.runValue j st t x.2.2.2.2 x.2.2.1 ch)
    { elem := x.2.1, vec := x.2.2.1, ch := ch, y := r.1, big := r.2 }

/-! ## Conversion and store of a tile -/

/-- The SCALE that a channel's conversion uses: 1.0 where the entry holds 0 (03 R151). -/
def scaleInUse (n : Nat) : Nat := if n = 0 then 0x3F800000 else n

/-- The SCALE that converts a channel on a cluster: the copy of the entry held there (03 R137). -/
def State.scaleOf (s : State) (st : Stage) (c ch : Nat) : Nat :=
  scaleInUse (entryScale (s.scale c (st.outScale + ch)).toNat)

/-- Conversion of an element of a type that is not MX, with its entry on a cluster (03 R137, R146). -/
def State.convElem (s : State) (st : Stage) (rm : Rnd) (c : Nat) (d : DrainY) : Conv :=
  if st.out.running then
    convScaled st.out st.outType rm (s.scaleOf st c d.ch) (entryZp (s.scale c (st.outScale + d.ch)).toNat) d.y
  else convPlain st.out st.outType rm d.y

/-- An output element has been stored: that of a closed tile, or of tile `t` below element `k`. -/
def StageRun.stored (r : StageRun) (st : Stage) (t : TileRun) (k e : Nat) : Bool :=
  let u := e / st.chans / st.vecB
  let ch := some (e % st.chans)
  decide (u < st.firstTile) || (t.u == u && t.chans.contains ch && decide (e < k)) ||
    r.tiles.any fun (x : TileRun) => x.closed && x.part == st.finalPart && x.u == u && x.chans.contains ch
/-- OUT_DESC's RESUME. -/
def Stage.outResume (st : Stage) : Nat := st.outDesc.elim 0 TDesc.resume
/-- The first output element from RESUME on that has not been delivered, when a tile's store stops at element `k`
(08 R432, R436). -/
def undelivered (st : Stage) (r : StageRun) (t : TileRun) (resume k : Nat) : Nat :=
  (((List.range (k + 1)).filter fun e => decide (resume ≤ e)).find? fun e => !r.stored st t k e).getD k
/-- The first output element not stored whose conversion needs the rescale entry of one of these channels (08, after R773). -/
def firstRescaled (st : Stage) (r : StageRun) (t : TileRun) (chs : List Nat) : Nat :=
  minNat (chs.filterMap fun ch => ((List.range st.vecs).find? fun v => !r.stored st t 0 (st.element v ch) &&
    decide (st.outResume ≤ st.element v ch)).map fun v => st.element v ch)

/-- Store elements to a descriptor of the stage from its RESUME on. -/
def State.storeElems (s : State) (j : Job) (d : Option TDesc) (l : List (Nat × List Byte)) :
    State × Option (Nat × Status × Nat) :=
  match d with
  | none => (s, none)
  | some d => s.writeElems j d (l.filter fun (x : Nat × List Byte) => decide (d.resume ≤ x.1))

/-- The statistics of the run after a tile's values (03 R148). -/
def seeAll (m : Sparse ChanStat) (l : List DrainY) : Sparse ChanStat :=
  l.foldl (fun m (d : DrainY) => m.modify {} d.ch fun c => c.see d.y) m

/-- The winners of the run after a tile's values (04 R232). -/
def winAll (st : Stage) (m : Sparse (Option (Word32 × Nat))) (l : List DrainY) : Sparse (Option (Word32 × Nat)) :=
  if st.arg = 0 then m else
  l.foldl (fun m (d : DrainY) =>
    if st.argAxis = 0 then putWinner (st.arg == 1) m d.vec d.y d.ch else putWinner (st.arg == 1) m d.ch d.y d.vec) m

/-- The 8 B records of the winners (04 R233). -/
def winnerRecords (m : Sparse (Option (Word32 × Nat))) : List (Nat × List Byte) :=
  m.filterMap fun (x : Nat × Option (Word32 × Nat)) => x.2.map fun w => (x.1, leBytes 4 w.1.toNat ++ leBytes 4 w.2)

/-- Write the winners' records at the end of a step; a stop ends the command (04 R233). -/
def State.writeWinners (s : State) (j : Job) (st : Stage) : State :=
  if st.arg = 0 then s else
  match s.storeElems j st.argDesc (winnerRecords j.run.winners) with
  | (s, none) => s
  | (s, some x) => s.faultStage j 8 x

/-- The MX blocks of a run's results: block number and its elements (03 R105). -/
def mxBlocks (l : List KeptY) : List (Nat × List KeptY) :=
  let blocks := (l.map fun x => x.elem / 32).foldl (fun m b => insertNat b m) []
  blocks.map fun b => (b, (List.range 32).filterMap fun i => l.find? fun x => x.elem == 32 * b + i)

/-- Convert and store the results of a stage with MX outputs once they are whole (03 R147, R155, R766). -/
def State.storeMx (s : State) (j : Job) (st : Stage) : State :=
  let bl := (mxBlocks j.run.ys).map fun b => (b.1, mxBlockScale st.out (b.2.map fun x => x.y.toNat), b.2)
  let conv := bl.flatMap fun b => b.2.2.map fun x => (x, convMx st.out b.2.1 x.y.toNat)
  let s := s.modJob j.id fun c => { c with run := { c.run with
    stats := conv.foldl (fun m x => m.modify {} (x.1.elem % st.chans) fun c => c.count 0 x.1.big x.2.1 x.2.2) c.run.stats } }
  match s.storeElems j st.outDesc (conv.map fun x => (x.1.elem, leBytes 1 x.2.1.code)) with
  | (s, some x) => s.faultStage j 4 x
  | (s, none) => match s.storeElems j st.outMx (bl.map fun b => (b.1, leBytes 1 b.2.1)) with
    | (s, some x) => s.faultStage j 10 x
    | (s, none) => s

/-- The end of a main run's step, when its last tile has drained: MX outputs and winners are written. -/
def State.stepEnd (s : State) (id : Nat) (st : Stage) : State :=
  match s.job? id with
  | none => s
  | some j =>
    if j.run.drainFrame.isNone || j.run.rerun then s else
    let s := if st.out.isMx then s.storeMx j st else s
    match s.job? id with
    | none => s
    | some j => if j.phase == .running then s.writeWinners j st else s

/-- Stages 6 to 8 of a tile's values: winners, statistics, conversion and store (04 R228; 03 R145 to R155). -/
def State.drainTile (s : State) (j : Job) (st : Stage) (t : TileRun) (ys : List DrainY) : State :=
  let c := t.engine / 4
  let keep := j.run.rerun || st.out.isMx
  let conv := if keep then [] else ys.map fun (d : DrainY) => (d, s.convElem st (pathRnd j.run.rerun) c d)
  let stale := !j.run.rerun && st.out.running && ys.any fun (d : DrainY) => entryScale (s.scale c (st.outScale + d.ch)).toNat == 0
  let big := ys.any fun (d : DrainY) => d.big
  let noTable := decide (4 ≤ st.act) && (s.actTable c st.act).isEmpty
  match if keep then (s, none) else s.storeElems j st.outDesc (conv.map fun x => (x.1.elem, leBytes (2 ^ st.out.esize) x.2.code)) with
  | (s, some x) => s.faultStage j 4 (undelivered st j.run t st.outResume x.1, x.2)
  | (s, none) =>
    let s := s.modJob j.id fun k => { k with
      flags := { k.flags with saturation := k.flags.saturation || big, staleScale := k.flags.staleScale || stale,
                              range := k.flags.range || noTable }
      run := { k.run with
        winners := winAll st k.run.winners ys
        stats := if keep then seeAll k.run.stats ys
          else conv.foldl (fun m x => m.modify {} x.1.ch fun k => k.count (s.scaleOf st c x.1.ch) x.1.big x.2 none) (seeAll k.run.stats ys)
        ys := if keep then k.run.ys ++ ys.map fun (d : DrainY) => { elem := d.elem, y := BitVec.ofNat 32 d.y, big := d.big, cluster := c }
          else k.run.ys } }
    (s.closeTile j.id st t).stepEnd j.id st

/-- The tile may drain: its reduction is complete and, at the end of a chain, it holds the running sum (04 R209, R220). -/
def TileRun.drains (t : TileRun) (st : Stage) : Bool :=
  decide (t.need ≤ t.terms) && t.part == st.lastPart && (t.summed || st.lastPart == 0)

/-- The first tile in progress on an engine that may drain (04 R204). -/
def StageRun.drainOn (r : StageRun) (st : Stage) (e : Nat) : Option TileRun :=
  r.tiles.find? fun (t : TileRun) => t.engine == e && !t.closed && t.drains st

/-- What a tile's drain cannot read: its rescale entries, scale entries of its channels, or slots of its values; the role, the first
output element concerned, and the block (08, after R773; 09 R449, R452). -/
def State.drainBad (s : State) (j : Job) (st : Stage) (t : TileRun) : Option (Nat × Nat × Nat) :=
  let c := t.engine / 4
  let chs := t.rowsOf.map (·.2)
  let rescaled := if st.rescaleEn then chs.filter fun ch => s.anyPoison (rescaleAddr st c ch) 4 else []
  let entries := if st.out.running || st.biasEn then chs.filter fun ch => s.poisoned (scaleAddr c (st.outScale + ch)) else []
  let slots := if !t.inFile then [] else (t.cells st).filter fun x =>
    s.badSlot t.engine (s.rowFile st t.engine x.1) (st.accBase + (if st.exact then 5 * x.2.1 else x.2.1)) st.vslots
  match rescaled, entries, slots with
  | ch :: _, _, _ => some (12, firstRescaled st j.run t rescaled, (s.badBlock (rescaleAddr st c ch) 4).getD 0)
  | [], ch :: _, _ => some (4, firstRescaled st j.run t entries, scaleAddr c (st.outScale + ch))
  | [], [], x :: xs => some (4, minNat ((x :: xs).map fun y => st.element (t.u * st.vecB + y.2.1) ((nth t.chans y.1 none).getD 0)), 0)
  | [], [], [] => none

/-- TILE_DRAIN: a tile whose reduction has ended passes through the epilogue of its cluster (04 R203, R209, R228). -/
def execTileDrain (job engine : Nat) (s : State) : Res :=
  match s.job? job with
  | none => ok s
  | some j => match j.stage? with
    | none => ok s
    | some st => match if st.drain then j.run.drainOn st engine else none with
      | none => ok s
      | some t =>
        let els := t.elems st
        match s.drainBad j st t with
        | some x =>
          let s := if x.1 = 4 ∧ x.2.2 = 0 then s.logSlot t.engine else s
          ok (s.faultStage j x.1 (x.2.1, .dataUncorrectable, x.2.2))
        | none => match st.eltDesc with
          | none => ok (s.drainTile j st t (s.drainYs j st t els []))
          | some d => match s.readAll j (fun i => (d.addr i, d.size 0)) (els.map (·.1)) with
            | .asked s => ok s
            | .done _ (some x) => ok (s.faultStage j 5 (undelivered st j.run t st.outResume x.1, x.2))
            | .done l none => ok (s.drainTile j st t (s.drainYs j st t els l))

/-! ## The step decision (03 R149 to R171) -/

/-- The thresholds that a channel exceeds: saturation, underflow, error (03 R157, R766), the last with the SCALE that its
first conversion used (log 99). -/
def exceeds (st : Stage) (c : ChanStat) : Bool × Bool × Bool :=
  let past := fun (lim cnt : Nat) => lim != 0 && decide (c.n < cnt * 2 ^ lim)
  let s := if st.out.running then (fp32.decode c.scale.toNat).dy else Dy.ofInt 1
  let sq := if st.out.isMx then c.norm else c.sq
  let err := st.mseLim != 0 && (match fp64.decode sq.toNat with
    | .fin _ m e => ((s.mul s).mul ⟨(c.n * st.mseLim : Nat), -4⟩).lt ⟨m, e⟩
    | _ => true)
  (past st.satLim c.sat, past st.uflLim c.ufl, err)

/-- BF16 bits of a step maximum rounded up, at most the largest finite (03 R149, R152). -/
def histMax (m : Word32) : Nat :=
  let n := match fp32.decode m.toNat with
    | .fin _ k e => (bf16.round .up false k 1 e).1
    | _ => 0x7F7F
  Nat.min n 0x7F7F

/-- `2^m × h ÷ Q_eff` rounded to FP32 and clamped to a value that SCALE_LOAD would take; whether it was clamped
(03 R149, R152). `h` is a positive value or an infinity. -/
def newScale (t : OutType) (rm : Rnd) (margin : Nat) (z : Int) (h : Fv) : Nat × Bool :=
  let q := t.qEff z
  if q < 0 then (0x00800000, true)
  else if q = 0 then (0x7F7FFFFF, true)
  else match h with
    | .fin _ m e =>
      let n := (fp32.round rm false (m * 2 ^ margin) q.toNat e).1
      if n < 0x00800000 then (0x00800000, true) else if 0x7F800000 ≤ n then (0x7F7FFFFF, true) else (n, false)
    | _ => (0x7F7FFFFF, true)

/-- The larger of a running maximum and a history entry, which SCALE_LOAD may have made infinite or NaN: an infinity is the
largest, a NaN or a negative entry counts as 0 (log 104). -/
def histMaxOf (a b : Fv) : Fv :=
  match a, b with
  | .inf false, _ => a
  | _, .inf false => b
  | .fin _ _ _, .fin false _ _ => if a.dy.lt b.dy then b else a
  | _, _ => a

/-- The largest of the newest history entries of an entry, as a datum (03 R149). -/
def newestMax (n depth : Nat) : Fv :=
  let count := Nat.min (bits n 112 5) (depth + 1)
  (List.range count).foldl (fun m i =>
    histMaxOf m (fp32.decode (bits n (128 + 16 * ((bits n 117 4 + 16 - i) % 16)) 16 * 65536))) (.fin false 0 0)

/-- A running maximum is above 0 (03 R149). -/
def aboveZero : Fv → Bool
  | .fin neg m _ => !neg && m != 0
  | .inf neg => !neg
  | .nan _ => false

/-- HIST after a step (03 R149, R168). -/
def pushHist (n : Nat) (m : Word32) : Nat :=
  let next := if bits n 112 5 = 0 then 0 else (bits n 117 4 + 1) % 16
  setBits (setBits (setBits n 117 4 next) (128 + 16 * next) 16 (histMax m)) 112 5 (Nat.min (bits n 112 5 + 1) 16)

/-- CONST and CONST_VALUE after a step (03 R148, R149): of values that are zeros of both signs, the first drained (log
105). -/
def pushConst (n : Nat) (c : ChanStat) : Nat :=
  match c.const, c.first with
  | true, some v => setBits (setBits n 121 1 1) 64 32 v.toNat
  | _, _ => setBits n 121 1 0

/-- An output entry after a step, and whether its SCALE was clamped (03 R149, R150, R152, R168): the scale comes from the
history, or in a re-run from the re-run's own step maximum. -/
def stepEntry (st : Stage) (rerun : Bool) (c : ChanStat) (n : Nat) : Nat × Bool :=
  let n := pushConst (pushHist n c.max) c
  let h := if rerun then fp32.decode c.max.toNat else newestMax n st.histDepth
  if !st.out.running || bit n 122 || !aboveZero h then (n, false) else
  let r := newScale st.out (pathRnd rerun) st.margin (entryZp n) h
  (setBits n 0 32 r.1, r.2)

/-- An entry with a step's counts added (03 R155). -/
def addCounts (c : ChanStat) (n : Nat) : Nat :=
  let n := setBits n 384 32 (Nat.min 0xFFFFFFFF (bits n 384 32 + c.sat))
  let n := setBits n 416 32 (Nat.min 0xFFFFFFFF (bits n 416 32 + c.ufl))
  setBits n 448 64 (f64add (bits n 448 64) c.sq.toNat)

/-- Update the output entries of a stage's channels alike in every cluster of the set (03 R137); whether any SCALE was
clamped. -/
def State.updateEntries (s : State) (mask : Nat) (st : Stage) (stats : Sparse ChanStat) (f : ChanStat → Nat → Nat × Bool) :
    State × Bool :=
  (bitList 64 mask).foldl (fun acc c => stats.foldl (fun (acc : State × Bool) (x : Nat × ChanStat) =>
    let e := st.outScale + x.1
    (acc.1.modScale c e fun n => (f x.2 n).1, acc.2 || (f x.2 (acc.1.scale c e).toNat).2)) acc) (s, false)

/-- The channels of a step that exceed a threshold: saturation, underflow, error (03 R157). -/
def overCounts (st : Stage) (stats : Sparse ChanStat) : Nat × Nat × Nat :=
  let xs := stats.map fun (x : Nat × ChanStat) => exceeds st x.2
  ((xs.filter (·.1)).length, (xs.filter (·.2.1)).length, (xs.filter (·.2.2)).length)

/-- A stage's row of the stage statistics section (11 R543; log 39). -/
def statsRow (stage : Nat) (ran : Bool) (x : Nat × Nat × Nat) (stats : Sparse ChanStat) : List Byte :=
  leBytes 1 stage ++ leBytes 1 (b2n ran) ++ leBytes 2 0 ++ leBytes 4 x.1 ++ leBytes 4 x.2.1 ++ leBytes 4 x.2.2 ++
    leBytes 8 (sumNat (stats.map fun (c : Nat × ChanStat) => c.2.sat)) ++
    leBytes 8 (sumNat (stats.map fun (c : Nat × ChanStat) => c.2.ufl))

/-- The flags of R157 that a step sets. -/
def Flags.exceeded (f : Flags) (x : Nat × Nat × Nat) : Flags :=
  { f with saturation := f.saturation || x.1 != 0, staleScale := f.staleScale || x.2.1 != 0, mseHigh := f.mseHigh || x.2.2 != 0 }

/-- The length of a stage's re-run schedule in frames (03 R164). -/
def Job.rerunFrames (j : Job) (stage : Nat) : Nat :=
  sumNat ((j.placed.filter fun (p : Placed) => p.rerun && p.phase.stage == stage).map (·.n))

/-- A step has ended: the next stage's hand-over frame is fixed, or the command's work ends (03 R165; 08 R417). -/
def State.stepOver (s : State) (j : Job) (handover : Nat) : State :=
  if j.run.stage + 1 < j.body.stageList.length then s.modJob j.id fun c => { c with handover := some handover }
  else s.finishJob j.id .done

/-- The frames that an untriggered re-run holds beyond the committed horizon go back to the calendar (03 R166). -/
def Job.dropRerun (j : Job) (stage horizon : Nat) : Job :=
  { j with placed := mapIf (fun (p : Placed) => p.rerun && p.phase.stage == stage) (fun p => { p with cut := some horizon }) j.placed }

/-- STEP_DECISION, in the frame after the last tile drained: the thresholds are tested; the re-run is triggered, or the
entries are updated and the re-run's frames given back (03 R149, R157 to R159, R164 to R166). A re-run forms and receives the
running sums of a chain anew. -/
def execStepDecision (job : Nat) (s : State) : Res :=
  match s.job? job with
  | none => ok s
  | some j => match j.stage?, j.run.drainFrame with
    | some st, some d =>
      if j.run.rerun || j.handover.isSome || !st.drain || decide (s.frame.counter < d + 1) || st.finalPart != st.lastPart then ok s else
      let x := overCounts st j.run.stats
      let reserved := st.rerunReserved j.hdr
      let trigger := reserved && (x.1 != 0 || x.2.1 != 0 || x.2.2 != 0)
      match s.updateEntries j.mask st j.run.stats fun c n => (addCounts c n, false) with
      | (s, _) =>
        if trigger then
          ok (s.modJob job fun c => { c with handover := some (d + 2), reran := true, got := [], acked := [],
                                             run := { stage := c.run.stage, rerun := true, saved := c.run.saved, ahead := c.run.ahead } })
        else
          match s.updateEntries j.mask st j.run.stats (stepEntry st false) with
          | (s, clamped) =>
            let s := s.modJob job fun c => { (c.dropRerun j.run.stage s.frame.committed) with
              flags := { (c.flags.exceeded x) with range := c.flags.range || clamped }
              stageStats := c.stageStats ++ (if (c.flags.exceeded x).any then [statsRow j.run.stage false x j.run.stats] else []) }
            ok (s.stepOver j (d + 2 + (if reserved then j.rerunFrames j.run.stage else 0)))
    | _, _ => ok s

/-- RERUN_DRAIN: the re-run's last tile has drained. A stop of its stores leaves every entry as it was (08 R436). The entries take the re-run's maxima and scales, the narrow outputs
and the BF16 buffer are written from the re-run's values, the counts are added and the thresholds tested once more
(03 R167 to R170). -/
def execRerunDrain (job : Nat) (s : State) : Res :=
  match s.job? job with
  | none => ok s
  | some j => match j.stage?, j.run.drainFrame with
    | some st, some _ =>
      if !j.run.rerun then ok s else
      match s.updateEntries j.mask st j.run.stats (stepEntry st true) with
      | (new, clamped) =>
        let ys := j.run.ys.mergeSort fun a b => decide (a.elem ≤ b.elem)
        let conv := ys.map fun (k : KeptY) => (k.drainY st, k.cluster, new.convElem st .na k.cluster (k.drainY st))
        let stats := conv.foldl (fun m x => m.modify {} x.1.ch fun k =>
          k.count (new.scaleOf st x.2.1 x.1.ch) x.1.big x.2.2 none) j.run.stats
        match s.storeElems j st.rerunBuf (ys.map fun (k : KeptY) => (k.elem, leBytes 2 (convPlain .bf16 7 .na k.y.toNat).code)) with
        | (s, some x) => ok (s.faultStage j 7 x)
        | (s, none) => match s.storeElems j st.outDesc (conv.map fun x => (x.1.elem, leBytes (2 ^ st.out.esize) x.2.2.code)) with
          | (s, some x) => ok (s.faultStage j 4 x)
          | (s, none) =>
            let s := s.writeWinners j st
            match s.job? job with
            | none => ok s
            | some j' =>
              if !(j'.phase == .running) then ok s else
              let past := overCounts st stats
              match (s.updateEntries j.mask st j.run.stats (stepEntry st true)).1.updateEntries j.mask st stats fun c n => (addCounts c n, false) with
              | (s, _) =>
                let s := s.modJob job fun k => { k with
                  flags := { (k.flags.exceeded past) with range := k.flags.range || clamped }
                  run := { stage := k.run.stage, ahead := k.run.ahead }
                  stageStats := k.stageStats ++ [statsRow j.run.stage true past stats] }
                ok (s.stepOver j ((j.handover.getD s.frame.counter) + j.rerunFrames j.run.stage))
    | _, _ => ok s

/-- SUITE_HANDOVER: from the hand-over frame on, the next stage begins (03 R172; 08 R416, R417). -/
def execSuiteHandover (job : Nat) (s : State) : Res :=
  match s.job? job with
  | none => ok s
  | some j => match j.handover with
    | some h =>
      if j.phase == .running && !j.stopped && decide (h ≤ s.frame.counter) && !j.run.rerun &&
          decide (j.run.stage + 1 < j.body.stageList.length) then ok (s.startStage j (j.run.stage + 1))
      else ok s
    | none => ok s

end Sys2Proof.Machine
end

