-- ==== Sys2Proof/Machine/Streams.lean ====
section
/-! DEFINITION. Streams into the clusters (08 R380 to R396, R409 to R415; 09 R447 to R453): activation tile fetches, the returns of HBM reads, and the Farandole chain. -/

namespace Sys2Proof.Machine

/-! ## What an activation tile reads -/

/-- The input elements of tile `u` on a cluster, over the reduction range of its part (08 R383; 11 R532). -/
def Stage.tileElems (st : Stage) (c u : Nat) : List Nat :=
  match st.partOf c with
  | none => []
  | some p =>
    let per := if st.store.is4 then 2 else 1
    let lo := p.2.1 * st.gsize / per
    let n := p.2.2 * st.gsize / per
    (List.range (st.vecsIn u)).flatMap fun vi => (List.range n).map fun i => (u * st.vecB + vi) * st.kb + lo + i

/-- The MX scale bytes of tile `u` on a cluster (03 R105). -/
def Stage.tileScales (st : Stage) (c u : Nat) : List Nat :=
  match st.partOf c with
  | none => []
  | some p =>
    let lo := p.2.1 * st.gsize
    let n := p.2.2 * st.gsize
    (List.range (st.vecsIn u)).flatMap fun vi => (List.range ((n + 31) / 32)).map fun i =>
      ((u * st.vecB + vi) * st.redLen + lo) / 32 + i

/-- The pieces that a tile holds: descriptor role, element, address, bytes, and whether they lie below the descriptor's RESUME. -/
def Stage.allPieces (st : Stage) (c u : Nat) : List ((Nat × Nat × Nat × Nat) × Bool) :=
  (match st.inDesc with
    | some d => (st.tileElems c u).map fun i => ((2, i, d.addr i, d.size 0), decide (i < d.resume))
    | none => []) ++
  (match st.inMx with
    | some d => (st.tileScales c u).map fun i => ((9, i, d.addr i, 1), decide (i < d.resume))
    | none => [])
/-- The pieces that a tile reads, from each descriptor's RESUME on (08 R399). -/
def Stage.pieces (st : Stage) (c u : Nat) : List (Nat × Nat × Nat × Nat) := ((st.allPieces c u).filter fun x => !x.2).map (·.1)
/-- The first element of a tile in the descriptor of a role: where a stage's input stops under R435. -/
def Stage.tileStart (st : Stage) (role u : Nat) : Nat :=
  if role = 2 then Nat.max (u * st.vecB * st.kb) (st.inDesc.elim 0 TDesc.resume)
  else Nat.max (u * st.vecB * st.redLen / 32) (st.inMx.elim 0 TDesc.resume)
/-- The cells of a tile that it does not read (08 R399; log 32). -/
def Stage.skippedCells (st : Stage) (c u : Nat) : Sparse Byte :=
  ((st.allPieces c u).filter (·.2)).foldl (fun m x =>
    (List.range x.1.2.2.2).foldl (fun m i => m.set 0 (x.1.2.2.1 + i) (Config.skippedByte (x.1.2.2.1 + i))) m) []

/-- The pieces of an address range. -/
def piecesIn (l : List (Nat × Nat × Nat × Nat)) (a n : Nat) : List (Nat × Nat × Nat × Nat) :=
  l.filter fun x => decide (x.2.2.1 < a + n) && decide (a < x.2.2.1 + x.2.2.2)

/-- The first of several stops: the one of the lowest element of the lowest role. -/
def earlierBad (a b : Option (Nat × Nat × Status × Nat)) : Option (Nat × Nat × Status × Nat) :=
  match a, b with
  | some x, some y => if y.1 < x.1 ∨ (y.1 = x.1 ∧ y.2.1 < x.2.1) then some y else some x
  | some x, none => some x
  | none, y => y

/-- What a list of pieces outside the aperture meets: the lowest element that touches a failed unit or a poisoned block
(09 R449, R452, R453; 16 R725). -/
def State.piecesBad (s : State) (l : List (Nat × Nat × Nat × Nat)) : Option (Nat × Nat × Status × Nat) :=
  l.foldl (fun acc x =>
    let st := if s.unitBad x.2.2.1 x.2.2.2 then some (Status.unitFailed, 0) else (s.badBlock x.2.2.1 x.2.2.2).map fun b => (.dataUncorrectable, b)
    match st with
    | some st => earlierBad acc (some (x.1, x.2.1, st))
    | none => acc) none

/-- The tile cells after bytes have landed. -/
def landBytes (m : Sparse Byte) (a : Nat) : List Byte → Sparse Byte
  | [] => m
  | b :: bs => landBytes (m.set 0 a b) (a + 1) bs

/-- The tile cells after pieces have landed from memory. -/
def State.landPieces (s : State) (m : Sparse Byte) (l : List (Nat × Nat × Nat × Nat)) : Sparse Byte :=
  l.foldl (fun m x => landBytes m x.2.2.1 (s.bytes x.2.2.1 x.2.2.2)) m

/-- Change a tile buffer of a cluster. -/
def State.modBuf (s : State) (c : Nat) (p : TileBuf → Bool) (f : TileBuf → TileBuf) : State :=
  s.modCluster c fun x => { x with bufs := mapIf p f x.bufs }

/-- Read tags of a stack: the oldest requests hold them, later ones wait for one (08 R390). -/
def State.holdsTag (s : State) (r : ReadReq) : Bool :=
  decide ((s.reads.filter fun (x : ReadReq) => x.stack == r.stack && decide (x.id < r.id)).length < Config.tagsPerStack)

/-! ## ACTIVATION_FETCH (08 R384 to R390, R409, R410, R430, R435) -/

/-- A cluster has room for activation tile `u` of the run: at most four beyond the one being issued, in one of five buffers,
behind no tile that cannot be consumed (08 R384 to R386). -/
def State.roomFor (s : State) (j : Job) (st : Stage) (u c : Nat) : Bool :=
  let mine := (s.cluster c).bufs.filter fun (b : TileBuf) => b.job == j.id && b.stage == j.run.stage
  decide (u ≤ Nat.max st.firstTile (j.run.cur.get 0 c) + 4) && decide (mine.length < 5) && !(mine.any fun (b : TileBuf) => b.bad.isSome)

/-- The clusters of a set by sector: each sector gets one copy (08 R409). -/
def sectorCopies (set : List Nat) : List (Nat × List Nat) :=
  ((List.range 4).map fun k => (k, set.filter fun c => c / 16 == k)).filter fun x => !x.2.isEmpty

/-- The next stage's input is written by no stage up to the running one (08 R418). -/
def Job.inputFree (j : Job) (next : Stage) : Bool :=
  let outs : List (Int × Int) := (j.body.stageList.take (j.run.stage + 1)).flatMap fun (st : Stage) =>
    [st.outDesc, st.rerunBuf, st.outMx, st.argDesc].filterMap fun (d : Option TDesc) => d.map fun d => d.extent 0
  [next.inDesc, next.inMx].all fun (d : Option TDesc) => match d with
    | some d => outs.all fun x => decide ((d.extent 0).2 < x.1) || decide (x.2 < (d.extent 0).1)
    | none => true

/-- A cluster has room for activation tile `u` of the next stage: five buffers from its first tile on (08 R386, R418). -/
def State.roomAhead (s : State) (j : Job) (st : Stage) (u c : Nat) : Bool :=
  let mine := (s.cluster c).bufs.filter fun (b : TileBuf) => b.job == j.id && b.stage == j.run.stage + 1
  decide (u ≤ st.firstTile + 4) && decide (mine.length < 5) && !(mine.any fun (b : TileBuf) => b.bad.isSome)

/-- The stage whose next tile the Leader of a cluster fetches, its index and the tile: the running one, or, when all of its tiles are
fetched there, the one after it, of an input that no earlier stage writes (08 R384, R418). -/
def State.fetching (s : State) (j : Job) (st : Stage) (c : Nat) : Option (Stage × Nat × Nat) :=
  let u := Nat.max st.firstTile (j.run.nextFetch.get 0 c)
  if u < st.tileCount ∧ 0 < st.redLen ∧ j.run.drainFrame.isNone then
    if (s.fetchSet j st c).all (s.roomFor j st u) then some (st, j.run.stage, u) else none
  else match j.body.stageList[j.run.stage + 1]? with
    | some next =>
      let u := Nat.max next.firstTile (j.run.ahead.get 0 c)
      if j.inputFree next && decide (u < next.tileCount) && decide (0 < next.redLen) && (s.fetchSet j next c).all (s.roomAhead j next u) then
        some (next, j.run.stage + 1, u) else none
    | none => none

/-- ACTIVATION_FETCH: the Leader of a multicast set fetches the stage's next activation tile for every cluster of the set, once
each has a free buffer. Data in cluster SRAM is copied at once; HBM is read granule by granule, each granule once; host
aperture pages are read over Rustra, and a page that is not resident stops the stage when the tile's turn comes. With the running stage's
tiles fetched, the next stage's follow (R418). -/
def execActivationFetch (job cluster : Nat) (s : State) : Res :=
  match s.job? job with
  | none => ok s
  | some j => match j.stage? with
    | none => ok s
    | some run => match s.fetching j run cluster with
      | none => ok s
      | some (st, stage, u) =>
      let set := s.fetchSet j st cluster
      if !(s.committedNow && set.contains cluster) then ok s else
      let ps := st.pieces cluster u
      let near := ps.filter fun x => s.space x.2.2.1 != .aperture && !s.isHbm x.2.2.1
      let hbm := ps.filter fun x => s.isHbm x.2.2.1
      let host := ps.filter fun x => s.space x.2.2.1 == .aperture
      let grains := grainsOf (hbm.flatMap fun x => cutsAt 2048 2 x.2.2.1 x.2.2.2)
      let pages := (joinRuns (host.map fun x => x.2.2)).flatMap fun r => pagesOf r.1 r.2
      let revoked := pages.find? fun p => !s.canRead j.session p.1
      let bad := earlierBad (s.piecesBad near) (revoked.bind fun p =>
        (piecesIn host p.1 p.2).head?.map fun x =>
          (x.1, st.tileStart x.1 u, .translationFault, pageOf p.1))
      let pages := if bad.isSome then [] else pages
      let grains := if bad.isSome then [] else grains
      let buf : TileBuf :=
        { job := job, stage := stage, rerun := stage == j.run.stage && j.run.rerun, u := u,
          reads := (List.range grains.length).map fun i => s.nextRead + i,
          hostReads := (List.range pages.length).map fun i => (s.nextTag + i) % 2 ^ 32,
          cells := s.landPieces (st.skippedCells cluster u) near, bad := bad }
      let s := forEach set (fun s c => s.modCluster c fun x => { x with bufs := x.bufs ++ [buf] }) s
      let s := s.modJob job fun c => { c with run := if stage == j.run.stage then
          { c.run with nextFetch := set.foldl (fun m n => m.set 0 n (u + 1)) c.run.nextFetch }
        else { c.run with ahead := set.foldl (fun m n => m.set 0 n (u + 1)) c.run.ahead } }
      let s := forEach grains (fun s g => s.readGranule job (2048 * g) (.tile (sectorCopies set))) s
      ok (forEach pages (fun s p => s.haRead j.session p.1 p.2 (.tile job cluster u p.1)) s)

/-! ## HBM_READ_RETURN (08 R387, R390, R422; 09 R447 to R450) -/

/-- A read of a stack has found an error (09 R447 to R449): a correctable one is counted; an uncorrectable one poisons
a 64 B block of the granule, which of them is free, and is logged. -/
def State.eccFound (s : State) (ecc : EccResult) (stack a : Nat) : State :=
  match ecc with
  | .clean => s
  | .corrected => { s with corrected := s.corrected.modify 0 stack fun n => n + 1 }
  | .uncorrectable => match takeNat s with
    | (k, s) =>
      let b := a + 64 * (k % 32)
      (s.poisonAt b).logError 0x0200 3 7 stack 1 b

/-- A granule lands in a cluster's tile buffer that waits for it (08 R387, R409). -/
def State.landTile (s : State) (r : ReadReq) (c : Nat) : State :=
  match (s.cluster c).bufs.find? fun (b : TileBuf) => b.job == r.job && b.reads.contains r.id with
  | none => s
  | some b =>
    let ps := match s.job? r.job with
      | some j => match j.body.stageList[b.stage]? with
        | some st => piecesIn ((st.eff b.rerun).pieces c b.u) r.address 2048
        | none => []
      | none => []
    s.modBuf c (fun (x : TileBuf) => x.job == r.job && x.reads.contains r.id) fun x =>
      { x with reads := x.reads.filter fun n => n != r.id, cells := s.landPieces x.cells ps,
               bad := earlierBad x.bad (s.piecesBad ps) }

/-- A granule lands in an engine's weight buffer that waits for it (08 R388). -/
def State.landWeight (s : State) (r : ReadReq) (e : Nat) : State :=
  s.modEngine e fun x => { x with wbufs := mapIf (fun b => b.reads.contains r.id) (fun b =>
    let ps := match (s.job? r.job).bind fun j => (j.body.stageList[b.stage]?).map fun st => st.eff b.rerun with
      | some st => match st.wDesc with
        | some d => piecesIn (st.weightPieces d b.els) r.address 2048
        | none => []
      | none => []
    { b with reads := b.reads.filter fun n => n != r.id
             cells := ps.foldl (fun m p => (cutsAt 2048 (p.2.2.2 / 2048 + 2) p.2.2.1 p.2.2.2).foldl (fun m q =>
               if q.1 / 2048 = r.address / 2048 then landBytes m q.1 (s.bytes q.1 q.2) else m) m) b.cells
             bad := earlierBad b.bad (s.piecesBad (ps.map fun p => (p.1, p.2.1, Nat.max p.2.2.1 r.address,
               Nat.min (p.2.2.1 + p.2.2.2) (r.address + 2048) - Nat.max p.2.2.1 r.address))) }) x.wbufs }

/-- A granule lands for its command: the runs that it asked for, without the blocks that cannot be read (09 R449, R453). -/
def State.landFeed (s : State) (r : ReadReq) (parts : List (Nat × Nat)) : State :=
  let good := (parts.flatMap fun x => cutsAt 64 (x.2 / 64 + 2) x.1 x.2).filter fun x => !(s.unitBad x.1 x.2 || s.anyPoison x.1 x.2)
  s.modJob r.job fun j => if j.live then { j with staged := good.foldl (fun m x => stageBytes m x.1 (s.bytes x.1 x.2)) j.staged } else j

/-- HBM_READ_RETURN: a granule that holds a tag comes back and its bytes land where they were asked for; those of a buffer that
has gone, or of a command that has ended, are dropped. The tag returns. -/
def execHbmReadReturn (read : Nat) (ecc : EccResult) (s : State) : Res :=
  match s.reads.find? fun (r : ReadReq) => r.id == read with
  | none => ok s
  | some r =>
    if !s.holdsTag r then ok s else
    let s := { s with reads := s.reads.filter fun (x : ReadReq) => x.id != read }
    let s := if s.onBadStack r.address then s else (s.findIn r.address 2048).eccFound ecc r.stack r.address
    match r.use with
    | .tile copies => ok (forEach (copies.flatMap (·.2)) (fun s c => s.landTile r c) s)
    | .weight e => ok (s.landWeight r e)
    | .feed parts => ok (s.landFeed r parts)
    | .load t n parts => ok (
      if parts.any fun x => s.unitBad x.1 x.2 then s.stopKernel r.job .unitFailed
      else if parts.any fun x => s.anyPoison x.1 x.2 then s.stopKernel r.job .dataUncorrectable
      else s.loadReturned r.job t n)
    | .image => ok s

/-! ## The Farandole chain (08 R411 to R415) -/

/-- The next cluster of the ring (08 R411). -/
def ringNext (c : Nat) : Nat :=
  if c = 31 then 48 else if c = 63 then 32 else if c = 47 then 0 else c + 1

/-- The W_DESC element that an address range touches first. -/
def Stage.weightAt (st : Stage) (a n : Nat) : Nat :=
  match st.wDesc with
  | some d => (d.covered.find? fun i => decide (d.addr i < a + n) && decide (a < d.addr i + st.tile)).getD 0
  | none => 0

/-- The lowest W_DESC element not delivered, when the one at `k` meets a stop (08 R432). -/
def Stage.lowestWeight (st : Stage) (r : StageRun) (k : Nat) : Nat :=
  match st.wDesc with
  | some d => r.firstMissing d k
  | none => k

/-- A Farandole tile reaches a cluster: one of the set writes it into its weight buffer (08 R413). -/
def State.farArrive (s : State) (f : Far) : State :=
  if f.left.contains f.at' then s.writeAll (0x100000000000 + f.at' * 0x1000000 + f.dst) f.bytes else s

/-- FARANDOLE_SEND: the head reads a weight tile from its SRAM or from HBM and sends it round the ring as far as the last
cluster of the set (08 R413). A tile in HBM is fetched through the head's Leader first (R390). -/
def execFarandoleSend (job head : Nat) (clusters : Word64) (src size dst : Nat) (s : State) : Res :=
  match s.job? job with
  | none => ok s
  | some j => match j.stage? with
    | none => ok s
    | some st =>
      let set := bitList 64 clusters.toNat
      let here := match s.space src with
        | .sram c => c == head
        | .hbm => true
        | _ => false
      let whole := s.space src == s.space (src + size - 1)
      if !(here && whole && bit j.mask head && set.all (bit j.mask) && !set.isEmpty && decide (0 < size) &&
          decide (dst + size ≤ 0x1000000)) then ok s else
      match s.readFor j src size with
      | .bytes l =>
        let f : Far := { id := s.nextFar, job := job, at' := head, left := set, bytes := l, dst := dst }
        let s := (s.farArrive f).modJob job fun c => { c with staged := c.staged.keep fun k => !(decide (src ≤ k) && decide (k < src + size)) }
        let left := set.filter fun c => c != head
        ok { s with nextFar := s.nextFar + 1, far := if left.isEmpty then s.far else s.far ++ [{ f with left := left }] }
      | .stop status page => ok (s.faultStage j 3 (st.lowestWeight j.run (st.weightAt src size), status, page))
      | .wait => ok (s.wantAll j [(src, size)])

/-- The hop out of a cluster carries nothing in the present symbol (08 R415). -/
def State.hopFree (s : State) (c : Nat) : Bool := decide (s.farFree.get 0 (ringPlace c) ≤ s.now)
/-- A tile occupies the hop out of a cluster: 128 B in each symbol (08 R412). -/
def State.takeHop (s : State) (c bytes : Nat) : State :=
  { s with farFree := s.farFree.set 0 (ringPlace c) (s.now + ceilDiv bytes 128) }

/-- FARANDOLE_HOP: the tile enters the next cluster of the ring, once the hop carries no other (08 R411 to R415). -/
def execFarandoleHop (send : Nat) (s : State) : Res :=
  match s.far.find? fun (f : Far) => f.id == send with
  | none => ok s
  | some f =>
    if !s.hopFree f.at' then ok s else
    let s := s.takeHop f.at' f.bytes.length
    let f := { f with at' := ringNext f.at' }
    let s := s.farArrive f
    let f := { f with left := f.left.filter fun c => c != f.at' }
    ok { s with far := if f.left.isEmpty then s.far.filter fun (x : Far) => x.id != send
                       else mapIf (fun (x : Far) => x.id == send) (fun _ => f) s.far }

end Sys2Proof.Machine
end

