-- ==== Sys2Proof/Machine/Tones.lean ====
section
/-! DEFINITION. Slew limiters, tone oscillators and lock detectors (05 R245 to R252; 06 R304 to R310). -/

namespace Sys2Proof.Machine

/-! ## Slew limiters (05 R245, R246, R250; 06 R304 to R307)

Channel numbers of the model: bank B or A of row `r` of engine `e` is `2 × (64 × e + r)` plus 1 or 0, the modulator row
heater of cluster `c` is 32768 + c, and the ring trims follow from 32832 (log 43). -/

/-- The channel of a modulator row heater. -/
def modChan (c : Nat) : Nat := 32768 + c
/-- The coefficient of a ring trim channel. -/
def trimCoef (chan : Nat) : Coef := .trim ((chan - 32832) / 64) ((chan - 32832) % 64)

/-- What a channel holds that nothing has moved: a heater its reset value, a ring trim its coefficient (05 R279). -/
def State.slewRest (s : State) (chan : Nat) : Slew :=
  if chan < 32832 then {} else
  let v := toBits (s.cal.active.get (trimCoef chan)) 16
  { target := v, present := v }
/-- A limiter channel. -/
def State.slew (s : State) (chan : Nat) : Slew := s.slews.get (s.slewRest chan) chan
/-- Change a limiter channel. -/
def State.modSlew (s : State) (chan : Nat) (f : Slew → Slew) : State :=
  { s with slews := s.slews.modify (s.slewRest chan) chan f }

/-- The amplitude of a heater's tone, in LSB (06, after R310). -/
def toneAmplitude : Nat := 164
/-- One °C of bank heater temperature is 0.61 m°C a least significant bit (05 R245): 8.0 °C in whole bits. -/
def headroomBits : Nat := 13114
/-- One line spacing, 7.14 °C, in bits of a bank heater (05 R241, R245, R257). -/
def lineBits : Int := 11705

/-- The heater setting lies beyond ±8.0 °C of the bank's lock-point centre (05 R246). -/
def beyondCentre (centre target : Nat) : Bool :=
  centre != 0 && decide (800000 < 61 * ((target : Int) - centre).natAbs)

/-- Twilight writes no target of a heater: of a bank whose compute comb is out of service or has returned and whose engine has not
relocked since (02 R95), and of every heater in Doze (15 R685, R689). It completes its move and holds (06 R304, R307). -/
def State.heaterHeld (s : State) (chan : Nat) : Bool :=
  (decide (chan < 32768) && (decide ((s.comb (combOfEngine (chan / 128))).state < 2) || (s.engine (chan / 128)).relock.held)) ||
    (decide (chan < 32832) && s.power.state == .doze)

/-- A bank heater's target, held between two settings and clear of the DAC ends by its tone's amplitude. A bank that would need a
setting beyond them, or beyond headroom about its centre, counts as beyond headroom (05 R246; 06 R305, R306). -/
def State.setBankHeater (s : State) (e row : Nat) (isB : Bool) (low high target : Int) : State :=
  let chan := heaterChan e row isB
  let amp : Int := (s.tones.get {} chan).amp
  let key := (row, isB)
  let t := clampInt (max amp low) (min (65535 - amp) high) target
  let far := t != target || beyondCentre (s.centres.get 0 chan) t.toNat
  let s := s.modEngine e fun x =>
    let rest := x.beyond.filter fun k => k != key
    { x with beyond := if far then rest ++ [key] else rest }
  s.modSlew chan fun x => { x with target := t.toNat }

/-- A bank heater's target from its lock loop, whose range is ±8.0 °C about the bank's lock-point centre (05 R240). -/
def State.lockHeater (s : State) (e row : Nat) (isB : Bool) (target : Int) : State :=
  let c := s.centres.get 0 (heaterChan e row isB)
  if c = 0 then s.setBankHeater e row isB 0 65535 target
  else s.setBankHeater e row isB ((c : Int) - headroomBits) ((c : Int) + headroomBits) target

/-- The idle bank's heater follows the active bank's setting and keeps the difference between the two centres (05 R250). -/
def State.followIdle (s : State) (e row : Nat) (isB : Bool) : State :=
  let a := s.centres.get 0 (heaterChan e row isB)
  let b := s.centres.get 0 (heaterChan e row (!isB))
  if (s.engine e).activeB != isB || decide (a = 0) || decide (b = 0) then s
  else s.lockHeater e row (!isB) ((s.slew (heaterChan e row isB)).target + b - a)

/-- A running SELFTEST in concurrent mode takes a slot of the engine that began after its admission (05 R285). -/
def Job.takesSlot (j : Job) (e start : Nat) : Bool :=
  match j.body with
  | .selftest false units engines => j.phase == .running && bit units 0 && bit engines e && decide (j.decided < start) &&
      !j.calSlots.contains e
  | _ => false
/-- The slot of an engine that began in a frame is a SELFTEST's (05 R285). -/
def State.slotTested (s : State) (e start : Nat) : Bool := s.jobs.any fun (j : Job) => j.takesSlot e start

/-- A ring trim's target: written in its engine's calibration slot, in frame 14 by at most 512 bits, and not in frame 15, nor in a
slot that SELFTEST uses in place of calibration (05 R278, R279, R285). -/
def State.setTrim (s : State) (chan target : Nat) : State :=
  let p := s.frame.counter % 16
  let near := decide (((target : Int) - (s.slew chan).target).natAbs ≤ 512)
  let e := (chan - 32832) / 8192
  if (s.engine e).lock == .calib && !s.slotTested e (s.frame.counter - p) && (decide (p < 14) || (decide (p = 14) && near)) then
    s.modSlew chan fun x => { x with target := target % 65536 }
  else s

/-- A modulator row heater's target: within ±8.0 °C of its centre, and clear of the DAC ends (05 R240; 06 R306). -/
def State.setModHeater (s : State) (chan : Nat) (target : Int) : State :=
  let amp := (s.tones.get {} chan).amp
  let c := s.centres.get 0 chan
  let lo : Int := if c = 0 then amp else max amp ((c : Int) - headroomBits)
  let hi : Int := if c = 0 then 65535 - amp else min (65535 - amp) ((c : Int) + headroomBits)
  s.modSlew chan fun x => { x with target := (clampInt lo hi target).toNat }

/-- Twilight writes a channel's target (06 R305). -/
def State.setTarget (s : State) (chan target : Nat) : State :=
  if s.heaterHeld chan then s
  else if chan < 32768 then
    (s.lockHeater (chan / 128) (chan / 2 % 64) (chan % 2 == 1) target).followIdle (chan / 128) (chan / 2 % 64) (chan % 2 == 1)
  else if chan < 32832 then s.setModHeater chan target
  else s.setTrim chan target

/-- The next value of a limiter's output (06 R304). -/
def Slew.move (x : Slew) : Slew :=
  let step := Nat.min 64 x.stepMax
  { x with present := if x.present < x.target then Nat.min x.target (x.present + step)
                      else Nat.max x.target (x.present - step) }

/-- A channel with STEP_MAX and UPDATE_DIV as Twilight writes them (06 SLEW_CHAN). -/
def Slew.set (x : Slew) (w : SlewWrite) : Slew :=
  { x with stepMax := (w.stepMax.getD x.stepMax) % 128, div := (w.div.getD x.div) % 16 }

/-- SLEW_UPDATE: Twilight may have written the channel; at an edge that UPDATE_DIV selects it moves its output towards the target (06
R304, R305, R307). -/
def execSlewUpdate (chan : Nat) (w : Option SlewWrite) (s : State) : Res :=
  let s := match w with
    | some w => if s.runs .twilight then
        let s := s.modSlew chan fun x => x.set w
        match w.target with
        | some t => s.setTarget chan t
        | none => s
      else s
    | none => s
  ok (s.modSlew chan Slew.move)

/-! ## Tone oscillators (05 R247, R248; 06 R306, R308 to R310) -/

/-- A quarter of the table S of R308, entries 0 to 256. -/
def sineQuarter : List Nat :=
  [0, 201, 402, 603, 804, 1005, 1206, 1407, 1608, 1809, 2009, 2210, 2410, 2611, 2811, 3012, 3212, 3412,
    3612, 3811, 4011, 4210, 4410, 4609, 4808, 5007, 5205, 5404, 5602, 5800, 5998, 6195, 6393, 6590, 6786,
    6983, 7179, 7375, 7571, 7767, 7962, 8157, 8351] ++
  [8545, 8739, 8933, 9126, 9319, 9512, 9704, 9896, 10087, 10278, 10469, 10659, 10849, 11039, 11228, 11417,
    11605, 11793, 11980, 12167, 12353, 12539, 12725, 12910, 13094, 13279, 13462, 13645, 13828, 14010, 14191,
    14372, 14553, 14732, 14912, 15090, 15269, 15446, 15623, 15800, 15976, 16151, 16325] ++
  [16499, 16673, 16846, 17018, 17189, 17360, 17530, 17700, 17869, 18037, 18204, 18371, 18537, 18703, 18868,
    19032, 19195, 19357, 19519, 19680, 19841, 20000, 20159, 20317, 20475, 20631, 20787, 20942, 21096, 21250,
    21403, 21554, 21705, 21856, 22005, 22154, 22301, 22448, 22594, 22739, 22884, 23027, 23170] ++
  [23311, 23452, 23592, 23731, 23870, 24007, 24143, 24279, 24413, 24547, 24680, 24811, 24942, 25072, 25201,
    25329, 25456, 25582, 25708, 25832, 25955, 26077, 26198, 26319, 26438, 26556, 26674, 26790, 26905, 27019,
    27133, 27245, 27356, 27466, 27575, 27683, 27790, 27896, 28001, 28105, 28208, 28310, 28411] ++
  [28510, 28609, 28706, 28803, 28898, 28992, 29085, 29177, 29268, 29358, 29447, 29534, 29621, 29706, 29791,
    29874, 29956, 30037, 30117, 30195, 30273, 30349, 30424, 30498, 30571, 30643, 30714, 30783, 30852, 30919,
    30985, 31050, 31113, 31176, 31237, 31297, 31356, 31414, 31470, 31526, 31580, 31633, 31685] ++
  [31736, 31785, 31833, 31880, 31926, 31971, 32014, 32057, 32098, 32137, 32176, 32213, 32250, 32285, 32318,
    32351, 32382, 32412, 32441, 32469, 32495, 32521, 32545, 32567, 32589, 32609, 32628, 32646, 32663, 32678,
    32692, 32705, 32717, 32728, 32737, 32745, 32752, 32757, 32761, 32765, 32766, 32767]

/-- Entry `i` of the table S (06 R308). -/
def sineTable (i : Nat) : Int :=
  let k := i % 1024
  if k ≤ 256 then nth sineQuarter k 0
  else if k ≤ 512 then nth sineQuarter (512 - k) 0
  else if k ≤ 768 then -(nth sineQuarter (k - 512) 0 : Nat)
  else -(nth sineQuarter (1024 - k) 0 : Nat)

/-- The tone index of a heater (05 R248). -/
def toneIndex (chan : Nat) : Nat :=
  if chan < 32768 then 6 + 2 * ((chan / 2 % 64 + 17 * (chan / 128 % 4)) % 38) + chan % 2 else 5

/-- The range that an oscillator clamps PHASE_INC to (06 R309). -/
def clampInc (n : Nat) : Nat := clampNat 0x00418938 0x051EB851 n

/-- The tone oscillator of a heater. -/
def State.tone (s : State) (chan : Nat) : ToneOsc := s.tones.get {} chan
/-- PHASE at an oscillator cycle (06 R308 to R310). -/
def ToneOsc.phaseAt (o : ToneOsc) (cycle : Nat) : Nat := (o.phase + clampInc o.inc * (cycle - o.since)) % 2 ^ 32
/-- PHASE of a heater's oscillator. -/
def State.tonePhase (s : State) (chan : Nat) : Nat := (s.tone chan).phaseAt s.oscCycles

/-- The tone output in LSB, nearest with ties away from zero (06 R308). -/
def State.toneOutput (s : State) (chan : Nat) : Int :=
  let o := s.tone chan
  if !o.enable then 0 else
  let v := (o.amp : Int) * sineTable (s.tonePhase chan / 2 ^ 22 + o.ofs)
  let q := (2 * v.natAbs + 32767) / 65534
  if v < 0 then -(q : Int) else q

/-- What a heater DAC receives (06 R306). -/
def State.heaterDac (s : State) (chan : Nat) : Nat :=
  (clampInt 0 0xFFFF (((s.slew chan).present : Int) + s.toneOutput chan)).toNat

/-- Twilight sets every tone and enables it; the accumulators run on (05 R247, R248; 06 R308, R310). -/
def State.startTones (s : State) : State :=
  { s with tones := (List.range 32832).map fun c =>
      (c, { inc := toneIndex c * 2 ^ 20, phase := s.tonePhase c, amp := toneAmplitude, ofs := 0, enable := true, since := s.oscCycles }) }
/-- An oscillator whose registers a reset clears: its accumulator runs on (06 R308, R310). -/
def ToneOsc.cleared (o : ToneOsc) (cycle : Nat) : ToneOsc := { phase := o.phaseAt cycle, since := cycle }

/-! ## Lock detectors (05 R249, R250, R252) -/

/-- The heater whose tone a detector multiplies by: of a row that of its active bank, of a modulator row its own (05 R249,
R250). -/
def State.reference (s : State) (d : Nat) : Nat :=
  if d < 16384 then heaterChan (d / 64) (d % 64) (s.engine (d / 64)).activeB else modChan (d - 16384)

/-- One product of a detector. -/
def State.detectOne (s : State) (x : Nat × Int) : State :=
  if 16448 ≤ x.1 then s else
  let p := x.2 * s.toneOutput (s.reference x.1)
  { s with detect := s.detect.modify [] x.1 fun l =>
      (if p = 0 then [] else [(s.oscCycles, p)]) ++ l.filter fun y => decide (s.oscCycles < y.1 + 4096) }

/-- The lock detectors work: not in Doze, Retain, Off or tripped (15 R685, R689, R708). -/
def State.detecting (s : State) : Bool :=
  match s.power.state with
  | .run | .entering | .resuming => true
  | .doze | .retain | .off | .tripped => false

/-- TONE_OSCILLATOR_CYCLE: every oscillator adds its increment to its phase, and each lock detector multiplies the low-frequency
current of its row by the tone reference (05 R249; 06 R308, R310). A detector that is not listed has no such current. -/
def execToneOscillatorCycle (s : State) (currents : List (Nat × Int) := []) : Res :=
  ok (forEach (if s.detecting then currents else []) (fun s x => s.detectOne x) { s with oscCycles := s.oscCycles + 1 })

/-- A detector's integral over the trailing 4,096 oscillator cycles (05 R249). -/
def State.detected (s : State) (d : Nat) : Int :=
  ((s.detect.get [] d).filter fun y => decide (s.oscCycles < y.1 + 4096)).foldl (fun (a : Int) y => a + y.2) 0

/-- A detector's lock error exceeds ±0.35 °C: a current in step with its tone reference, as large as the tone itself, stands for
1 m°C, and the square of a tone sums to 2,048 times its amplitude's square (05 R249, R252; log 109). -/
def State.lockBad (s : State) (d : Nat) : Bool :=
  let amp := (s.tone (s.reference d)).amp
  decide (350 * 2048 * amp * amp < (s.detected d).natAbs) && decide (0 < amp)

end Sys2Proof.Machine
end

