-- ==== Sys2Proof/Machine/Lock.lean ====
section
/-! DEFINITION. Locking and calibration (05), compute combs (02 R45 to R49, R84, R85; 05 R242 to R244; 06 R331 to R333), and mapping out failed units (16 R722 to R727). -/

namespace Sys2Proof.Machine

/-! ## Rates, temperatures and limits -/

/-- The least-squares slope of a sector's mean die temperature over the trailing 12 frames, in m°C per frame, times 286;
0 until 12 means exist (05 R268; log 40). -/
def State.rateSum (s : State) (k : Nat) : Int :=
  let m := (s.sector k).means
  if m.length < 12 then 0 else
  ((List.range 12).zip m).foldl (fun (a : Int) (x : Nat × Int) => a + (11 - 2 * (x.1 : Int)) * x.2) 0
/-- The rate estimate exceeds 6 °C/ms in magnitude, that is 49.152 m°C per frame (05 R269). -/
def State.fastRate (s : State) (k : Nat) : Bool := decide (14057472 < 1000 * (s.rateSum k).natAbs)
/-- The rate estimate is below 2 °C/ms in magnitude (05 R265). -/
def State.slowRate (s : State) (k : Nat) : Bool := decide (1000 * (s.rateSum k).natAbs < 4685824)
/-- The sector's mean die temperature lies in 25 °C to 105 °C (05 R244); before any mean it counts as inside. -/
def State.tempOk (s : State) (k : Nat) : Bool :=
  match (s.sector k).means with
  | [] => true
  | t :: _ => decide (25000 ≤ t) && decide (t ≤ 105000)
/-- Residuals, in 1/256 ADC LSB, as what R297 tests: engine, sum of squares, peak, count. -/
def residOf (e : Nat) (l : List Int) : Nat × Dy × Dy × Nat :=
  l.foldl (fun a r => (e, a.2.1.add ⟨r * r, -16⟩, a.2.2.1.max ⟨r.natAbs, -8⟩, a.2.2.2 + 1)) (e, Dy.zero, Dy.zero, 0)
/-- The shadow residual of a calibration or recovery run exceeds RESID_LIMITS (05 R266, R278; 07 R377). -/
def State.residOver (s : State) (l : List Int) : Bool := s.residualHigh (residOf 0 l)
/-- The residual of a sample, in 1/256 ADC LSB; one whose conversion clipped has none (07 R375, R376). -/
def Sample.resid (x : Sample) : Option Int :=
  let code := if x.narrow then clampInt (-128) 127 x.raw else clampInt (-512) 511 x.raw
  if code = x.raw then some (256 * code - x.exact) else none
/-- The residuals of samples. -/
def residsOf (l : List Sample) : List Int := l.filterMap Sample.resid
/-- The residuals of a recovery run's samples: the codes before their clamp, and the exact products (05 R266, R295). -/
def runResid (codes exact : List Int) : List Int := residsOf (List.zipWith (fun c x => { raw := c, exact := x }) codes exact)
/-- The samples of a calibration slot or a recovery run enter the engine's window (05 R296; 07 R377). -/
def State.windowResid (s : State) (e : Nat) (l : List Int) : State :=
  let x := residOf e l
  s.modEngine e fun y => { y with sumSq := y.sumSq.add x.2.1, peakAbs := y.peakAbs.max x.2.2.1, samples := y.samples + x.2.2.2 }
/-- RMS and peak of residuals, 8.8 fixed point (05 R283, R296). -/
def residFigures (l : List Int) : Nat × Nat :=
  let x := residOf 0 l
  (rms88 x.2.1 x.2.2.2, peak88 x.2.2.1)
/-- The comb of an engine is in service. -/
def State.combOn (s : State) (e : Nat) : Bool := decide (2 ≤ (s.comb (combOfEngine e)).state)

/-! ## Moving displaced work (05 R262; 16 R725 to R727) -/

/-- Engines that can take an open tile: in service, of the tile's part, drained of other runs (01 R30), with room for one more tile
in progress (04 R201), and for a tile of the named range with that range free, of kept values too. -/
def State.receivers (s : State) (j : Job) (st : Stage) (t : TileRun) : List Nat :=
  (enginesOf j.mask).filter fun e => e != t.engine && s.inService e && s.drainedFor j e && decide (j.run.openCount e < st.inProgress) &&
    (match st.partOf (e / 4) with
      | some p => p.1 == t.part
      | none => false) &&
    !(t.inFile && j.run.tiles.any fun (x : TileRun) => x.engine == e && x.inFile && (!x.closed || !st.drain))

/-- A tile without its row `i`, and that row's channel as a tile of its own; `lost` of the row's passes were under way when
it stopped converting, and are issued again (16 R727). -/
def TileRun.split (t : TileRun) (i lost : Nat) : TileRun × TileRun :=
  let passes := t.need / Nat.max 1 (t.chans.filter Option.isSome).length
  let pick := fun (p : Nat → Bool) => ((List.range t.chans.length).zip t.chans).map fun x => if p x.1 then x.2 else none
  ({ t with chans := pick (fun k => k != i), need := t.need - passes, terms := t.terms - (t.issued - lost) },
   { t with chans := pick (fun k => k == i), need := passes, issued := t.issued - lost, terms := t.issued - lost })

/-- Separate the rows that satisfy a test from an open tile of a command. -/
def State.splitRows (s : State) (id : Nat) (t : TileRun) (lost : Nat → Nat) : List Nat → State × TileRun
  | [] => (s, t)
  | i :: is => match nth t.chans i none with
    | none => s.splitRows id t lost is
    | some _ =>
      let x := t.split i (lost i)
      let s := s.modJob id fun c => { c with run := { c.run with tiles := c.run.tiles.flatMap fun (y : TileRun) =>
        if y == t then (if x.1.need = 0 then [x.2] else [x.1, x.2]) else [y] } }
      s.splitRows id x.1 lost is

/-- Where the channels of a tile come to stand on another engine: on their own rows, and one displaced channel alone on the
first row whose ADC is in service, as in a patch tile (02 R94; 16 R727). -/
def State.placeOn (s : State) (st : Stage) (t : TileRun) (r : Nat) : List (Option Nat) :=
  match st.g, t.rowsOf with
  | 2, _ => t.chans
  | _, [x] => st.tileChans (s.bankChans st r 0 [x.2])
  | _, _ => t.chans

/-- Move an open tile to another engine: its slot range is copied exactly into the same range there (16 R726), and the
command carries REMAPPED (11 R542). A channel whose row is masked there stays behind as a tile of its own. The cluster that
receives the tile fetches the tile's activation tile again when it has passed it. -/
def State.moveTile (s : State) (j : Job) (st : Stage) (t : TileRun) (r : Nat) : State :=
  let alone := t.rowsOf.length == 1
  match s.splitRows j.id t (fun _ => 0) (if st.g = 2 ∨ alone = true then [] else (s.engine r).masked) with
  | (s, t) =>
    let n := st.vecB * st.vslots
    let sticky := s.tiles.any fun x => x.engine == t.engine && x.base == st.accBase && x.range
    let chans := s.placeOn st t r
    let s := if !t.inFile then s else
      (forEach t.rowsOf (fun s x =>
        let k := (chans.findIdx? (· == some x.2)).getD x.1
        forEach (List.range n) (fun s m => (s.moveBad t.engine (s.rowFile st t.engine x.1) r (s.rowFile st r k) (st.accBase + m)).setAccSlot r (s.rowFile st r k) (st.accBase + m)
          (s.accSlot t.engine (s.rowFile st t.engine x.1) (st.accBase + m))) s) s).openTile
        { engine := r, base := st.accBase, slots := n, exact := st.exact, b := st.compactExp, range := sticky } |>.noteHeld r st.accBase t.u chans
    s.modJob j.id fun c => { c with
      flags := { c.flags with remapped := true }
      run := { c.run with
        tiles := mapIf (fun (x : TileRun) => x == t) (fun x => { x with engine := r, chans := chans }) c.run.tiles
        cur := if t.u < c.run.cur.get 0 (r / 4) then c.run.cur.set 0 (r / 4) t.u else c.run.cur
        nextFetch := if t.u < c.run.nextFetch.get 0 (r / 4) then c.run.nextFetch.set 0 (r / 4) t.u else c.run.nextFetch } }

/-- The engine cannot go on with work of its own: it has left service. -/
def State.outOfWork (s : State) (e : Nat) : Bool :=
  match (s.engine e).lock with
  | .locked | .held | .calib => false
  | _ => true

/-- A tile's channels stand on rows that are masked: a displaced channel (16 R727). -/
def State.strandedRow (s : State) (st : Stage) (t : TileRun) : Bool :=
  st.g != 2 && !t.rowsOf.isEmpty && t.rowsOf.all fun x => (s.engine t.engine).masked.contains x.1

/-- Move one open tile of a command off an engine that has left service, or a displaced channel off its masked row, when
nothing of it is still under way and some engine can take it; which one is free. -/
def State.displaceTile (s : State) (id : Nat) (t : TileRun) : State :=
  match s.job? id with
  | none => s
  | some j => match j.stage? with
    | none => s
    | some st =>
      if t.closed || !(s.outOfWork t.engine || s.strandedRow st t) || (s.engine t.engine).issues.any (fun (x : Issue) => x.job == id) then s else
      match s.receivers j st t with
      | [] => s
      | rs => match takeNat s with
        | (k, s) => s.moveTile j st t (nth rs (k % rs.length) 0)

/-- Noon moves displaced work, while it runs (05 R262; 16 R729). -/
def State.displace (s : State) : State :=
  if !s.runs .noon then s else
  forEach s.jobs (fun s (j : Job) => if j.stage?.isSome then forEach j.run.tiles (fun s t => s.displaceTile j.id t) s else s) s

/-- A part of a stage has work left and no engine that is not mapped out. -/
def State.stranded (s : State) (j : Job) (st : Stage) (r : Option StageRun) (p : Nat) : Bool :=
  ((enginesOf j.mask).filter fun e => (st.partOf (e / 4)).map (·.1) == some p).all s.engineOut && match r with
    | none => true
    | some r => r.drainFrame.isNone && (decide (0 < r.unclaimed st p) || r.tiles.any fun (t : TileRun) => t.part == p && !t.closed)

/-- Commands of stages with work that no engine of their set can take any more, in the stage under way or a later one, end UNIT_FAILED
(10 R500; 16 R725). -/
def State.failStranded (s : State) : State :=
  forEach s.jobs (fun s (j : Job) => match j.body with
    | .stages l => if j.live && ((List.range l.length).zip l).any (fun (x : Nat × Stage) => decide (j.run.stage ≤ x.1) &&
          x.2.localParts.any fun p => s.stranded j x.2 (if x.1 = j.run.stage && j.run.started then some j.run else none) p) then
        s.modJob j.id fun c => c.failStage .unitFailed else s
    | _ => s) s

/-! ## Leaving and entering service (05 R244, R259 to R264, R270, R272) -/

/-- An affected engine of an excursion has relocked or has been mapped out; with the last of them the excursion ends
(05 R272). -/
def State.settled (s : State) (e : Nat) : State :=
  s.modSector (sectorOfEngine e) fun k =>
    let left := k.affected.filter fun n => n != e
    { k with affected := left, excursion := k.excursion && !left.isEmpty }

/-- The engine's banks hold nothing, and nothing is fetched for them. -/
def Engine.parked (x : Engine) : Engine := { x with bankA := {}, bankB := {}, wbufs := [] }
/-- The engine's banks that work hold the identity pattern (05 R253). -/
def Engine.underCheck (x : Engine) : Engine :=
  { x with bankA := if x.bankAFailed then {} else { pattern := true }, bankB := if x.bankBFailed then {} else { pattern := true }, wbufs := [],
           probes := 0 }

/-- An engine enters service: LOCKED, with both banks parked. -/
def State.enterService (s : State) (e : Nat) : State :=
  (s.modEngine e fun x => { x.parked with
    lock := .locked, relock := {}, recovFails := 0, lossEvent := none, lossSince := false, heldLoss := false
    discards := false, checkDue := false, toneRelock := false, lastPass := s.frame.counter, usedBy := [] }).settled e

/-- The relock starts again at the next boundary; `recov` says that its recovery run is the reason (05 R775). -/
def State.restartRelock (s : State) (e : Nat) (recov : Bool) : State :=
  s.modEngine e fun x => { x with relock := { x.relock with step := 5 }, recovFails := if recov then x.recovFails + 1 else 0 }

/-- An engine leaves service into UNLOCKED. With a check to come its banks take the identity pattern (05 R253, R264); without an
excursion its converters go on with discarded data (R263); what it has under way after a lock-loss event carries LOCK_EXCURSION
(R261, R262). -/
def Engine.removed (x : Engine) (excursion : Bool) : Engine :=
  { (if x.checkDue then x.underCheck else x.parked) with
    lock := .unlocked, discards := !excursion, staged := [], lossEvent := none, heldLoss := false
    issues := x.issues.map fun y => { y with excursion := y.excursion || x.lossEvent.isSome || x.heldLoss } }

/-- An excursion of a sector begins, or takes in more engines: those in service or in calibration become UNLOCKED, and
Dusk ramps the sector's issue power down (05 R269, R270). -/
def State.beginExcursion (s : State) (k : Nat) (engines : List Nat) (headroom : Bool) : State :=
  let es := engines.filter fun e => !s.engineOut e
  let s := if (s.sector k).excursion then s else
    let s := { s with cal := { s.cal with excursions := Nat.min 255 (s.cal.excursions + 1) } }
    s.logError 0x0002 1 0 k k (b2n headroom)
  let s := s.modSector k fun x => { x with excursion := true, ramp := true, affected := es.foldl (fun l e => insertNat e l) x.affected }
  forEach es (fun s e => s.modEngine e fun x => match x.lock with
    | .locked | .held | .calib => { x.removed true with calibAbandoned := x.calibAbandoned || x.lock == .calib }
    | _ => { x with discards := false }) s

/-- The ring trims that a slot has moved return to their coefficients (05 R278, R280). -/
def State.revertTrims (s : State) (e : Nat) : State :=
  forEach ((s.slews.filter fun (x : Nat × Slew) => decide (32832 ≤ x.1) && (x.1 - 32832) / 8192 == e).map (·.1)) (fun s c =>
    s.modSlew c fun x => { x with target := (s.slewRest c).target }) s

/-- A calibration slot is abandoned: its engine leaves service for a relock, the staged set is discarded, and the trims return (05
R280; 16 R734). -/
def State.abandonSlot (s : State) (e : Nat) : State :=
  let exc := (s.sector (sectorOfEngine e)).excursion
  ((s.revertTrims e).modEngine e fun x => { x.removed exc with calibAbandoned := true }).logError
    0x0003 1 1 e 1 (65536 * (s.engine e).residRms + (s.engine e).residPeak)

/-- ENGINE_REMOVAL: at the boundary after a lock-loss event, Twilight removes the engine from service; in its calibration
slot the slot is abandoned and the staged set discarded (05 R261 to R264, R280). -/
def execEngineRemoval (engine : Nat) (s : State) : Res :=
  let x := s.engine engine
  match x.lossEvent with
  | none => ok s
  | some f =>
    if !(decide (f < s.frame.counter) && s.runs .twilight) then ok s else
    let exc := (s.sector (sectorOfEngine engine)).excursion
    match x.lock with
    | .locked => ok ((s.modEngine engine fun x => x.removed exc).displace)
    | .calib => ok (s.abandonSlot engine)
    | _ => ok s

/-! ## Identity checks (05 R253 to R257; 02 R122) -/

/-- The identity pattern, in halves: ring `i` holds +0.5 or −0.5 (R253). -/
def identitySign (i : Nat) : Int := if Nat.testBit 0xB4E12D8796C35A0F i then 1 else -1
/-- The sum over the rings of a bank at shift `n` of their signs times what a function gives for the line that each sits on
(R253). -/
def ringSum (n : Int) (f : Nat → Dy) : Dy :=
  Dy.sum ((List.range 64).map fun (i : Nat) =>
    let l := (i : Int) + n
    if l < 0 ∨ 63 < l then Dy.zero else (Dy.ofInt (identitySign i)).mul (f l.toNat))

/-- The codes of a tone check summed by chip index (R254). -/
def chipSums (l : List CheckSym) : List Int :=
  (List.range 64).map fun t => (l.filter fun x => x.k % 64 == t).foldl (fun (a : Int) x => a + x.code) 0
/-- The sum over the rings of a bank at shift `n` of their signs times chip `t` of the line that each sits on: the rings whose product
is +1 less those whose product is −1 (R253, R254). -/
def ringTone (n : Int) (t : Nat) : Int :=
  let on := (List.range 64).filter fun (i : Nat) => decide (0 ≤ (i : Int) + n) && decide ((i : Int) + n ≤ 63)
  let minus := on.filter fun i => identitySign i != chip ((i : Int) + n).toNat t
  (on.length : Int) - 2 * minus.length
/-- The correlation of a bank's outputs with the 64 rows at a shift (R254). -/
def toneScore (sums : List Int) (n : Int) : Int := (List.range 64).foldl (fun a t => a + nth sums t 0 * ringTone n t) 0

/-- The light of line `l` in a symbol of a vector check: of a tone symbol, full scale for a chip of +1 and DAC level 0 for −1; else
what the quad has emitted (R254, R255). -/
def State.checkLight (s : State) (c : Nat) (x : CheckSym) (l : Nat) : Dy :=
  if x.tone then intensity (some (probeLevel l (x.k % 64)))
  else intensity (nth (s.cluster c).live x.k [])[l]?
/-- How far the codes of a vector check lie from the exact products at a shift: the sum of squares, in codes of 2⁻⁴ of a line's full
scale at weight 1, which is R67's for weights up to 0.5 (R255; 02 R67; log 110). -/
def State.vectorMiss (s : State) (c : Nat) (l : List CheckSym) (n : Int) : Dy :=
  Dy.sum (l.map fun x =>
    let d := (Dy.ofInt x.code).sub ((ringSum n (s.checkLight c x)).scale 3)
    d.mul d)

/-- The best of the three shifts by a score, where one is better than both others (R253; log 110). -/
def bestShift (score : Int → Dy) : Option Int :=
  [-1, 0, 1].find? fun n => [-1, 0, 1].all fun m => m == n || (score m).lt (score n)

/-- What a check reports of a bank (R253 to R255). -/
def State.shiftOf (s : State) (e : Nat) (tone : Bool) (r : CheckReading) : Option Int :=
  if tone then
    let sums := chipSums r.syms
    bestShift fun n => Dy.ofInt (toneScore sums n)
  else bestShift fun n => (s.vectorMiss (e / 4) r.syms n).neg

/-- The report of a check, once it has converted 512 probe symbols of each bank, or 1,024 symbols in the vector form, on every row
whose ADC is in service; its tone symbols are probe symbols of the quad: ones that carried no vector (R254, R255). -/
def State.checkShifts (s : State) (e : Nat) (tone : Bool) (l : List CheckReading) : Option (List BankShift) :=
  let x := s.engine e
  let banks := ((List.range 64).filter fun r => !x.masked.contains r).flatMap fun r =>
    [(r, false), (r, true)].filter fun k => !(if k.2 then x.bankBFailed else x.bankAFailed)
  let whole := fun (r : CheckReading) => decide ((if tone then 512 else 1024) ≤ r.syms.length) &&
    r.syms.all fun y => y.tone || (!tone && decide (y.k < (s.cluster (e / 4)).live.length))
  let found := banks.map fun k => l.find? fun r => r.row == k.1 && r.isB == k.2 && whole r
  let tones := [false, true].map fun b => ((l.filter fun r => r.isB == b).map fun r => (r.syms.filter fun y => y.tone).length).foldl Nat.max 0
  if found.all Option.isSome && decide (sumNat tones ≤ x.probes) then
    some (found.filterMap fun r => r.map fun r => { row := r.row, isB := r.isB, shift := s.shiftOf e tone r })
  else none

/-! ## Relock (05 R264 to R266, R775) -/

/-- RELOCK_START: the first check begins, when the sector's rate estimate, the engine's headroom and its comb allow it; a
sector in excursion may ramp its power up again (05 R265, R266, R270). -/
def execRelockStart (engine : Nat) (s : State) : Res :=
  let x := s.engine engine
  let k := sectorOfEngine engine
  let waits := x.lock == .unlocked || (x.lock == .search && x.relock.step == 4)
  if !(waits && s.runs .twilight && s.slowRate k && x.beyond.isEmpty && s.combOn engine) then ok s else
  let s := s.modEngine engine fun x => { x.underCheck with
    lock := .verify, lossEvent := none, checkDue := false, relock := { startFrame := s.frame.counter, step := 0, search := [] } }
  ok (if (s.sector k).affected.contains engine then s.modSector k fun y => { y with ramp := false } else s)

/-- Declare a unit failed: the next boundary maps it out (16 R724). -/
def State.declare (s : State) (u : Unit') (cause : Nat) : State :=
  if s.mapped.contains u || s.failing.any (fun x => x.1 == u) then s else { s with failing := s.failing ++ [(u, cause)] }

/-- A bank has passed an identity check: its heater's setting is its lock-point centre (05 R246). -/
def State.setCentre (s : State) (e row : Nat) (isB : Bool) : State :=
  let c := heaterChan e row isB
  { s with centres := s.centres.set 0 c (s.slew c).present }.modEngine e fun x => { x with
    beyond := x.beyond.filter fun k => k != (row, isB) || beyondCentre (s.slew c).present (s.slew c).target }

/-- One bank's report of an identity check (05 R246, R253, R257, R264, R267, R775): its centre when it passes; the log entry and
count of a bank on another line; the marks that the next check reads, and the failure of a bank that fails twice. -/
def State.bankReport (s : State) (e detail : Nat) (b : BankShift) : State :=
  let x := s.engine e
  let key := (b.row, b.isB)
  let drop := fun (l : List (Nat × Bool)) => l.filter fun k => k != key
  if (if b.isB then x.bankBFailed else x.bankAFailed) then s else
  match b.shift with
  | none =>
    let s := s.modEngine e fun x => { x with undecided := drop x.undecided ++ [key], searched := drop x.searched }
    if x.undecided.contains key then s.declare (.bank e b.isB) 1 else s
  | some n =>
    if n = 0 then
      (s.modEngine e fun x => { x with undecided := drop x.undecided, searched := drop x.searched, invalid := drop x.invalid }).setCentre
        e b.row b.isB
    else
      let s := { s with cal := { s.cal with wrongLine := Nat.min 255 (s.cal.wrongLine + 1) } }
      let s := s.logError 0x0001 1 1 e (b.row + 256 * b2n b.isB + 4096 * toBits n 4) detail
      let s := s.modEngine e fun x => { x with undecided := drop x.undecided, searched := drop x.searched,
                                               invalid := drop x.invalid ++ [key] }
      if x.searched.contains key then s.declare (.bank e b.isB) 1 else s

/-- The banks of a report that sit on another line, and how many lines off. -/
def wrongBanks (l : List BankShift) : List (Nat × Bool × Int) :=
  l.filterMap fun b => match b.shift with
    | some n => if n = 0 then none else some (b.row, b.isB, n)
    | none => none

/-- The index search begins: each bank on another line moves its heater by as many line spacings (05 R257); an idle bank on its own
line follows its row's active one (R250). -/
def State.startSearch (s : State) (e : Nat) (l : List (Nat × Bool × Int)) : State :=
  forEach l (fun s x =>
    let s := s.setBankHeater e x.1 x.2.1 0 65535 (((s.slew (heaterChan e x.1 x.2.1)).present : Int) + x.2.2 * lineBits)
    if l.any fun y => y.1 == x.1 && y.2.1 != x.2.1 then s else s.followIdle e x.1 x.2.1) s

/-- A check of an engine that is out of service ends: logged when it is UNLOCKED and an event has started one; the first check of a
relock leads to index search and acquisition, the second to the recovery run or to a restart (05 R264, R266, R775). -/
def State.checkDone (s : State) (e : Nat) (shifts : List BankShift) : State :=
  let x := s.engine e
  let s' := forEach shifts (fun s b => s.bankReport e 0 b) s
  match x.lock, x.relock.step with
  | .unlocked, _ => if x.checkDue then s'.modEngine e fun x => { x.parked with checkDue := false } else s
  | .verify, 0 =>
    let l := wrongBanks shifts
    (s'.modEngine e fun x => { x.parked with lock := .search, relock := { x.relock with step := 1, search := l } }).startSearch e l
  | .verify, 2 =>
    if shifts.all fun b => b.shift == some 0 then s'.modEngine e fun x => { x.parked with relock := { x.relock with step := 3 } }
    else (s'.modEngine e Engine.parked).restartRelock e false
  | _, _ => s

/-- VECTOR_CHECK_COMPLETE (05 R255, R257, R264, R266); a quad whose modulator row has lost lock relocks by tone checks (R258). -/
def execVectorCheckComplete (engine : Nat) (readings : List CheckReading) (s : State) : Res :=
  if s.runs .twilight = false ∨ (s.engine engine).toneRelock = true then ok s else
  match s.checkShifts engine false readings with
  | some l => ok (s.checkDone engine l)
  | none => ok s

/-- The quad's modulator row has passed a tone check, and its heater stands at its lock point (05 R240), or failed one; two failures in
succession fail it (16 R724). -/
def State.modRowCheck (s : State) (c : Nat) (good : Bool) : State :=
  let n := if good then 0 else (s.cluster c).modFails + 1
  let s := s.modCluster c fun x => { x with modFails := n }
  let s := if good then { s with centres := s.centres.set 0 (modChan c) (s.slew (modChan c)).present } else s
  if 2 ≤ n then s.declare (.modulator c 0) 5 else s

/-- A check in a calibration slot: a bank on another line, with no lock-loss event since the last passing check, flags
every command that has used the engine since then (05 R267). A check that all banks pass is the new passing check. -/
def State.slotCheck (s : State) (e : Nat) (shifts : List BankShift) : State :=
  let x := s.engine e
  let wrong := !(wrongBanks shifts).isEmpty
  let silent := wrong && !x.lossSince
  let s := forEach shifts (fun s b => s.bankReport e (if x.lossSince then 0 else x.lastPass) b) s
  let s := if silent then s.flagJobs (fun j => x.usedBy.contains j.id) fun f => { f with lockExcursion := true } else s
  if shifts.all fun b => b.shift == some 0 then
    s.modEngine e fun x => { x with lastPass := s.frame.counter, usedBy := [], lossSince := false }
  else s

/-- TONE_CHECK_COMPLETE: of an engine in its calibration slot (05 R267, R278), or of one whose quad relocks by tone checks (R258); it
tests the modulator row at the same time (R254). -/
def execToneCheckComplete (engine : Nat) (readings : List CheckReading) (modRowOk : Bool) (s : State) : Res :=
  let x := s.engine engine
  let calib := x.lock == .calib
  if !(s.runs .twilight && (calib || x.toneRelock)) then ok s else
  match s.checkShifts engine true readings with
  | none => ok s
  | some l =>
    let s := s.modRowCheck (engine / 4) modRowOk
    ok (if calib then s.slotCheck engine l else s.checkDone engine l)

/-- INDEX_SEARCH_COMPLETE: the bank's heater has moved by one line spacing; its next check follows an index search (05
R257). -/
def execIndexSearchComplete (engine row : Nat) (isB : Bool) (s : State) : Res :=
  let x := s.engine engine
  let c := s.slew (heaterChan engine row isB)
  if x.lock = .search ∧ x.relock.step = 1 ∧ (x.relock.search.any fun k => k.1 == row && k.2.1 == isB) = true ∧ c.present = c.target then
    ok (s.modEngine engine fun x => { x with
      searched := x.searched ++ [(row, isB)]
      relock := { x.relock with search := x.relock.search.filter fun k => !(k.1 == row && k.2.1 == isB) } })
  else ok s

/-- ACQUISITION_COMPLETE: every bank holds its line, and the second check begins (05 R266). -/
def execAcquisitionComplete (engine : Nat) (s : State) : Res :=
  let x := s.engine engine
  if x.lock = .search ∧ x.relock.step = 1 ∧ x.relock.search.isEmpty = true ∧ s.runs .twilight = true then
    ok (s.modEngine engine fun x => { x.underCheck with lock := .verify, relock := { x.relock with step := 2 } })
  else ok s

/-- The slot keys of an engine's accumulator files (04 R215). -/
def accOf (e k : Nat) : Bool := k / 40960 == e
/-- An engine has run two exact tiles of 64 vectors in ping-pong, which use all 640 slots of its rows: what stands in them then the
manual does not say (04 R202; log 98). Whether their tiles carry the sticky bit is free. -/
def State.selfTiles (s : State) (e : Nat) : State :=
  match takeNat s with
  | (n, s) => { s with
      acc := s.acc.keep fun k => !accOf e k
      carries := s.carries.keep fun k => !accOf e k
      accRuns := s.accRuns.modify 0 e fun n => n + 1
      tiles := (s.tiles.filter fun t => t.engine != e) ++
        [{ engine := e, base := 0, slots := 320, exact := true, b := 0, range := n % 2 == 1 },
         { engine := e, base := 320, slots := 320, exact := true, b := 0, range := n / 2 % 2 == 1 }] }

/-- RECOVERY_RUN_COMPLETE: the verification run has used all accumulator slots (04 R202). `codes` and `exact` are the samples that the
shadow unit took of it, codes before their clamp (07 R374 to R377). Within RESID_LIMITS the engine returns to
service; otherwise the relock starts again, and after three such restarts in succession the engine is mapped out (05 R244, R266,
R272, R775). -/
def execRecoveryRunComplete (engine : Nat) (codes exact : List Int) (s : State) : Res :=
  let x := s.engine engine
  if !(x.lock == .verify && x.relock.step == 3 && s.runs .twilight && s.tempOk (sectorOfEngine engine)) then ok s else
  let s := (s.selfTiles engine).windowResid engine (runResid codes exact)
  if !s.residOver (runResid codes exact) then ok (s.enterService engine)
  else
    let s := s.restartRelock engine true
    ok (if 3 ≤ (s.engine engine).recovFails then s.declare (.engine engine) 0 else s)

/-- RATE_EXCURSION: 38 consecutive estimates above 6 °C/ms declare an excursion of the whole sector; one for headroom takes in the
sector's other engines (05 R269). -/
def execRateExcursion (sector : Nat) (s : State) : Res :=
  let x := s.sector sector
  let es := (List.range 64).map fun i => 64 * sector + i
  if decide (38 ≤ x.fastCount) && s.runs .twilight && es.any fun e => !s.engineOut e && !x.affected.contains e then
    ok (s.beginExcursion sector es false)
  else ok s

/-! ## The calibration rotation (05 R275 to R286, R293) -/

/-- A CALIBRATE under way names the engine, and its slot began after the admission (05 R283). -/
def Job.takesCalib (j : Job) (e start : Nat) : Bool :=
  match j.body with
  | .calibrate _ engines => j.live && bit engines e && decide (j.decided < start) && !j.calSlots.contains e
  | _ => false

/-- The ring trims of an engine leave for their factory values (05 R293). -/
def State.restoreTrims (s : State) (e : Nat) : State :=
  let old := s.cal.active.vals.filter fun v => coefIsTrim v.1 && coefEngine v.1 == e
  let set := { s.cal.active with vals := s.cal.active.vals.filter fun v => !(coefIsTrim v.1 && coefEngine v.1 == e) }
  let held := old.map fun v => match v.1 with
    | .trim b i => (32832 + 64 * b + i, (s.slew (32832 + 64 * b + i)).present)
    | _ => (0, 0)
  forEach held (fun s x => s.modSlew x.1 fun y => { y with target := (s.slewRest x.1).target, present := x.2 })
    { s with cal := { s.cal with active := set } }

/-- CALIB_SLOT_START: the engine whose slot begins leaves service, when it is LOCKED; both banks are parked (05 R276,
R278). Ring trims that RESTORE_FACTORY has replaced begin to move (R293). -/
def execCalibSlotStart (engine : Nat) (s : State) : Res :=
  let x := s.engine engine
  if s.frame.counter % 16 == 0 && s.cal.rotating && s.runs .twilight && x.lock == .locked && x.lossEvent.isNone &&
      s.slotEngine (sectorOfEngine engine) s.frame.counter == some engine then
    let now := x.trimsStale && !s.slotTested engine s.frame.counter
    let s := s.modEngine engine fun x => { x.parked with
      lock := .calib, calibAbandoned := false, staged := [], trimsStale := x.trimsStale && !now }
    ok (if now then s.restoreTrims engine else s)
  else ok s

/-- What an engine's slot has fitted by a boundary is staged, by the steps of its table, within its converter's range (05 R278,
R279; 06 R301). -/
def State.stageFit (s : State) (x : Fit) : State :=
  let p := s.frame.counter % 16
  if (s.engine x.engine).lock == .calib && coefSetBy x.coef x.engine && !coefIsTrim x.coef && decide (coefStagedFrom x.coef ≤ p) &&
      decide (p ≤ 14) then
    s.modEngine x.engine fun y => { y with staged := y.staged.filter (fun v => v.1 != x.coef) ++ [(x.coef, coefClamp x.coef x.value)] }
  else s

/-- The tone check of a slot runs from its frame 1 on: while it is under test, a bank holds the identity pattern (05 R253, R278). -/
def State.slotPatterns (s : State) : State :=
  if s.frame.counter % 16 ≠ 1 then s else
  { s with engines := s.engines.map fun (x : Nat × Engine) => (x.1, if x.2.lock = .calib then x.2.underCheck else x.2) }

/-- What the readings of a slot say beyond its fit: its samples enter the engine's window (R296; 07 R377); rows whose trims cannot be set are declared failed (16 R724), a reference off by
more than 0.5 % is logged (05 R289), and a verification above RESID_LIMITS is logged (R278). -/
def State.slotResults (s : State) (e : Nat) (o : CalibObs) : State :=
  let x := residFigures (residsOf o.after)
  let s := s.windowResid e (residsOf (o.before ++ o.after))
  let s := if s.residOver (residsOf o.after) then s.logError 0x0003 1 1 e 0 (65536 * x.1 + x.2) else s
  let s := forEach o.badRows (fun s r => s.declare (.rowAdc e r) 3) s
  forEach o.vrefPpm (fun s (x : Nat × Int) =>
    if 5000 < x.2.natAbs then s.logError 0x0602 7 0 x.1 x.1 (toBits x.2 64) else s) s

/-- Staged coefficients take effect, those of the slot's engine and of its quad; the ring trims that the slot has moved are
coefficients too (05 R279). -/
def State.applyStaged (s : State) (e : Nat) : State :=
  let chans := (s.slews.filter fun (x : Nat × Slew) => decide (32832 ≤ x.1) && (x.1 - 32832) / 8192 == e).map (·.1)
  let trims := chans.map fun c => (trimCoef c, ((s.slew c).target : Int))
  let now := chans.map fun c => (c, s.slew c)
  let s := { s with cal := { s.cal with active := s.cal.active.puts ((s.engine e).staged ++ trims) } }
  forEach now (fun s x => s.modSlew x.1 fun _ => x.2) s

/-- What a slot that ends leaves with a command that takes part in it (05 R283, R285). -/
def slotRecord (e start : Nat) (tested : Bool) (o : CalibObs) (j : Job) : Job :=
  if j.takesSlot e start then { j with calSlots := j.calSlots ++ [e] }
  else if j.takesCalib e start then
    let x := residFigures (residsOf o.before)
    let y := residFigures (residsOf o.after)
    { j with calSlots := j.calSlots ++ [e]
             calib := if tested then j.calib else j.calib ++ [(e, x.1, x.2, y.1, y.2)] }
  else j

/-- Every named engine of a command has had its slot or is mapped out (05 R283, R285). -/
def State.slotsHad (s : State) (j : Job) (engines : Nat) : Bool :=
  (bitList 256 engines).all fun e => j.calSlots.contains e || s.engineOut e

/-- The active set as it stands at the boundary after the last named slot of a CALIBRATE with SAVE (05 R284). -/
def State.keepSets (s : State) : State :=
  { s with jobs := s.jobs.map fun (j : Job) => match j.body with
    | .calibrate true engines =>
      if j.live && j.saveSet.isNone && s.slotsHad j engines then { j with saveSet := some s.cal.active } else j
    | _ => j }

/-- CALIB_SLOT_END, at the boundary that ends a slot: the staged coefficients take effect, unless the verification exceeds
RESID_LIMITS or SELFTEST has taken the slot, which runs two exact tiles over all accumulator slots and keeps the coefficients (04
R202), and the engine enters LOCKED, or SEARCH when its tone check found it on another line (05 R267, R278, R279, R283, R285,
R293). Outside 25 °C to 105 °C it does not enter service (R244; log 115). An engine that stays out converts discarded data (R263). A
lock-loss event of the slot that has not been acted on abandons it (R280). When Twilight has stopped in the slot, the engine returns
to service with its previous coefficients, and at once into HELD while Twilight is stopped (R273, R282). -/
def execCalibSlotEnd (engine : Nat) (obs : CalibObs) (s : State) : Res :=
  let x := s.engine engine
  if !(x.lock == .calib && s.frame.counter % 16 == 0) then ok s else
  if !s.runs .twilight then
    ok ((s.revertTrims engine).modEngine engine fun x => { x.parked with lock := .held, staged := [], heldLoss := x.lossEvent.isSome, lossEvent := none })
  else if x.lossEvent.isSome then ok (s.abandonSlot engine) else
  let start := s.frame.counter - 16
  let tested := s.slotTested engine start
  let s := match s.checkShifts engine true obs.tone with
    | some l => s.slotCheck engine l
    | none => s
  let s := if tested then s.selfTiles engine else s
  let s := if tested || x.calibAbandoned then s else s.slotResults engine obs
  let fits := !tested && !x.calibAbandoned && !s.residOver (residsOf obs.after)
  let s := if fits then s.applyStaged engine else s.revertTrims engine
  let s := { s with jobs := s.jobs.map (slotRecord engine start tested obs) }
  let exc := (s.sector (sectorOfEngine engine)).excursion
  let s := s.modEngine engine fun x =>
    let lock := if !x.invalid.isEmpty then LockState.search else if s.tempOk (sectorOfEngine engine) then .locked else .unlocked
    { x.parked with
      calFrames := if tested || x.calibAbandoned then x.calFrames else some 0
      staged := []
      lock := lock
      discards := lock != .locked && !exc
      relock := if lock = .search then { step := 4 } else x.relock }
  ok s.keepSets

/-! ## Combs (02 R47, R48, R84, R85; 05 R242 to R244, R259; 06 R331 to R333; 16 R724, R728) -/

/-- The engines of a comb. -/
def enginesOfComb (c : Nat) : List Nat := (List.range 32).map fun i => 32 * c + i

/-- The bank heaters of a comb's engines hold where they stand, while Twilight, which writes their targets, runs (02 R95; 06
R307). -/
def State.holdHeaters (s : State) (c : Nat) : State :=
  if !s.runs .twilight then s else
  { s with slews := (s.slews.map fun (x : Nat × Slew) =>
      (x.1, if x.1 / 4096 = c then { x.2 with target := x.2.present } else x.2)).filter fun x => decide (32832 ≤ x.1) || x.2 != {} }

/-- A compute comb leaves service: its engines carry no light, their banks are parked, their heaters hold, and they are OFF (02 R95;
05 R259). -/
def State.combLeaves (s : State) (c : Nat) : State :=
  let s := (s.modComb c fun x => { x with state := 0, dimmed := false }).holdHeaters c
  forEach (enginesOfComb c) (fun s e => if s.engineOut e then s else
    s.modEngine e fun x => { x.parked with
      lock := .off, relock := {}, lossEvent := none, heldLoss := false, combStopped := false, discards := false, checkDue := false
      toneRelock := false, staged := [] }) s

/-- COMB_STABLE: a permitted comb has stable lines; its engines may be locked, and their heaters hold until they relock (02 R48, R95; 05
R259). -/
def execCombStable (comb : Nat) (s : State) : Res :=
  if !(decide (comb < 8) && (s.comb comb).state == 1 && s.power.laser.getLsbD comb && !(s.comb comb).failed) then ok s else
  let s := s.modComb comb fun x => { x with state := 2, startFails := 0 }
  ok (forEach (enginesOfComb comb) (fun s e => if (s.engine e).lock = .off then
    s.modEngine e fun x => { x with lock := .search, relock := { step := 4, held := true } } else s) s)

/-- COMB_START_TIMEOUT: no stable lines within 20 ms of a permitted start; the second time the comb has failed
(16 R724). -/
def execCombStartTimeout (comb : Nat) (s : State) : Res :=
  if !(decide (comb < 8) && (s.comb comb).state == 1) then ok s else
  let n := (s.comb comb).startFails + 1
  let s := s.modComb comb fun x => { x with startFails := n, state := if n < 2 then 1 else 0 }
  ok (if 2 ≤ n then s.declare (.comb comb) 4 else s)

/-- COMB_OUTPUT_DROP: the comparator stops group issue on the comb's engines; what they have under way carries
LOCK_EXCURSION (16 R728). A comb whose bias is below 100 % has failed (R724); one whose LASER_ENABLE bit is clear has not
(02 R95). -/
def execCombOutputDrop (comb : Nat) (s : State) : Res :=
  if !(decide (comb < 8) && decide (2 ≤ (s.comb comb).state)) then ok s else
  let s := forEach (enginesOfComb comb) (fun s e =>
    (s.flagJobs (fun j => (s.engine e).issues.any fun (i : Issue) => i.job == j.id) fun f => { f with lockExcursion := true }).modEngine e
      fun x => { x with combStopped := true }) s
  ok (if s.power.laser.getLsbD comb && decide ((s.comb comb).bias < 1000) then s.declare (.comb comb) 4 else s)

/-! ## Mapping out (16 R722 to R727, R731, R734; 05 R257, R276) -/

/-- An engine is mapped out, with the log entry of its cause; commands with values in a failed accumulator file end
UNIT_FAILED (16 R724, R725). -/
def State.mapEngine (s : State) (e : Nat) : State :=
  if s.engineOut e then s else
  (s.modEngine e fun x => { x.parked with
    lock := .mappedOut, relock := {}, lossEvent := none, discards := false, checkDue := false, toneRelock := false, staged := []
    outAt := s.frame.counter }).settled e

/-- Map several engines out. -/
def State.mapEngines (s : State) (es : List Nat) : State := forEach es (fun s e => s.mapEngine e) s

/-- Commands that hold values in the accumulator file of an engine. -/
def Job.valuesOn (j : Job) (e : Nat) : Bool :=
  j.phase == .running && ((match j.body with
    | .acc _ _ _ _ _ _ _ engines => bit engines e
    | _ => false) || j.run.tiles.any fun (t : TileRun) => t.engine == e)

/-- The commands of stages whose cluster set holds a cluster. -/
def State.flagRemapped (s : State) (p : Nat → Bool) : State :=
  s.flagJobs (fun j => j.phase == .running && (match j.body with
    | .stages _ => (bitList 64 j.mask).any p
    | _ => false)) fun f => { f with remapped := true }

/-- Map out a bank: its engine runs single-bank, or with both banks failed is mapped out itself (05 R257). -/
def State.mapBank (s : State) (e : Nat) (isB : Bool) : State :=
  let s := s.logError 0x0100 2 1 e (b2n isB) 0
  let s := s.modEngine e fun x => { (x.setBank isB {}) with
    bankAFailed := x.bankAFailed || !isB
    bankBFailed := x.bankBFailed || isB
    activeB := !isB
    undecided := x.undecided.filter fun k => k.2 != isB
    searched := x.searched.filter fun k => k.2 != isB
    invalid := x.invalid.filter fun k => k.2 != isB
    beyond := x.beyond.filter fun k => k.2 != isB
    relock := { x.relock with search := x.relock.search.filter fun k => k.2.1 != isB } }
  let x := s.engine e
  if x.bankAFailed && x.bankBFailed then
    { (s.logError 0x0101 2 1 e 1 0).mapEngine e with mapped := s.mapped ++ [.engine e] } else s

/-- A bank without a row whose ADC is masked: at G = 32 and 64 the row's rings are parked (02 R62, R94). -/
def Bank.parkRow (b : Bank) (row : Nat) : Bank :=
  if b.pair then b else { b with rows := ((List.range b.rows.length).zip b.rows).map fun x => if x.1 = row then {} else x.2 }
/-- An issue without a row that converts no more. -/
def Issue.dropRow (y : Issue) (row : Nat) : Issue :=
  if y.pair then y else { y with rows := ((List.range y.rows.length).zip y.rows).map fun x => if x.1 = row then none else x.2 }

/-- A row of an engine is masked: its rings are parked and it converts nothing more; the channel that a tile in progress has on
it is displaced into a tile of its own (02 R94; 16 R727). -/
def State.maskRow (s : State) (e row : Nat) : State :=
  let x := s.engine e
  let s := forEach s.jobs (fun s (j : Job) => match j.stage? with
    | none => s
    | some st => if st.g = 2 then s else
      let out := (x.issues.filter fun (y : Issue) => y.job == j.id && !y.arrived.contains row && (nth y.rows row none).isSome)
      forEach (j.run.tiles.filter fun (t : TileRun) => t.engine == e && !t.closed) (fun s t =>
        (s.splitRows j.id t (fun _ => (out.filter fun (y : Issue) => y.vec / st.vecB == t.u).length)
[row]).1) s) s
  s.modEngine e fun x => { x with
    masked := insertNat row x.masked, bankA := x.bankA.parkRow row, bankB := x.bankB.parkRow row
    issues := (x.issues.map fun y => y.dropRow row).filter fun y => !y.over }

/-- Map out a row ADC: the row is masked; both rows of a pair fail the engine (02 R74, R94; 16 R724). -/
def State.mapRow (s : State) (e row cause : Nat) : State :=
  let s := (s.logError 0x0102 2 4 e row 0).maskRow e row
  let other := if row % 2 = 0 then row + 1 else row - 1
  if (s.engine e).masked.contains other then
    { (s.logError 0x0101 2 1 e cause 0).mapEngine e with mapped := s.mapped ++ [.engine e] } else s

/-- What mapping out a unit does (16 R724, R725, R734). -/
def State.mapOut (s : State) (u : Unit') (cause : Nat) : State :=
  match u with
  | .engine e => (s.logError 0x0101 2 1 e cause 0).mapEngine e
  | .accFile e =>
    let s := (s.logError 0x0101 2 1 e 2 0).mapEngine e
    forEach s.jobs (fun s (j : Job) => if j.live && j.valuesOn e then s.modJob j.id fun c => c.failStage .unitFailed else s) s
  | .bank e isB => s.mapBank e isB
  | .rowAdc e row => s.mapRow e row cause
  | .modulator c line => (s.logError 0x0101 2 3 c 5 line).mapEngines ((List.range 4).map fun i => 4 * c + i)
  | .comb c => ((s.logError 0x0101 2 2 c 4 0).modComb c fun x => { x with failed := true, state := 0 }).mapEngines (enginesOfComb c)
  | .core n =>
    let s := s.logError 0x0101 2 5 n cause 0
    forEach (s.kernels.filter fun (k : Kernel) => k.cores.contains n) (fun s k => s.endKernel k .unitFailed) s
  | .sram c a =>
    let s := (s.logError 0x0101 2 6 c 6 a).mapEngines ((List.range 4).map fun i => 4 * c + i)
    forEach (s.kernels.filter fun (k : Kernel) => k.cores.any fun n => n / 4 == c) (fun s k => s.endKernel k .unitFailed) s
  | .lane i tx => (s.logError 0x0103 2 8 i 0 0).modLane i fun l => if tx then { l with tx := 5 } else { l with rx := 5 }
  | .stack n =>
    let s := s.logError 0x0105 2 7 n (if cause = 7 then 1 else 0) 0
    { s with stackBad := insertNat n s.stackBad }
  | .monitor k => { s.logError 0x0104 2 9 k 0 0 with monitors := s.monitors.modify {} k fun m => { m with failed := true } }

/-- The clusters whose engines or SRAM a unit takes with it. -/
def unitClusters : Unit' → List Nat
  | .engine e | .bank e _ | .rowAdc e _ | .accFile e => [e / 4]
  | .modulator c _ | .sram c _ => [c]
  | .comb c => (List.range 8).map fun i => 8 * c + i
  | _ => []

/-- UNIT_MAP_OUT: at the boundary after it was declared failed, a unit is mapped out; work moves where it can, and
commands that cannot go on end UNIT_FAILED (16 R724 to R727). -/
def execUnitMapOut (u : Unit') (s : State) : Res :=
  match s.failing.find? fun x => x.1 == u with
  | none => ok s
  | some x =>
    let s := { s with failing := s.failing.filter fun y => y.1 != u, mapped := s.mapped ++ [u] }
    let s := (s.mapOut u x.2).flagRemapped fun c => (unitClusters u).contains c
    ok s.displace.failStranded

/-! ## The boundary's part of locking (05 R240, R242 to R246, R249, R252, R258, R264, R268 to R271, R775) -/

/-- A lock-loss event of an engine, dated to this boundary (05 R252, R258, R261, R264, R274, R775): on an engine in LOCKED, HELD or
CALIB it starts a check of its banks; `mod` says that it is its quad's modulator row's. -/
def State.lossOn (s : State) (e : Nat) (mod : Bool) : State :=
  let x := s.engine e
  let acquiring := (x.lock == .verify && decide (2 ≤ x.relock.step)) || (x.lock == .search && x.relock.step == 1 && x.relock.search.isEmpty)
  match x.lock with
  | .locked | .calib => s.modEngine e fun x => { x with
      lossSince := true, checkDue := true, toneRelock := x.toneRelock || mod
      lossEvent := match x.lossEvent with
        | none => some s.frame.counter
        | some f => some f }
  | .held => s.modEngine e fun x => { x with lossSince := true, heldLoss := true, checkDue := true, toneRelock := x.toneRelock || mod }
  | .search | .verify =>
    let s := if mod then s.modEngine e fun x => { x with toneRelock := true } else s
    if acquiring then s.restartRelock e false else s
  | .unlocked => if mod then s.modEngine e fun x => { x with toneRelock := true } else s
  | _ => s

/-- The lock errors of a boundary: each detector whose error exceeds ±0.35 °C, of the active bank of a row or of a modulator row,
is a lock-loss event (05 R249, R250, R252, R258). Detectors run in hardware (R273). -/
def State.lockErrors (s : State) : State :=
  let bad := (s.detect.map (·.1)).filter s.lockBad
  let banks := bad.filter fun d => decide (d < 16384) && !s.engineOut (d / 64) && (s.engine (d / 64)).lock != .off
  let mods := bad.filter fun d => decide (16384 ≤ d)
  let s := { s with cal := { s.cal with lossCount := Nat.min 0xFFFF (s.cal.lossCount + banks.length + mods.length) } }
  let s := forEach banks (fun s d => s.lossOn (d / 64) false) s
  forEach mods (fun s d => forEach [0, 1, 2, 3] (fun s i => s.lossOn (4 * (d - 16384) + i) true) s) s

/-- The heater offset of a bank that has a centre, in LSB (05 R246). -/
def State.heaterOffset (s : State) (chan : Nat) : Int := ((s.slew chan).present : Int) - s.centres.get 0 chan
/-- The active banks of an engine that have a centre, by channel. -/
def State.activeHeaters (s : State) (e : Nat) : List Nat :=
  (s.centres.map (·.1)).filter fun c => decide (c < 32768) && c / 128 == e && (c % 2 == 1) == (s.engine e).activeB

/-- HEATER_OFFSET of every engine: the largest heater offset among its active banks, in 0.125 °C, towards zero (05 R246; ENG_LOCK;
log 109). -/
def State.heaterOffsets (s : State) : State :=
  forEach ((s.centres.filter fun x => decide (x.1 < 32768)).map fun x => x.1 / 128).eraseDups (fun s e =>
    let worst := ((s.activeHeaters e).map s.heaterOffset).foldl (fun (m d : Int) => if m.natAbs < d.natAbs then d else m) 0
    let n : Int := (61 * worst.natAbs / 12500 : Nat)
    s.modEngine e fun g => { g with heaterOfs := clampInt (-128) 127 (if worst < 0 then -n else n) }) s

/-- Headroom excursions of a boundary (05 R246, R269). -/
def State.headroom (s : State) : State :=
  forEach [0, 1, 2, 3] (fun s k =>
    let es := ((List.range 64).map fun i => 64 * k + i).filter fun e => s.inService e && !(s.engine e).beyond.isEmpty
    if es.isEmpty then s else s.beginExcursion k es true) s

/-- The rate estimate of a boundary (05 R268, R269). -/
def State.rateCounts (s : State) : State :=
  forEach [0, 1, 2, 3] (fun s k => s.modSector k fun x => { x with fastCount := if s.fastRate k then x.fastCount + 1 else 0 }) s

/-- Restarts of relocks that are due at this boundary (05 R775). -/
def State.relockRestarts (s : State) : State :=
  forEach (List.range 256) (fun s e =>
    let x := s.engine e
    if (x.lock = .search ∨ x.lock = .verify) ∧ x.relock.step = 5 then
      s.modEngine e fun x => { x with lock := .search, relock := { x.relock with step := 4, search := [] } } else s) s

/-- The frequency to which Twilight moves a comb's line L0, in kHz from 228.00 THz: `−0.014 × (T − 75)` THz and the comb loop's
correction; outside 25 °C to 105 °C the nearer end of its range (05 R240, R242, R244). -/
def combTarget (t corr : Int) : Int :=
  if t < 25000 then 700000000 else if 105000 < t then -420000000
  else clampInt (-420000000) 700000000 (-14000 * (t - 75000) + corr)

/-- The mean heater offset of a comb's locked banks, in m°C; none without such a bank (05 R242). -/
def State.meanOffset (s : State) (c : Nat) : Option Int :=
  let l := (s.centres.map (·.1)).filter fun ch => decide (ch < 32768) && combOfEngine (ch / 128) == c &&
    (s.engine (ch / 128)).lock == .locked && (ch % 2 == 1) == (s.engine (ch / 128)).activeB
  if l.isEmpty then none else some (61 * (l.map s.heaterOffset).foldl (· + ·) 0 / (100 * l.length : Int))

/-- The comb loop moves its correction, of at most ±50 GHz, so as to drive the mean heater offset towards zero: a positive one is
taken up by a higher frequency, of 14 GHz per °C at most; how far in one frame is the loop's own (05 R240, R242; log 116). -/
def combCorrection (c : Nat) (corr : Int) (mean : Option Int) : Int :=
  match mean with
  | none => corr
  | some m =>
    let step : Int := Nat.min (Config.combStep c m) (14000 * m.natAbs)
    clampInt (-50000000) 50000000 (if m < 0 then corr - step else corr + step)

/-- Twilight tracks a compute comb at a boundary, within the limits of its rate (05 R242 to R244). Before a sector has a mean
temperature, 75 °C stands for it (log 141). -/
def State.combTrack (s : State) (c : Nat) : State :=
  let busy := (enginesOfComb c).any s.inService
  let lim : Int := if busy then 917504 else 2752512
  let t := ((s.sector (c / 2)).means.head?).getD 75000
  let m := s.meanOffset c
  if (s.comb c).state < 2 then s else
  s.modComb c fun x =>
    let corr := combCorrection c x.corrKHz m
    { x with corrKHz := corr
             gridKHz := x.gridKHz + clampInt (-lim) lim (combTarget t corr - x.gridKHz)
             rangeEnd := decide (t < 25000) || decide (105000 < t)
             state := if busy then 2 else 3 }

/-- The line power set point of a compute comb, 0.01 dBm (02 R47, R84). -/
def Comb.setPoint (x : Comb) : Int := if x.dimmed then 700 else 1300

/-- The line power of a comb at a boundary, 0 to 7 compute and 8 to 11 link combs: Twilight moves its bias so as to hold the set
point, by the loop's own step (06 R331; log 116); the alarms follow (R332, R333). A link comb is locked to the anchor while its receive tap
reads above −25 dBm (12 R562). -/
def State.combSample (s : State) (c : CombSample) : State :=
  let old := if c.comb < 8 then s.comb c.comb else s.link.linkCombs.get {} (c.comb - 8)
  let sp := if c.comb < 8 then old.setPoint else Config.linkSetPoint (c.comb - 8)
  let step := Config.biasStep c.comb (sp - c.power)
  let bias := if c.power < sp then Nat.min 1000 (old.bias + step) else if sp < c.power then old.bias - step else old.bias
  let raised := decide (900 ≤ bias) && !old.alarm
  let atMax := decide (1000 ≤ bias) && decide (c.power < sp - 50)
  let f := fun (x : Comb) => { x with
    bias := bias
    power := c.power
    anchored := decide (8 ≤ c.comb) && decide (-2500 < (s.lane 258).rxPower)
    holdsLock := decide (8 ≤ c.comb) && decide ((s.lane 258).rxPower ≤ -2500) && (x.anchored || x.holdsLock)
    alarm := if 900 ≤ bias then true else if bias < 850 then false else x.alarm
    atMax := atMax }
  let s := if c.comb < 8 then s.modComb c.comb f
    else if c.comb < 12 then { s with link := { s.link with linkCombs := s.link.linkCombs.modify {} (c.comb - 8) f } } else s
  if c.comb < 12 && (raised || (atMax && !old.atMax)) then
    s.logError 0x0006 1 (if c.comb < 8 then 2 else 12) (if c.comb < 8 then c.comb else c.comb - 8) c.comb bias else s

/-- The stages of a command that may run in the frame that begins: the one under way and the one that it hands over to, or the first
of one whose first frame has come. -/
def State.stagesNow (s : State) (j : Job) : List Stage :=
  if j.phase == .running then
    j.stage?.toList ++ (if j.handover.isSome && !j.run.rerun then (j.body.stageList[j.run.stage + 1]?).toList else [])
  else if decide (j.first ≤ s.frame.counter) then (j.body.stageList[0]?).toList else []
/-- An engine converts full-range passes of its own: reference tiles or tones in its slot, checks and recovery runs, and what it
discards out of service (05 R253, R263, R278). -/
def Engine.wide (x : Engine) : Bool :=
  x.discards || (match x.lock with
    | .calib | .verify => true
    | _ => false)
/-- Whether every engine of a comb is idle or runs narrow passes in the frame, and some command runs them: the comb is dimmed (02
R84; log 41). What the frame holds are the stages that may run in it, and those whose phases are placed in it. -/
def State.combDims (s : State) (c : Nat) : Bool :=
  let runs := s.jobs.flatMap fun (j : Job) =>
    if !(j.live && (List.range 8).any fun i => bit j.mask (8 * c + i)) then [] else
    ((s.stagesNow j).map Stage.narrow) ++ (((s.phasesAt j s.frame.counter).filter fun (p : Placed) => p.phase.engSlots != 0).map
      fun p => match j.body.stageList[p.phase.stage]? with
        | some st => (st.eff p.rerun).narrow
        | none => decide (2 ≤ p.phase.arrayRow))
  !runs.isEmpty && runs.all id && (enginesOfComb c).all fun e => !(s.engine e).wide

/-- The number of frames that have passed since each engine's last calibration slot. -/
def State.ageCalib (s : State) : State :=
  { s with engines := s.engines.map fun (x : Nat × Engine) =>
      (x.1, { x.2 with calFrames := x.2.calFrames.map fun n => Nat.min (n + 1) 0xFFFFF }) }

/-- What Twilight does at a boundary, while it runs; `lit` says that the lock detectors have light (15 R685, R689). -/
def State.twilightBoundary (s : State) (o : BoundaryObs) (lit : Bool) : State :=
  let s := s.relockRestarts
  let s := if lit then s.lockErrors else s
  let s := if !s.runs .twilight then s else
    let s := s.heaterOffsets.rateCounts.headroom
    let s := forEach o.fits (fun s x => s.stageFit x) s
    let s := forEach o.combs (fun s c => s.combSample c) s
    let s := forEach (List.range 8) (fun s c => s.combTrack c) s
    forEach (List.range 8) (fun s c => s.modComb c fun x => { x with dimmed := decide (2 ≤ x.state) && s.combDims c }) s
  let s := s.ageCalib.slotPatterns
  let n0 := (s.rotation 0 (s.frame.counter - 1)).length
  let done := s.cal.rotating && s.frame.counter % 16 == 0 && n0 != 0 && s.frame.counter / 16 % n0 == 0
  let s := if done then { s with cal := { s.cal with sweeps := (s.cal.sweeps + 1) % 65536 } } else s
  if s.cal.resumeDue && s.frame.counter % 16 == 0 && s.runs .twilight then
    { s with cal := { s.cal with rotating := true, resumeDue := false } } else s

/-- Twilight stops: heaters and combs hold, engines in service enter HELD, relocks stop, and the rotation pauses (05 R273,
R282, R776). -/
def State.twilightStops (s : State) : State :=
  let s := forEach (List.range 256) (fun s e => match (s.engine e).lock with
    | .locked => s.modEngine e fun x => { x with lock := .held, heldLoss := x.lossEvent.isSome, lossEvent := none }
    | .search | .verify => s.modEngine e fun x => { x.parked with lock := .unlocked, relock := {} }
    | .calib => (s.revertTrims e).modEngine e fun x => { x with calibAbandoned := true, staged := [] }
    | _ => s) s
  { s with cal := { s.cal with rotating := false, resumeDue := false } }

/-- Twilight returns: an engine that has lost lock since enters UNLOCKED, the others LOCKED; the rotation resumes (05 R274,
R282). -/
def State.twilightReturns (s : State) : State :=
  let s := forEach (List.range 256) (fun s e => if (s.engine e).lock = .held then
    s.modEngine e fun x => if x.heldLoss then x.removed (s.sector (sectorOfEngine e)).excursion else { x with lock := .locked } else s) s
  { s with cal := { s.cal with resumeDue := !s.cal.selftest } }

end Sys2Proof.Machine
end

