-- ==== Sys2Proof/Machine/Monitors.lean ====
section
/-! DEFINITION. Monitor converters, the loss locator, ageing, residual windows and patrol scrub (06 R311 to R335; 05 R268, R289, R296; 09 R451). -/

namespace Sys2Proof.Machine

/-! ## Monitor converters (06 R311 to R325) -/

/-- The centre temperature diode's input (06 R312, R313). -/
def centreInput (k : Nat) : Nat := if k < 64 then 134 else 136

/-- Entries of a scan list (06 R317). -/
def scanLength (k : Nat) : Nat := if k < 64 then 340 else if k = 64 then 155 else 144

/-- An entry of a scan list: its input and the engine whose rows it reads, in the order of the inputs (06 R312, R313,
R317; log 44). -/
def scanEntry (k pos : Nat) : Nat × Nat :=
  if k < 64 then
    if pos < 64 then (pos, 0)
    else if pos < 320 then (64 + (pos - 64) % 64, (pos - 64) / 64)
    else if pos < 326 then (128 + (pos - 320), 0)
    else (135 + (pos - 326), 0)
  else if pos < 136 then (pos, 0) else (pos + 1, 0)

/-- The corrected result of a raw code (06 R324), rounded to nearest, ties to even (log 42). -/
def correct (m : Monitor) (raw : Int) : Int :=
  clampInt (-(2 ^ 23)) (2 ^ 23 - 1) (⟨(raw - 16 * m.offset) * (2 ^ 20 - m.gain), -20⟩ : Dy).roundEven

/-- The monitor converter `k`. -/
def State.monitor (s : State) (k : Nat) : Monitor := s.monitors.get {} k
/-- Change monitor converter `k`. -/
def State.modMonitor (s : State) (k : Nat) (f : Monitor → Monitor) : State := { s with monitors := s.monitors.modify {} k f }

/-- A converter turns to an input with its filter: outputs before the first valid one, order × D after the change, are discarded
(06 R314). `order` is the filter's order less 1. -/
def Monitor.turn (m : Monitor) (input engine : Nat) : Monitor := { m with input := input, engine := engine, skip := m.order }

/-- Scan mode turns to its next input: the centre diode and the scan list in turn (06 R316). -/
def Monitor.advance (m : Monitor) (k : Nat) : Monitor :=
  if m.centreNext then { (m.turn (centreInput k) 0) with centreNext := false }
  else
    let e := scanEntry k m.scanPos
    let next := (m.scanPos + 1) % scanLength k
    { (m.turn e.1 e.2) with scanPos := next, centreNext := true, cycled := m.cycled || next == 0 }

/-- Scan mode starts: order 2 and D = 64 (06 R316, R321). -/
def Monitor.startScan (m : Monitor) (k : Nat) : Monitor :=
  ({ m with dwell := false, selfcal := false, order := 1, decim16 := 4, scanPos := 0, centreNext := false }).turn (centreInput k) 0

/-- The inputs of a converter's self-calibration: internal zero, the VREF_EXT copy and the bandgap (06 R312, R313, R321). -/
def selfcalInput (k step : Nat) : Nat :=
  if k < 64 then (match step with
    | 0 => 148
    | 1 => 146
    | _ => 147)
  else (match step with
    | 0 => 144
    | 1 => 142
    | _ => 143)
/-- A converter's self-calibration begins: internal zero, sinc4, D = 4,096 (06 R321). -/
def Monitor.startSelfcal (m : Monitor) (k : Nat) : Monitor :=
  ({ m with selfcal := true, dwell := false, order := 3, decim16 := 256, calStep := 0, calSum := 0, calN := 0 }).turn (selfcalInput k 0) 0

/-- An output of a self-calibration: four of internal zero, four of the VREF_EXT copy, one of the bandgap (06 R321). -/
def Monitor.selfcalOutput (m : Monitor) (k : Nat) (raw : Int) : Monitor :=
  let sum := m.calSum + raw
  let next := fun (m : Monitor) (n : Nat) => ({ m with calStep := n, calSum := 0, calN := 0 }).turn (selfcalInput k n) 0
  match m.calStep with
  | 0 => if m.calN + 1 < 4 then { m with calSum := sum, calN := m.calN + 1 } else next { m with calZero := sum } 1
  | 1 => if m.calN + 1 < 4 then { m with calSum := sum, calN := m.calN + 1 } else next { m with calRef := sum } 2
  | 2 => { m with calStep := 3, calGap := raw }
  | _ => m

/-- The sector of a converter; the hub's count as one of their own. -/
def sectorOfMonitor (k : Nat) : Nat := k / 16

/-- A converter self-calibrates again when its centre diode has moved more than 20 °C since it last did, one at a time per sector
(06 R322). Without a sample at the last self-calibration, the first one after it counts (log 117). -/
def State.maybeSelfcal (s : State) (k : Nat) : State :=
  let m := s.monitor k
  match m.centre, m.calTemp with
  | some t, none => s.modMonitor k fun m => { m with calTemp := some t }
  | some t, some t0 =>
    if decide (20000 < (t - t0).natAbs) && s.runs .twilight && !m.selfcal &&
        !((List.range 68).any fun i => sectorOfMonitor i == sectorOfMonitor k && (s.monitor i).selfcal) then
      s.modMonitor k fun m => m.startSelfcal k
    else s
  | none, _ => s

/-- What the sequencers supply for a reading of converter `k` (06 R327): for a modulator tap the line's shortfall of full scale, for a
row its optical load, summed over the dwell. -/
def State.dwellSum (s : State) (k : Nat) (m : Monitor) : Dy :=
  if 64 ≤ k then Dy.zero
  else if m.input < 64 then nth (s.cluster k).short m.input Dy.zero
  else if m.input < 128 then loadSum (m.input - 64) (s.now - dwellSymbols) s.now (s.engine (4 * k + m.engine)).lit
  else Dy.zero

/-- The key of a reading: its input, and the engine of a row's. -/
def Monitor.key (m : Monitor) : Nat := m.input + 256 * m.engine

/-- RESULT: the latest corrected result of the input now selected (06 R325). -/
def Monitor.shown (m : Monitor) : Int := (m.results.get (0, Dy.zero) m.key).1

/-- The power that a converter last read at an input, 0.01 dBm (06 R326). -/
def State.tapDbm (s : State) (k key : Nat) : Int := Config.tapPower k key ((s.monitor k).results.get (0, Dy.zero) key).1
/-- The lane whose receive tap an input of hub converter H`d` reads; 258 is the anchor (06 R313, R326). -/
def laneOfInput (d input : Nat) : Option Nat :=
  if 64 ≤ input ∧ input < 128 then some (64 * d + (input - 64))
  else if d = 0 ∧ (input = 145 ∨ input = 146) then some (input - 145 + 256)
  else if d = 0 ∧ input = 149 then some 258 else none
/-- Twilight refreshes a lane's receive power from its receive tap (06 R326; 12 LANE_STATE). Of the anchor, light above −25 dBm makes
RX_STATE up, less makes it dark (12 R562, R563; log 125). -/
def State.takeRxPower (s : State) (k : Nat) (m : Monitor) : State :=
  if k < 64 ∨ s.runs .twilight = false then s else
  match laneOfInput (k - 64) m.input with
  | none => s
  | some i =>
    let p := clampInt (-32767) 32767 (s.tapDbm k m.key)
    let old := (s.lane i).rx
    let s := s.modLane i fun l => { l with rxPower := p, rx := if i = 258 then (if -2500 < p then 3 else 1) else l.rx }
    if (s.lane i).rx = old then s else s.event 4 (BitVec.ofNat 32 i)

/-- A valid output becomes the latest result of its input, and in scan mode the converter turns to the next; a dwell begins (06 R316,
R318, R324, R327). -/
def State.takeResult (s : State) (k : Nat) (raw : Int) : State :=
  let m := s.monitor k
  let r := correct m raw
  let m' := { m with
    results := m.results.set (0, Dy.zero) m.key (r, s.dwellSum k m)
    centre := if m.input = centreInput k then some (Config.diodeMilliC k r) else m.centre }
  let s := s.modMonitor k fun _ => if m.dwell then m' else m'.advance k
  let s := if k < 64 then s.modCluster k fun c => { c with short := [] } else s.takeRxPower k m
  if m.input = centreInput k then s.maybeSelfcal k else s

/-- An input that a converter has (06 R312, R313). -/
def inputDefined (k input : Nat) : Bool :=
  if k < 64 then decide (input < 149) else if k = 64 then decide (input < 156) else decide (input < 145)

/-- Twilight chooses a converter's mode: scan, or dwell on one input and one filter setting; a setting that the converter does not
have changes nothing (06 R314, R316). -/
def State.chooseMode (s : State) (k : Nat) (c : MonChoice) : State :=
  match c.dwell with
  | none => s.modMonitor k fun m => m.startScan k
  | some (input, engine, order, decim) =>
    if inputDefined k input && decide (order < 4) && decide (4 ≤ decim) && decide (decim ≤ 256) && decide (engine < 4) then
      s.modMonitor k fun m => ({ m with dwell := true, order := order, decim16 := decim }).turn input
        (if decide (k < 64) && decide (64 ≤ input) && decide (input < 128) then engine else 0)
    else s

/-- MONITOR_OUTPUT: a converter's filter produces an output; outputs before the first valid one are discarded (06 R314). A valid one
becomes its input's result (R316, R324), or belongs to the self-calibration (R321, R322). Twilight may then choose its mode
(R316). -/
def execMonitorOutput (k : Nat) (o : MonOut) (s : State) : Res :=
  if 68 ≤ k then ok s else
  let m := s.monitor k
  let s := if 0 < m.skip then s.modMonitor k fun m => { m with skip := m.skip - 1 }
    else if m.selfcal then s.modMonitor k fun m => m.selfcalOutput k o.raw
    else s.takeResult k o.raw
  match o.choice with
  | some c => if s.runs .twilight && !(s.monitor k).selfcal then ok (s.chooseMode k c) else ok s
  | none => ok s

/-- A quotient rounded to nearest, ties to even; by 0 it is 0. -/
def roundDiv (n d : Int) : Int :=
  if d = 0 then 0 else
  let q := n / d
  let r := 2 * (n - q * d).natAbs
  if r < d.natAbs then q else if d.natAbs < r then q + 1 else if q % 2 = 0 then q else q + 1

/-- A quotient rounded down, or up; by 0 it is 0. -/
def roundEither (up : Bool) (n d : Int) : Int :=
  if d = 0 then 0 else if up && decide (n % d ≠ 0) then n / d + 1 else n / d

/-- OFFSET of a self-calibration: the average of internal zero in units of 16 codes (06 R321, R324), rounded as `up` says (log 42). -/
def Monitor.newOffset (m : Monitor) (up : Bool) : Int := roundEither up m.calZero 64
/-- Four times the average of the VREF_EXT copy, less an offset. -/
def Monitor.refSum (m : Monitor) (offset : Int) : Int := m.calRef - 64 * offset
/-- GAIN_ERR beside an offset: with it VREF_EXT reads 2²³ codes (06 R321, R324), rounded as `up` says (log 42). -/
def Monitor.newGain (m : Monitor) (offset : Int) (up : Bool) : Int :=
  roundEither up (2 ^ 20 * (m.refSum offset - 2 ^ 25)) (m.refSum offset)
/-- The factors of a self-calibration fit their fields, and it reads a VREF_EXT (06 R322, R323). -/
def Monitor.fits (m : Monitor) (offset gain : Int) : Bool :=
  decide (-2048 ≤ offset) && decide (offset < 2048) && decide (-2048 ≤ gain) && decide (gain < 2048) &&
    decide (0 < m.refSum offset)

/-- MONITOR_SELFCAL_COMPLETE: the factors are committed and scan mode starts, or a converter whose offset or gain leaves its field's
range, or that reads no VREF_EXT, has failed; the bandgap is compared with VREF_EXT (05 R289; 06 R321 to R323). The operands say
which way each figure that falls between two codes is rounded (log 42). -/
def execMonitorSelfcalComplete (k : Nat) (offsetUp gainUp ppmUp : Bool) (s : State) : Res :=
  let m := s.monitor k
  if m.selfcal = false ∨ m.calStep ≠ 3 then ok s else
  let offset := m.newOffset offsetUp
  let gain := m.newGain offset gainUp
  let good := m.fits offset gain
  let s := s.modMonitor k fun m =>
    let m := if good then { m with offset := offset, gain := gain } else m
    { (m.startScan k) with failed := !good, calTemp := m.centre }
  let offsetFits := decide (-2048 ≤ offset) && decide (offset < 2048)
  let s := if good then s else
    s.logError 0x0104 2 9 k (if offsetFits then 1 else 0) (toBits (if offsetFits then gain else offset) 64)
  let gap := correct { m with offset := offset, gain := gain } m.calGap
  let ref := Config.bandgapCode k
  ok (if good && decide (5 * ref.natAbs < 1000 * (gap - ref).natAbs) then
    s.logError 0x0602 7 0 (sectorOfMonitor k) (sectorOfMonitor k) (toBits (roundEither ppmUp (1000000 * (gap - ref)) ref) 64) else s)

/-- The mean die temperature of a sector in m°C, from the latest centre samples of its converters; none when no converter
contributes (06 R319, R323). -/
def State.meanTemp (s : State) (k : Nat) : Option Int :=
  let l := (List.range 16).filterMap fun i =>
    let m := s.monitors.get {} (16 * k + i)
    if m.dwell || m.selfcal || m.failed then none else m.centre
  if l.isEmpty then none else some (l.foldl (· + ·) 0 / (l.length : Int))

/-- Twilight forms the sector means of a boundary; without a contribution the last mean stands (06 R319). -/
def State.takeMeans (s : State) : State :=
  if !s.runs .twilight then s else
  forEach [0, 1, 2, 3] (fun s k => s.modSector k fun x =>
    match s.meanTemp k, x.means with
    | some t, l => { x with means := (t :: l).take 12 }
    | none, t :: l => { x with means := (t :: t :: l).take 12 }
    | none, [] => x) s

/-! ## The loss locator and ageing (06 R328 to R335) -/

/-- `10 ^ (m / 1000) ≤ n / d`, for a number of hundredths of a decibel. -/
def centiAtMost (m : Int) (n d : Nat) : Bool :=
  if m < 0 then decide (d ^ 1000 ≤ 10 ^ m.natAbs * n ^ 1000) else decide (10 ^ m.natAbs * d ^ 1000 ≤ n ^ 1000)
/-- A ratio in 0.01 dB, rounded down (log 118). -/
def centiDb (n d : Nat) : Int :=
  (List.range 15).foldl (fun (a : Int) i =>
    let b := a + 2 ^ (14 - i)
    if centiAtMost b n d then b else a) (-16384)

/-- A tap that carries all 64 lines, per line: 18.06 dB less (06 R328). -/
def State.lineDbm (s : State) (k key : Nat) : Int := s.tapDbm k key - 1806
/-- The full-scale equivalent of a modulator tap: its power over the line's mean intensity in the dwell (06 R327). -/
def State.fullScaleDbm (s : State) (k line : Nat) : Int :=
  let x := ((s.monitor k).results.get (0, Dy.zero) line).2
  let mean := (Dy.ofInt dwellSymbols).sub x
  let q := Dy.quot mean
  s.tapDbm k line - (if mean.m ≤ 0 then -16384 else centiDb q.1 (q.2 * dwellSymbols))
/-- A row's current power per line, corrected for ring absorption with its optical load in the dwell (06 R327; log 118). -/
def State.rowDbm (s : State) (k i row : Nat) : Int :=
  let key := 64 + row + 256 * i
  let load := ((s.monitor k).results.get (0, Dy.zero) key).2
  s.lineDbm k key + ((Dy.ofInt Config.absorption).mul load).roundEven / dwellSymbols

/-- The largest of a list of numbers and its place, the lowest of equals. -/
def worstOf (l : List Int) : Int × Nat :=
  ((List.range l.length).zip l).foldl (fun (b : Int × Nat) x => if x.1 = 0 ∨ b.1 < x.2 then (x.2, x.1) else b) (0, 0)
/-- The mean of a list of powers, in 0.01 dBm (log 118). -/
def meanOf (l : List Int) : Int := roundDiv (l.foldl (· + ·) 0) l.length

/-- The first stage that has lost more than 1 dB, from 1; 0 for none (06 R328). -/
def firstLoss (x : List Int) : Nat :=
  match x.findIdx? fun v => decide (100 < v) with
  | some i => i + 1
  | none => 0
/-- EXCESS of a stage in 0.1 dB, saturating (06 R328; log 118). -/
def excessOf (x : List Int) (stage : Nat) : Nat := if stage = 0 then 0 else Nat.min 255 (nth x (stage - 1) 0 / 10).toNat

/-- The path of engine `i` of cluster `k`: x[1] to x[5], the worst line, the worst row, and the detector's margin, in 0.01 dB (06
R328). -/
def State.enginePath (s : State) (k i : Nat) : List Int × Nat × Nat × Int :=
  let e := 4 * k + i
  let comb := s.lineDbm k 133
  let split := s.lineDbm k 132
  let bus := s.lineDbm k (128 + i)
  let full := (List.range 64).map (s.fullScaleDbm k)
  let taps := meanOf ((List.range 64).map (s.tapDbm k))
  let rows := (List.range 64).map fun r => s.rowDbm k i r - bus
  let x3 := worstOf (((List.range 64).zip full).map fun l => Config.lossBase e 3 l.1 - (l.2 - split))
  let x5 := worstOf (((List.range 64).zip rows).map fun r => Config.lossBase e 5 r.1 - r.2)
  let det := meanOf full + (bus - taps) + meanOf rows
  ([(s.comb (combOfEngine e)).setPoint - comb, Config.lossBase e 2 0 - (split - comb), x3.1,
    Config.lossBase e 4 0 - (bus - taps), x5.1], x3.2, x5.2, det + 2760)

/-- The result of one engine's path; with its comb out of service it stays (06 R328 to R330). -/
def State.locateEngine (s : State) (k i : Nat) : State :=
  let e := 4 * k + i
  if !s.combOn e then s else
  let p := s.enginePath k i
  let old := (s.engine e).lossStage
  let stage := firstLoss p.1
  let s := s.modEngine e fun x => { x with
    lossStage := stage, lossExcess := excessOf p.1 stage
    lossIndex := if stage = 3 then p.2.1 else if stage = 5 then p.2.2.1 else 0
    detMargin := clampInt (-128) 127 (p.2.2.2 / 10) }
  if stage = old then s else s.logError 0x0005 1 1 e stage (excessOf p.1 stage)

/-- The inputs of hub converter H`d` that read a lane: transmit and receive (06 R313, R326). -/
def laneInputs (i : Nat) : Nat × Nat := if i < 256 then (i % 64, 64 + i % 64) else (i - 256 + 147, i - 256 + 145)
/-- The path of a lane on hub converter H`d`: y[1] to y[3] in 0.01 dB (06 R328). -/
def State.lanePath (s : State) (d i : Nat) : List Int :=
  let l := s.lane i
  let k := 64 + d
  let comb := s.tapDbm k (128 + l.txLine)
  let io := laneInputs i
  [Config.linkSetPoint d - comb, Config.laneBase i l.txLine - (s.tapDbm k io.1 - comb), l.trainedPower - s.tapDbm k io.2]

/-- The result of one lane's path; it stays while the transmitter is at probe power, quiesced or failed, too (06 R328 to R330; 12
R558, R590, R598). -/
def State.locateLane (s : State) (d i : Nat) : State :=
  let tx := (s.lane i).tx
  if tx = 1 ∨ tx = 4 ∨ tx = 5 then s else
  let y := s.lanePath d i
  let old := (s.lane i).lossStage
  let stage := firstLoss y
  let s := s.modLane i fun l => { l with lossStage := stage, lossExcess := excessOf y stage }
  if stage = old then s else s.logError 0x0005 1 8 i stage (excessOf y stage)

/-- The lanes of hub converter H`d` (06 R313). -/
def lanesOf (d : Nat) : List Nat := ((List.range 64).map fun i => 64 * d + i) ++ (if d = 0 then [256, 257] else [])

/-- LOSS_LOCATOR_RUN: at the end of a scan cycle of a converter, Twilight names the first stage with excess loss of each path whose
last stage the converter reads: of quad `k` the paths of its engines, of hub converter H`k` those of its lanes (06 R313, R328 to
R330). -/
def execLossLocatorRun (hub : Bool) (k : Nat) (s : State) : Res :=
  let c := if hub then 64 + k else k
  if (if hub then 4 else 64) ≤ k ∨ s.runs .twilight = false ∨ (s.monitor c).cycled = false then ok s else
  let s := s.modMonitor c fun m => { m with cycled := false }
  if (s.monitor c).failed then ok s
  else if hub then ok (forEach (lanesOf k) (fun s i => s.locateLane k i) s)
  else ok (forEach [0, 1, 2, 3] (fun s i => s.locateEngine k i) s)

/-- Estimated remaining life of comb `j`, in units of 10 h: the distance to full bias over the least-squares slope of the
bias over the trailing 2,000 h (06 R335). -/
def lifeEst (rec : List (Nat × List Nat)) (j bias : Nat) : Nat :=
  match rec with
  | [] => 0xFFFF
  | (now, _) :: _ =>
    let l := (rec.filter fun x => decide (now ≤ x.1 + 2000)).map fun x => ((x.1 : Int), ((nth x.2 j 0 : Nat) : Int))
    let first := (rec.getLast?).map (·.1)
    let n : Int := l.length
    let sh := l.foldl (fun a x => a + x.1) 0
    let sb := l.foldl (fun a x => a + x.2) 0
    let num := n * l.foldl (fun a x => a + x.1 * x.2) 0 - sh * sb
    let den := n * l.foldl (fun a x => a + x.1 * x.1) 0 - sh * sh
    if now - first.getD now < 168 ∨ num ≤ 0 ∨ den ≤ 0 then 0xFFFF
    else Nat.min 0xFFFF (((1000 - bias : Nat) : Int) * den / num / 10).toNat

/-- The bias of comb `j` as LASER_AGE counts them. -/
def State.biasOf (s : State) (j : Nat) : Nat := if j < 8 then (s.comb j).bias else (s.link.linkCombs.get {} (j - 8)).bias

/-- Frames of 24 h of powered time (00, Device time). -/
def frames24h : Nat := 10546875000

/-- Frames of an hour. -/
def framesHour : Nat := 439453125
/-- The whole powered hours: those of the newest record and those since (06 R334). -/
def State.poweredHours (s : State) : Nat := ((s.cal.ageing.head?.map fun x => x.1).getD 0) + s.cal.sinceRecord / framesHour

/-- AGEING_RECORD_WRITE: after 24 h of powered time Dawn adds the bias of every comb and the powered hours to the record, and the
estimates of remaining life follow (06 R334, R335). The operand is the hours that the record names, the powered hours. -/
def execAgeingRecordWrite (hours : Nat) (s : State) : Res :=
  if s.runs .dawn = false ∨ s.cal.sinceRecord < frames24h ∨ hours ≠ s.poweredHours then ok s else
  let rec' := (hours, (List.range 12).map s.biasOf) :: s.cal.ageing
  let s := { s with cal := { s.cal with ageing := rec', sinceRecord := s.cal.sinceRecord % framesHour } }
  if !s.runs .twilight then ok s else
  ok (forEach (List.range 12) (fun s j =>
    let e := lifeEst rec' j (s.biasOf j)
    if j < 8 then s.modComb j fun x => { x with lifeEst := e }
    else { s with link := { s.link with linkCombs := s.link.linkCombs.modify {} (j - 8) fun x => { x with lifeEst := e } } }) s)

/-! ## Residual windows and patrol scrub (05 R296; 07 R379; 09 R448, R449, R451) -/

/-- RESID_WINDOW_END: at a boundary divisible by 128, each engine with samples shows the figures of its window (05 R296); a window
in which SAMPLE_EN was 0 leaves those of the last complete one (07 R379). -/
def execResidWindowEnd (s : State) : Res :=
  if s.frame.counter % 128 ≠ 0 then ok s else
  let whole := s.runs .twilight && !s.cal.windowCut
  let s := { s with
    cal := { s.cal with windowCut := false }
    engines := s.engines.map fun (y : Nat × Engine) => (y.1,
      let x := y.2
      { x with residRms := if 0 < x.samples ∧ whole = true then rms88 x.sumSq x.samples else x.residRms
               residPeak := if 0 < x.samples ∧ whole = true then peak88 x.peakAbs else x.residPeak
               sumSq := Dy.zero, peakAbs := Dy.zero, samples := 0 }) }
  ok (forEach s.engines (fun s y => s.showReg (0x20500 + 4 * y.1) y.2.residWord) s)

/-- The device address of granule `q` of a stack (09 R441, R453). -/
def State.granuleAddr (s : State) (stack q : Nat) : Nat :=
  let k := stack / 3
  let l := stacksOf s.remapped k
  k * 0x003000000000 + (q * l.length + (l.findIdx? (· == stack)).getD 0) * 2048

/-- SCRUB_READ: the patrol scrub reads a block of a stack in service; a correctable error is written back, an uncorrectable one poisons
the block and is logged, and a poisoned block is uncorrectable whatever the code says (09 R448, R450, R451). -/
def execScrubRead (stack granule block : Nat) (ecc : EccResult) (s : State) : Res :=
  let awake := s.power.state == .run || s.power.state == .doze
  if !(awake && decide (stack < 12) && decide (granule < 0x2000000) && decide (block < 32) && !s.stackOut stack) then ok s else
  let a := s.granuleAddr stack granule + 64 * block
  let s := { s with scrubPos := s.scrubPos.set 0 stack (2048 * granule + 64 * block) }
  let found := if s.poisoned a then .uncorrectable else if s.latent.contains (a / 64, false) && ecc == .clean then .corrected else ecc
  match found with
  | .clean => ok s
  | .corrected => ok { s with corrected := (s.corrected.modify 0 stack fun n => n + 1), latent := s.latent.filter fun x => x != (a / 64, false) }
  | .uncorrectable => ok ((s.foundBad a).logError 0x0200 3 7 stack 0 a)

end Sys2Proof.Machine
end

