-- ==== Sys2Proof/Machine/Links.lean ====
section
/-! DEFINITION. The Fawell links (12 R558 to R603): wavelength plans, lanes, slot frames, COLLECT, Polonaise hops, peer contracts and attention cycles. -/

namespace Sys2Proof.Machine

/-! ## Wavelength plans (12 R566 to R573) -/

/-- The lane entries of a link record (12 R567). -/
def parseLinkRecord (bs : List Byte) : List PlanLane :=
  (List.range 8).map fun l =>
    { txLine := bits (field bs l 1) 0 3, txEn := bit (field bs l 1) 7, txPeer := bits (field bs (16 + 2 * l) 2) 0 12,
      rxLine := bits (field bs (8 + l) 1) 0 3, rxEn := bit (field bs (8 + l) 1) 7, rxPeer := bits (field bs (32 + 2 * l) 2) 0 12,
      relay := field bs (48 + l) 1 }

/-- A peer record (12 R568). -/
def parsePeer (bs : List Byte) : PlanPeer :=
  { fa := field bs 0 4, relay := if field bs 4 2 = 0xFFFF then none else some (bits (field bs 4 2) 0 12),
    valid := bit (field bs 6 1) 0, uid := BitVec.ofNat 64 (field bs 8 8) }

/-- A plan's bytes as a plan. -/
def parsePlan (bs : List Byte) (peers : Nat) : Plan :=
  { lanes := (List.range 32).flatMap fun n => parseLinkRecord ((bs.drop (64 + 64 * n)).take 64),
    peers := (List.range peers).map fun p => parsePeer ((bs.drop (2112 + 16 * p)).take 16) }

/-- Some reserved field of a plan is nonzero (12 R566 to R568). -/
def planReserved (bs : List Byte) (peers : Nat) : Bool :=
  field bs 4 60 != 0 ||
  ((List.range 32).any fun n =>
    let r := (bs.drop (64 + 64 * n)).take 64
    field r 56 8 != 0 || ((List.range 16).any fun l => bits (field r l 1) 3 4 != 0) ||
      ((List.range 16).any fun l => bits (field r (16 + 2 * l) 2) 12 4 != 0)) ||
  ((List.range peers).any fun p =>
    let r := (bs.drop (2112 + 16 * p)).take 16
    bits (field r 6 1) 1 7 != 0 || field r 7 1 != 0 || (field r 4 2 != 0xFFFF && bits (field r 4 2) 12 4 != 0))

/-- A peer context of a plan that is VALID and direct. -/
def Plan.direct (p : Plan) (n : Nat) : Bool :=
  match p.peers[n]? with
  | some r => r.valid && r.relay.isNone
  | none => false

/-- Two elements of a list are equal. -/
def hasTwice (l : List Nat) : Bool := l.eraseDups.length != l.length

/-- Two enabled lanes of one fibre use one line (12 R565). -/
def planLines (p : Plan) : Bool :=
  (List.range 32).any fun n =>
    let l := (p.lanes.drop (8 * n)).take 8
    hasTwice ((l.filter (·.txEn)).map (·.txLine)) || hasTwice ((l.filter (·.rxEn)).map (·.rxLine))

/-- A lane entry breaks condition 3 of 12 R569. -/
def laneNames (p : Plan) (l : PlanLane) : Bool :=
  (if l.txEn then !p.direct l.txPeer else l.txPeer != 0 || l.relay != 0) || (if l.rxEn then !p.direct l.rxPeer else l.rxPeer != 0)

/-- The command holds Fawell link slots in some frame at or after one (12 R569, R570). -/
def Job.linksFrom (j : Job) (f : Nat) : Bool :=
  j.open' && ((j.placed.any fun (x : Placed) => x.phase.linkSlots != 0 && decide (f < x.first + x.n)) ||
    (decide (f ≤ j.guardEnd) && (match (j.placed.filter fun (x : Placed) => !x.rerun).getLast? with
      | some x => x.phase.linkSlots != 0
      | none => false)))

/-- The error code of a plan, 0 when it is valid (12 R569); one that cannot be read counts as out of range. -/
def State.planError (s : State) (bs : List Byte) (readable : Bool) : Nat :=
  let peers := field bs 2 2
  let p := parsePlan bs peers
  let valid := ((List.range peers).zip p.peers).filter fun (x : Nat × PlanPeer) => x.2.valid
  let fas := valid.map fun x => x.2.fa
  if !readable || field bs 0 2 != 1 || peers == 0 || decide (4096 < peers) || planReserved bs peers then 1
  else if planLines p then 2
  else if p.lanes.any (laneNames p) then 3
  else if valid.any fun x => x.2.relay.isNone &&
      !((p.lanes.any fun l => l.txEn && l.txPeer == x.1) && (p.lanes.any fun l => l.rxEn && l.rxPeer == x.1)) then 4
  else if valid.any fun x => match x.2.relay with
      | some r => !p.direct r
      | none => false then 5
  else if s.link.fabricAddr = 0 ∨ hasTwice fas = true ∨ fas.contains s.link.fabricAddr.toNat = true ∨ fas.contains 0 = true then 6
  else if s.link.planAt < s.frame.counter + 66 then 7
  else if s.jobs.any fun (j : Job) => j.linksFrom s.link.planAt then 8
  else 0

/-- PLAN_VALIDATION: Noon copies the plan and validates it (12 R569). -/
def execPlanValidation (s : State) : Res :=
  if s.link.armed ≠ 1 ∨ s.runs .noon = false then ok s else
  let a := s.link.planAddr
  let size := 2112 + 16 * Nat.min 4096 (s.word (a + 2) 2)
  let readable := s.isHbm a && s.isHbm (a + size - 1) && (s.unreadableBlock a size).isNone
  let bs := s.bytes a size
  let e := s.planError bs readable
  let s := { s with link := { s.link with armed := if e = 0 then 2 else 3, err := e, armedAt := s.link.planAt,
                                          armedPlan := if e = 0 then some (parsePlan bs (field bs 2 2)) else none } }
  ok (if e = 0 then s else s.event 3 (BitVec.ofNat 32 e))

/-- Send EVENT kind 4 for a lane whose state has changed (12 R610). -/
def State.laneEvent (s : State) (i : Nat) : State := s.event 4 (BitVec.ofNat 32 i)
/-- Change a lane and tell the sessions when its state has changed. -/
def State.setLane (s : State) (i : Nat) (f : Lane → Lane) : State :=
  let old := s.lane i
  let s := s.modLane i f
  if (s.lane i).tx = old.tx ∧ (s.lane i).rx = old.rx then s else s.laneEvent i

/-- The plan's entry of a Fawell lane. -/
def State.planLane (s : State) (i : Nat) : Option PlanLane :=
  match s.link.active with
  | some p => if i < 256 then p.lanes[i]? else none
  | none => none
/-- The receive lanes with which Midnight pairs a transmit lane: those of its link whose RX_PEER is its TX_PEER; before any plan, and on
the Rustra port, the lane of the same number (12 R593; log 122). -/
def State.pairedRx (s : State) (i : Nat) : List Nat :=
  match s.planLane i with
  | none => [i]
  | some t => ((List.range 8).map fun l => 8 * (i / 8) + l).filter fun k => match s.planLane k with
    | some r => r.rxPeer == t.txPeer && (r.rxEn || !t.txEn)
    | none => false
/-- A transmit lane may leave probe power: the plan enables it, and a paired receive lane of an enabled peer (12 R595). -/
def State.txHeard (s : State) (i : Nat) : Bool :=
  decide (256 ≤ i) || (match s.planLane i with
    | some t => t.txEn && (s.pairedRx i).any fun k => match s.planLane k with
      | some r => r.rxEn
      | none => false
    | none => false)
/-- A receive lane that the plan enables. -/
def State.rxOn (s : State) (i : Nat) : Bool :=
  decide (256 ≤ i) || (match s.planLane i with
    | some r => r.rxEn
    | none => false)

/-- A transmit lane at the activation of a plan (12 R571, R595): one whose line changes retunes, when it has trained on the new line,
or trains. -/
def Lane.activateTx (l : Lane) (p : PlanLane) (at' : Nat) (heard : Bool) : Lane :=
  let new := l.txChanges p
  let known := l.txLines.contains p.txLine
  let tx := if new && !known && (l.tx == 3) then 2 else l.tx
  { l with
    txLine := if p.txEn then p.txLine else l.txLine
    retune := if new && known then some at' else l.retune
    noSlotsUntil := if new && !known then at' + 245 else l.noSlotsUntil
    tx := if !heard && (tx == 2 || tx == 3) then 1 else tx }
/-- A receive lane at the activation of a plan (12 R571). -/
def Lane.activateRx (l : Lane) (p : PlanLane) (at' : Nat) : Lane :=
  let new := l.rxChanges p
  let known := l.rxLines.contains p.rxLine
  let rx := if new && !known && (l.rx == 3) then 2 else l.rx
  { l with
    rxLine := if p.rxEn then p.rxLine else l.rxLine
    rxRetune := if new && known then some at' else l.rxRetune
    noRxUntil := if new && !known then at' + 245 else l.noRxUntil
    rx := if !p.rxEn && (rx == 2 || rx == 3) then 0 else if p.rxEn && rx == 0 then 1 else rx }
/-- One lane index at the activation of a plan, in both directions (12 R571, R595). -/
def State.activateLane (s : State) (i at' : Nat) (p : PlanLane) : State :=
  let heard := s.txHeard i
  s.setLane i fun l => (l.activateTx p at' heard).activateRx p at'

/-- The peer contexts that keep their state across an activation (12 R573). -/
def keepsPeer (old new : Option Plan) (n : Nat) : Bool :=
  match old, new with
  | some a, some b => match a.peers[n]?, b.peers[n]? with
    | some x, some y => x.fa == y.fa && x.uid == y.uid
    | _, _ => false
  | _, _ => false

/-- PLAN_ACTIVATION: at the boundary that begins PLAN_AT the armed plan becomes active (12 R571 to R573). -/
def execPlanActivation (s : State) : Res :=
  match s.link.armedPlan with
  | none => ok s
  | some p =>
    if s.link.armed ≠ 2 ∨ s.frame.counter < s.link.armedAt then ok s else
    let old := s.link.active
    let keeps := keepsPeer old (some p)
    let s := { s with link := { s.link with
      active := some p, armedPlan := none, armed := 0, activations := (s.link.activations + 1) % 65536,
      peers := s.link.peers.keep keeps, tx := s.link.tx.filter fun t => keeps t.peer || (!t.sent && !t.resent && t.kind != 4) } }
    let s := forEach ((List.range 256).zip p.lanes) (fun s (x : Nat × PlanLane) => s.activateLane x.1 s.link.armedAt x.2) s
    ok (s.event 3 0)

/-! ## Lanes (12 R558, R589 to R596, R602; 05 R299) -/

/-- LASER_ENABLE permits a transmit lane and its link comb, which is that of IO0 for the Rustra lanes (12 R562, R596; 13
LASER_ENABLE). -/
def State.laneLit (s : State) (i : Nat) : Bool :=
  if i < 256 then s.power.laser.getLsbD (8 + i / 64) && s.power.laser.getLsbD (12 + i / 64)
  else s.power.laser.getLsbD 8 && s.power.laser.getLsbD 16
/-- The lanes of a connector (12 R597, R559). -/
def connLanes (c : Nat) : List Nat := if c < 4 then (List.range 64).map fun i => 64 * c + i else [256, 257]
/-- The connector of a lane. -/
def connOf (i : Nat) : Nat := if i < 256 then i / 64 else 4
/-- A connector. -/
def State.conn (s : State) (c : Nat) : Connector := s.link.conns.get {} c
/-- Change a connector and tell the sessions when its indicator has changed (12 R610). -/
def State.modConn (s : State) (c : Nat) (f : Connector → Connector) : State :=
  let old := (s.conn c).ind
  let s := { s with link := { s.link with conns := s.link.conns.modify {} c f } }
  let now := (s.conn c).ind
  if now = old then s else s.event 2 (BitVec.ofNat 32 (c + 256 * now))

/-- The transmit lanes paired with a receive lane (12 R593). -/
def State.pairedTx (s : State) (i : Nat) : List Nat :=
  if 256 ≤ i then [i] else ((List.range 8).map fun l => 8 * (i / 8) + l).filter fun k => (s.pairedRx k).contains i

/-- Link work for a peer goes by a direct peer: to that peer itself, or through it as a relay (12 R568). -/
def State.goesBy (s : State) (direct peer : Nat) : Bool :=
  peer == direct || ((s.link.active.bind fun p => p.peers[peer]?).bind (·.relay)) == some direct
/-- The running commands that have link work for peers that a transmit lane reaches have had it moved, from the next boundary (12 R591;
11 R542). -/
def State.flagLane (s : State) (i : Nat) : State :=
  match s.planLane i with
  | none => s
  | some p => { s with jobs := mapIf (fun (j : Job) => j.open' && j.phase == .running && j.peersNamed.any (s.goesBy p.txPeer)) (fun j =>
      { j with flags := { j.flags with remapped := true }, guardFrom := some (j.guardFrom.getD (s.frame.counter + 1)) }) s.jobs }

/-- A lane in service leaves it and retrains (12 R591). -/
def State.laneLeaves (s : State) (i : Nat) : State :=
  (s.flagLane i).setLane i fun l => { l with tx := if l.tx = 3 then 2 else l.tx, rx := 2 }

/-- LANE_TRAINING_START: the partner has answered; a transmitter that may leaves probe power, and an enabled receiver trains (12 R589,
R595). -/
def execLaneTrainingStart (lane : Nat) (s : State) : Res :=
  let l := s.lane lane
  let heard := s.txHeard lane
  let on := s.rxOn lane
  if decide (lane < 258) && s.laneLit lane && (heard || on) && (l.tx == 1 || (l.tx == 4 && (s.conn (connOf lane)).dark)) then
    ok (s.setLane lane fun l => { l with tx := if heard then 2 else 1, rx := if on then 2 else l.rx })
  else ok s

/-- The identity seen matches the lane's peer records (12 R589, R590). -/
def State.identityOk (s : State) (i : Nat) (w : LaneIdent) : Bool :=
  let ok := fun (n : Nat) => match s.link.active with
    | some p => match p.peers[n]? with
      | some r => r.valid && r.fa == w.fa && r.uid == w.uid
      | none => false
    | none => false
  match s.planLane i with
  | some p => (!p.txEn || ok p.txPeer) && (!p.rxEn || ok p.rxPeer)
  | none => false

/-- A lane enters FAILED: its transmitter stays at probe power, the entry is logged, and a connector in an attention cycle
blinks fast (12 R590, R600; 16 R734). -/
def State.laneFails (s : State) (i cause : Nat) (uid : Nat) : State :=
  let s := (s.setLane i fun l => { l with tx := 5, rx := 5, fails := 0 }).logError 0x0103 2 8 i cause uid
  let c := s.conn (connOf i)
  if (c.attn || c.replugged) && cause == 1 then s.modConn (connOf i) fun c => { c with ind := 3 } else s

/-- The mode of the Rustra port, once both lanes have trained since it was last decided (12 R602, R767; log 76). -/
def State.rustraMode (s : State) : State :=
  let a := s.lane 256
  let b := s.lane 257
  if !(s.link.retrained.contains 256 && s.link.retrained.contains 257) then s else
  let bonded := a.bond && b.bond && a.node == b.node
  let s := { s with link := { s.link with bonded := bonded, retrained := [] } }
  if bonded then forEach s.openSessions (fun s n => s.modSession n fun x => { x with port := 0 }) s else s

/-- A lane has trained: it is in service from the next boundary; a Rustra port's credits are those of its training (12
R589, R592, R602, R608; 06 R328). -/
def State.laneUp (s : State) (i : Nat) (bond : Bool) (node req data : Nat) : State :=
  let s := s.setLane i fun l => { l with
    tx := if l.tx = 2 then 3 else l.tx, rx := if l.rx = 2 then 3 else l.rx, fails := 0, bond := bond, node := node, trainedPower := l.rxPower,
    txLines := if l.tx = 2 then insertNat l.txLine l.txLines else l.txLines
    rxLines := if l.rx = 2 then insertNat l.rxLine l.rxLines else l.rxLines
    noSlotsUntil := if l.tx = 2 then Nat.max l.noSlotsUntil (s.frame.counter + 1) else l.noSlotsUntil
    noRxUntil := if l.rx = 2 then Nat.max l.noRxUntil (s.frame.counter + 1) else l.noRxUntil }
  let s := if i < 256 then s else
    (({ s with link := { s.link with
        ports := s.link.ports.set {} (i - 256) { hostReq := req, hostData := data }
        retrained := insertNat i s.link.retrained } }).rustraMode).pump (i - 256)
  let c := connOf i
  let up := (connLanes c).all fun k => ((s.lane k).tx == 3 || !s.txHeard k) && ((s.lane k).rx == 3 || !s.rxOn k)
  if (((s.conn c).attn && (s.conn c).dark) || (s.conn c).replugged) && up then s.modConn c fun _ => {} else s

/-- LANE_TRAINED: the step table has ended (12 R589, R590, R602). -/
def execLaneTrained (lane : Nat) (r : TrainResult) (s : State) : Res :=
  if (s.lane lane).tx ≠ 2 ∧ (s.lane lane).rx ≠ 2 then ok s else
  match r with
  | .failed =>
    let n := (s.lane lane).fails + 1
    ok (if 3 ≤ n then s.laneFails lane 0 0 else s.modLane lane fun l => { l with fails := n })
  | .trained w bond node req data =>
    if decide (lane < 256) && !s.identityOk lane w then ok (s.laneFails lane 1 w.uid.toNat)
    else ok (s.laneUp lane bond node req data)

/-- No receive lane of a connector sees light; of a lane in FAILED it does not show. -/
def State.allDark (s : State) (c : Nat) : Bool :=
  (connLanes c).all fun k => (s.lane k).rx == 0 || (s.lane k).rx == 1 || (s.lane k).rx == 5
/-- A connector in an attention cycle, past its quiescing, whose last receive lane becomes dark keeps the time (12 R600). -/
def State.markDark (s : State) (c : Nat) : State :=
  if (s.conn c).attn && (s.conn c).ind != 1 && !(s.conn c).dark && s.allDark c then s.modConn c fun x => { x with dark := true, darkAt := s.now }
  else s

/-- LOSS_OF_LIGHT: the paired transmit lanes go to probe power, whatever firmware does (12 R594, R600, R603). -/
def execLossOfLight (lane : Nat) (s : State) : Res :=
  if 259 ≤ lane then ok s else
  let s := s.setLane lane fun l => { l with rx := if l.rx = 5 then 5 else 1 }
  if lane = 258 then ok s else
  let s := forEach (s.pairedTx lane) (fun s k =>
    (if (s.lane k).tx = 3 then s.flagLane k else s).setLane k fun l => { l with tx := if l.tx = 2 ∨ l.tx = 3 then 1 else l.tx }) s
  ok (s.markDark (connOf lane))

/-- PROBE_PULSE: a transmit lane at probe power emits its pulse, when LASER_ENABLE permits it (12 R558, R590, R596). -/
def execProbePulse (lane : Nat) (s : State) : Res :=
  let t := (s.lane lane).tx
  if decide (lane < 258) && s.laneLit lane && (t == 1 || t == 4 || t == 5) then ok (s.send (.probe lane)) else ok s

/-- LANE_FEC_FAILURE: 16 codewords in a row that do not decode (12 R591). -/
def execLaneFecFailure (lane : Nat) (s : State) : Res :=
  if (s.lane lane).rx = 3 then ok (s.laneLeaves lane) else ok s

/-- LANE_WINDOW_END: the figures of a 128-frame window; a lane whose pre-FEC BER exceeds 2.0 × 10⁻⁴ retrains (05 R299; 12
R591, LANE_STATE). -/
def execLaneWindowEnd (figs : List LaneFigures) (s : State) : Res :=
  if s.frame.counter % 128 ≠ 0 then ok s else
  ok (forEach figs (fun s (f : LaneFigures) =>
    if 258 ≤ f.lane then s else
    let s := s.modLane f.lane fun l => { l with width := f.width, height := f.height, ber := f.ber }
    let high := match fp32.decode f.ber.toNat with
      | .fin _ m e => (Dy.ofInt 2).lt ((⟨m, e⟩ : Dy).mul (Dy.ofInt 10000))
      | _ => true
    let s := if high && (s.lane f.lane).rx == 3 then s.laneLeaves f.lane else s
    (s.showReg (0x21000 + 4 * f.lane) (s.lane f.lane).eyeWord).showReg (0x21800 + 4 * f.lane) (s.lane f.lane).shownBer.toNat) s)

/-! ## Slot frames (12 R574 to R583) -/

end Sys2Proof.Machine

namespace Sys2Proof

open Machine

/-- The fields of a slot frame's header (12 R579). -/
def SlotFrame.kind (f : SlotFrame) : Nat := field f.header 0 1
def SlotFrame.flags (f : SlotFrame) : Nat := field f.header 1 1
def SlotFrame.entry (f : SlotFrame) : Nat := field f.header 2 2
def SlotFrame.srcFa (f : SlotFrame) : Nat := field f.header 4 4
def SlotFrame.dstFa (f : SlotFrame) : Nat := field f.header 8 4
def SlotFrame.ident (f : SlotFrame) : Nat := field f.header 12 4
def SlotFrame.offset (f : SlotFrame) : Nat := field f.header 16 6
def SlotFrame.length (f : SlotFrame) : Nat := field f.header 22 2
/-- The CRC-32C of a header's first 28 bytes and the data, with FLAGS.RELAYED taken as 0: a relay sets that bit and changes no other
byte (12 R576, R579; log 134). -/
def slotCrc (header data : List Byte) : Nat :=
  crc32c (header.take 1 ++ leBytes 1 (setBits (field header 1 1) 0 1 0) ++ (header.drop 2).take 26 ++ data)
/-- The frame is whole: its length and its CRC agree with what it carries (12 R579). -/
def SlotFrame.crcOk (f : SlotFrame) : Bool :=
  f.header.length == 32 && f.length == f.data.length && decide (f.length ≤ 3168) && field f.header 28 4 == slotCrc f.header f.data
/-- The frame as a relay sends it on: FLAGS.RELAYED set, no other byte changed (12 R576). -/
def SlotFrame.relay (f : SlotFrame) (lane : Nat) : SlotFrame :=
  { f with lane := lane, header := f.header.take 1 ++ leBytes 1 (setBits f.flags 0 1 1) ++ f.header.drop 2 }
/-- A slot frame with its header (12 R579). -/
def slotFrame (lane kind entry src dst ident offset : Nat) (data : List Byte) : SlotFrame :=
  let h := leBytes 1 kind ++ leBytes 1 0 ++ leBytes 2 entry ++ leBytes 4 src ++ leBytes 4 dst ++ leBytes 4 ident ++ leBytes 6 offset ++
    leBytes 2 data.length ++ leBytes 4 0
  { lane := lane, header := h ++ leBytes 4 (slotCrc h data), data := data }

end Sys2Proof

namespace Sys2Proof.Machine

/-- A transmit lane reaches a peer context, directly or through its relay (12 R575). -/
def State.reaches (s : State) (lane peer : Nat) : Bool :=
  match s.planLane lane, s.link.active with
  | some l, some p => l.txEn && (match p.peers[peer]? with
    | some r => r.valid && (match r.relay with
      | none => l.txPeer == peer
      | some k => l.txPeer == k)
    | none => false)
  | _, _ => false
/-- The fabric address of a peer context. -/
def State.peerFa (s : State) (peer : Nat) : Nat :=
  match s.link.active with
  | some p => match p.peers[peer]? with
    | some r => r.fa
    | none => 0
  | none => 0
/-- The VALID peer context with a fabric address. -/
def State.peerOf (s : State) (fa : Nat) : Option Nat :=
  match s.link.active with
  | some p => ((List.range p.peers.length).zip p.peers).findSome? fun (x : Nat × PlanPeer) =>
      if x.2.valid && x.2.fa == fa then some x.1 else none
  | none => none
/-- The link slot of the present symbol, 0 to 127; slots 121 to 127 are the width guard (10 R478). -/
def State.slot (s : State) : Nat := s.frame.symbol / Config.symbolsPerSlot
/-- The lane carries payload in the present slot, and has not yet (12 R571, R579, R596). -/
def State.laneCarries (s : State) (i : Nat) : Bool :=
  let l := s.lane i
  decide (i < 256) && l.tx == 3 && decide (l.noSlotsUntil ≤ s.frame.counter) && s.laneLit i &&
    !(l.retune == some s.frame.counter && decide (s.slot < 2)) && decide (l.slotDone ≤ s.now / Config.symbolsPerSlot)
/-- Count a frame sent to, or received from, a peer context (12 R573). -/
def State.countPeer (s : State) (p : Nat) (sent : Bool) : State :=
  { s with link := { s.link with peers := s.link.peers.modify {} p fun c =>
      if sent then { c with sent := c.sent + 1 } else { c with recv := c.recv + 1 } } }
/-- A slot frame that waits to be acknowledged once it has gone out: data and Polonaise values (12 R582). -/
def TxFrame.acked (t : TxFrame) : Bool := t.kind == 2 || t.kind == 3

/-- Frames for which no relay slot came free within 8 slots of their arrival are dropped (12 R577). -/
def State.dropRelays (s : State) : State :=
  { s with link := { s.link with relays := s.link.relays.filter fun x => decide (s.now ≤ x.at' + 8 * Config.symbolsPerSlot) } }

/-- A waiting frame may go out in the present slot: rendezvous, data and Polonaise values in planned slots; acknowledgements, cancel
notices and what is sent again in the width guard, and there, from the next boundary, data whose slots a lost lane has moved (12 R582, R588, R591). -/
def State.slotFits (s : State) (t : TxFrame) : Bool :=
  if s.slot < Config.plannedSlots then decide (t.kind < 4) && !t.resent
  else decide (4 ≤ t.kind) || t.resent || (match s.job? t.job with
    | some j => j.guardFrom.any fun f => decide (f ≤ s.frame.counter)
    | none => false)
/-- The first waiting frame that a lane may send in the present slot. -/
def State.nextFrame? (s : State) (lane : Nat) : Option TxFrame :=
  s.link.tx.find? fun (t : TxFrame) => !t.sent && s.slotFits t && s.reaches lane t.peer
/-- RELAY_SLOTS of a transmit lane (12 R567). -/
def State.relaySlots (s : State) (lane : Nat) : Nat := (s.planLane lane).elim 0 (·.relay)
/-- A planned slot is free for relay: RELAY_SLOTS of them each frame (12 R574, R576). -/
def State.relayRoom (s : State) (lane : Nat) : Bool :=
  decide (s.slot < Config.plannedSlots) && decide ((s.lane lane).relayUsed < s.relaySlots lane)
/-- A slot is free for the device's own frames: in the width guard, or in the planned slots beside those held for relay (12 R574). -/
def State.ownRoom (s : State) (lane : Nat) : Bool :=
  decide (Config.plannedSlots ≤ s.slot) || decide ((s.lane lane).ownUsed < Config.plannedSlots - s.relaySlots lane)
/-- A frame leaves on a lane, in the present slot: one of its own, a relayed one, or an idle one. -/
def State.sendSlot (s : State) (f : SlotFrame) (own relayed : Bool) : State :=
  let planned := decide (s.slot < Config.plannedSlots)
  (s.modLane f.lane fun l => { l with
    slotDone := s.now / Config.symbolsPerSlot + 1, bytesSent := l.bytesSent + f.data.length
    relayUsed := if planned && relayed then l.relayUsed + 1 else l.relayUsed
    ownUsed := if planned && own then l.ownUsed + 1 else l.ownUsed }).send (.slotFrame f)

/-- SLOT_FRAME_SEND: a link slot of a transmit lane carries a relayed frame, the first waiting frame of the slot's kind whose peer the lane
reaches, or an idle frame (12 R575 to R577, R579). -/
def execSlotFrameSend (lane : Nat) (s : State) : Res :=
  if !s.laneCarries lane then ok s else
  let s := s.dropRelays
  match if s.relayRoom lane then s.link.relays.find? fun (x : Relayed) => x.lane == lane else none with
  | some x =>
    ok ({ s with link := { s.link with relays := s.link.relays.erase x } }.sendSlot (x.frame.relay lane) false true)
  | none =>
    match if s.ownRoom lane then s.nextFrame? lane else none with
    | some t =>
      let u := { s with link := { s.link with tx := if t.acked then mapIf (fun (x : TxFrame) => x == t) (fun x => { x with sent := true }) s.link.tx
                                                    else s.link.tx.erase t } }
      ok ((u.countPeer t.peer true).sendSlot
        (slotFrame lane t.kind t.entry s.link.fabricAddr.toNat (s.peerFa t.peer) t.ident t.offset t.data) true false)
    | none => match s.planLane lane with
      | some l => ok (s.sendSlot (slotFrame lane 0 0 s.link.fabricAddr.toNat (s.peerFa l.txPeer) 0 0 []) false false)
      | none => ok s

/-- A slot frame that is not for this device is relayed to a direct peer on a link of the I/O die on which it arrived, or
dropped (12 R576, R577). -/
def State.relayFrame (s : State) (f : SlotFrame) : State :=
  match s.peerOf f.dstFa with
  | none => s
  | some p =>
    let out := (List.range 64).map fun i => 64 * (f.lane / 64) + i
    match out.find? fun i => (s.lane i).tx == 3 && (match s.planLane i with
        | some l => l.txEn && l.txPeer == p && decide (0 < l.relay)
        | none => false) with
    | some i => { s with link := { s.link with relays := s.link.relays ++ [⟨i, s.now, f⟩] } }
    | none => s

/-- The data bytes of a frame have been received on its lane (13 R646; log 135). -/
def State.tookFrame (s : State) (f : SlotFrame) : State := s.modLane f.lane fun l => { l with bytesRecv := l.bytesRecv + f.data.length }
/-- A receive lane takes frames in the present slot: it is in service, and not retuning (12 R571). -/
def State.laneHears (s : State) (i : Nat) : Bool :=
  (s.lane i).rx == 3 && !((s.lane i).rxRetune == some s.frame.counter && decide (s.slot < 2))

/-- A slot frame of a type that arrives on a lane in service: discarded when its CRC fails, relayed when it is for another device,
else taken as from a peer context (12 R576, R582). -/
def State.arrive (s : State) (kind : Nat) (f : SlotFrame) (own : State → Nat → State) : Res :=
  if f.kind != kind || !f.crcOk || !s.laneHears f.lane then ok s
  else
    let s := s.tookFrame f
    if s.link.fabricAddr.toNat ≠ f.dstFa then ok (s.relayFrame f)
    else match s.peerOf f.srcFa with
      | some p => ok (own (s.countPeer p false) p)
      | none => ok s

/-- Queue an acknowledgement of a byte range of an entry (12 R582; log 46). -/
def State.acknowledge (s : State) (job peer entry ident first last : Nat) : State :=
  let f : TxFrame := { peer := peer, kind := 4, job := job, entry := entry, ident := ident, offset := first, data := leBytes 6 first ++ leBytes 6 last }
  { s with link := { s.link with tx := s.link.tx ++ [f] } }

/-! ## COLLECT (11 R533, R534; 12 R579 to R584) -/

/-- Bytes that an entry moves. -/
def CollEntry.bytes (e : CollEntry) : Nat := e.desc.covered.length * e.desc.size 0
/-- The number of an entry among those of its direction that name its peer: the matched entry's number at the peer (12
R581; log 45). -/
def ordinal (es : List CollEntry) (i : Nat) : Nat :=
  match es[i]? with
  | some e => ((es.take i).filter fun (x : CollEntry) => x.peer == e.peer && x.recv == e.recv).length
  | none => 0
/-- The entry of a direction with a number that names a peer. -/
def entryFor (es : List CollEntry) (peer k : Nat) (recv : Bool) : Option (Nat × CollEntry) :=
  ((List.range es.length).zip es).find? fun (x : Nat × CollEntry) => x.2.peer == peer && x.2.recv == recv && ordinal es x.1 == k

/-- Bytes cut into the data of slot frames; `fuel` bounds them. -/
def frameCuts : Nat → Nat → List Byte → List (Nat × List Byte)
  | 0, _, _ => []
  | fuel + 1, ofs, l => if l.isEmpty then [] else (ofs, l.take 3168) :: frameCuts fuel (ofs + 3168) (l.drop 3168)

/-- The data frames of the send entries, or what a send source meets: its entry and the stop. -/
def State.sendFrames (s : State) (j : Job) (id : Nat) (es : List CollEntry) :
    List (Nat × CollEntry) → Except (Nat × Nat × Status × Nat) (List TxFrame × Option State)
  | [] => .ok ([], none)
  | (i, e) :: rest =>
    if e.recv then s.sendFrames j id es rest else
    match s.readAll j (fun k => (e.desc.addr k, e.desc.size 0)) e.desc.covered with
    | .asked s' => .ok ([], some s')
    | .done _ (some x) => .error (i, x)
    | .done l none => match s.sendFrames j id es rest with
      | .error x => .error x
      | .ok (more, w) =>
        .ok ((frameCuts (e.bytes / 3168 + 1) 0 l.flatten).map (fun x =>
          ({ peer := e.peer, kind := 2, job := j.id, entry := ordinal es i, ident := id, offset := x.1, data := x.2 } : TxFrame)) ++ more, w)

/-- Every entry of a COLLECT is complete: sends acknowledged, receives written (12 R583). -/
def Job.collectDone (j : Job) : Bool :=
  match j.body with
  | .collect _ es => j.sendsAcked && ((List.range es.length).zip es).all fun (x : Nat × CollEntry) =>
      !x.2.recv || entryCovered j.got x.1 x.2.bytes
  | _ => false
/-- A COLLECT whose entries are all complete ends. -/
def State.collectEnd (s : State) (id : Nat) : State :=
  match s.job? id with
  | some j => if j.phase == .running && !j.stopped && j.collectDone then s.finishJob id .done else s
  | none => s

/-- COLLECT: a rendezvous frame to every peer, then the bytes of the send entries in slot frames (12 R579, R581; log
45). -/
def execCollect (job : Nat) (s : State) : Res :=
  match s.job? job with
  | none => ok s
  | some j =>
    let queued := s.link.tx.any fun (t : TxFrame) => t.job == job
    if !(j.hdr.opcode == 0x05 && (s.mayStart j || (j.phase == .running && !j.stopped && !s.feedingAny job && !queued && j.acked.isEmpty && j.got.isEmpty))) then ok s else
    match j.body with
    | .collect id es =>
      let s := s.begin' j
      match s.sendFrames j id es ((List.range es.length).zip es) with
      | .error x => ok (s.faultJob j { role := 11, entry := x.1 } x.2)
      | .ok (_, some s) => ok s
      | .ok (l, none) =>
        let peers := (es.map fun (e : CollEntry) => e.peer).eraseDups
        let hello := peers.map fun p => ({ peer := p, kind := 1, job := job, entry := 0, ident := id, offset := 0, data := [] } : TxFrame)
        ok ({ s with link := { s.link with tx := s.link.tx ++ hello ++ l } }.collectEnd job)
    | _ => ok s

/-- The running command that a peer's frames of a COLLECT are for. -/
def State.collectFor (s : State) (id peer : Nat) : Option Job :=
  s.jobs.find? fun (j : Job) => j.phase == .running && !j.stopped && (match j.body with
    | .collect k es => k == id && es.any fun (e : CollEntry) => e.peer == peer
    | _ => false)

/-- Write the bytes at an offset of a receive entry, byte by byte in the order of its elements, up to the first that meets a stop (08
R431; 12 R583). -/
def State.landEntry (s : State) (j : Job) (e : CollEntry) (ofs : Nat) (data : List Byte) : State × Option (Nat × Status × Nat) :=
  let n := Nat.max 1 (e.desc.size 0)
  let places := ((List.range data.length).zip data).map fun (x : Nat × Byte) =>
    let k := ofs + x.1
    let i := e.desc.resume + k / n
    (i, e.desc.addr i + k % n, x.2)
  let stop := places.find? fun p => (s.writeStop j.session p.2.1 1).isSome
  let good := places.takeWhile fun p => (s.writeStop j.session p.2.1 1).isNone
  (forEach (joinWrites (good.map fun p => (p.2.1, [p.2.2]))) (fun s x => forEach (copiesOf e.desc x.1) (fun s a => s.put j a x.2) s) s,
    stop.bind fun p => (s.writeStop j.session p.2.1 1).map fun x => (p.1, x))

/-- The lowest element of a receive entry that has not been delivered, when a write of element `k` stops (08 R432). -/
def CollEntry.missing (e : CollEntry) (got : List (Nat × Nat × Nat)) (i k : Nat) : Nat :=
  let n := Nat.max 1 (e.desc.size 0)
  let have' := fun (x : Nat) => (List.range n).all fun b =>
    got.any fun g => g.1 == i && decide (g.2.1 ≤ n * x + b) && decide (n * x + b ≤ g.2.2)
  e.desc.resume + ((List.range (k - e.desc.resume)).find? fun x => !have' x).getD (k - e.desc.resume)

/-- RENDEZVOUS: the frame is relayed, or counted for its peer context (12 R573, R579). -/
def execRendezvous (f : SlotFrame) (s : State) : Res := s.arrive 1 f fun s _ => s

/-- Waiting slot frames that satisfy a test do not go out. -/
def State.dropTx (s : State) (p : TxFrame → Bool) : State := { s with link := { s.link with tx := s.link.tx.filter fun t => !p t } }

/-- COLLECT_DATA: data for a receive entry of a command that has started is written and acknowledged; other data is
discarded (12 R581 to R583, R588). A stop ends the command, and none of its send frames goes out any more (08 R431). -/
def execCollectData (f : SlotFrame) (s : State) : Res :=
  s.arrive 2 f fun s p =>
    match s.collectFor f.ident p with
    | none => s
    | some j => match j.body with
      | .collect _ es => match entryFor es p f.entry true with
        | none => s
        | some (i, e) =>
          if f.data.isEmpty ∨ e.bytes < f.offset + f.data.length then s else
          match s.landEntry j e f.offset f.data with
          | (s, some x) =>
            (s.dropTx fun t => t.job == j.id && t.kind != 4).faultJob j { role := 11, entry := i } (e.missing j.got i x.1, x.2)
          | (s, none) =>
            let last := f.offset + f.data.length - 1
            let s := s.modJob j.id fun c => { c with got := c.got ++ [(i, f.offset, last)] }
            (s.acknowledge j.id p f.entry f.ident f.offset last).collectEnd j.id
      | _ => s

/-! ## The Polonaise chain (04 R220 to R224; 11 R532; 12 R578, R580) -/

/-- A value as a whole number of units of 2⁻¹⁴⁸. -/
def unitsOf (v : Dy) : Int := v.m * (2 ^ (v.e + 148).toNat : Nat)

/-- Add a running sum's value to the element of the receiving part's tile (04 R221, R224). -/
def State.addSum (s : State) (id : Nat) (st : Stage) (t : TileRun) (vec ch : Nat) (x : Int) : State :=
  let i := (t.chans.findIdx? (· == some ch)).getD 0
  match s.addTerm id st t i vec x with
  | (s, sat) => s.markRange id st t sat

/-- The tiles of a part that hold channels of an output block. -/
def StageRun.partTiles (r : StageRun) (st : Stage) (part ob : Nat) : List TileRun :=
  r.tiles.filter fun (t : TileRun) => t.part == part && !t.closed && t.chans.any fun c => match c with
    | some ch => ch / st.rows == ob
    | none => false
/-- The open tile of a part that holds a channel. -/
def StageRun.holds (r : StageRun) (part u ch : Nat) : Option TileRun :=
  r.tiles.find? fun (t : TileRun) => t.part == part && t.u == u && !t.closed && t.chans.contains (some ch)

/-- Channels of a tile have received the running sum. -/
def State.setSummed (s : State) (id : Nat) (t : TileRun) (chs : List Nat) : State :=
  s.modJob id fun c => { c with run := { c.run with tiles := mapIf (fun (x : TileRun) => x.engine == t.engine && x.u == t.u &&
    x.part == t.part && x.chans == t.chans && !x.closed) (fun x => { x with sums := chs.foldl (fun m c => insertNat c m) x.sums }) c.run.tiles } }
/-- A tile that has received the running sum at the end of a chain that keeps its values has ended (04 R209, R220). -/
def State.keepSummed (s : State) (id : Nat) (st : Stage) (part u : Nat) : State :=
  if st.drain || part != st.lastPart then s else
  match s.job? id with
  | none => s
  | some j => forEach (j.run.tiles.filter fun (t : TileRun) => t.part == part && t.u == u && t.summed && !t.closed)
      (fun s t => s.closeTile id st t) s

/-- The transport frames of a tile's running sum for a peer: runs of consecutive elements, at most 316 to a frame (04 R222,
R223; 12 R580). The export generator of the sending cluster is loaded from SR_SEED at its first draw (04 R199). The form of
output element `k` stands at byte 10 k of the stream (log 139). -/
def State.sumFrames (s : State) (j : Job) (st : Stage) (t : TileRun) (peer : Nat) : List (Nat × Nat × Nat × Nat) → State
  | [] => s
  | (k, vec, ch, row) :: rest =>
    let c := t.engine / 4
    let g := 16384 + c
    let v := s.runValue j st t row vec ch
    let s := s.seedFor j.id st g c t.engine j.run.stage (draws v (max (-148) (v.log2 - 62)))
    match transport (s.gen g) v with
    | (w, b, g') =>
      let s := { s with gens := s.gens.set 0 g g' }
      let bs := leBytes 8 (toBits w 64) ++ leBytes 2 (toBits b 16)
      let new : TxFrame := { peer := peer, kind := 3, job := j.id, entry := t.part, ident := st.chainId, offset := 10 * k, data := bs }
      let joins := match s.link.tx.getLast? with
        | some x => x.peer == peer && x.kind == 3 && x.job == j.id && x.entry == t.part && x.offset + x.data.length == 10 * k &&
            decide (x.data.length + 10 ≤ 3160) && !x.sent
        | none => false
      let tx := if joins then s.link.tx.dropLast ++ (match s.link.tx.getLast? with
          | some x => [{ x with data := x.data ++ bs }]
          | none => []) else s.link.tx ++ [new]
      ({ s with link := { s.link with tx := tx } }).sumFrames j st t peer rest

/-- POLONAISE_HOP: the running sum of a part's tiles of an output block passes to the next part: on this device it is added
exactly, or stochastically in compact format, to the receiving tiles; for a peer it goes out in transport form (04 R220 to
R223). -/
def execPolonaiseHop (job part ob : Nat) (s : State) : Res :=
  match s.job? job with
  | none => ok s
  | some j => match j.stage? with
    | none => ok s
    | some st =>
      let ts := (j.run.partTiles st part ob).filter fun (t : TileRun) => !t.sent
      let u := minNat (ts.map fun (t : TileRun) => t.u)
      let ts := ts.filter fun (t : TileRun) => t.u == u
      let ready := fun (t : TileRun) => decide (t.need ≤ t.terms) && (t.part == 0 || t.summed)
      if ts.isEmpty || decide (st.parts.length ≤ part + 1) || !ts.all ready then ok s else
      match st.parts[part + 1]? with
      | none => ok s
      | some next =>
        if next.peer = 0xFFFF then
          let goals := ts.flatMap fun (t : TileRun) => t.rowsOf.map fun x => j.run.holds (part + 1) u x.2
          if !(goals.all fun g => match g with
              | some r => decide (r.need ≤ r.terms)
              | none => false) then ok s else
          let s := forEach ts (fun s (t : TileRun) => forEach (t.elems st) (fun s (x : Nat × Nat × Nat × Nat) =>
            match j.run.holds (part + 1) u x.2.2.1 with
            | some r => s.addSum job st r x.2.1 x.2.2.1 (unitsOf (s.runValue j st t x.2.2.2 x.2.1 x.2.2.1))
            | none => s) s) s
          let s := forEach (goals.filterMap id).eraseDups (fun s r =>
            s.setSummed job r (ts.flatMap fun (t : TileRun) => (t.rowsOf.map (·.2)).filter fun ch => r.chans.contains (some ch))) s
          ok (forEach ts (fun s t => s.closeTile job st t) (s.keepSummed job st (part + 1) u))
        else
          let s := forEach ts (fun s (t : TileRun) => s.sumFrames j st t next.peer (t.elems st)) s
          ok (s.modJob job fun c => { c with run := { c.run with
            tiles := mapIf (fun (x : TileRun) => ts.contains x) (fun x => { x with sent := true }) c.run.tiles } })

/-- The running stage that a peer's frames of a chain are for. -/
def State.chainFor (s : State) (id peer : Nat) : Option (Job × Stage) :=
  s.jobs.findSome? fun (j : Job) => match j.stage? with
    | some st => if st.chainId == id && id != 0 && st.parts.any fun (q : Part) => q.peer == peer then some (j, st) else none
    | none => none

/-- Add received transport values from element `k` on; the values of elements that have no open tile stop the frame. -/
def State.addValues (s : State) (id : Nat) (st : Stage) (part : Nat) (got : List (Nat × Nat × Nat)) : Nat → List Byte → Nat → State
  | _, _, 0 => s
  | k, bs, fuel + 1 =>
    if bs.length < 10 then s else
    let vec := k / st.chans
    let ch := k % st.chans
    match s.job? id with
    | none => s
    | some j => match j.run.holds part (vec / st.vecB) ch with
      | none => s
      | some t =>
        let had := got.any fun x => x.1 == part - 1 && decide (x.2.1 ≤ 10 * k) && decide (10 * k ≤ x.2.2)
        let x := sext (field bs 0 8) 64 * (2 ^ (sext (field bs 8 2) 16 + 148).toNat : Nat)
        (if had then s else s.addSum id st t vec ch x).addValues id st part got (k + 1) (bs.drop 10) fuel

/-- Tiles of a part whose every value has been received hold the running sum. -/
def State.sumArrived (s : State) (id : Nat) (st : Stage) (part : Nat) : State :=
  match s.job? id with
  | none => s
  | some j => forEach (j.run.tiles.filter fun (t : TileRun) => t.part == part && !t.closed && !t.summed) (fun s t =>
      let all := (t.elems st).all fun x => j.got.any fun g => g.1 == part - 1 && decide (g.2.1 ≤ 10 * x.1) && decide (10 * x.1 + 9 ≤ g.2.2)
      if all then (s.setSummed id t (t.rowsOf.map (·.2))).keepSummed id st part t.u else s) s

/-- POLONAISE_VALUES: the transport values of the part before are added to this device's tiles and acknowledged, once the
receiving part's tiles are open; else they are discarded (04 R220, R224; 12 R580, R582). -/
def execPolonaiseValues (f : SlotFrame) (s : State) : Res :=
  s.arrive 3 f fun s p =>
    match s.chainFor f.ident p with
    | none => s
    | some (j, st) =>
      let part := f.entry + 1
      let n := f.data.length / 10
      let k0 := f.offset / 10
      let ready := (List.range n).all fun i => match j.run.holds part ((k0 + i) / st.chans / st.vecB) ((k0 + i) % st.chans) with
        | some t => decide (t.need ≤ t.terms)
        | none => false
      if n = 0 ∨ f.offset % 10 ≠ 0 ∨ ready = false then s else
      let s := s.addValues j.id st part j.got k0 f.data n
      let last := f.offset + 10 * n - 1
      let s := s.modJob j.id fun c => { c with got := c.got ++ [(f.entry, f.offset, last)] }
      (s.acknowledge j.id p f.entry f.ident f.offset last).sumArrived j.id st part

/-- The tiles of a part whose running sum the peer has acknowledged whole have ended here (12 R583). -/
def State.sumAcked (s : State) (id : Nat) (st : Stage) (part : Nat) : State :=
  match s.job? id with
  | none => s
  | some j => forEach (j.run.tiles.filter fun (t : TileRun) => t.part == part && t.sent && !t.closed) (fun s t =>
      let all := (t.elems st).all fun x => j.acked.any fun g => g.1 == part && decide (g.2.1 ≤ 10 * x.1) && decide (10 * x.1 + 9 ≤ g.2.2)
      if all then s.closeTile id st t else s) s

/-- ACKNOWLEDGEMENT: sent byte ranges are complete (12 R582, R583). -/
def execAcknowledgement (f : SlotFrame) (first last : Nat) (s : State) : Res :=
  s.arrive 4 f fun s p =>
    let drop := fun (s : State) (id entry : Nat) => { s with link := { s.link with tx := s.link.tx.filter fun (t : TxFrame) =>
      !(t.acked && t.job == id && t.peer == p && t.entry == entry && decide (first ≤ t.offset) && decide (t.offset + t.data.length ≤ last + 1)) } }
    match s.collectFor f.ident p with
    | some j => match j.body with
      | .collect _ es => match entryFor es p f.entry false with
        | some (i, _) => ((drop s j.id f.entry).modJob j.id fun c => { c with acked := c.acked ++ [(i, first, last)] }).collectEnd j.id
        | none => s
      | _ => s
    | none => match s.chainFor f.ident p with
      | some (j, st) => ((drop s j.id f.entry).modJob j.id fun c => { c with acked := c.acked ++ [(f.entry, first, last)] }).sumAcked j.id st f.entry
      | none => s

/-- SLOT_RESEND: frames of the command that have gone out and are not acknowledged go out again (12 R582). -/
def execSlotResend (job : Nat) (s : State) : Res :=
  ok { s with link := { s.link with tx := mapIf (fun (t : TxFrame) => t.job == job && t.sent) (fun t => { t with sent := false, resent := true }) s.link.tx } }

/-! ## Peer contracts (12 R584 to R586) -/

/-- COLL_ID or CHAIN_ID under which a command exchanges with a peer. -/
def Job.identWith (j : Job) (peer : Nat) : Nat :=
  match j.body with
  | .collect id _ => id
  | .stages l => match l.find? fun st => st.parts.any fun (q : Part) => q.peer == peer with
    | some st => st.chainId
    | none => 0
  | _ => 0

/-- The peer's contract for a command lapses: the command ends PEER_UNREACHABLE and the entry is logged (12 R585; 16 R734). -/
def State.lapse (s : State) (j : Job) (peer : Nat) : State :=
  ((s.modJob j.id fun c => c.failStage .peerUnreachable).dropTx fun t => t.job == j.id).logError 0x0300 4 0 0 peer (j.identWith peer)

/-- Exchanges of a command with a peer are incomplete for want of the peer: of a COLLECT, an entry; of a REDUCE on a peer, a tile that
has its own terms and lacks the running sum from the peer, or a sum sent and not acknowledged (12 R585, R586). -/
def State.incompleteWith (s : State) (j : Job) (peer : Nat) : Bool :=
  match j.body with
  | .collect _ es => ((List.range es.length).zip es).any fun (x : Nat × CollEntry) => x.2.peer == peer &&
      !(if x.2.recv then entryCovered j.got x.1 x.2.bytes else entryCovered j.acked x.1 x.2.bytes)
  | .stages _ => (s.link.tx.any fun (t : TxFrame) => t.job == j.id && t.peer == peer && t.kind == 3 && t.sent) || (match j.stage? with
      | some st => j.run.tiles.any fun (t : TileRun) => !t.closed && !t.summed && decide (0 < t.part) && decide (t.need ≤ t.terms) &&
          ((st.parts[t.part - 1]?).map (·.peer) == some peer)
      | none => false)
  | _ => false

/-- CANCEL_NOTICE: the contract of the peer for the command lapses (12 R585). -/
def execCancelNotice (f : SlotFrame) (s : State) : Res :=
  s.arrive 5 f fun s p =>
    match s.jobs.find? fun (j : Job) => j.live && !j.stopped && j.peersNamed.contains p && j.identWith p == f.ident with
    | some j => s.lapse j p
    | none => s

/-- PEER_CONTRACT_LAPSE: after the last reserved frame with an entry incomplete for want of the peer, or with the peer
unreachable at eight boundaries in a row (12 R585, R586). -/
def execPeerContractLapse (job peer : Nat) (s : State) : Res :=
  match s.job? job with
  | none => ok s
  | some j =>
    let own := s.link.tx.any fun (t : TxFrame) => t.job == job && !t.sent && !t.resent && t.acked
    let late := decide (j.last < s.frame.counter) && s.incompleteWith j peer && !own
    let cut := decide (8 ≤ (s.link.peers.get {} peer).unreachable)
    if j.phase == .running && !j.stopped && j.peersNamed.contains peer && (late || cut) then ok (s.lapse j peer) else ok s

/-- The peers that no lane and no relay route reaches count one more boundary (12 R585). -/
def State.countUnreachable (s : State) : State :=
  match s.link.active with
  | none => s
  | some p =>
    let valid := fun (n : Nat) => (nth p.peers n { fa := 0, relay := none, valid := false, uid := 0 }).valid
    let reached := fun (n : Nat) => (List.range 256).any fun i => (s.lane i).tx == 3 && s.reaches i n
    let step := fun (n : Nat) (c : PeerCtx) => { c with unreachable := if reached n then 0 else Nat.min 8 (c.unreachable + 1) }
    let peers := ((List.range p.peers.length).filter valid).foldl (fun m n => m.modify {} n (step n)) s.link.peers
    { s with link := { s.link with peers := peers } }

/-! ## Attention cycles (12 R597 to R601) -/

/-- An attention cycle ends: the connector's lanes probe again, the failed ones too; after a replug the indicator still shows a lane
that fails its identity check (12 R590, R600). -/
def State.attnEnds (s : State) (c : Nat) (replug : Bool) : State :=
  let s := forEach (connLanes c) (fun s i => s.setLane i fun l =>
    { l with tx := if l.tx = 4 ∨ l.tx = 5 then 1 else l.tx, rx := if l.rx = 4 ∨ l.rx = 5 then 1 else l.rx, fails := 0 }) s
  s.modConn c fun _ => { replugged := replug }

/-- ATTN_PRESS: a press begins an attention cycle, which forgets the lanes' equaliser states; a second press ends it (12
R592, R597, R598, R600). -/
def execAttnPress (connector : Nat) (s : State) : Res :=
  if 5 ≤ connector then ok s
  else if (s.conn connector).attn then ok (s.attnEnds connector false)
  else
    let s := s.modConn connector fun _ => { ind := 1, attn := true, frameP := s.frame.counter, dark := false }
    ok (forEach (connLanes connector) (fun s i => s.modLane i fun l => { l with txLines := [], rxLines := [] }) s)

/-- CONNECTOR_QUIESCE: at the boundary of P + 2 every transmit lane of the connector goes to probe power, whether or not
Noon runs (12 R598, R599). -/
def execConnectorQuiesce (connector : Nat) (s : State) : Res :=
  let c := s.conn connector
  if !(decide (connector < 5) && c.attn && c.ind == 1 && decide (c.frameP + 2 ≤ s.frame.counter)) then ok s else
  let s := forEach (connLanes connector) (fun s i =>
    (if (s.lane i).tx = 3 then s.flagLane i else s).setLane i fun l =>
      { l with tx := if l.tx = 5 then 5 else 4, rx := if l.rx = 2 ∨ l.rx = 3 then 4 else l.rx }) s
  ok ((s.modConn connector fun x => { x with ind := 2 }).markDark connector)

/-- 100 ms in symbols. -/
def symbols100ms : Nat := 1250000000

/-- ATTENTION_CYCLE_END: the connector's receive lanes were dark for 100 ms and see light again (12 R600). -/
def execAttentionCycleEnd (connector : Nat) (s : State) : Res :=
  let c := s.conn connector
  if decide (connector < 5) && c.attn && c.dark && decide (c.darkAt + symbols100ms ≤ s.now) then ok (s.attnEnds connector true) else ok s

end Sys2Proof.Machine
end

