-- ==== Sys2Proof/Machine/Services.lean ====
section
/-! DEFINITION. The control and service commands (11 R537, R538, R545 to R557; 05 R283 to R293; 16 R730, R731): FENCE, EVENT_SIGNAL, WAIT_FRAME, CALIBRATE, SELFTEST, RESTORE_FACTORY, QUERY and CANCEL. -/

namespace Sys2Proof.Machine

/-! ## Control -/

/-- FENCE: completes when what its kind waits for has come (11 R551). -/
def execFence (job : Nat) (s : State) : Res :=
  jobRun job 0x0B s fun j s => match j.body with
    | .fence kind => if s.fenceMet j kind then s.finishJob job .done else s
    | _ => s

/-- EVENT_SIGNAL: adds to its counter or resets it (11 R545, R548). -/
def execEventSignal (job : Nat) (s : State) : Res :=
  jobRun job 0x0C s fun j s => match j.body with
    | .signal ctr reset v =>
      (if reset then { s with counters := s.counters.set 0 ctr 0 } else s.raise ctr v).finishJob job .done
    | _ => s

/-- WAIT_FRAME: completes in its target frame (11 R554). -/
def execWaitFrame (job : Nat) (s : State) : Res :=
  jobRun job 0x0D s fun j s => match j.body with
    | .waitFrame n => if n ≤ s.frame.counter then s.finishJob job .done else s
    | _ => s

/-! ## CALIBRATE (05 R283, R284, R291) -/

/-- The calibration section (11 R543): engine mask, then RMS and peak before and after. -/
def calibSection (l : List (Nat × Nat × Nat × Nat × Nat)) : List Byte :=
  let l := (List.range 256).filterMap fun e => l.find? fun x => x.1 == e
  pad32 (leBytes 2 0x0009 ++ leBytes 2 l.length ++ leBytes 28 0 ++ leBytes 32 (ofBitList (l.map (·.1))) ++
    l.flatMap fun x => leBytes 2 x.2.1 ++ leBytes 2 x.2.2.1 ++ leBytes 2 x.2.2.2.1 ++ leBytes 2 x.2.2.2.2)

/-- The last named slot has ended: each named engine has had its slot or is mapped out, or the frame of the last slot
has passed (05 R283, R285). -/
def State.slotsDone (s : State) (j : Job) (engines : Nat) (save : Bool) : Bool :=
  s.slotsHad j engines || decide ((if save then j.last - 488283 else j.last) < s.frame.counter)

/-- CALIBRATE: completes at the end of the last named slot; with SAVE, Dawn then writes the active set, as it stood at the boundary
after that slot, to the user area that does not hold the newest valid image, which is not valid until the write is done; the
command completes then (05 R283, R284, R291). -/
def execCalibrate (job : Nat) (s : State) : Res :=
  jobRun job 0x0E s fun j s => match j.body with
    | .calibrate save engines =>
      if !s.slotsDone j engines save then s
      else if !save then
        (s.modJob job fun c => { c with report := c.report ++ [calibSection c.calib] }).finishJob job .done
      else if s.cal.saveJob = some job ∨ s.cal.saveBusy = true ∨ s.runs .dawn = false then s
      else
        let s := s.modJob job fun c => { c with
          report := c.report ++ [calibSection c.calib], saveSet := some (c.saveSet.getD s.cal.active) }
        { s with cal := { s.cal with saveBusy := true, saveJob := some job, areas := s.cal.areas.set s.cal.saveArea none } }
    | _ => s

/-- FLASH_SAVE_COMPLETE: the image becomes valid and is the newest, and the waiting CALIBRATE completes (05 R284,
R291). -/
def execFlashSaveComplete (s : State) : Res :=
  match s.cal.saveJob with
  | none => ok s
  | some job =>
    if !s.runs .dawn then ok s else
    let area := s.cal.saveArea
    let set := ((s.job? job).bind fun j => j.saveSet).getD s.cal.active
    ok ({ s with cal := { s.cal with saveBusy := false, saveJob := none, newest := area,
                                     areas := s.cal.areas.set area (some set.image) } }.finishJob job .done)

/-! ## SELFTEST (05 R285, R286; 16 R730, R731) -/

/-- A unit belongs to those that a SELFTEST covers. -/
def selftestCovers (units engines : Nat) : Unit' → Bool
  | .engine e | .bank e _ | .rowAdc e _ => bit units 0 && bit engines e
  | .accFile _ => bit units 3
  | .core _ => bit units 1
  | .sram _ _ => bit units 2
  | .stack _ => bit units 4
  | .lane _ _ => bit units 5
  | _ => false

/-- What an exclusive test does to the units it tests: local store windows and accumulator slots are undefined after it (16 R730),
and the named engines each run two exact tiles over all their slots (04 R202; 05 R286). What is read there before it is written is
free (log 16, log 98). -/
def State.testEffects (s : State) (units engines : Nat) : State :=
  let s := if bit units 1 then { s with locals := [] } else s
  let s := if bit units 3 then { s with acc := [], carries := [], accLost := s.accLost + 1 } else s
  if bit units 0 then forEach ((bitList 256 engines).filter fun e => !s.engineOut e) (fun s e => s.selfTiles e) s else s

/-- A test ends: in concurrent mode with the last slot of the engines it names, and not before its planned frame where it names other
units (05 R285, R286; 16 R730). -/
def State.testOver (s : State) (j : Job) (excl : Bool) (units engines : Nat) : Bool :=
  if !excl && bit units 0 then
    (s.slotsHad j engines && (units % 64 == 1 || decide (j.last ≤ s.frame.counter))) || decide (j.last < s.frame.counter)
  else decide (j.last ≤ s.frame.counter)

/-- SELFTEST begins: an exclusive test pauses the rotation (05 R286). At its end, the units found failed are declared
failed, to be mapped out and logged at the next boundary (16 R724, R731), and the rotation resumes at the next boundary of
a frame divisible by 16 (05 R282). -/
def execSelftest (job : Nat) (failed : List Unit') (s : State) : Res :=
  match s.job? job with
  | none => ok s
  | some j => match j.body with
    | .selftest excl units engines =>
      if s.mayStart j then
        let s := s.begin' j
        if excl then
          ok ({ s with cal := { s.cal with selftest := true, rotating := false, resumeDue := false } }.testEffects units engines)
        else ok s
      else if j.phase = .running ∧ s.testOver j excl units engines = true ∧ !j.stopped then
        let bad := failed.filter (selftestCovers units engines)
        let s := { s with failing := s.failing ++ bad.map fun u => (u, 3) }
        let s := if bad.isEmpty then s else s.modJob job fun c => { c with flags := { c.flags with remapped := true } }
        let s := if excl then { s with cal := { s.cal with selftest := false, resumeDue := true } } else s
        ok (s.finishJob job .done)
      else ok s
    | _ => ok s

/-! ## RESTORE_FACTORY (05 R293) -/

/-- RESTORE_FACTORY: at the first boundary after admission the factory values are in force but for the ring trims, which
reach theirs in each engine's next slot; USER_LOADED clears (05 R279, R293). -/
def execRestoreFactory (job : Nat) (s : State) : Res :=
  match s.job? job with
  | none => ok s
  | some j =>
    if j.hdr.opcode = 0x10 ∧ s.mayStart j = true then
      let s := s.begin' j
      ok { s with
        cal := { s.cal with userLoaded := false, restoreJob := some job
                            active := { blob := s.fw.factoryOk, vals := s.cal.active.vals.filter fun v => coefIsTrim v.1 } }
        engines := (List.range 256).foldl (fun m e => m.modify {} e fun x =>
          if x.lock = .mappedOut then x else { x with trimsStale := true }) s.engines }
    else ok s

/-- RESTORE_FACTORY_WRITE_COMPLETE: the invalidation of both user areas is written and the command completes (05
R293). -/
def execRestoreFactoryWriteComplete (s : State) : Res :=
  match s.cal.restoreJob with
  | none => ok s
  | some job =>
    ok ({ s with cal := { s.cal with areas := [none, none], restoreJob := none } }.finishJob job .done)

/-! ## QUERY (11 R538) -/

/-- The code of a lock state (05 R259). -/
def LockState.code : LockState → Nat
  | .off => 0
  | .search => 1
  | .verify => 2
  | .locked => 3
  | .calib => 4
  | .unlocked => 5
  | .held => 6
  | .mappedOut => 7

/-- The service byte of a lane: bit 0 for FAILED transmit, bit 1 for FAILED receive. -/
def Lane.service (l : Lane) : Nat := b2n (l.tx == 5) + 2 * b2n (l.rx == 5)

/-- The bytes of a QUERY item (11 R538). -/
def State.queryItem (s : State) (session item : Nat) : List Byte :=
  match item with
  | 1 => (List.range 256).flatMap fun e => leBytes 8 (s.engine e).clips
  | 2 => (List.range 64).flatMap fun c => leBytes 8 (s.cluster c).inputClips
  | 3 => (List.range 12).flatMap fun n => leBytes 8 (s.corrected.get 0 n) ++
      leBytes 8 (s.poison.filter fun k => s.isHbm (64 * k) && stackAt s.remapped (64 * k) == n).length ++
      leBytes 8 (s.scrubPos.get 0 n / 2048)
  | 4 => (List.range 4096).flatMap fun c => leBytes 4 (if s.ownsCtr session c then s.counter c else 0)
  | 5 => ((List.range 256).flatMap fun e => leBytes 1 (s.engine e).lock.code) ++
      ((List.range 256).flatMap fun n => leBytes 1 (b2n (s.mapped.contains (.core n) || s.clusterOut (n / 4)))) ++
      ((List.range 12).flatMap fun n => leBytes 1 (b2n (s.stackOut n))) ++
      (List.range 256).flatMap fun i => leBytes 1 (s.lane i).service
  | _ => (List.range 2048).flatMap fun k => match s.log.entries.find? fun (e : LogEntry) => e.index % 2048 == k with
      | some e => logEntryBytes e
      | none => leBytes 32 0

/-- The boundary after its decision: a QUERY takes its snapshot (11 R538). -/
def State.takeSnapshots (s : State) : State :=
  { s with jobs := s.jobs.map fun (j : Job) => match j.body with
      | .query item _ => if j.live && j.snapshot.isNone && decide (j.decided + 1 ≤ s.frame.counter)
          then { j with snapshot := some (s.queryItem j.session item) } else j
      | _ => j }

/-- QUERY: the snapshot of the boundary after its decision is written to memory; the command completes at the next boundary
(11 R538). -/
def execQuery (job : Nat) (s : State) : Res :=
  jobRun job 0x11 s fun j s => match j.body, j.snapshot with
    | .query _ d, some bs =>
      let l := (((List.range bs.length).zip bs).filter fun (x : Nat × Byte) => decide (d.resume ≤ x.1)).map
        fun (x : Nat × Byte) => (x.1, [x.2])
      match s.writeElems j d l with
      | (s, some x) => s.faultJob j { role := 1 } x
      | (s, none) => s.finishJob job .done
    | _, _ => s

/-! ## CANCEL (08 R421, R428; 11 R555, R557) -/

/-- The accepted command that a CANCEL names (11 R555). -/
def State.cancelTarget (s : State) (c : Job) : Option Job :=
  match c.body with
  | .cancel sq posted seq => s.jobs.reverse.find? fun x => x.session == c.session && x.sq == sq && x.posted == posted &&
      x.seq == seq && x.hdr.opcode != 0x12 && x.id != c.id && !x.past
  | _ => none

/-- A command that runs to its own status once its first frame has begun (11 R557). -/
def Job.uncancellable (j : Job) (frame : Nat) : Bool :=
  decide (j.first ≤ frame) && (match j.body with
    | .calibrate true _ => true
    | .selftest true _ _ => true
    | _ => j.hdr.opcode == 0x10)

/-- A CANCEL completes DONE with an outcome section (08 R428; 11 R543, R555, R557). -/
def State.cancelDone (s : State) (id outcome status frame : Nat) : State :=
  (s.modJob id fun c => { c with report := c.report ++ [cancelSection outcome status frame] }).finishJob id .done

/-- CANCEL: once its waits are met (11 R549), marks its target for the next boundary (log 26), or completes with its outcome: 1 not found, 2 already being
cancelled, 3 not cancellable, 0 completed (08 R428; 11 R555, R557). -/
def execCancel (job : Nat) (s : State) : Res :=
  match s.job? job with
  | none => ok s
  | some c =>
    if c.hdr.opcode ≠ 0x12 ∨ c.phase ≠ .planned ∨ (c.hdr.waits ≠ [] ∧ s.mayStart c = false) then ok s else
    match s.cancelTarget c with
    | none => ok (s.cancelDone job 1 0 0)
    | some t =>
      match t.phase with
      | .written st f => ok (s.cancelDone job 0 st.code f)
      | _ =>
        if t.cancelBy.isSome then ok (s.cancelDone job 2 0 0)
        else if t.uncancellable (s.frame.counter + 1) then ok (s.cancelDone job 3 0 0)
        else ok (((s.begin' c).modJob job fun x => if x.hdr.waits.isEmpty then x else { x with decided := s.frame.counter }).modJob t.id
          fun x => { x with cancelBy := some job })

end Sys2Proof.Machine
end

