-- ==== Sys2Proof/Machine/Cancel.lean ====
section
/-! DEFINITION. A cancellation after its CANCEL: the stop of the target at the boundary E and the completion of both commands (08 R421 to R428; 11 R556; 12 R588). -/

namespace Sys2Proof.Machine

/-- FENCE, EVENT_SIGNAL, WAIT_FRAME and QUERY end at E itself (11 R556). -/
def Job.endsAtE (j : Job) : Bool :=
  match j.body with
  | .fence _ | .signal _ _ _ | .waitFrame _ | .query _ _ => true
  | _ => false

/-- Answers of host-aperture reads of a command are no longer awaited; writes that are out complete (08 R422, R423). -/
def State.dropHostReads (s : State) (job : Nat) : State :=
  { s with ha := s.ha.filter fun (r : HaReq) => match r.use with
      | .feed k _ _ => k != job
      | .tile k _ _ _ => k != job
      | _ => true }

/-- A cancel notice goes to every peer that the command names, and nothing else of it goes out (12 R588). -/
def State.noticePeers (s : State) (j : Job) : State :=
  let notice := fun (p : Nat) => ({ peer := p, kind := 5, job := j.id, entry := 0, ident := j.identWith p, offset := 0, data := [] } : TxFrame)
  let kept := s.link.tx.filter fun (t : TxFrame) => t.job != j.id
  { s with link := { s.link with tx := kept ++ j.peersNamed.eraseDups.map notice } }

/-- What stops at E for a command that is being cancelled (08 R421 to R427; 10 R498; 11 R556; 12 R588). The frames
reserved beyond the committed horizon go back to the calendar, and an ORDER fence holds none. -/
def State.stopTarget (s : State) (t : Job) : State :=
  let s := ((s.freeBufs t.id).dropHostReads t.id).noticePeers t
  let s := s.modJob t.id fun x => { x with stopped := true, handover := none, guardEnd := Nat.min x.guardEnd s.frame.committed }
  if (s.kernel? t.id).isSome then s.stopKernel t.id .cancelled
  else if t.endsAtE then s.finishJob t.id .cancelled
  else s

/-- CANCEL_EFFECT: at the first boundary E after the CANCEL's admission, the target is stopped; one whose work has ended
keeps its own status (08 R421, R428). -/
def execCancelEffect (job : Nat) (s : State) : Res :=
  match s.job? job with
  | none => ok s
  | some t => match t.cancelBy.bind s.job? with
    | none => ok s
    | some c =>
      if c.decided + 1 ≤ s.frame.counter ∧ t.live = true ∧ t.stopped = false then ok (s.stopTarget t) else ok s

/-- The lowest element of a cancelled XFER that has not been delivered (08 R426). -/
def Job.undeliveredFrom (j : Job) : Nat :=
  match j.body with
  | .xfer src _ => nth src.covered j.progress src.resume
  | _ => j.faultOfs

/-- CANCEL_COMPLETION: at the first boundary after the target's last read has returned, the target completes CANCELLED
and CANCEL completes DONE; of a target that had completed before E, CANCEL reports its status and frame (08 R424, R426,
R428; log 47). -/
def execCancelCompletion (job : Nat) (s : State) : Res :=
  match s.job? job with
  | none => ok s
  | some t => match t.cancelBy with
    | none => ok s
    | some id => match s.job? id with
      | none => ok s
      | some c =>
        if c.phase ≠ .running then ok s
        else if t.stopped then
          if s.frame.counter < c.decided + 2 ∨ s.reads.any (fun (r : ReadReq) => r.job == job) then ok s
          else
            let ofs := t.undeliveredFrom
            let s := if t.live then (s.finishJob job .cancelled).modJob job fun x => { x with faultOfs := ofs } else s
            ok (s.finishJob id .done)
        else match t.phase with
          | .written st f => ok (s.cancelDone id 0 st.code f)
          | _ => ok s

end Sys2Proof.Machine
end

