-- ==== Sys2Proof/Machine/Package.lean ====
section
/-! DEFINITION. Boot flash, the boot records and firmware packages (14 R655 to R658, R662). -/

namespace Sys2Proof.Machine

/-- `n` bytes of boot flash. -/
def State.flashBytes (s : State) (a n : Nat) : List Byte := (List.range n).map fun i => s.fw.flash.get 0 (a + i)

/-- The flash offset of an image slot (14 R656). -/
def slotBase (slotB : Bool) : Nat := if slotB then 0x01010000 else 0x00010000
/-- Bytes of an image slot. -/
def slotSize : Nat := 0x01000000

/-- The manifest's 1 KiB of a slot (14 R657). -/
def State.manifestBytes (s : State) (slotB : Bool) : List Byte := s.flashBytes (slotBase slotB) 1024

/-- Offset and size of a core image in a package (14 R657). -/
def coreEntry (man : List Byte) (k : Nat) : Nat × Nat := (field man (128 + 64 * k) 4, field man (132 + 64 * k) 4)
/-- The hash that the manifest gives a core image. -/
def coreHash (man : List Byte) (k : Nat) : List Byte := (man.drop (136 + 64 * k)).take 48

/-- The fields of a manifest (14 R657), with the hashes that its package is measured by (R662). -/
def parseManifest (man : List Byte) : Manifest :=
  { keyIndex := field man 6 1, svn := field man 7 1, fwVersion := BitVec.ofNat 32 (field man 8 4),
    ifaceLow := field man 12 1, intercore := field man 13 1, hoRead := field man 14 1, hoWrite := field man 15 1,
    features := BitVec.ofNat 64 (field man 16 8), hash := Config.sha384 man,
    cores := (List.range 4).map (coreHash man) }

/-- All bytes of a range of a structure are zero. -/
def allZero (bs : List Byte) (ofs n : Nat) : Bool := ((bs.drop ofs).take n).all fun b => b == 0

/-- The reserved fields of a manifest are zero (14 R657). -/
def manifestClean (man : List Byte) : Bool :=
  allZero man 24 104 && ((List.range 4).all fun k => allZero man (184 + 64 * k) 8) && allZero man 481 447

/-- The four core images of a slot hash to their entries; an image lies inside its slot (14 R658). -/
def State.imagesOk (s : State) (slotB : Bool) (man : List Byte) : Bool :=
  (List.range 4).all fun k =>
    let e := coreEntry man k
    decide (e.1 + e.2 ≤ slotSize) && Config.sha384 (s.flashBytes (slotBase slotB + e.1) e.2) == coreHash man k

/-- The package in a slot is valid (14 R658). -/
def State.packageValid (s : State) (slotB : Bool) : Bool :=
  let man := s.manifestBytes slotB
  let key := (man.drop 384).take 97
  let slot := field man 6 1
  field man 0 4 == 0x464B5A45 && field man 4 2 == 1 && decide (slot < 2) && !Config.keyRevoked slot &&
    Config.sha384 key == Config.keyHash slot && Config.ecdsaVerify key (man.take 928) ((man.drop 928).take 96) &&
    s.imagesOk slotB man && decide (s.fw.svnFuses ≤ field man 7 1) && decide (field man 7 1 ≤ 64) && manifestClean man

/-- The manifest of the package in a slot. -/
def State.manifestOf (s : State) (slotB : Bool) : Manifest := parseManifest (s.manifestBytes slotB)

/-- The slot that the boot records name: the valid copy with the higher SVN, copy 0 on a tie (14 R659). -/
def State.bootSlot (s : State) : Bool :=
  match s.fw.records with
  | [(a, n, va), (b, m, vb)] => if vb && (!va || decide (n < m)) then b else a
  | (a, _, _) :: _ => a
  | [] => false

/-- Measurements of a package and the factory blob, in manifest order (14 R662). -/
def State.measure (s : State) (m : Manifest) : List (List Byte) :=
  m.hash :: m.cores ++ [Config.sha384 (s.flashBytes 0x02010000 0x00800000)]

/-- Bytes written into flash. -/
def writeFlash (m : Sparse Byte) (a : Nat) : List Byte → Sparse Byte
  | [] => m
  | b :: bs => writeFlash (m.set 0 a b) (a + 1) bs

end Sys2Proof.Machine
end

