-- ==== Sys2Proof/Machine/Registers.lean ====
section
/-! DEFINITION. The register window as it reads (13 R614 to R651; the field tables of 05, 06, 07, 10, 11, 12, 13 and 15): which offsets are defined, the value of every register, the stale copies, and the configuration set (R638, R639). -/

namespace Sys2Proof.Machine

/-! ## Fields -/

/-- A number that stops at a bound. -/
def satNat (n max : Nat) : Nat := Nat.min n max

/-! ## Hardware registers (13; 06 R325; 12 R613; 15 R720) -/

/-- The code of PWR_STATUS.STATE (15 R685, R686, R720). -/
def State.powerCode (s : State) : Nat :=
  match s.power.state with
  | .run => if (List.range 4).all fun k => (s.sector k).hold then 1 else 0
  | .doze => 2
  | .retain => 3
  | .off => 4
  | .entering => 5
  | .resuming => 6
  | .tripped => 7

/-- An eighth of a degree per unit, from m°C. -/
def eighths (m : Int) : Nat := (m / 125).toNat

/-- The lowest sector VCORE that has been read, in mV (15 SUPPLY_STAT). -/
def State.lowestVcore (s : State) : Nat :=
  minNat (((List.range 4).map fun k => (s.sector k).vcoreMv).filter fun n => n != 0)

/-- Bits [23:0] of a hardware register that has a stale copy, as the hardware holds it. -/
def State.hwValue (s : State) (o : Nat) : Option Nat :=
  let p := s.power
  if o = 0x3100 then some p.lock.toNat
  else if o = 0x3104 then some p.violations
  else if o = 0x3108 then some p.lockLast
  else if o = 0x6020 then
    some (packFields (((List.range 5).map fun c => (2 * c, 2, (s.conn c).ind)) ++
      (List.range 5).map fun c => (10 + c, 1, b2n (s.conn c).attn)))
  else if o = 0x10000 then some p.cap
  else if o = 0x10008 then some p.tripC
  else if o = 0x10010 then some p.laser.toNat
  else if o = 0x10018 then some (packFields [(0, 16, p.guardFail), (16, 2, p.guardLast)])
  else if o = 0x10024 then
    some (packFields ([(0, 3, s.powerCode), (7, 1, b2n p.forced), (8, 1, b2n p.emergency), (9, 1, b2n p.limiting),
      (10, 1, b2n ((List.range 4).any fun k => (s.sector k).thermThrottle)), (11, 1, b2n p.dip)] ++
      (List.range 4).map fun k => (3 + k, 1, b2n (s.sector k).hold)))
  else if o = 0x10028 then some (packFields [(0, 12, p.measured), (12, 9, p.capInForce)])
  else if 0x10030 ≤ o ∧ o < 0x10040 then
    let k := (o - 0x10030) / 4
    some (packFields [(0, 10, (s.sector k).hot), (10, 10, eighths ((s.sector k).means.headD 0))])
  else if o = 0x10044 then some (packFields [(0, 10, s.lowestVcore), (10, 8, p.dipCount), (18, 6, p.lastDipUs)])
  else if o = 0x10048 then some (packFields [(0, 4, p.cause), (4, 8, p.causeDie), (12, 12, p.resets)])
  else if 0x18000 ≤ o ∧ o < 0x18110 then
    let m := s.monitors.get {} ((o - 0x18000) / 4)
    some (packFields [(0, 8, m.input), (8, 2, m.order), (10, 1, b2n m.dwell), (11, 1, b2n m.selfcal), (12, 1, b2n m.failed),
      (13, 9, m.decim16), (22, 2, m.engine)])
  else if 0x18200 ≤ o ∧ o < 0x18310 then some (toBits (s.monitors.get {} ((o - 0x18200) / 4)).shown 24)
  else if 0x18400 ≤ o ∧ o < 0x18510 then
    let m := s.monitors.get {} ((o - 0x18400) / 4)
    some (packFields [(0, 12, toBits m.offset 12), (12, 12, toBits m.gain 12)])
  else none

/-- The offsets of the registers with stale copies, ascending. -/
def hwOffsets : List Nat :=
  [0x3100, 0x3104, 0x3108, 0x6020, 0x10000, 0x10008, 0x10010, 0x10018, 0x10024, 0x10028, 0x10030, 0x10034, 0x10038,
    0x1003C, 0x10044, 0x10048] ++ ((List.range 68).map fun k => 0x18000 + 4 * k) ++
    ((List.range 68).map fun k => 0x18200 + 4 * k) ++ (List.range 68).map fun k => 0x18400 + 4 * k

/-- What a stale copy reads before the first refresh: the reset values of the field tables. -/
def resetCopy (o : Nat) : Nat :=
  if o = 0x10000 then 0x118 else if o = 0x10008 then 0x73 else if o = 0x10010 then 0x1FFFF
  else if o = 0x10028 then 0x118000 else 0

/-- The stale copy of a hardware register (13 R647). -/
def State.copy (s : State) (o : Nat) : Nat := (s.copies.get 0 o).toNat ^^^ resetCopy o

/-- A hardware register as the sideband reads it: live, with the present refresh number (13 R649). -/
def State.live (s : State) (o : Nat) : Option Nat := (s.hwValue o).map fun v => v % 2 ^ 24 + s.refresh * 2 ^ 24

/-- Every stale copy is refreshed under the next refresh number (13 R647). -/
def State.refreshCopies (s : State) : State :=
  let n := (s.refresh + 1) % 256
  let s := { s with refresh := n }
  let put := fun (m : Sparse Word32) (o : Nat) => match s.live o with
    | some v => m.set 0 o (BitVec.ofNat 32 (v ^^^ resetCopy o))
    | none => m
  { s with copies := hwOffsets.foldl put s.copies }

/-- The guarded registers: offset, code in GUARD_STATUS.LAST (13 R629). -/
def guardedCode (o : Nat) : Option Nat :=
  if o = 0x10000 then some 1 else if o = 0x10008 then some 2 else if o = 0x10010 then some 3 else none
/-- The offset of a guarded register by its code. -/
def guardedOffset (n : Nat) : Nat := 0x10000 + 8 * (n - 1)

/-! ## Emulated registers -/

/-- Registers of SQ `q` (11). -/
def State.sqRegister (s : State) (q r : Nat) : Nat :=
  let x := s.sq q
  match r with
  | 0 => x.base % 2 ^ 32
  | 1 => x.base / 2 ^ 32 % 2 ^ 16
  | 2 => packFields [(0, 1, b2n x.enable), (8, 4, x.log2), (16, 4, x.cq)]
  | _ => packFields [(0, 16, x.seq), (16, 1, b2n x.qfull), (17, 1, b2n x.dbErr)]
/-- Registers of CQ `c` (11). -/
def State.cqRegister (s : State) (c r : Nat) : Nat :=
  let x := s.cq c
  match r with
  | 0 => x.base % 2 ^ 32
  | 1 => x.base / 2 ^ 32 % 2 ^ 16
  | 2 => packFields [(0, 1, b2n x.enable), (1, 1, b2n x.notify), (8, 4, x.log2)]
  | _ => packFields [(0, 16, x.t), (16, 13, x.reserved)]

/-- The code of FRAME_STATUS.SOURCE (10 R470). -/
def FrameSource.code : FrameSource → Nat
  | .localFrames => 0
  | .locked => 1
  | .holdover => 2
  | .realigning => 3
/-- Milliseconds of a number of frames (10 R471). -/
def framesMs (n : Nat) : Nat := n * 8192 / 1000000
/-- FRAME_STATUS (10). -/
def State.frameStatus (s : State) : Nat :=
  let f := s.frame
  packFields [(0, 2, f.source.code), (2, 1, b2n (f.stepPending || f.stepRequested)), (3, 1, b2n f.over1s),
    (4, 1, b2n f.anchorFreq), (16, 16, satNat (framesMs f.holdFrames) 65535)]

/-- The state of a Rustra lane in RUSTRA_STATUS (12): 0 down, 1 training, 2 up, 3 probing. -/
def Lane.rustraCode (l : Lane) : Nat :=
  match l.tx with
  | 1 => 3
  | 2 => 1
  | 3 => 2
  | _ => 0
/-- A session of a port has a live heartbeat (12 R767, RUSTRA_STATUS). -/
def State.portLive (s : State) (port : Nat) : Bool := s.openSessions.any fun n => match s.session n with
  | some ss => ss.port == port && !ss.lost
  | none => false
/-- RUSTRA_STATUS (12). -/
def State.rustraStatus (s : State) : Nat :=
  packFields [(0, 1, b2n s.link.bonded), (1, 2, (s.lane 256).rustraCode), (3, 2, (s.lane 257).rustraCode),
    (5, 1, b2n (s.portLive 0)), (6, 1, b2n (s.portLive 1)), (16, 16, s.link.crcErr)]

/-- PLAN_STATUS (12). -/
def State.planStatus (s : State) : Nat :=
  packFields [(0, 2, s.link.armed), (2, 4, s.link.err), (6, 1, b2n s.link.active.isSome), (16, 16, s.link.activations)]

/-- ISSUE_FLOOR.LIMITED: a floor of the newest plan stands below its written value (15 R706). -/
def State.floorLimited (s : State) : Bool :=
  match s.power.floorPlan.getLast? with
  | some x => (List.range 4).any fun k => decide (nth x.2 k 0 < floorUnits (nth s.power.floors k 0))
  | none => false

/-- GHz of a comb's line L0 against 228.00 THz, nearest, ties away from zero (05 COMB_STATUS). -/
def roundGhz (khz : Int) : Int :=
  let q := (khz.natAbs + 500000) / 1000000
  if khz < 0 then -(q : Int) else q

/-- CAL_STATUS (05). -/
def State.calStatus (s : State) : Nat :=
  packFields [(0, 1, b2n s.fw.factoryOk), (1, 1, b2n s.cal.userLoaded), (2, 1, b2n s.cal.rotating), (3, 1, b2n s.cal.saveBusy),
    (4, 4, ofBitList ((List.range 4).filter fun k => (s.sector k).excursion)), (16, 16, s.cal.sweeps)]

/-- ENG_LOCK (05). -/
def Engine.lockWord (x : Engine) : Nat :=
  let inService := x.lock == .locked || x.lock == .held
  packFields [(0, 3, x.lock.code), (3, 1, b2n inService), (4, 1, b2n x.bankAFailed), (5, 1, b2n x.bankBFailed),
    (8, 8, toBits (clampInt (-128) 127 x.heaterOfs) 8),
    (16, 16, match x.calFrames with
      | some n => satNat (n / 16) 0xFFFF
      | none => 0xFFFF)]

/-- LASER_AGE of a comb; 8 to 11 are the link combs (06). -/
def State.laserAge (s : State) (j : Nat) : Nat :=
  let c := if j < 8 then s.comb j else s.link.linkCombs.get {} (j - 8)
  packFields [(0, 10, c.bias), (10, 1, b2n c.alarm), (11, 1, b2n c.atMax), (16, 16, c.lifeEst)]

/-- A register of the lock and calibration block as Twilight has it (05, 06: the field tables of the block). RESID_LIMITS and
SHADOW_CTRL are Noon's own. -/
def State.lockValue (s : State) (o : Nat) : Option Nat :=
  if o = 0x20000 then some s.calStatus
  else if o = 0x20004 then some (packFields [(0, 16, s.cal.lossCount), (16, 8, s.cal.wrongLine), (24, 8, s.cal.excursions)])
  else if 0x20100 ≤ o ∧ o < 0x20500 then some (s.engine ((o - 0x20100) / 4)).lockWord
  else if 0x20500 ≤ o ∧ o < 0x20900 then some (s.engine ((o - 0x20500) / 4)).residWord
  else if 0x21000 ≤ o ∧ o < 0x21408 then some (s.lane ((o - 0x21000) / 4)).eyeWord
  else if 0x21800 ≤ o ∧ o < 0x21C08 then some (s.lane ((o - 0x21800) / 4)).shownBer.toNat
  else if 0x20900 ≤ o ∧ o < 0x20920 then
    let c := s.comb ((o - 0x20900) / 4)
    some (packFields [(0, 2, c.state), (2, 1, b2n c.dimmed), (3, 1, b2n c.rangeEnd),
      (8, 12, if c.state = 0 then 0 else toBits (roundGhz c.gridKHz) 12)])
  else if 0x22000 ≤ o ∧ o < 0x22400 then
    let x := s.engine ((o - 0x22000) / 4)
    some (packFields [(0, 3, x.lossStage), (8, 8, satNat x.lossExcess 255), (16, 6, x.lossIndex),
      (24, 8, toBits (clampInt (-128) 127 x.detMargin) 8)])
  else if 0x22400 ≤ o ∧ o < 0x22808 then
    let l := s.lane ((o - 0x22400) / 4)
    some (packFields [(0, 2, l.lossStage), (8, 8, satNat l.lossExcess 255)])
  else if 0x22900 ≤ o ∧ o < 0x22930 then some (s.laserAge ((o - 0x22900) / 4))
  else none

/-- A register of the frame block or the link block as Noon has it (10, the registers of the frame block; 12 R613). -/
def State.noonValue (s : State) (o : Nat) : Option Nat :=
  if o = 0x4000 then some s.frameStatus
  else if o = 0x4004 then some (toBits (clampInt (-(2 ^ 23)) (2 ^ 23 - 1) s.frame.phase) 24)
  else if o = 0x6018 then some s.planStatus
  else if o = 0x601C then some s.rustraStatus
  else if 0x6400 ≤ o ∧ o < 0x680C then
    let l := s.lane ((o - 0x6400) / 4)
    some (packFields [(0, 3, l.tx), (3, 3, l.rx), (6, 3, l.txLine), (9, 3, l.rxLine), (16, 16, toBits l.rxPower 16)])
  else none

/-- The offsets of the registers that Noon refreshes. -/
def noonOffsets : List Nat := [0x4000, 0x4004, 0x6018, 0x601C] ++ (List.range 259).map fun i => 0x6400 + 4 * i
/-- The offsets of the registers that Twilight refreshes. -/
def shownOffsets : List Nat :=
  [0x20000, 0x20004] ++ ((List.range 512).map fun e => 0x20100 + 4 * e) ++ ((List.range 8).map fun c => 0x20900 + 4 * c) ++
    ((List.range 258).map fun i => 0x21000 + 4 * i) ++ ((List.range 258).map fun i => 0x21800 + 4 * i) ++
    ((List.range 256).map fun e => 0x22000 + 4 * e) ++
    ((List.range 258).map fun i => 0x22400 + 4 * i) ++ (List.range 12).map fun j => 0x22900 + 4 * j
/-- A register as it was last refreshed (05 R300; 12 R613). -/
def State.shownValue (s : State) (o : Nat) : Nat := (s.shown.get 0 o).toNat ^^^ shownReset o
/-- Noon and Twilight, each while it runs, refresh the registers of their blocks at a frame boundary (05 R300; 12 R613). -/
def State.refreshShown (s : State) : State :=
  let show' := fun (on : Bool) (value : Nat → Option Nat) (o : Nat) =>
    let x := if on then (match value o with
      | some v => BitVec.ofNat 32 (v ^^^ shownReset o)
      | none => 0) else s.shown.get 0 o
    if x = 0 then none else some (o, x)
  { s with shown := noonOffsets.filterMap (show' (s.runs .noon) s.noonValue) ++ shownOffsets.filterMap (show' (s.runs .twilight) s.lockValue) }

/-- The snapshot that a session's paged window shows, word `w` of its entry `j` (13 R651, R652). -/
def State.pagedWord (s : State) (n j w : Nat) : Nat := bits (nth (s.window n).pageSnap j 0).toNat (32 * w) 32

/-- The value of an emulated register to session `n`; `none` where no field table defines the offset (R615). -/
def State.emuValue (s : State) (n o : Nat) : Option Nat :=
  let w := s.window n
  if o % 4 ≠ 0 then none
  else if o = 0 then some Config.devId
  else if o = 4 then some (match s.fw.running with
    | some m => m.fwVersion.toNat
    | none => 0)
  else if o = 8 then some (packFields [(0, 4, 4), (4, 8, 0x40), (12, 4, 12 - (s.stackBad ++ s.remapped).eraseDups.length), (16, 4, 4), (24, 8, 1)])
  else if o = 0xC then some 0xFFFF
  else if o = 0x10 then some 0
  else if 0x1000 ≤ o ∧ o < 0x1100 then some 0
  else if 0x1100 ≤ o ∧ o < 0x1140 then some ((s.cq ((o - 0x1100) / 4)).head % 2 ^ 16)
  else if o = 0x2000 then some w.sel
  else if o = 0x2004 then some (packFields [(0, 1, b2n w.valid), (1, 1, b2n w.badSel), (16, 16, w.snapSel)])
  else if 0x2008 ≤ o ∧ o < 0x2018 then some (bits w.snap.toNat (8 * (o - 0x2008)) 32)
  else if o = 0x3000 then some s.cfg.crc.toNat
  else if o = 0x3004 then some s.cfg.ref.toNat
  else if o = 0x3008 then some 0
  else if o = 0x300C then
    some (packFields [(0, 1, b2n s.cfg.armed), (1, 1, b2n s.cfg.mismatch), (2, 1, b2n s.cfg.suspended), (16, 16, s.cfg.mismatches)])
  else if o = 0x310C then some s.power.assetTag.toNat
  else if o = 0x4008 then some 0
  else if 0x5000 ≤ o ∧ o < 0x5400 then some (s.sqRegister ((o - 0x5000) / 16) (o % 16 / 4))
  else if 0x5400 ≤ o ∧ o < 0x5500 then some (s.cqRegister ((o - 0x5400) / 16) (o % 16 / 4))
  else if o = 0x6000 then some s.link.fabricAddr.toNat
  else if o = 0x6004 then some (s.link.planAddr % 2 ^ 32)
  else if o = 0x6008 then some (s.link.planAddr / 2 ^ 32 % 2 ^ 16)
  else if o = 0x600C then some (s.link.planAt % 2 ^ 32)
  else if o = 0x6010 then some (s.link.planAt / 2 ^ 32 % 2 ^ 32)
  else if o = 0x6014 then some 0
  else if o = 0x10020 then
    some (packFields [(0, 3, s.power.target), (16, 16, s.power.retainMask.toNat)])
  else if o = 0x10040 then some s.power.throttleC
  else if o = 0x10050 then
    some (packFields (((List.range 4).map fun k => (8 * k, 7, nth s.power.floors k 0)) ++ [(31, 1, b2n s.floorLimited)]))
  else if o = 0x20008 then some (packFields [(0, 16, s.cal.rmsLim), (16, 16, s.cal.peakLim)])
  else if o = 0x2000C then
    let v := s.cal.shadowNext.getD (s.cal.log2N, s.cal.sampleEn)
    some (packFields [(0, 5, v.1), (5, 1, b2n v.2)])
  else if o ∈ shownOffsets ∨ o ∈ noonOffsets then some (s.shownValue o)
  else if o = 0x30000 then some (packFields [(0, 6, w.pageCluster), (6, 6, w.page)])
  else if 0x31000 ≤ o ∧ o < 0x32000 then some (s.pagedWord n ((o - 0x31000) / 64) (o % 64 / 4))
  else none

/-! ## Access (13 R614 to R620, R624 to R633) -/

/-- How an offset answers. -/
inductive RegKind where
  | emulated
  /-- A hardware register with a stale copy, one without, and the partner of a guarded register. -/
  | stale | hardware | partner (guarded : Nat)
  deriving DecidableEq, Repr

/-- The kind of a register; `none` for a reserved offset (R615). -/
def State.regKind (s : State) (o : Nat) : Option RegKind :=
  if o % 4 ≠ 0 then none
  else if o = 0x1002C ∨ o = 0x1004C then some .hardware
  else if o = 0x10004 ∨ o = 0x1000C ∨ o = 0x10014 then some (.partner (o - 4))
  else if (s.hwValue o).isSome then some .stale
  else if (s.emuValue 0 o).isSome then some .emulated
  else none

/-- The offset and bit that an alias stands for (R624). -/
def aliasOf (o : Nat) : Option (Nat × Nat) :=
  if 0x01000000 ≤ o ∧ o < 0x01200000 then some ((o - 0x01000000) / 128 * 4, (o - 0x01000000) % 128 / 4) else none

/-- Status codes of an access (12 R604; 13 R616). -/
inductive RegStatus where
  | ok | size | align | locked | guard | reserved | busy
  deriving DecidableEq, Repr
/-- The code of a status (12 R604). -/
def RegStatus.code : RegStatus → Nat
  | .ok => 0
  | .size => 1
  | .align => 2
  | .locked => 3
  | .guard => 4
  | .reserved => 5
  | .busy => 6

/-- The session of a sender: the sideband counts as session 0 (13 R622). -/
def srcSession : Src → Nat
  | .rustra m => m.session
  | .i3c => 0
/-- The sender is the sideband. -/
def onSideband : Src → Bool
  | .rustra _ => false
  | .i3c => true

/-- A read of a register that is no alias: its status and value (R616, R618, R623, R633, R644, R647, R649, R757). The one
effect of a read, on VALID, is that of the read of WIDE_DATA_3 (R620). -/
def State.plainRead (s : State) (src : Src) (o : Nat) : RegStatus × Nat :=
  match s.regKind o with
  | none => (.reserved, 0)
  | some .emulated =>
    if onSideband src then (.reserved, 0)
    else if !s.runs .noon then (.busy, 0)
    else if decide (0x2008 ≤ o) && decide (o < 0x2018) && !(s.window (srcSession src)).valid then (.busy, 0)
    else (.ok, (s.emuValue (srcSession src) o).getD 0)
  | some .stale => (.ok, if onSideband src then (s.live o).getD 0 else s.copy o)
  | some .hardware => (.ok, 0)
  | some (.partner g) => (.ok, 2 ^ 32 - 1 - (if onSideband src then (s.live g).getD 0 else s.copy g))

/-- The word of the crash record at an offset of it (16 R735). -/
def State.crashWord (s : State) (o : Nat) : Nat :=
  let head := leBytes 2 1 ++ leBytes 4 s.log.crashCount ++ leBytes 2 0 ++ leBytes 8 s.log.lastReset
  if o < 64 then field head o 4
  else
    let slot := (o - 64) / 32
    let l := s.log.crash
    let first := s.log.crashCount - l.length
    match (List.range l.length).find? fun i => (first + i) % 126 == slot with
    | some i => match l[i]? with
      | some e => field (crashEntryBytes e) ((o - 64) % 32) 4
      | none => 0
    | none => 0

/-- A read of one word of the window (R616 to R620, R624 to R627; 17 R756, R757). -/
def State.regRead (s : State) (src : Src) (o : Nat) : RegStatus × Nat :=
  if o % 4 ≠ 0 then (.align, 0)
  else if onSideband src ∧ 0x02000000 ≤ o ∧ o < 0x02001000 then (.ok, s.crashWord (o - 0x02000000))
  else match aliasOf o with
    | some (r, b) =>
      if 0x2000 ≤ r ∧ r < 0x2020 then (.reserved, 0)
      else match s.plainRead src r with
        | (.ok, v) => (.ok, b2n (bit v b))
        | (st, _) => (st, 0)
    | none => s.plainRead src o

/-! ## Writable fields -/

/-- The writable bits of a register: those that take the written value, those that a written 1 clears, and those that a
written 1 acts through (R619; the access columns of the field tables). -/
structure Writable where
  rw  : Nat := 0
  w1c : Nat := 0
  wo  : Nat := 0
  deriving DecidableEq, Repr

/-- The writable bits of every register of the window. -/
def writable (o : Nat) : Writable :=
  if 0x1000 ≤ o ∧ o < 0x1100 then { wo := 0xFFFF }
  else if 0x1100 ≤ o ∧ o < 0x1140 then { rw := 0xFFFF }
  else if o = 0x2000 then { rw := 0xFFFF }
  else if o = 0x3008 then { wo := 3 }
  else if o = 0x300C then { w1c := 2 }
  else if o = 0x3100 then { rw := 0x1F }
  else if o = 0x310C then { rw := 0xFFFFFFFF }
  else if o = 0x4008 then { wo := 1 }
  else if 0x5000 ≤ o ∧ o < 0x5400 then
    match o % 16 with
    | 0 => { rw := 0xFFFFF000 }
    | 4 => { rw := 0xFFFF }
    | 8 => { rw := 0x000F0F01 }
    | _ => { w1c := 0x30000 }
  else if 0x5400 ≤ o ∧ o < 0x5500 then
    match o % 16 with
    | 0 => { rw := 0xFFFE0000 }
    | 4 => { rw := 0xFFFF }
    | 8 => { rw := 0xF03 }
    | _ => {}
  else if o = 0x6000 then { rw := 0xFFFFFFFF }
  else if o = 0x6004 then { rw := 0xFFFFFFC0 }
  else if o = 0x6008 then { rw := 0xFFFF }
  else if o = 0x600C ∨ o = 0x6010 then { rw := 0xFFFFFFFF }
  else if o = 0x6014 then { wo := 3 }
  else if o = 0x10000 ∨ o = 0x10008 ∨ o = 0x10010 then { wo := 0xFFFFFFFF }
  else if o = 0x10004 ∨ o = 0x1000C ∨ o = 0x10014 then { wo := 0xFFFFFFFF }
  else if o = 0x10020 then { rw := 0xFFFF0007 }
  else if o = 0x1002C ∨ o = 0x1004C then { wo := 1 }
  else if o = 0x10040 then { rw := 0x7F }
  else if o = 0x10050 then { rw := 0x7F7F7F7F }
  else if o = 0x20008 then { rw := 0xFFFFFFFF }
  else if o = 0x2000C then { rw := 0x3F }
  else if o = 0x30000 then { rw := 0xFFF, wo := 0x1000 }
  else if 0x31000 ≤ o ∧ o < 0x32000 then { rw := if o % 64 = 12 then 0x07FFFFFF else 0xFFFFFFFF }
  else {}

/-- The register has a writable field. -/
def Writable.any (w : Writable) : Bool := w.rw != 0 || w.w1c != 0 || w.wo != 0

/-! ## The configuration set (R638, R639; 15 R720) -/

/-- The registers of the configuration set, ascending, with their masks. -/
def cfgSet : List (Nat × Nat) :=
  [(0x3100, 0x1F), (0x310C, 0xFFFFFFFF)] ++
  ((List.range 64).flatMap fun q => [(0x5000 + 16 * q, 0xFFFFF000), (0x5004 + 16 * q, 0xFFFF), (0x5008 + 16 * q, 0x000F0F01)]) ++
  ((List.range 16).flatMap fun c => [(0x5400 + 16 * c, 0xFFFE0000), (0x5404 + 16 * c, 0xFFFF), (0x5408 + 16 * c, 0x0F03)]) ++
  [(0x6000, 0xFFFFFFFF), (0x6004, 0xFFFFFFC0), (0x6008, 0xFFFF), (0x600C, 0xFFFFFFFF), (0x6010, 0xFFFFFFFF),
    (0x10000, 0x1FF), (0x10008, 0x7F), (0x10010, 0x1FFFF), (0x10040, 0x7F), (0x10050, 0x7F7F7F7F),
    (0x20008, 0xFFFFFFFF), (0x2000C, 0x3F)]

/-- The masked value of a register of the set: hardware registers enter with their stale copies (R638, R639). -/
def State.cfgValue (s : State) (x : Nat × Nat) : Nat :=
  (if (s.hwValue x.1).isSome then s.copy x.1 else (s.emuValue 0 x.1).getD 0) &&& x.2

/-- CFG_CRC of the registers as they stand (R639). -/
def State.cfgCrc (s : State) : Nat := crc32c (cfgSet.flatMap fun x => leBytes 4 (s.cfgValue x))

end Sys2Proof.Machine
end

