-- ==== Sys2Proof/Machine/Reset.lean ====
section
/-! DEFINITION. Resets and boot (14 R659 to R661; 15 R716 to R719; 16 R722, R732, R735, R736; 17 R743, R744, R747 to R753; 09 R453, R460): what each reset keeps, the release of the hub die, and the alert output. -/

namespace Sys2Proof.Machine

/-! ## The alert output (17 R753, R754) -/

/-- Some condition of ALERT_N holds (17 R753). -/
def State.alertHolds (s : State) : Bool :=
  s.fw.recovery || !s.power.alertProc.isEmpty || s.power.state == .tripped || s.power.alertVref

/-- ALERT_N follows its conditions: an assertion writes a crash record entry of KIND 7, and raises an in-band interrupt
while those are enabled. -/
def State.updateAlert (s : State) (unit : Nat) : State :=
  let now := s.alertHolds
  let rise := now && !s.power.alert
  let s := { s with power := { s.power with alert := now } }
  if !rise then s else
  let s := s.logCrash 7 unit 0 0
  if s.side.ibi then s.send (.i3cIbi 1) else s

/-! ## What resets keep -/

/-- The resets: warm (R719), the shutdown of a thermal trip or of Off (R694, R708), the full reset of a supply at its reset
level (R716), cold (R752) and power-on (R744). -/
inductive ResetKind where
  | warm | shutdown | full | cold | powerOn
  deriving DecidableEq, Repr

/-- A reset that clears the LOCK bits and the mapping of failed units (13 R635; 16 R722). -/
def ResetKind.isCold : ResetKind → Bool
  | .cold | .powerOn => true
  | _ => false

/-- An engine after a reset that keeps the mapping of failed units: counts since cold reset stay (16 R722). -/
def Engine.kept (x : Engine) : Engine :=
  { outAt := x.outAt, lock := if x.lock = .mappedOut then .mappedOut else .off, bankAFailed := x.bankAFailed, bankBFailed := x.bankBFailed,
    activeB := x.activeB, masked := x.masked, clips := x.clips, convs := x.convs }

/-- A lane after such a reset: FAILED stays (12 R590), and so do the lines it has trained on (R592) and its counts. -/
def Lane.kept (l : Lane) : Lane :=
  { tx := if l.tx = 5 then 5 else 0, rx := if l.rx = 5 then 5 else 0, txLines := l.txLines, rxLines := l.rxLines, bytesSent := l.bytesSent,
    bytesRecv := l.bytesRecv }

/-- A sparse store with every value changed; values that become the default go. -/
def mapSparse {α : Type} [DecidableEq α] (d : α) (f : α → α) (m : Sparse α) : Sparse α :=
  (m.map fun (x : Nat × α) => (x.1, f x.2)).filter fun (x : Nat × α) => x.2 ≠ d

/-- Midnight's registers after a reset: power-on and cold reset clear them all; the full reset returns the guarded
registers to their reset values (13 R635 to R637; 15 R716, R719). -/
def State.powerAfter (s : State) (k : ResetKind) : PowerSt :=
  let p := s.power
  if k.isCold then {} else
  { cap := if k = .full then 0x118 else p.cap, tripC := if k = .full then 0x73 else p.tripC,
    laser := if k = .full then 0x1FFFF else p.laser,
    capInForce := if k = .full then 0x118 else p.cap,
    energy := p.energy, dipCount := p.dipCount, lastDipUs := p.lastDipUs, lastDip := p.lastDip,
    lock := p.lock, violations := p.violations, lockLast := p.lockLast, assetTag := p.assetTag, assetSet := p.assetSet,
    guardFail := p.guardFail, guardLast := p.guardLast, alertProc := p.alertProc, alert := p.alert,
    selfRefresh := decide (k = .warm) }

/-- Calibration state after a reset: what lies in flash stays, and counts since cold reset stay over the others. -/
def State.calAfter (s : State) (k : ResetKind) : CalSt :=
  let c := s.cal
  let flash : CalSt := { areas := c.areas, newest := c.newest, ageing := c.ageing, sinceRecord := c.sinceRecord }
  if k.isCold then flash else
  { flash with sweeps := c.sweeps, lossCount := c.lossCount, wrongLine := c.wrongLine, excursions := c.excursions }

/-- The state that a reset leaves, before the hub die is released: sessions and commands end without records (15 R718),
memories keep what 09 R460 keeps, the mapping of failed units and the always-on domain's logs stay as 16 R722, R732 and
R735 say. What the device has sent and the commands that wait are the model's own fields and stay. -/
def State.afterReset (s : State) (k : ResetKind) : State :=
  let cold := k.isCold
  let f : FrameSt := if cold then {} else
    { counter := s.frame.counter, symbol := s.frame.symbol, committed := s.frame.counter + 63, intervals := s.frame.intervals,
      hadMarker := s.frame.hadMarker, anchorFreq := s.frame.anchorFreq, goodEvals := s.frame.goodEvals }
  let hbm := k = .warm
  { frame := f,
    mem := if hbm then s.mem.keep s.isHbm else [],
    poison := if hbm then s.poison.filter fun n => s.isHbm (64 * n) else [],
    latent := if hbm then s.latent.filter fun x => s.isHbm (64 * x.1) else [],
    stackBad := if cold then [] else s.stackBad,
    remapped := if cold then [] else s.remapped,
    corrected := if cold then [] else s.corrected,
    scrubPos := if hbm then s.scrubPos else [],
    clusters := if cold then [] else mapSparse {} (fun (c : Cluster) => { inputClips := c.inputClips }) s.clusters,
    accLost := s.accLost + 1,
    epoch := s.epoch + 1,
    engines := if cold then [] else mapSparse {} Engine.kept s.engines,
    combs := if cold then [] else mapSparse {} (fun (c : Comb) => { failed := c.failed, startFails := c.startFails }) s.combs,
    mapped := if cold then [] else s.mapped,
    failing := if cold then [] else s.failing,
    nextJob := s.nextJob,
    admitted := if cold then 0 else s.admitted,
    rejected := if cold then 0 else s.rejected,
    copies := if k = .warm ∨ k = .shutdown then s.copies else [],
    refresh := if k = .warm ∨ k = .shutdown then s.refresh else 0,
    nextRead := s.nextRead, nextTag := s.nextTag, nextFar := s.nextFar,
    oscCycles := if cold then 0 else s.oscCycles,
    tones := if cold then [] else mapSparse {} (fun (o : ToneOsc) => o.cleared s.oscCycles) s.tones,
    monitors := if cold then [] else mapSparse {} (fun (m : Monitor) => { failed := m.failed }) s.monitors,
    link := { activations := if cold then 0 else s.link.activations, lanes := if cold then [] else mapSparse {} Lane.kept s.link.lanes,
              conns := if cold then [] else s.link.conns },
    fw := { flash := s.fw.flash, records := s.fw.records, svnFuses := s.fw.svnFuses,
            dawn := { expiries := if cold then 0 else s.fw.dawn.expiries },
            noon := { expiries := if cold then 0 else s.fw.noon.expiries },
            dusk := { expiries := if cold then 0 else s.fw.dusk.expiries },
            twilight := { expiries := if cold then 0 else s.fw.twilight.expiries } },
    cal := s.calAfter k, power := s.powerAfter k,
    side := if cold then {} else s.side,
    log := { next := if cold then 1 else s.log.next, entries := if cold then [] else s.log.entries,
             crash := if k = .powerOn then [] else s.log.crash,
             crashCount := if k = .powerOn then 0 else s.log.crashCount,
             copied := if k = .powerOn then 0 else s.log.copied,
             lastReset := s.frame.counter },
    out := s.out, free := s.free, pending := s.pending }

/-- A reset with its cause and die: RESET_CAUSE and ALERT_N are set before the next boot (15 R719, R720). -/
def State.resetWith (s : State) (k : ResetKind) (cause die : Nat) : State :=
  let n := if k = .powerOn then 0 else Nat.min 4095 (s.power.resets + 1)
  let s := s.afterReset k
  ({ s with power := { s.power with cause := cause, causeDie := die, resets := n } }).updateAlert 0

/-! ## Reset commands -/

/-- POWER_ON_RESET: VAON or VIO_AON below its reset level (17 R744). -/
def execPowerOnReset (s : State) : Res := ok (s.resetWith .powerOn 0 0)

/-- COLD_RESET: RST_N low at ten edges; it alone releases a tripped device (15 R708; 17 R752). During power-down
sequencing memories are lost as at any cold reset. -/
def execColdReset (s : State) : Res := ok (s.resetWith .cold 1 0)

/-- Whether a rail is one whose comparators Midnight disarms in Retain (17 R743). -/
def Rail.disarmed : Rail → Bool
  | .vcore | .vana | .vhtr | .vlas | .viod => true
  | _ => false
/-- A rail whose fall is a power-on reset (17 R744). -/
def Rail.always : Rail → Bool
  | .vaon | .vioAon => true
  | _ => false

/-- SUPPLY_RESET: a rail at its reset level is a full reset with the crash record kept (15 R716; 17 R742); in Retain the
disarmed rails do nothing (R743), and the two always-on rails reset as at power-on (R744). -/
def execSupplyReset (rail : Rail) (die mv : Nat) (s : State) : Res :=
  if Rail.always rail then ok (s.resetWith .powerOn 0 0)
  else if s.power.state = .retain ∧ !s.power.railWait ∧ Rail.disarmed rail = true then ok s
  else ok ((s.logCrash 4 die 0 mv).resetWith .full 3 die)

/-- REFCLK_LOSS: Midnight holds a warm reset until REFCLK is back (15 R717). -/
def execRefclkLoss (s : State) : Res :=
  if s.power.state = .tripped ∨ s.power.refclkLost = true then ok s else
  let s := (s.logCrash 5 0 0 0).resetWith .warm 6 0
  ok { s with power := { s.power with refclkLost := true } }

/-- REFCLK_RETURN: REFCLK has been back for 10 ms, and the device may boot (15 R717). -/
def execRefclkReturn (s : State) : Res := ok { s with power := { s.power with refclkLost := false } }

/-- A warm reset on request (15 R719; RESET_CTRL.WARM). -/
def State.warmReset (s : State) : State := (s.logCrash 6 0 0 0).resetWith .warm 2 0

/-! ## Boot -/

/-- Write an error log entry with the frame of a crash record entry (16 R736). -/
def State.copyCrash (s : State) (e : CrashEntry) : State :=
  let proc := e.kind = 1
  let now := s.frame.counter
  let s := { s with frame := { s.frame with counter := e.frame } }.logError 0x0500 6 (if proc then 10 else 0)
    (if proc then e.unit else 0) e.kind e.detail
  { s with frame := { s.frame with counter := now } }
/-- Dawn copies the crash record entries written since its previous copy (16 R736). -/
def State.copyCrashes (s : State) : State :=
  let fresh := Nat.min (s.log.crashCount - s.log.copied) s.log.crash.length
  let s := forEach (s.log.crash.drop (s.log.crash.length - fresh)) State.copyCrash s
  { s with log := { s.log with copied := s.log.crashCount } }

/-- HBM training at boot: a stack that fails after a cold reset is mapped round, any other is failed (09 R453; 16 R722,
R724). -/
def State.trainStacks (s : State) (cold : Bool) (bad : List Nat) : State :=
  forEach (bad.filter fun n => decide (n < 12) && !s.mapped.contains (.stack n)) (fun s n =>
    let s := s.logError 0x0105 2 7 n 1 0
    if cold then { s with remapped := insertNat n s.remapped, mapped := s.mapped ++ [.stack n] }
    else { s with stackBad := insertNat n s.stackBad, mapped := s.mapped ++ [.stack n] }) s

/-- The combs start (02 R48): those that LASER_ENABLE permits and that have not failed reach stable lines, but for the ones
listed, which fail (16 R724). -/
def State.startCombs (s : State) (bad : List Nat) : State :=
  forEach (List.range 8) (fun s c =>
    if !s.power.laser.getLsbD c || (s.comb c).failed then s
    else if bad.contains c then (s.modComb c fun x => { x with startFails := 2 }).declare (.comb c) 4
    else s.modComb c fun x => { x with state := 2, startFails := 0 }) s

/-- Twilight starts the tones and the heaters: each heater's setting is first clear of the DAC ends by its tone's amplitude, and
those listed acquire at a setting, which of a modulator row is its lock point; a bank's centre is set when its start-up check passes (05
R240, R246, R281; 06 R306). -/
def State.startHeaters (s : State) (l : List (Nat × Nat)) : State :=
  let rest : Slew := { target := toneAmplitude, present := toneAmplitude }
  let s := { s with
    slews := ((List.range 32832).map fun c => (c, rest)) ++ s.slews.keep fun c => decide (32832 ≤ c) }
  forEach (l.filter fun x => decide (x.1 < 32832)) (fun s x =>
    let v := clampNat toneAmplitude (65535 - toneAmplitude) x.2
    { s with slews := s.slews.set {} x.1 { target := v, present := v }
             centres := if x.1 < 32768 then s.centres else s.centres.set 0 x.1 v }) s

/-- One engine's part of the start-up calibration, in the slot steps of 05 R278 (R281): two exact tiles run over all accumulator
slots (04 R202), its banks hold the identity pattern for as many probe symbols as their tone checks take (R253, R254), what it has fitted takes
effect unless the verification exceeds RESID_LIMITS, and the engine enters service, by way
of SEARCH and VERIFY; one whose tone check finds a bank on another line, or whose sector lies outside 25 °C to 105 °C, waits in
SEARCH (R244, R267). -/
def State.startEngine (s : State) (o : BootObs) (e : Nat) : State :=
  let obs := ((o.calib.find? fun x => x.1 == e).map fun x => x.2).getD {}
  let s := (s.selfTiles e).modEngine e fun x => { x.underCheck with probes := 1024 }
  let s := match s.checkShifts e true obs.tone with
    | some l => s.slotCheck e l
    | none => s
  let s := s.slotResults e obs
  let fits := (o.fits.filter fun x => x.engine == e && coefSetBy x.coef e).map fun x => (x.coef, coefClamp x.coef x.value)
  let s := if s.residOver (residsOf obs.after) then s else { s with cal := { s.cal with active := s.cal.active.puts fits } }
  let s := s.modEngine e fun x => { x with calFrames := some 0, trimsStale := false }
  if (s.engine e).invalid.isEmpty && s.tempOk (sectorOfEngine e) then s.enterService e
  else s.modEngine e fun x => { x.parked with lock := .search, relock := { step := 4 } }

/-- The start-up calibration of every engine whose comb is on, before any enters service (05 R281; 15 R690). The rotation
starts at the first boundary of a frame divisible by 16 after it. The monitors have given the sectors' mean temperatures (R244; 06
R321). -/
def State.startEngines (s : State) (o : BootObs) : State :=
  let s := (s.startHeaters o.heaters).startTones
  let s := forEach [0, 1, 2, 3] (fun s k => s.modSector k fun x => { x with means := [nth o.temps k 75000] }) s
  let s := forEach (List.range 256) (fun s e =>
    if s.engineOut e || (s.comb (combOfEngine e)).state < 2 then s else s.startEngine o e) s
  { s with cal := { s.cal with rotating := false, resumeDue := true } }

/-- Link combs and transmit lanes emit where LASER_ENABLE permits: lanes probe, and receive lanes are dark until light
comes; the Rustra transmitters use line 3 (12 R562, R594 to R596). -/
def State.startLanes (s : State) : State :=
  let s := forEach [0, 1, 2, 3] (fun s d => { s with link := { s.link with linkCombs := s.link.linkCombs.modify {} d fun x =>
    { x with state := if s.power.laser.getLsbD (8 + d) then 2 else 0 } } }) s
  forEach (List.range 258) (fun s i => s.modLane i fun l =>
    { l with tx := if l.tx = 5 then 5 else if s.laneLit i then 1 else 0, rx := if l.rx = 5 then 5 else 1,
             txLine := if 256 ≤ i then 3 else l.txLine }) s

/-- Every converter self-calibrates (06 R321). -/
def State.startMonitors (s : State) : State :=
  { s with monitors := (List.range 68).foldl (fun m k => m.modify {} k fun x => x.startSelfcal k) s.monitors }

/-- Dawn verifies the factory calibration blob in flash (05 R290, R292; 14 R656). -/
def State.blobOk (s : State) : Bool := Config.blobVerifies (s.flashBytes 0x02010000 0x00800000)

/-- The processors start from the images of a slot (14 R659). -/
def State.startProcs (s : State) (slotB : Bool) : State :=
  forEach [Proc.dawn, .noon, .dusk, .twilight] (fun s p => s.modProc p fun x => { x with up := true, halted := false, slotB := slotB }) s

/-- The device boots the package of a slot, by the steps of 14 R659, up to where Noon accepts SESSION OPEN. -/
def State.boot (s : State) (slotB : Bool) (o : BootObs) : State :=
  let m := s.manifestOf slotB
  let cold := decide (s.power.cause < 2)
  let blob := s.blobOk
  let s := s.startProcs slotB
  let s := { s with
    fw := { s.fw with booted := true, recovery := false, ready := true, running := some m, staged := [], update := .none,
                      unconfirmed := false, svnFuses := Nat.max s.fw.svnFuses m.svn, measurements := s.measure m,
                      factoryOk := blob }
    cal := { s.cal with userLoaded := blob && s.cal.userSet.isSome, active := s.cal.bootSet blob }
    power := { s.power with state := .run, domains := [1, 2, 3, 4, 5, 6, 7, 8, 9], kept := 0xFFFF, selfRefresh := false }
    frame := { s.frame with committed := s.frame.counter + 63 } }
  let s := (((s.copyCrashes.trainStacks cold o.stacksBad).startMonitors).startCombs o.combsBad).startEngines o
  s.startLanes.updateAlert 0

/-- HUB_RELEASE: with VREF_EXT in range and the rails above their warning levels, the hub die is released and boots the
package of BOOT_SLOT, or the other one when that fails verification; with neither valid, Dawn stays in ROM recovery mode
(14 R659, R660; 17 R747, R749). -/
def execHubRelease (o : BootObs) (s : State) : Res :=
  if s.fw.booted = true ∨ s.power.refclkLost = true ∨ s.power.state = .tripped ∨ s.power.state = .off then ok s
  else if !o.vrefOk then ok ({ s with power := { s.power with alertVref := true } }.updateAlert 0)
  else if !o.railsOk then ok s
  else
    let s := { s with power := { s.power with alertVref := false } }
    let a := s.bootSlot
    if s.packageValid a then ok (s.boot a o)
    else
      let s := s.logCrash 2 (b2n a) 0 0
      if s.packageValid (!a) then ok (s.boot (!a) o)
      else
        let s := s.logCrash 2 (b2n (!a)) 0 0
        ok ({ s with fw := { s.fw with booted := true, recovery := true }, power := { s.power with domains := [1] } }.updateAlert 0)

end Sys2Proof.Machine
end

