-- ==== Sys2Proof/Machine/Power.lean ====
section
/-! DEFINITION. Power, heat and supply (15 R683 to R721; 17 R742, R743; 09 R460 to R462): the cap, the floors, the limiter, the thermal loop and trips, supply dips, and the states Doze, Retain and Off. -/

namespace Sys2Proof.Machine

/-! ## The power cap (15 R695 to R699) -/

/-- The cap in force for a frame, in 5 W units: POWER_CAP, or the planned power of reservations made before it was last
lowered when that is larger; the forced 800 W when Dusk is away (15 R695 to R697). -/
def State.capFor (s : State) (f : Nat) : Nat :=
  let old := { s with jobs := s.jobs.filter fun (j : Job) => decide (j.id < s.power.oldJobs) }
  let cap := if s.power.oldJobs = 0 then s.power.cap else Nat.max s.power.cap (ceilDiv (old.plannedPower f) (5 * watt))
  if s.power.forced then Nat.min 160 cap else cap

/-- Midnight forces 800 W while Dusk is away, or no longer (15 R697). -/
def State.force (s : State) (on : Bool) : State :=
  let s := { s with power := { s.power with forced := on } }
  { s with power := { s.power with capInForce := s.capFor s.frame.counter } }

/-- Take off up to `n` mW from a list of draws, in the order of the list: what is taken from each, and what is left to
take (15 R698, R699; log 50). -/
def takeOff : Nat → List Nat → List Nat × Nat
  | n, [] => ([], n)
  | n, d :: ds => let t := Nat.min n d
                  let r := takeOff (n - t) ds
                  (t :: r.1, r.2)

/-- What is throttled of a sector, in mW. -/
def Sector.throttle (x : Sector) : Nat := x.thrVec + x.thrFill + x.thrIssue
/-- More taken off the three draws of a sector. -/
def Sector.addThrottle (x : Sector) (vec fill issue : Nat) : Sector :=
  { x with thrVec := x.thrVec + vec, thrFill := x.thrFill + fill, thrIssue := x.thrIssue + issue }
/-- What the limiter takes off a sector's draws (vector issue, fill, group issue) so that the sector stays within the share of the cap
that its thermal loop leaves it (15 R698, R707; log 50). -/
def Sector.shareCut (x : Sector) (draws : List Nat) : List Nat := (takeOff (x.thermMw - x.throttle) draws).1
/-- The throttle of a sector lowered by one step of the slew limit, group issue first, down to what its thermal loop asks (15 R699,
R700, R707). -/
def Sector.release (x : Sector) : Sector :=
  let n := Nat.min 40000 (x.throttle - x.thermMw)
  let a := Nat.min n x.thrIssue
  let b := Nat.min (n - a) x.thrFill
  let c := Nat.min (n - a - b) x.thrVec
  { x with thrIssue := x.thrIssue - a, thrFill := x.thrFill - b, thrVec := x.thrVec - c }

/-- Some sector is throttled by the limiter. -/
def State.throttled (s : State) : Bool :=
  (List.range 4).any fun k => decide (0 < (s.sector k).throttle)

/-- POWER_LIMITER: every 100 µs the hardware limiter compares measured power, in W, with the cap in force. It takes the
excess off vector issue, then fill, then group issue, of which the operands give each sector's draw in mW, or releases its
throttle at the slew limit (15 R698 to R700); a sector whose share of the cap its thermal loop has lowered is held to it (R707). -/
def execPowerLimiter (measured : Nat) (vec fill issue : List Nat) (s : State) : Res :=
  let s := { s with power := { s.power with measured := satNat measured 4095, energy := s.power.energy + measured } }
  let cap := 5 * s.power.capInForce
  let cut := [0, 1, 2, 3].map fun k => (s.sector k).shareCut [nth vec k 0, nth fill k 0, nth issue k 0]
  let s := forEach [0, 1, 2, 3] (fun s k => s.modSector k fun x =>
    let t := nth cut k []
    x.addThrottle (nth t 0 0) (nth t 1 0) (nth t 2 0)) s
  let left := fun (l : List Nat) (i : Nat) => [0, 1, 2, 3].map fun k => nth l k 0 - nth (nth cut k []) i 0
  let s := if cap < measured then
      let a := takeOff ((measured - cap) * 1000 - sumNat cut.flatten) (left vec 0)
      let b := takeOff a.2 (left fill 1)
      let c := takeOff b.2 (left issue 2)
      forEach [0, 1, 2, 3] (fun s k => s.modSector k fun x => x.addThrottle (nth a.1 k 0) (nth b.1 k 0) (nth c.1 k 0)) s
    else forEach [0, 1, 2, 3] (fun s k => s.modSector k Sector.release) s
  ok { s with power := { s.power with limiting := s.throttled } }

/-! ## Floors and fill (15 R700 to R706) -/

/-- The floors as the cap allows them: as written, or scaled by the one largest factor that fits (15 R706). -/
def State.floorTargets (s : State) (floors : List Nat) : List Nat :=
  let l := (List.range 4).map fun k => floorUnits (nth floors k 0)
  let room := 5 * s.power.cap * watt - 225 * watt
  if sumNat l ≤ room then l else l.map fun x => x * room / sumNat l

/-- The plan of the floors with new targets from the first frame beyond the committed horizon (15 R706). -/
def State.planFloors (s : State) (targets : List Nat) : State :=
  { s with power := { s.power with floorPlan := s.power.floorPlan ++ [(s.frame.counter + 65, targets)] } }

/-- The planned power fits under POWER_CAP in every frame beyond the committed horizon that holds a reservation or a ramp
(15 R706). -/
def State.planFits (s : State) : Bool :=
  let f := s.frame.counter + 65
  let last := s.ends.foldl Nat.max f
  framesAll (fun g => decide (s.plannedPower g ≤ 5 * s.power.cap * watt)) f (last - f + 82)

/-- The targets of the newest plan of the floors. -/
def State.newestFloors (s : State) : List Nat := (s.power.floorPlan.getLast?.map fun x => x.2).getD [0, 0, 0, 0]

/-- Noon lowers floors that no longer fit under POWER_CAP, and raises lowered ones again where there is room (15
R706). -/
def State.replanFloors (s : State) : State :=
  if !s.runs .noon then s else
  let t := s.floorTargets s.power.floors
  let now := s.newestFloors
  if t = now then s
  else if (List.range 4).all fun k => decide (nth t k 0 ≤ nth now k 0) then s.planFloors t
  else if (s.planFloors t).planFits then s.planFloors t else s

/-- POWER_CAP takes a new value (15 R695, R696, R706). -/
def State.setCap (s : State) (v : Nat) : State :=
  let low := decide (v < s.power.cap)
  ({ s with power := { s.power with cap := v, oldJobs := if low then s.nextJob else s.power.oldJobs } }).replanFloors

/-- Group issue of a sector in a frame, planned or discarded, without the engines that calibrate (05 R263). -/
def State.issuedAt (s : State) (f k : Nat) : Nat := calibUnits * s.discarding k + sumNat (s.jobs.map fun (j : Job) => s.issueOf j f k)

/-- Planned group issue and fill of a sector without the engines that calibrate, with ramps (15 R686, R702). -/
def State.workLevel (s : State) (f k : Nat) : Nat :=
  let raw := fun (g : Nat) => Nat.max (s.floor g k) (s.issuedAt g k)
  (List.range 40).foldl (fun m d =>
    let m := Nat.max m (raw (f + d) - slewUnits * d)
    if d ≤ f then Nat.max m (raw (f - d) - slewUnits * d) else m) 0

/-- mW of a number of power units. -/
def milliwatts (u : Nat) : Nat := u * 1000 / watt

/-- Fill that is planned for a sector in a frame, in mW: what the level holds beyond planned group issue (15 R701, R705).
Dusk warms a sector below 30 °C with fill (R704). There is none outside Run. -/
def State.fillTarget (s : State) (f k : Nat) : Nat :=
  if s.power.state ≠ .run then 0 else
  let issue := s.issuedAt f k
  let cold := s.runs .dusk && (match (s.sector k).means.head? with
    | some t => decide (t < 30000)
    | none => false)
  let room := milliwatts (5 * s.power.capInForce * watt - s.plannedPower f)
  Nat.max (milliwatts (s.workLevel f k - issue)) (if cold then Nat.min room (127500 - milliwatts issue) else 0)

/-- The most that a sector's power moves in one frame, in mW (15 R700). -/
def slewMw : Nat := 3277
/-- A number moved towards a target by at most a step. -/
def approach (v t step : Nat) : Nat := if v < t then Nat.min t (v + step) else Nat.max t (v - step)

/-- An engine that an excursion affects stays out: its relock has not started (05 R270). -/
def State.staysOut (s : State) (e : Nat) : Bool :=
  (s.sector (sectorOfEngine e)).affected.contains e && (match (s.engine e).lock with
    | .verify => false
    | .search => decide (4 ≤ (s.engine e).relock.step)
    | _ => true)
/-- The issue power above Hold towards which Dusk moves a sector: none in an excursion until a relock starts, and then what the
engines draw that do not stay out (05 R270; log 114). -/
def State.excursionMw (s : State) (k : Nat) : Nat :=
  let x := s.sector k
  if !x.excursion then 127500
  else if x.ramp then 0
  else 127500 * (((List.range 64).map fun i => 64 * k + i).filter fun e => !s.staysOut e).length / 64

/-- The sectors at a boundary: Hold, fill and the ramp of an excursion (05 R270; 15 R686, R700 to R705). -/
def State.sectorPower (s : State) (f k : Nat) : State :=
  let hold := s.power.state == .doze || (s.workLevel f k == 0 && s.workLevel (f + 1) k == 0)
  let fill := s.fillTarget f k
  s.modSector k fun x => { x with
    hold := hold
    fillMw := approach x.fillMw fill slewMw
    issueMw := if s.runs .dusk then approach x.issueMw (s.excursionMw k) slewMw else x.issueMw }

/-- What power does at a boundary: the cap in force, floors, sectors, and combs dimmed in Doze (02 R85; 15 R685 to R706). -/
def State.powerBoundary (s : State) : State :=
  let f := s.frame.counter
  let s := s.replanFloors
  let s := { s with power := { s.power with capInForce := s.capFor f } }
  let s := forEach [0, 1, 2, 3] (fun s k => s.sectorPower f k) s
  if s.power.state = .doze ∧ s.runs .dusk = true then
    forEach (List.range 8) (fun s c => s.modComb c fun x => { x with dimmed := decide (2 ≤ x.state) }) s
  else s

/-! ## Heat (15 R707 to R709) -/

/-- THERMAL_LOOP: every 100 µs Dusk evaluates the hottest diode of each sector, in 0.125 °C. A sector above THROTTLE_C has
its share of the cap lowered at the slew limit until it is 2 °C below, and the emergency latch is set (15 R707, R709). -/
def execThermalLoop (temps : List Nat) (s : State) : Res :=
  if !s.runs .dusk then ok s else
  let hi := 8 * s.power.throttleC
  let s := forEach [0, 1, 2, 3] (fun s k =>
    let t := nth temps k 0
    s.modSector k fun x =>
      let on := decide (hi < t) || (x.thermThrottle && decide (hi - 16 < t))
      { x with hot := t, thermThrottle := on, thermMw := if on then Nat.min 210000 (x.thermMw + 40000) else x.thermMw - 40000 }) s
  let on := (List.range 4).any fun k => (s.sector k).thermThrottle
  ok { s with power := { s.power with thermHold := on, emergency := s.power.emergency || on } }

/-- The device goes down with only the always-on domain on; memories are lost and RESET_CAUSE stays (15 R694, R708). -/
def State.shutdown (s : State) (st : PwrState) : State :=
  let p := s.power
  let s := s.afterReset .shutdown
  { s with power := { s.power with state := st, cause := p.cause, causeDie := p.causeDie, resets := p.resets } }

/-- THERMAL_TRIP: a trip diode, in 0.125 °C, at 115 °C or at TRIP_LIMIT shuts the device down and leaves it tripped (15
R707, R708). -/
def execThermalTrip (die temp : Nat) (s : State) : Res :=
  if s.power.state = .tripped ∨ s.power.state = .off ∨ temp < 8 * s.power.tripC then ok s else
  let s := (s.logCrash 3 die 0 temp).shutdown .tripped
  let s := { s with power := { s.power with cause := if 920 ≤ temp then 4 else 5, causeDie := die,
                                            resets := Nat.min 4095 (s.power.resets + 1) } }
  ok (s.updateAlert 0)

/-! ## Supply (15 R711 to R716; 17 R742, R743) -/

/-- Midnight watches a rail: not the disarmed ones in Retain (17 R743), and none once the device is off or tripped. -/
def State.watches (s : State) (r : Rail) : Bool :=
  match s.power.state with
  | .retain => s.power.railWait || !Rail.disarmed r
  | .off | .tripped => false
  | _ => true

/-- SUPPLY_DIP_START: a rail below its warning level; group issue is held, and commands with a group converted in the last
512 symbols or under way carry SUPPLY_DIP (15 R712, R713). A second dip within 10 ms sets the emergency latch (R715). -/
def execSupplyDipStart (rail : Rail) (sector mv : Nat) (s : State) : Res :=
  if s.watches rail = false then ok s else
  let s := if rail = .vcore then s.modSector sector fun x => { x with vcoreMv := satNat mv 1023 } else s
  if s.power.dip then ok s else
  let now := s.frame.counter * Config.symbolsPerFrame + s.frame.symbol
  let again := match s.power.lastDip with
    | some f => decide ((s.frame.counter - f) * 8192 < 10000000)
    | none => false
  let under := fun (id : Nat) => s.engines.any fun (x : Nat × Engine) => x.2.issues.any fun (i : Issue) => i.job == id
  let s := s.flagJobs (fun j => under j.id || (match j.lastConv with
    | some t => decide (now ≤ t + 512)
    | none => false)) fun f => { f with supplyDip := true }
  ok { s with power := { s.power with
    dip := true, dipEnded := false, issueHeld := true, dipSector := sector, lastDip := some s.frame.counter
    dipCount := Nat.min 255 (s.power.dipCount + 1), dipHold := s.power.dipHold || again
    emergency := s.power.emergency || again } }

/-- POWER_FAIL_WARNING: a dip longer than 20 µs puts every stack into self-refresh and sets the emergency latch (15 R715;
09 R462). -/
def execPowerFailWarning (sector us : Nat) (s : State) : Res :=
  if !s.power.dip || us ≤ 20 then ok s else
  ok { s with power := { s.power with selfRefresh := true, dipHold := true, emergency := true, dipSector := sector } }

/-- SUPPLY_DIP_END: the rail has been back for 1 µs; the stacks leave self-refresh, and a dip outside the envelope is logged
(15 R712, R715; 16 R734). -/
def execSupplyDipEnd (us : Nat) (s : State) : Res :=
  if !s.power.dip then ok s else
  let outside := s.power.dipHold || decide (20 < us)
  let s := { s with power := { s.power with dip := false, dipEnded := true, lastDipUs := satNat us 63, selfRefresh := false,
                                            dipHold := false, emergency := s.power.emergency || outside } }
  ok (if outside then s.logError 0x0004 1 0 s.power.dipSector s.power.dipSector us else s)

/-- DIP_REFERENCE_CHECK: at the first boundary after a dip the row ADCs convert their references. An engine with a row that
fails leaves service; a row that fails twice in succession has failed; issue resumes (15 R712; 16 R724). -/
def execDipReferenceCheck (failed : List (Nat × Nat)) (s : State) : Res :=
  if !s.power.dipEnded then ok s else
  let s := { s with power := { s.power with dipEnded := false, issueHeld := false } }
  let s := forEach (List.range 256) (fun s e =>
    let bad := (failed.filter fun x => x.1 == e).map fun x => x.2
    let twice := bad.filter fun r => (s.engine e).refFailed.contains r
    let s := if (s.engine e).refFailed = bad then s else s.modEngine e fun x => { x with refFailed := bad }
    let s := forEach twice (fun s r => s.declare (.rowAdc e r) 3) s
    if bad.isEmpty then s else match (s.engine e).lock with
      | .locked | .held | .calib => s.modEngine e fun x => x.removed (s.sector (sectorOfEngine e)).excursion
      | _ => s) s
  ok s.displace

/-! ## Doze, Retain and Off (15 R685 to R694; 09 R460; 17 R743) -/

/-- The frames in Doze have ended: combs are at full power at the next boundary, and every engine relocks (15 R689). -/
def State.leaveDoze (s : State) : State :=
  let s := { s with power := { s.power with state := .run, target := 0 } }
  forEach (List.range 256) (fun s e => match (s.engine e).lock with
    | .locked | .held | .calib => s.modEngine e fun x => { x.removed false with discards := false }
    | _ => s) s

/-- The clusters of the retention domains that a mask keeps (09 R461). -/
def keptCluster (mask : BitVec 16) (c : Nat) : Bool := mask.getLsbD (c / 4)

/-- Memories in Retain: HBM in self-refresh and the SRAM, slots and scale entries of the kept domains are kept (09
R460). -/
def State.retainMemories (s : State) (mask : BitVec 16) : State :=
  let keepAt := fun (a : Nat) => match s.space a with
    | .hbm => true
    | .sram c => keptCluster mask c
    | _ => false
  { s.keepMem keepAt with
    clusters := (List.range 64).foldl (fun m c => m.modify {} c fun (x : Cluster) =>
      if keptCluster mask c then { x with bufs := [] } else { inputClips := x.inputClips, modFails := x.modFails }) s.clusters
    scales := s.scales.keep fun k => keptCluster mask (k / 4096)
    acc := [], accLost := s.accLost + 1, tiles := [], locals := [], threads := [], kernels := [] }

/-- RETAIN_ENTRY_COMPLETE: only the retained domains and the always-on one are on; lanes and combs are off, the processors
have stopped (15 R690), and frames are counted locally (R693). -/
def execRetainEntryComplete (s : State) : Res :=
  if s.power.state ≠ .entering ∨ s.power.target ≠ 2 then ok s else
  let s := s.retainMemories s.power.retainMask
  let s := forEach [Proc.dawn, .noon, .dusk, .twilight] (fun s p => s.modProc p fun x => { x with up := false, halted := false }) s
  let s := forEach (List.range 8) (fun s c => s.combLeaves c) s
  let s := forEach (List.range 258) (fun s i => s.modLane i fun l =>
    { l with tx := if l.tx = 5 then 5 else 0, rx := if l.rx = 5 then 5 else 0 }) s
  ok { s with
    power := { s.power with state := .retain, domains := [], kept := s.power.retainMask, selfRefresh := true }
    cal := { s.cal with rotating := false, resumeDue := false }
    frame := { s.frame with source := if s.frame.source = .localFrames then .localFrames else .holdover } }

/-- A wake event starts the Retain exit, or the wait for the switched rails (17 R743). -/
def State.wake (s : State) (railsOk : Bool) : State :=
  if railsOk then { s with power := { s.power with state := .resuming, wakeLatched := false, railWait := false } }
  else { s with power := { s.power with wakeLatched := false, railWait := true } }

/-- A wake event: in Retain it begins the exit; during the entry it is latched (15 R691, R692). -/
def State.wakeEvent (s : State) (railsOk : Bool) : State :=
  if s.power.state = .retain then s.wake railsOk
  else if s.power.state = .entering ∧ s.power.target = 2 then
    { s with power := { s.power with wakeLatched := true, railWait := !railsOk } }
  else s

/-- WAKE_EVENT: light on a Rustra receive lane after darkness (15 R691). -/
def execWakeEvent (railsOk : Bool) (s : State) : Res := ok (s.wakeEvent railsOk)

/-- RETAIN_RAIL_WAIT_END: the switched rails have been above their warning levels for 1 ms (17 R743). -/
def execRetainRailWaitEnd (s : State) : Res :=
  if s.power.state = .retain ∧ s.power.railWait = true ∧ s.power.wakeLatched = false then ok (s.wake true) else ok s

/-- RETAIN_RAIL_WAIT_TIMEOUT: after 1 s Midnight performs a full reset with cause supply reset; which die and level the
record gives is free (17 R743; log 51). -/
def execRetainRailWaitTimeout (s : State) : Res :=
  if s.power.state ≠ .retain ∨ s.power.railWait = false ∨ s.power.wakeLatched = true then ok s else
  match takeNat s with
  | (die, s) => match takeNat s with
    | (mv, s) => ok ((s.logCrash 4 (die % 21) 0 (mv % 1024)).resetWith .full 3 (die % 21))

/-- The exit of Retain runs to its end (15 R690, R693): processors, monitors, stacks, combs, engines and lanes start as at
boot. -/
def State.leaveRetain (s : State) (o : BootObs) : State :=
  let s := forEach [Proc.dawn, .noon, .dusk, .twilight] (fun s p => s.modProc p fun x => { x with up := true }) s
  let s := { s with power := { s.power with state := .run, target := 0, selfRefresh := false,
                                            domains := [1, 2, 3, 4, 5, 6, 7, 8, 9] },
                    frame := { s.frame with committed := s.frame.counter + 63 } }
  ((s.startMonitors.startCombs o.combsBad).startEngines o).startLanes

/-- RETAIN_EXIT_COMPLETE: the device is in Run, and Noon admits work (15 R690). -/
def execRetainExitComplete (s : State) (obs : BootObs := {}) : Res :=
  if s.power.state = .resuming then ok (s.leaveRetain obs) else ok s

/-- POWERDOWN_COMPLETE: power-down sequencing has ended and PWR_STATUS reads Off (15 R694). -/
def execPowerdownComplete (s : State) : Res :=
  if s.power.state = .entering ∧ s.power.target = 3 then ok (s.shutdown .off) else ok s

/-- A latched wake event takes effect at the edge of the slow clock at which STATE reads Retain (15 R692). -/
def State.latchedWake (s : State) : State :=
  if s.power.state = .retain ∧ s.power.wakeLatched = true then s.wake (!s.power.railWait) else s

/-- STALE_COPY_REFRESH: an edge of the slow clock; every copy is refreshed under the next refresh number (13 R647), and a
latched wake event takes effect (15 R692). -/
def execStaleCopyRefresh (s : State) : Res := ok s.refreshCopies.latchedWake

/-! ## Requests for power states (15 R687 to R694) -/

/-- Some command is accepted and not completed (10 R475; 15 R687). -/
def State.busyJobs (s : State) : Bool := s.jobs.any Job.open'

/-- The state that a PWR_REQ target names. -/
def targetState : Nat → PwrState
  | 0 => .run
  | 1 => .doze
  | 2 => .retain
  | _ => .off

/-- A request through PWR_REQ and whether it is refused with BUSY: during the entry of Retain or Off (R692), while a
command is accepted and not completed when the target differs from the present state (R687), and while the device is not
in Run or Doze. -/
def State.requestPower (s : State) (target : Nat) (mask : BitVec 16) : State × Bool :=
  let differs := decide (targetState target ≠ s.power.state)
  if (s.power.state ≠ .run ∧ s.power.state ≠ .doze) ∨ (differs = true ∧ s.busyJobs = true) then (s, true) else
  let s := { s with power := { s.power with target := target, retainMask := mask } }
  if !differs then (s, false) else
  match target with
  | 0 => (s.leaveDoze, false)
  | 1 => ({ s with power := { s.power with state := .doze } }, false)
  | _ => ({ s with power := { s.power with state := .entering } }, false)

/-! ## LASER_ENABLE (02 R48, R95; 12 R596; 13 R629) -/

/-- LASER_ENABLE takes a new value: cleared bits stop emission, set ones permit a start (02 R48, R95; 12 R596). -/
def State.setLaser (s : State) (v : BitVec 17) : State :=
  let old := s.power.laser
  let s := { s with power := { s.power with laser := v } }
  let live := s.power.state == .run || s.power.state == .doze
  let s := forEach (List.range 8) (fun s c =>
    if old.getLsbD c && !v.getLsbD c then s.combLeaves c
    else if !old.getLsbD c && v.getLsbD c && live && s.fw.booted && !(s.comb c).failed then s.modComb c fun x => { x with state := 1 }
    else s) s
  let s := forEach [0, 1, 2, 3] (fun s d => { s with link := { s.link with linkCombs := s.link.linkCombs.modify {} d fun x =>
    { x with state := if !v.getLsbD (8 + d) then 0 else if old.getLsbD (8 + d) then x.state else if live && s.fw.booted then 2 else 0 } } }) s
  forEach (List.range 258) (fun s i =>
    let was := (s.lane i).tx
    if !s.laneLit i && was != 0 && was != 5 then s.setLane i fun l => { l with tx := 0 }
    else if s.laneLit i && was == 0 && live && s.fw.booted then s.setLane i fun l => { l with tx := 1 }
    else s) s

end Sys2Proof.Machine
end

