-- ==== Sys2Proof/Machine/Rustra.lean ====
section
/-! DEFINITION. The Rustra port (12 R602 to R612; 11 R511 to R514; 14 R669 to R671): which messages the device hears, DOORBELL, MEM_READ, MEM_WRITE, HEARTBEAT, HA_RESP, credits and the link layer. -/

namespace Sys2Proof.Machine

/-! ## Which messages take effect -/

/-- A message can arrive: its lane is in service, or the other one of a bonded port is (12 R603, R767). -/
def State.hears (s : State) (m : Msg) : Bool :=
  decide (m.port < 2) && ((s.lane (256 + m.port)).rx == 3 || (s.link.bonded && ((s.lane 256).rx == 3 || (s.lane 257).rx == 3)))
/-- The session that a message names is open and bound to the port it came on (12 R767; 14 R667, R669). -/
def State.bound (s : State) (m : Msg) : Bool :=
  match s.session m.session with
  | some ss => ss.port == (if s.link.bonded then 0 else m.port)
  | none => false

/-- A message with an answer: nothing comes of one that cannot arrive, and one of a session that is not bound to the port is
answered with RESERVED and has no effect (14 R669). -/
def messageOp (m : Msg) (s : State) (refused : Out) (f : State → State) : Res :=
  if !s.hears m then ok s
  else if !s.bound m then ok (s.send refused)
  else ok (f s)

/-! ## Doorbells (11 R511 to R514) -/

/-- A doorbell value applied to a queue (11 R511). -/
def Sq.doorbell (x : Sq) (tail : Nat) : Sq :=
  if (tail + 65536 - x.seq % 65536) % 65536 ≤ 2 ^ x.log2 then { x with tail := tail % 65536 } else { x with dbErr := true }

/-- Noon applies what the endpoint has latched for a queue (11 R514). -/
def State.applyDoorbell (s : State) (q : Nat) : State :=
  match (s.sq q).latched with
  | some v => s.modSq q fun x => { x.doorbell v with latched := none }
  | none => s

/-- The endpoint latches a doorbell value for a queue that the session holds; Noon applies it at once when it runs, unless
the session's grace has ended (11 R514; 14 R670). -/
def State.ring (s : State) (session q tail : Nat) : State :=
  let s := s.modSq q fun x => { x with latched := some (tail % 65536) }
  let grace := match s.session session with
    | some ss => ss.grace
    | none => true
  if s.runs .noon && !grace then s.applyDoorbell q else s

/-- The doorbells latched for the queues of a session are applied (11 R514; 14 R672). -/
def State.applyLatched (s : State) (session : Nat) : State :=
  match s.session session with
  | some ss => if ss.grace then s else forEach ss.sqs State.applyDoorbell s
  | none => s

/-- DOORBELL: there is no answer; one for a queue that the session does not hold has no effect (11 R514; 12 R605; 14
R669). -/
def execDoorbell (m : Msg) (sq : Nat) (tail : Word32) (s : State) : Res :=
  if s.hears m && s.bound m && s.ownsSq m.session sq then ok (s.ring m.session sq (tail.toNat % 65536)) else ok s

/-! ## Remote reads and writes (12 R607) -/

/-- Status of a remote access (12 R604, R607; 09 R453). -/
def State.memStatus (s : State) (a len : Nat) : RegStatus :=
  if len % 4 ≠ 0 ∨ len = 0 ∨ 4096 < len ∨ a / 4096 ≠ (a + len - 1) / 4096 then .size
  else if a % 4 ≠ 0 then .align
  else if !(s.isHbm a || s.isSram a) || s.onBadStack a || s.onBadStack (a + len - 1) then .reserved
  else .ok

/-- MEM_READ; what a read of a poisoned block delivers is free (12 R607; 09 R449, R450; log 52). -/
def execMemRead (m : Msg) (address len : Nat) (s : State) : Res :=
  messageOp m s (.memResp m 5 []) fun s =>
    let st := s.memStatus address len
    if st ≠ .ok then s.send (.memResp m st.code [])
    else
    let s := s.findIn address len
    if s.anyPoison address len then
      match takeNat s with
      | (n, s) => s.send (.memResp m 0 (leBytes len n))
    else s.send (.memResp m 0 (s.bytes address len))

/-- MEM_WRITE: answered once the data is visible to every agent and every cached translation is dropped (12 R607; 09
R458). -/
def execMemWrite (m : Msg) (address : Nat) (data : List Byte) (s : State) : Res :=
  messageOp m s (.memResp m 5 []) fun s =>
    let st := s.memStatus address data.length
    if st ≠ .ok then s.send (.memResp m st.code [])
    else (s.writeAll address data).send (.memResp m 0 [])

/-! ## Heartbeats (12 R606, R611; 14 R670) -/

/-- HEARTBEAT: answered in hardware; one that returns before the grace ends restores the session (12 R606; 14 R670). -/
def execHeartbeat (m : Msg) (s : State) : Res :=
  messageOp m s (.heartbeatResp m 5 0 0) fun s =>
    let s := s.modSession m.session fun x => if x.grace then x else { x with lost := false }
    s.send (.heartbeatResp m 0 s.frame.counter (BitVec.ofNat 32 s.frameStatus))

/-! ## Answers to accesses of the host aperture (12 R605, R609; 14 R671; 08 R430 to R435) -/

/-- The stop of an activation tile whose page from an address on could not be read: the role, and the tile's first element
(08 R435). -/
def Stage.hostStop (st : Stage) (cluster u a : Nat) : Option (Nat × Nat × Status × Nat) :=
  (piecesIn (st.pieces cluster u) a (4096 - a % 4096)).head?.map fun x =>
    (x.1, st.tileStart x.1 u, .translationFault, pageOf a)

/-- The tile buffers of a set that wait for the answer with a tag take it: bytes, or a failed access (08 R409). -/
def State.tileAnswer (s : State) (tag job cluster u address : Nat) (data : Option (List Byte)) : State :=
  match s.job? job with
  | none => s
  | some j => match ((s.cluster cluster).bufs.find? fun (b : TileBuf) => b.job == job && b.hostReads.contains tag).bind fun b =>
      (j.body.stageList[b.stage]?).map (·.eff b.rerun) with
    | none => s
    | some st =>
      let bad := st.hostStop cluster u address
      forEach (s.fetchSet j st cluster) (fun s c =>
        s.modBuf c (fun (b : TileBuf) => b.job == job && b.hostReads.contains tag) fun (b : TileBuf) =>
          let b := { b with hostReads := b.hostReads.filter fun (n : Nat) => n != tag }
          match data with
          | some l => { b with cells := landBytes b.cells address l }
          | none => { b with bad := earlierBad b.bad bad }) s

/-- The bytes that a load waits for reach its destination. -/
def LoadDest.fill (d : LoadDest) (lane skip size n : Nat) : LoadDest :=
  let put := fun (w : Word64) => BitVec.ofNat 64 (setBits w.toNat (8 * skip) (8 * size) n)
  match d with
  | .vec vd l => .vec vd (((List.range l.length).zip l).map fun (x : Nat × Option Word64) =>
      if x.1 = lane then x.2.map put else x.2)
  | .scalar sd v => .scalar sd (put v)

/-- A load takes bytes that it waits for; one that was dropped when its kernel stopped takes none (07 R370). -/
def State.loadAnswer (s : State) (job thread k lane skip size n : Nat) : State :=
  s.modThread thread fun th => if th.kernel = job then
    { th with loads := mapIf (fun l => l.n == k) (fun l => { l with dest := l.dest.fill lane skip size n, waits := l.waits - 1 }) th.loads }
    else th

/-- The destinations of a command: role, COLLECT entry, descriptor. -/
def Job.destinations (j : Job) : List (Nat × Nat × TDesc) :=
  match j.body with
  | .xfer _ d => [(1, 0, d)]
  | .acc d _ _ _ _ _ _ _ => [(1, 0, d)]
  | .collect _ es => ((List.range es.length).zip es).filterMap fun (x : Nat × CollEntry) => if x.2.recv then some (11, x.1, x.2.desc) else none
  | .stages l => (l[j.run.stage]?).elim [] fun st => [(4, st.outDesc), (7, st.rerunBuf), (8, st.argDesc), (10, st.outMx)].filterMap fun x =>
      x.2.map fun d => (x.1, 0, d)
  | _ => []

/-- The destination and its lowest element that a write of `n` bytes at an address delivers. -/
def Job.writtenBy (j : Job) (a n : Nat) : Option (Nat × Nat × Nat) :=
  j.destinations.findSome? fun x => (x.2.2.covered.find? fun i => decide (x.2.2.addr i < a + n) && decide (a < x.2.2.addr i + x.2.2.size 0)).map
    fun i => (x.1, x.2.1, i)

/-- A write of a command to the host aperture fails: the command ends TRANSLATION_FAULT at the element that it carries (08 R432; 14
R671). -/
def State.writeFailed (s : State) (job : Nat) (r : HaReq) : State :=
  match s.job? job with
  | none => s
  | some j =>
    if !j.live then s else
    match j.writtenBy (r.page + r.host % 4096) r.data.length with
    | some x => s.faultJob j { role := x.1, entry := x.2.1, stage := j.run.stage } (x.2.2, .translationFault, r.page)
    | none => s.modJob job fun j => j.finish .translationFault

/-- An outstanding access ends: with the bytes that were asked for, or failed (08 R431, R432; 12 R609; 14 R671). -/
def State.haAnswer (s : State) (r : HaReq) (data : Option (List Byte)) : State :=
  let s := { s with ha := s.ha.filter fun (x : HaReq) => x.tag != r.tag }
  match r.use with
  | .feed job address size => match data with
    | some l => s.modJob job fun j => { j with staged := stageBytes j.staged address (l.take size) }
    | none => s.modJob job fun j => { j with hostBad := insertNat r.page j.hostBad }
  | .tile job cluster u address => match data with
    | some l => s.tileAnswer r.tag job cluster u address (some l)
    | none => s.tileAnswer r.tag job cluster u address none
  | .load job thread k lane skip size => match data with
    | some l => s.loadAnswer job thread k lane skip size (ofLe (l.take size))
    | none => s.stopKernel job .translationFault
  | .write job _ => match data with
    | some _ => s
    | none => (s.stopKernel job .translationFault).writeFailed job r

/-- Bytes that an answer must carry: the whole words that hold what was asked for (12 R605). -/
def HaReq.fits (r : HaReq) (n : Nat) : Bool :=
  match r.use with
  | .feed _ _ size | .load _ _ _ _ _ size => n == (r.lead + size + 3) / 4 * 4
  | .tile _ _ _ _ => n % 4 == 0
  | .write _ _ => n == 0

/-- HA_RESP: the answer to an outstanding access. One whose CRC fails after replay is discarded and counted; the access it
answers fails when it is a read (12 R609). -/
def execHaResp (m : Msg) (data : List Byte) (crcOk : Bool) (s : State) : Res :=
  if !s.hears m then ok s else
  let s := if crcOk then s else { s with link := { s.link with crcErr := Nat.min 0xFFFF (s.link.crcErr + 1) } }
  match s.ha.find? fun (r : HaReq) => r.tag == m.tag.toNat && r.session == m.session && !r.held with
  | none => ok s
  | some r =>
    if !s.bound m then ok s
    else if !crcOk then ok (match r.use with
      | .write _ _ => s
      | _ => s.haAnswer r none)
    else if r.fits data.length then ok (s.haAnswer r (some (data.drop r.lead)))
    else ok s

/-- HA_RESP_TIMEOUT: while the session's heartbeat is lost, an access not answered within 1 ms fails (14 R671). -/
def execHaRespTimeout (tag : Nat) (s : State) : Res :=
  match s.ha.find? fun (r : HaReq) => r.tag == tag with
  | none => ok s
  | some r => match s.session r.session with
    | some ss => if ss.lost then ok (s.haAnswer r none) else ok s
    | none => ok s

/-! ## Credits and the link layer (12 R608, R609) -/

/-- Change the link layer of a port. -/
def State.modPort (s : State) (p : Nat) (f : LinkLayer → LinkLayer) : State :=
  { s with link := { s.link with ports := s.link.ports.modify {} p f } }

/-- CREDIT: the control node returns credits to the device, and requests that wait for them go out (12 R604, R608). -/
def execCredit (port req data : Nat) (s : State) : Res :=
  if s.hears ⟨port, 0, 0⟩ then
    ok ((s.modPort port fun l => { l with hostReq := l.hostReq + req, hostData := l.hostData + data }).pump port)
  else ok s

/-- The device sends again from the first message that is not acknowledged (12 R609). -/
def State.replay (s : State) (port : Nat) : State :=
  let l := s.link.ports.get {} port
  if l.nextSeq = l.firstUnacked then s else { s with out := s.out ++ [.replay port l.firstUnacked] }

/-- LINK_NAK: replay after a NAK (12 R609). -/
def execLinkNak (port : Nat) (s : State) : Res := if s.hears ⟨port, 0, 0⟩ then ok (s.replay port) else ok s

/-- LINK_REPLAY_TIMEOUT: replay after 2 µs without acknowledgement (12 R609). -/
def execLinkReplayTimeout (port : Nat) (s : State) : Res := if port < 2 then ok (s.replay port) else ok s

/-- LINK_LAYER_ACK: messages up to a sequence number are acknowledged, and are kept for replay no longer (12 R609). -/
def execLinkLayerAck (port seq : Nat) (s : State) : Res :=
  let l := s.link.ports.get {} port
  let ahead := fun (n : Nat) => (n + 4096 - l.firstUnacked) % 4096
  if s.hears ⟨port, 0, 0⟩ && decide (seq < 4096) && decide (ahead seq < ahead l.nextSeq) then
    ok (s.modPort port fun x => { x with firstUnacked := (seq + 1) % 4096 })
  else ok s

end Sys2Proof.Machine
end

