-- ==== Sys2Proof/Machine/RegWrite.lean ====
section
/-! DEFINITION. Writes to the register window (13 R614 to R653; 10 R475; 11 R511 to R520; 12 R569, R570; 15 R687 to R696, R706, R719): the order of statuses, complement pairs, locks, bit aliases and the effect of every writable register. -/

namespace Sys2Proof.Machine

/-! ## What stands before the register's own rules (R616) -/

/-- A register that governs itself when locked, and its LOCK bit (R634; 15 R720). -/
def lockOf (o : Nat) : Option Nat :=
  if o = 0x10000 ∨ o = 0x10020 ∨ o = 0x10040 ∨ o = 0x1004C ∨ o = 0x10050 then some 0
  else if o = 0x10008 ∨ o = 0x10010 then some 1
  else if o = 0x20008 ∨ o = 0x2000C then some 4
  else none
/-- A LOCK bit is set. -/
def State.locked (s : State) (b : Nat) : Bool := s.power.lock.getLsbD b
/-- A register is governed by a LOCK bit that is set. -/
def State.governed (s : State) (o : Nat) : Bool :=
  match lockOf o with
  | some b => s.locked b
  | none => false

/-- The queue that a register belongs to is not granted to the session (11, Registers). -/
def State.foreignQueue (s : State) (n o : Nat) : Bool :=
  if 0x1000 ≤ o ∧ o < 0x1100 then !s.ownsSq n ((o - 0x1000) / 4)
  else if 0x5000 ≤ o ∧ o < 0x5400 then !s.ownsSq n ((o - 0x5000) / 16)
  else if 0x1100 ≤ o ∧ o < 0x1140 then !((s.session n).any fun ss => ss.cqs.contains ((o - 0x1100) / 4))
  else if 0x5400 ≤ o ∧ o < 0x5500 then !((s.session n).any fun ss => ss.cqs.contains ((o - 0x5400) / 16))
  else false

/-- A value that the field table refuses with RESERVED (15 R720; 13 R653). -/
def valueRefused (o v : Nat) : Bool :=
  if o = 0x10020 then decide (4 ≤ v % 8)
  else if o = 0x10040 then !(decide (90 ≤ v % 128) && decide (v % 128 ≤ 105))
  else if o = 0x10050 then (List.range 4).any fun k => decide (100 < bits v (8 * k) 7)
  else if 0x31000 ≤ o ∧ o < 0x32000 ∧ o % 64 = 0 then !scaleValid v
  else false

/-- A guarded value in range (R629, R631, R650): the field's range, and SEQ written as 0. -/
def guardedInRange (g v : Nat) : Bool :=
  v / 2 ^ 24 == 0 && (if g = 1 then decide (100 ≤ v % 512) && decide (v % 512 ≤ 280)
    else if g = 2 then decide (90 ≤ v % 128) && decide (v % 128 ≤ 115) else true)

/-- The value that a partner write completes a pair with: the register's code and V (R629). -/
def State.completes (s : State) (n o v : Nat) : Option (Nat × Word32) :=
  match (s.window n).pair with
  | some (g, w) => if o = guardedOffset g + 4 ∧ v = 2 ^ 32 - 1 - w.toNat then some (g, w) else none
  | none => none
/-- The pending value that a write to this offset is the partner of. -/
def State.partnerOf (s : State) (n o : Nat) : Option Nat :=
  match (s.window n).pair with
  | some (g, _) => if o = guardedOffset g + 4 then some g else none
  | none => none

/-- RESERVED, the third status of R616. -/
def State.reservedWrite (s : State) (src : Src) (o v : Nat) : Bool :=
  let n := srcSession src
  match s.regKind o with
  | none => true
  | some k => (k == .emulated && onSideband src) || !(writable o).any || s.foreignQueue n o || valueRefused o v ||
      (match s.completes n o v with
        | some (g, w) => !guardedInRange g w.toNat
        | none => false)

/-- LOCKED, the fifth status of R616: a locked field, a partner whose pending value has become locked (R632), and ASSET_TAG
once written (R637). -/
def State.lockedWrite (s : State) (n o : Nat) : Bool :=
  s.governed o || (o == 0x310C && s.power.assetSet) || (match s.partnerOf n o with
    | some g => s.governed (guardedOffset g)
    | none => false)

/-- GUARD, the sixth status of R616: a write that breaks a pending pair, or completes none (R630). -/
def State.guardWrite (s : State) (n o v : Nat) : Bool :=
  match (s.window n).pair with
  | some _ => (s.completes n o v).isNone
  | none => o == 0x10004 || o == 0x1000C || o == 0x10014

/-- The first status of R616 that applies before the register's own BUSY. -/
def State.writeStatus (s : State) (src : Src) (o len v : Nat) : RegStatus :=
  if len ≠ 4 then .size
  else if o % 4 ≠ 0 then .align
  else if s.reservedWrite src o v then .reserved
  else if s.regKind o = some .emulated ∧ !s.runs .noon ∧ ¬ (0x1000 ≤ o ∧ o < 0x1100) then .busy
  else if s.lockedWrite (srcSession src) o then .locked
  else if s.guardWrite (srcSession src) o v then .guard
  else .ok

/-! ## What refused writes count (R630, R632, R636) -/

/-- A lock violation is counted, recorded and logged (R636; 16 R734). -/
def State.violation (s : State) (o session : Nat) : State :=
  { s with power := { s.power with violations := Nat.min 0xFFFFFF (s.power.violations + 1), lockLast := o } }.logError
    0x0600 7 0 0 o session
/-- A guard failure of a register by its code is counted (R630). -/
def State.guardFailed (s : State) (g : Nat) : State :=
  { s with power := { s.power with guardFail := Nat.min 0xFFFF (s.power.guardFail + 1), guardLast := g } }
/-- The pending value of a session is dropped. -/
def State.dropPair (s : State) (n : Nat) : State := s.modWindow n fun w => { w with pair := none }

/-- A write that a session makes while a value is pending, or to a partner with none pending, and that does not complete the
pair: the value is dropped, and a guard failure is counted, but for the locked cases of R632 and values out of range
(R631). -/
def State.breakPair (s : State) (n o : Nat) (st : RegStatus) : State :=
  match (s.window n).pair with
  | some (g, _) =>
    let s := s.dropPair n
    let own := o == guardedOffset g || o == guardedOffset g + 4
    if own && (st == .locked || (st == .reserved && o == guardedOffset g + 4)) then s else s.guardFailed g
  | none =>
    if st = .guard then match guardedCode (o - 4) with
      | some g => s.guardFailed g
      | none => s
    else s

/-! ## Queues (11 R511 to R520) -/

/-- A submission queue register takes a value, or the write is refused with BUSY (R519). -/
def State.writeSq (s : State) (n q r v : Nat) : State × Bool :=
  let x := s.sq q
  let waits := (x.tail + 65536 - x.seq % 65536) % 65536 != 0
  let onlyClears := r == 2 && !bit v 0 && bits v 8 4 == x.log2 && bits v 16 4 == x.cq
  if (x.enable && !onlyClears) || waits then (s, true)
  else match r with
    | 0 => (s.modSq q fun x => { x with base := x.base / 2 ^ 32 * 2 ^ 32 + v / 4096 * 4096 }, false)
    | 1 => (s.modSq q fun x => { x with base := v % 65536 * 2 ^ 32 + x.base % 2 ^ 32 }, false)
    | _ =>
      let log2 := bits v 8 4
      let cq := bits v 16 4
      if !bit v 0 then (s.modSq q fun x => { x with enable := false, log2 := log2, cq := cq }, false)
      else
        let good := decide (4 ≤ log2) && decide (log2 ≤ 10) && s.isHbm x.base && s.isHbm (x.base + 128 * 2 ^ log2 - 1) &&
          ((s.session n).any fun ss => ss.cqs.contains cq)
        if !good then (s, true)
        else (s.modSq q fun x => { x with enable := true, log2 := log2, cq := cq, seq := 0, tail := 0, posted := 0 }, false)

/-- A completion queue register takes a value, or the write is refused with BUSY (R520). Enabling a queue whose size or
place its field table excludes is refused as it is for a submission queue (log 53). -/
def State.writeCq (s : State) (c r v : Nat) : State × Bool :=
  let x := s.cq c
  let used := ((List.range 64).any fun q => (s.sq q).enable && (s.sq q).cq == c) || decide (0 < x.reserved)
  let onlyNotify := r == 2 && bit v 0 == x.enable && bits v 8 4 == x.log2
  if onlyNotify then (s.modCq c fun x => { x with notify := bit v 1 }, false)
  else if used then (s, true)
  else match r with
    | 0 => (s.modCq c fun x => { x with base := x.base / 2 ^ 32 * 2 ^ 32 + v / 0x20000 * 0x20000 }, false)
    | 1 => (s.modCq c fun x => { x with base := v % 65536 * 2 ^ 32 + x.base % 2 ^ 32 }, false)
    | _ =>
      let log2 := bits v 8 4
      if !bit v 0 then (s.modCq c fun x => { x with enable := false, notify := bit v 1, log2 := log2 }, false)
      else
        let size := 0x20000 + 0x2000 * 2 ^ log2
        if !(decide (4 ≤ log2) && decide (log2 ≤ 12) && s.isHbm x.base && s.isHbm (x.base + size - 1)) then (s, true)
        else if x.enable then (s.modCq c fun x => { x with notify := bit v 1, log2 := log2 }, false)
        else (s.modCq c fun x => { x with enable := true, notify := bit v 1, log2 := log2, t := 0, head := 0, reserved := 0 }, false)

/-- CQ_HEAD takes a value that does not move it past t (11, CQ_HEAD). -/
def Cq.moveHead (x : Cq) (v : Nat) : Cq :=
  let d := fun (n : Nat) => (n + 65536 - x.head % 65536) % 65536
  if d v ≤ d (x.t % 65536) then { x with head := v } else x

/-! ## Plans, power and time (10 R475; 12 R569, R570; 15 R706) -/

/-- PLAN_CTRL (12 R569, R570); a plan that is being validated counts as armed (log 54). -/
def State.writePlanCtrl (s : State) (v : Nat) : State × Bool :=
  let armed := s.link.armed == 1 || s.link.armed == 2
  if bit v 0 then
    if armed then (s, true) else ({ s with link := { s.link with armed := 1, armedPlan := none } }, false)
  else if bit v 1 then
    if !armed then (s, false)
    else if s.jobs.any fun (j : Job) => j.linksFrom (if s.link.armed = 2 then s.link.armedAt else s.link.planAt) then (s, true)
    else ({ s with link := { s.link with armed := 0, armedPlan := none } }, false)
  else (s, false)

/-- ISSUE_FLOOR: a raised floor must fit under POWER_CAP with its ramp (15 R706). -/
def State.writeFloors (s : State) (v : Nat) : State × Bool :=
  let new := (List.range 4).map fun k => bits v (8 * k) 7
  let raised := (List.range 4).any fun k => decide (nth s.power.floors k 0 < nth new k 0)
  let t := { s with power := { s.power with floors := new } }
  if raised then
    let t := t.planFloors (new.map floorUnits)
    if t.planFits then (t, false) else (s, true)
  else (t.planFloors (s.floorTargets new), false)

/-! ## The mailbox and the paged scale tables (R643 to R646, R651 to R653) -/

/-- The wide value of a selector (R646). -/
def State.wideValue (s : State) (sel : Nat) : Option Nat :=
  if sel = 1 then some s.frame.counter
  else if sel = 2 then some Config.deviceUid.toNat
  else if sel = 3 then some (s.frame.counter % 2 ^ 64 + s.frame.symbol / 800 * 2 ^ 64 + s.frame.symbol % 800 * 2 ^ 71)
  else if sel = 4 then some ((match s.cal.ageing.head? with
    | some x => x.1 * 3600
    | none => 0) + s.cal.sinceRecord * 8192 / 1000000000)
  else if sel = 5 then some (s.power.energy / 10 % 2 ^ 64)
  else if sel = 6 then some (s.admitted % 2 ^ 64 + s.rejected % 2 ^ 64 * 2 ^ 64)
  else if 0x100 ≤ sel ∧ sel < 0x200 then some ((s.engine (sel - 0x100)).convs % 2 ^ 64)
  else if 0x200 ≤ sel ∧ sel ≤ 0x301 then
    let l := s.lane (sel - 0x200)
    some (if sel < 0x300 then l.bytesSent % 2 ^ 64 + l.bytesRecv % 2 ^ 64 * 2 ^ 64
      else (Config.rustraBytes (sel - 0x200) s.now).toNat)
  else none

/-- A write of WIDE_SEL: the previous snapshot goes, and a known selector starts a new one (R643, R645). -/
def Window.select (w : Window) (sel : Nat) (known : Bool) : Window :=
  { w with sel := sel, valid := false, badSel := !known, snap := 0, snapSel := 0, busySel := if known then some sel else none }

/-- The snapshot of the 64 entries of a page (R652). -/
def State.scaleSnapshot (s : State) (c p : Nat) : List (BitVec 512) := (List.range 64).map fun j => s.scale c (64 * p + j)
/-- SCALE_PAGE takes a value and a snapshot (R652). -/
def State.writePage (s : State) (n v : Nat) : State :=
  let c := bits v 0 6
  let p := bits v 6 6
  s.modWindow n fun w => { w with pageCluster := c, page := p, pageSnap := s.scaleSnapshot c p }

/-- An accepted command names a scale entry (03 R142). -/
def State.entryNamed (s : State) (c e : Nat) : Bool :=
  let x : EntryRange := { mask := 2 ^ c, lo := e, n := 1 }
  s.jobs.any fun (j : Job) => j.open' && (j.entryReads ++ j.entryWrites).any fun y => x.meets y
/-- A word of the paged window takes a value, unless an accepted command names the entry (R653; 03 R142). -/
def State.writeEntryWord (s : State) (n o v : Nat) : State × Bool :=
  let w := s.window n
  let j := (o - 0x31000) / 64
  let e := 64 * w.page + j
  if s.entryNamed w.pageCluster e then (s, true) else
  let put := fun (x : Nat) => setBits x (o % 64 / 4 * 32) 32 (v &&& (writable o).rw)
  ((s.modScale w.pageCluster e put).modWindow n fun w =>
    { w with pageSnap := w.pageSnap.set j (BitVec.ofNat 512 (put (nth w.pageSnap j 0).toNat)) }, false)

/-! ## The effect of a write -/

/-- Idle frames of a command's plan: what is planned beyond the frames that were committed moves by the frames that passed
uncommitted (14 R675; log 57). -/
def Job.delayed (j : Job) (from' by' : Nat) : Job :=
  if j.last ≤ from' then j else
  let at' := fun (f : Nat) => if from' < f then f + by' else f
  { j with placed := j.placed.map fun (x : Placed) => { x with first := at' x.first, cut := x.cut.map at' }
           first := at' j.first, last := at' j.last, guardEnd := at' j.guardEnd }

/-- Noon returns: frames are committed again, with their entries, the remaining work is placed in the next free capacity, and latched
doorbells are applied (08 R380; 10 R479, R482; 11 R514; 14 R675). -/
def State.noonReturns (s : State) : State :=
  let old := s.frame.committed
  let idle := s.frame.counter - old
  let s := if idle = 0 then s else { s with jobs := mapIf Job.live (fun j => j.delayed old idle) s.jobs }
  (forEach s.openSessions State.applyLatched s.commitFrames).displace

/-- LOCK bits are set; LK_DEBUG ends a debug access and resumes halted processors, and Noon takes up what came while it was halted
(R635; 11 R514; 14 R676). -/
def State.setLocks (s : State) (v : Nat) : State :=
  let s := { s with power := { s.power with lock := s.power.lock ||| BitVec.ofNat 5 v } }
  if !s.locked 3 then s else
  let back := s.fw.noon.up && s.fw.noon.halted
  let s := forEach [Proc.dawn, .noon, .dusk, .twilight] (fun s p => s.modProc p fun x => { x with halted := false, words := [] }) s
  if back then s.noonReturns else s

/-- A completed pair: the guarded register takes V; over Rustra RUSTRA_TX keeps its value (R629; 13 LASER_ENABLE). -/
def State.setGuarded (s : State) (src : Src) (g v : Nat) : State :=
  if g = 1 then s.setCap (v % 512)
  else if g = 2 then { s with power := { s.power with tripC := v % 128 } }
  else
    let keep := if s.power.laser.getLsbD 16 then 0x10000 else 0
    s.setLaser (BitVec.ofNat 17 (if onSideband src then v else v % 0x10000 + keep))

/-- The effect of a write on a register of the window that passes R616 so far, and whether the register itself refuses it
with BUSY. -/
def State.writeEffect (s : State) (src : Src) (o v : Nat) (railsOk : Bool) : State × Bool :=
  let n := srcSession src
  let fine := fun (s : State) => (s, false)
  if 0x1000 ≤ o ∧ o < 0x1100 then fine (s.ring n ((o - 0x1000) / 4) (v % 65536))
  else if 0x1100 ≤ o ∧ o < 0x1140 then fine (s.modCq ((o - 0x1100) / 4) fun x => x.moveHead (v % 65536))
  else if o = 0x2000 then fine (s.modWindow n fun w => w.select (v % 65536) (s.wideValue (v % 65536)).isSome)
  else if o = 0x3008 then
    if bit v 0 then fine { s with cfg := { s.cfg with commitDue := true, suspendDue := false } }
    else if bit v 1 then fine { s with cfg := { s.cfg with suspendDue := true } } else fine s
  else if o = 0x300C then fine (if bit v 1 then { s with cfg := { s.cfg with mismatch := false } } else s)
  else if o = 0x3100 then fine (s.setLocks v)
  else if o = 0x310C then fine { s with power := { s.power with assetTag := BitVec.ofNat 32 v, assetSet := true } }
  else if o = 0x4008 then
    if !bit v 0 then fine s
    else if s.busyJobs then (s, true)
    else fine { s with frame := { s.frame with stepRequested := true } }
  else if 0x5000 ≤ o ∧ o < 0x5400 then
    let q := (o - 0x5000) / 16
    if o % 16 = 12 then
      fine (s.modSq q fun x => { x with qfull := x.qfull && !bit v 16, dbErr := x.dbErr && !bit v 17 })
    else s.writeSq n q (o % 16 / 4) v
  else if 0x5400 ≤ o ∧ o < 0x5500 then s.writeCq ((o - 0x5400) / 16) (o % 16 / 4) v
  else if o = 0x6000 then
    if s.link.active.isSome ∨ s.link.armed = 1 ∨ s.link.armed = 2 then (s, true)
    else fine { s with link := { s.link with fabricAddr := BitVec.ofNat 32 v } }
  else if o = 0x6004 then fine { s with link := { s.link with planAddr := s.link.planAddr / 2 ^ 32 * 2 ^ 32 + v / 64 * 64 } }
  else if o = 0x6008 then fine { s with link := { s.link with planAddr := v % 65536 * 2 ^ 32 + s.link.planAddr % 2 ^ 32 } }
  else if o = 0x600C then fine { s with link := { s.link with planAt := s.link.planAt / 2 ^ 32 * 2 ^ 32 + v } }
  else if o = 0x6010 then fine { s with link := { s.link with planAt := v * 2 ^ 32 + s.link.planAt % 2 ^ 32 } }
  else if o = 0x6014 then s.writePlanCtrl v
  else if o = 0x10000 ∨ o = 0x10008 ∨ o = 0x10010 then
    fine (s.modWindow n fun w => { w with pair := (guardedCode o).map fun g => (g, BitVec.ofNat 32 v) })
  else if o = 0x10004 ∨ o = 0x1000C ∨ o = 0x10014 then
    match s.completes n o v with
    | some (g, w) => fine ((s.dropPair n).setGuarded src g w.toNat)
    | none => fine s
  else if o = 0x10020 then s.requestPower (v % 8) (BitVec.ofNat 16 (v / 65536))
  else if o = 0x1002C then fine (if onSideband src && bit v 0 then s.wakeEvent railsOk else s)
  else if o = 0x10040 then fine { s with power := { s.power with throttleC := v % 128 } }
  else if o = 0x10050 then s.writeFloors v
  else if o = 0x20008 then fine { s with cal := { s.cal with rmsLim := v % 65536, peakLim := v / 65536 } }
  else if o = 0x2000C then fine { s with cal := { s.cal with shadowNext := some (clampNat 14 20 (v % 32), bit v 5) } }
  else if o = 0x30000 then fine (s.writePage n v)
  else if 0x31000 ≤ o ∧ o < 0x32000 then s.writeEntryWord n o v
  else fine s

/-! ## One write -/

/-- The word that an alias write makes of its register, `none` when the alias is refused (R624, R626 to R628). -/
def State.aliasValue (s : State) (src : Src) (r b v : Nat) : Option Nat :=
  let w := writable r
  let now := ((s.hwValue r).orElse fun _ => s.emuValue (srcSession src) r).getD 0
  if 0x2000 ≤ r ∧ r < 0x2020 then none
  else if r = 0x3100 ∧ bit w.rw b = true then some (v % 2 * 2 ^ b)
  else if bit w.rw b then some (setBits (now &&& w.rw) b 1 (v % 2))
  else if bit w.w1c b then some ((now &&& w.rw) + v % 2 * 2 ^ b)
  else none

/-- A write of a register that is no alias: its status and the state it leaves (R616, R617). -/
def State.plainWrite (s : State) (src : Src) (o len v : Nat) (railsOk : Bool) : State × RegStatus :=
  let n := srcSession src
  match s.writeStatus src o len v with
  | .ok => match s.writeEffect src o v railsOk with
    | (_, true) => (s, .busy)
    | (t, false) => (t, .ok)
  | st =>
    let t := if st = .locked then s.violation o n else s
    (t.breakPair n o st, st)

/-- A write of one word of the window; an alias stands for its register (R616 to R619, R624 to R628). -/
def State.regWrite (s : State) (src : Src) (o len v : Nat) (railsOk : Bool) : State × RegStatus :=
  if len = 4 ∧ o % 4 = 0 then
    match aliasOf o with
    | some (r, b) => match s.aliasValue src r b v with
      | some v => s.plainWrite src r len v railsOk
      | none => (s.breakPair (srcSession src) o .reserved, .reserved)
    | none => s.plainWrite src o len v railsOk
  else s.plainWrite src o len v railsOk

/-- Answer a write (12 R605; 17 R755). -/
def State.answerWrite (s : State) (src : Src) (st : RegStatus) : State :=
  match src with
  | .rustra m => s.send (.regResp m st.code 0)
  | .i3c => { s with side := { s.side with status := st.code, data := 0 } }

/-- A write and its answer; an accepted request for a warm reset resets the device after the answer (15 R719). -/
def State.writeAndAnswer (s : State) (src : Src) (o len v : Nat) (railsOk : Bool) : State :=
  match s.regWrite src o len v railsOk with
  | (t, st) =>
    let t := t.answerWrite src st
    if st = .ok ∧ o = 0x1004C ∧ bit v 0 = true then t.warmReset else t

/-- A register write of any sender: a Rustra message must be heard, and be of a session bound to its port (14 R669). -/
def writeOp (src : Src) (o len v : Nat) (railsOk : Bool) (s : State) : Res :=
  match src with
  | .rustra m => messageOp m s (.regResp m 5 0) fun s => s.writeAndAnswer src o len v railsOk
  | .i3c => ok (s.writeAndAnswer src o len v railsOk)

/-! ## The commands -/

/-- SQ_DOORBELL_WRITE (11 R511, R514). -/
def execSqDoorbellWrite (m : Msg) (q : Nat) (value : Word32) (s : State) : Res :=
  writeOp (.rustra m) (0x1000 + 4 * q) 4 value.toNat false s
/-- CQ_HEAD_WRITE (11 R515). -/
def execCqHeadWrite (m : Msg) (c : Nat) (value : Word32) (s : State) : Res :=
  writeOp (.rustra m) (0x1100 + 4 * c) 4 value.toNat false s
/-- SQ_ENABLE: SQ_CTRL written with ENABLE set (11 R519). -/
def execSqEnable (m : Msg) (q : Nat) (value : Word32) (s : State) : Res :=
  writeOp (.rustra m) (0x5008 + 16 * q) 4 (value ||| 1).toNat false s
/-- SQ_DISABLE: SQ_CTRL written with ENABLE clear (11 R519). -/
def execSqDisable (m : Msg) (q : Nat) (value : Word32) (s : State) : Res :=
  writeOp (.rustra m) (0x5008 + 16 * q) 4 (value &&& ~~~1).toNat false s
/-- SQ_QFULL_CLEAR: SQ_STATUS written with QFULL (11 R516). -/
def execSqQfullClear (m : Msg) (q : Nat) (s : State) : Res :=
  writeOp (.rustra m) (0x500C + 16 * q) 4 0x10000 false s
/-- CQ_ENABLE: CQ_CTRL written with ENABLE set (11 R520). -/
def execCqEnable (m : Msg) (c : Nat) (value : Word32) (s : State) : Res :=
  writeOp (.rustra m) (0x5408 + 16 * c) 4 (value ||| 1).toNat false s
/-- FRAME_STEP_REQUEST: FRAME_CTRL written with STEP (10 R474, R475). -/
def execFrameStepRequest (m : Msg) (s : State) : Res := writeOp (.rustra m) 0x4008 4 1 false s
/-- PLAN_ARM (12 R569, R570). -/
def execPlanArm (m : Msg) (s : State) : Res := writeOp (.rustra m) 0x6014 4 1 false s
/-- PLAN_DISARM (12 R570). -/
def execPlanDisarm (m : Msg) (s : State) : Res := writeOp (.rustra m) 0x6014 4 2 false s
/-- SHADOW_CTRL_WRITE (07 R378). -/
def execShadowCtrlWrite (m : Msg) (value : Word32) (s : State) : Res := writeOp (.rustra m) 0x2000C 4 value.toNat false s
/-- WIDE_SEL_WRITE (R643, R645). -/
def execWideSelWrite (m : Msg) (value : Word32) (s : State) : Res := writeOp (.rustra m) 0x2000 4 value.toNat false s
/-- CFG_COMMIT (R640). -/
def execCfgCommit (m : Msg) (s : State) : Res := writeOp (.rustra m) 0x3008 4 1 false s
/-- CFG_SUSPEND (R640). -/
def execCfgSuspend (m : Msg) (s : State) : Res := writeOp (.rustra m) 0x3008 4 2 false s
/-- LOCK_WRITE (R635). -/
def execLockWrite (src : Src) (value : Word32) (s : State) : Res := writeOp src 0x3100 4 value.toNat false s
/-- ASSET_TAG_WRITE (R637). -/
def execAssetTagWrite (m : Msg) (value : Word32) (s : State) : Res := writeOp (.rustra m) 0x310C 4 value.toNat false s
/-- POWER_CAP_WRITE (R629). -/
def execPowerCapWrite (src : Src) (value : Word32) (s : State) : Res := writeOp src 0x10000 4 value.toNat false s
/-- POWER_CAP_C_WRITE (R629; 15 R695, R696). -/
def execPowerCapCWrite (src : Src) (value : Word32) (s : State) : Res := writeOp src 0x10004 4 value.toNat false s
/-- TRIP_LIMIT_WRITE (R629). -/
def execTripLimitWrite (src : Src) (value : Word32) (s : State) : Res := writeOp src 0x10008 4 value.toNat false s
/-- TRIP_LIMIT_C_WRITE (R629). -/
def execTripLimitCWrite (src : Src) (value : Word32) (s : State) : Res := writeOp src 0x1000C 4 value.toNat false s
/-- LASER_ENABLE_WRITE (R629). -/
def execLaserEnableWrite (src : Src) (value : Word32) (s : State) : Res := writeOp src 0x10010 4 value.toNat false s
/-- LASER_ENABLE_C_WRITE (R629; 02 R95; 12 R596). -/
def execLaserEnableCWrite (src : Src) (value : Word32) (s : State) : Res := writeOp src 0x10014 4 value.toNat false s
/-- SCALE_PAGE_WRITE (R652). -/
def execScalePageWrite (m : Msg) (value : Word32) (s : State) : Res := writeOp (.rustra m) 0x30000 4 value.toNat false s
/-- SCALE_PAGE_REFRESH: SCALE_PAGE written with its present fields and REFRESH (R652). -/
def execScalePageRefresh (m : Msg) (s : State) : Res :=
  let w := s.window m.session
  writeOp (.rustra m) 0x30000 4 (w.pageCluster + 64 * w.page + 0x1000) false s
/-- SCALE_WINDOW_WRITE: word `index` of the paged window (R653). -/
def execScaleWindowWrite (m : Msg) (index : Nat) (value : Word32) (s : State) : Res :=
  writeOp (.rustra m) (0x31000 + 4 * index) 4 value.toNat false s
/-- PWR_REQ of a target and mask. -/
def pwrReqWord (target : Nat) (mask : BitVec 16) : Nat := target + 65536 * mask.toNat
/-- PWR_REQ_RUN (15 R687, R689). -/
def execPwrReqRun (m : Msg) (retainMask : BitVec 16) (s : State) : Res :=
  writeOp (.rustra m) 0x10020 4 (pwrReqWord 0 retainMask) false s
/-- PWR_REQ_DOZE (15 R687, R689). -/
def execPwrReqDoze (m : Msg) (retainMask : BitVec 16) (s : State) : Res :=
  writeOp (.rustra m) 0x10020 4 (pwrReqWord 1 retainMask) false s
/-- PWR_REQ_RETAIN (15 R687, R690). -/
def execPwrReqRetain (m : Msg) (retainMask : BitVec 16) (s : State) : Res :=
  writeOp (.rustra m) 0x10020 4 (pwrReqWord 2 retainMask) false s
/-- PWR_REQ_OFF (15 R687, R694). -/
def execPwrReqOff (m : Msg) (retainMask : BitVec 16) (s : State) : Res :=
  writeOp (.rustra m) 0x10020 4 (pwrReqWord 3 retainMask) false s
/-- PWR_WAKE_WRITE: a wake event when it comes over I3C (15 R691). -/
def execPwrWakeWrite (src : Src) (value : Word32) (railsOk : Bool) (s : State) : Res :=
  writeOp src 0x1002C 4 value.toNat railsOk s
/-- RESET_CTRL_WARM (15 R719). -/
def execResetCtrlWarm (src : Src) (s : State) : Res := writeOp src 0x1004C 4 1 false s
/-- ISSUE_FLOOR_WRITE (15 R706). -/
def execIssueFloorWrite (m : Msg) (value : Word32) (s : State) : Res := writeOp (.rustra m) 0x10050 4 value.toNat false s
/-- ALIAS_WRITE: the alias of a bit of the register at an offset (R624, R626 to R628). -/
def execAliasWrite (m : Msg) (offset bit : Nat) (value : Word32) (s : State) : Res :=
  writeOp (.rustra m) (0x01000000 + 32 * offset + 4 * bit) 4 value.toNat false s
/-- REGISTER_WRITE: a write of any length at any offset (R616 to R619). -/
def execRegisterWrite (src : Src) (offset len : Nat) (value : Word32) (s : State) : Res :=
  writeOp src offset len value.toNat false s

/-- GUARD_PENDING_EXPIRY: 64 µs have passed with no partner write (R630). -/
def execGuardPendingExpiry (src : Src) (s : State) : Res :=
  let n := srcSession src
  match (s.window n).pair with
  | some (g, _) => ok ((s.dropPair n).guardFailed g)
  | none => ok s

/-- WIDE_SNAPSHOT_READY: Noon has taken the snapshot, whole at this instant, and sets VALID (R643). -/
def execWideSnapshotReady (session : Nat) (s : State) : Res :=
  let w := s.window session
  match w.busySel with
  | none => ok s
  | some sel =>
    if !s.runs .noon then ok s else
    match s.wideValue sel with
    | some v => ok (s.modWindow session fun w =>
        { w with busySel := none, valid := true, snap := BitVec.ofNat 128 v, snapSel := sel })
    | none => ok s

/-- WIDE_DATA_3_READ: returns the top word and clears VALID; while VALID is 0 it returns 0 with BUSY and clears nothing
(R620, R643, R644). -/
def execWideData3Read (m : Msg) (s : State) : Res :=
  messageOp m s (.regResp m 5 0) fun s =>
    match s.regRead (.rustra m) 0x2014 with
    | (.ok, v) => (s.modWindow m.session fun w => { w with valid := false }).send (.regResp m 0 (BitVec.ofNat 32 v))
    | (st, _) => s.send (.regResp m st.code 0)

end Sys2Proof.Machine
end

