-- ==== Sys2Proof/Machine/Sessions.lean ====
section
/-! DEFINITION. Sessions and the loss of the host (14 R663 to R672): OPEN, CLOSE, CLAIM, TIMERS, ATTEST, and the times that run from the last heartbeat. -/

namespace Sys2Proof.Machine

/-- The answer to a SESSION request (14 R664): its OP with 0x80 added, the header status, RESULT, and the rest of the
payload. -/
def State.answer (s : State) (m : Msg) (op : Nat) (st : RegStatus) (result : Nat) (payload : List Byte) : State :=
  s.send (.session m (op + 0x80) st.code result payload)

/-- A SESSION request: it must arrive, and one that names a session must be of a session bound to its port (14 R669).
`own` requests need a session of their own; the others may name none (log 55). -/
def sessionOp (m : Msg) (op : Nat) (own : Bool) (s : State) (f : State → State) : Res :=
  if !s.hears m then ok s
  else if (m.session ≠ 0 ∨ own = true) ∧ s.bound m = false then ok (s.answer m op .reserved 0 [])
  else ok (f s)

/-! ## OPEN (14 R665 to R667) -/

/-- A time of a session: 0 takes a value of its own, and a value outside its range is unspecified (14 R665; log 56). -/
def State.timeValue (s : State) (v lo hi unset : Nat) : Nat × State :=
  if v = 0 then (unset, s)
  else if lo ≤ v ∧ v ≤ hi then (v, s)
  else match takeNat s with
    | (n, s) => (lo + n % (hi - lo + 1), s)

/-- Queues that no session holds. -/
def State.freeSqs (s : State) : List Nat := (List.range 64).filter fun q => (s.sqOwner q).isNone
/-- Completion queues that no session holds. -/
def State.freeCqs (s : State) : List Nat :=
  (List.range 16).filter fun c => !s.openSessions.any fun n => (s.session n).any fun ss => ss.cqs.contains c
/-- A range of event counters is free of every session's. -/
def State.ctrsFree (s : State) (base n : Nat) : Bool :=
  s.openSessions.all fun k => match s.session k with
    | some ss => decide (base + n ≤ ss.ctrBase) || decide (ss.ctrBase + ss.ctrCount ≤ base)
    | none => true
/-- The base of the lowest free contiguous range of `n` counters. -/
def State.ctrRange (s : State) (n : Nat) : Option Nat := (List.range (4097 - n)).find? fun b => s.ctrsFree b n

/-- The interface version that an open agrees on (14 R666). -/
def ifaceFor (r : OpenReq) (m : Manifest) : Nat := Nat.min r.ifaceMax (m.fwVersion.toNat / 2 ^ 24)
/-- The features that an open agrees on (14 R666; 13 FEATURES_LO, FEATURES_HI). -/
def featuresFor (r : OpenReq) (m : Manifest) : Word64 := r.features &&& 0xFFFF &&& m.features

/-- The answer of a successful OPEN from byte 2 on (14 R665). -/
def openAnswer (x : Session) : List Byte :=
  leBytes 1 x.iface ++ leBytes 1 0 ++ leBytes 8 x.features.toNat ++ leBytes 8 (ofBitList x.sqs) ++ leBytes 2 (ofBitList x.cqs) ++
    leBytes 2 x.ctrBase ++ leBytes 2 x.ctrCount ++ leBytes 38 0

/-- OPEN's result, and the session that it opens, whose counters read 0 (14 R661, R665 to R667; 11 R545). Which of the free numbers it gets is free. -/
def State.openNew (s : State) (m : Msg) (r : OpenReq) : State :=
  match s.fw.running with
  | none => s.answer m 0x01 .ok 6 []
  | some man =>
    let iface := ifaceFor r man
    if !s.fw.ready then s.answer m 0x01 .ok 6 []
    else if iface < r.ifaceMin ∨ iface < man.ifaceLow then s.answer m 0x01 .ok 1 []
    else
      let nums := (List.range 8).map (· + 1) |>.filter fun n => (s.session n).isNone
      match nums, s.ctrRange r.ctrs with
      | [], _ => s.answer m 0x01 .ok 3 []
      | _ :: _, none => s.answer m 0x01 .ok 2 []
      | _ :: _, some base =>
        if s.freeSqs.length < r.sqs ∨ s.freeCqs.length < r.cqs then s.answer m 0x01 .ok 2 []
        else match s.timeValue r.graceMs 250 60000 2000 with
          | (grace, s) => match s.timeValue r.reaperS 1 3600 60 with
            | (reaper, s) => match takeNat s with
              | (k, s) =>
                let n := nth nums (k % nums.length) 1
                let x : Session :=
                  { port := if s.link.bonded then 0 else m.port, iface := iface, features := featuresFor r man,
                    sqs := s.freeSqs.take r.sqs, cqs := s.freeCqs.take r.cqs, ctrBase := base, ctrCount := r.ctrs,
                    table := r.tableAddr, key := r.claimKey, graceMs := grace, reaperS := reaper }
                { s with sessions := s.sessions.set none n (some x), windows := s.windows.set {} n {}
                         counters := s.counters.keep fun c => !(decide (base ≤ c) && decide (c < base + r.ctrs)) }.answer
                  { m with session := n } 0x01 .ok 0 (openAnswer x)

/-- OPEN: Noon opens a session; while Noon is stopped it answers BUSY (14 R665 to R667; log 55). -/
def execOpenSession (m : Msg) (req : OpenReq) (s : State) : Res :=
  sessionOp m 0x01 false s fun s => if s.runs .noon then s.openNew m req else s.answer m 0x01 .busy 0 []

/-! ## CLOSE, CLAIM and TIMERS (14 R664, R668, R672) -/

/-- CLOSE: no further descriptor is taken; the answer comes when every accepted command has completed (14 R668). -/
def execClose (m : Msg) (s : State) : Res :=
  sessionOp m 0x02 true s fun s =>
    if s.runs .noon then (s.modSession m.session fun x => { x with closing := some (some m) }).tryClose m.session
    else s.answer m 0x02 .busy 0 []

/-- A session may be claimed through a port (14 R670; 12 R767). -/
def State.claimable (s : State) (x : Session) (port : Nat) : Bool :=
  x.lost && x.closing.isNone && (x.grace || (!s.link.bonded && port == 1))

/-- CLAIM: takes a claimable session over with its key; it keeps its number, queues, counters and features, and its
register-window state starts empty (14 R672; 13 R622). -/
def execClaim (m : Msg) (target : Nat) (key : Word64) (tableAddr : Nat) (s : State) : Res :=
  sessionOp m 0x03 false s fun s =>
    if !s.runs .noon then s.answer m 0x03 .busy 0 [] else
    match s.session target with
    | none => s.answer m 0x03 .ok 5 []
    | some x =>
      if !s.claimable x m.port then s.answer m 0x03 .ok 5 []
      else if x.key ≠ key then s.answer m 0x03 .ok 4 []
      else
        let s := s.modSession target fun x =>
          { x with port := if s.link.bonded then 0 else m.port, lost := false, grace := false,
                   table := if tableAddr = 0 then x.table else tableAddr }
        (({ s with windows := s.windows.set {} target {} }).applyLatched target).answer m 0x03 .ok 0 []

/-- TIMERS: sets the session's grace and reaper times; 0 keeps a value (14 R664). -/
def execTimers (m : Msg) (graceMs reaperS : Nat) (s : State) : Res :=
  sessionOp m 0x04 true s fun s =>
    if !s.runs .noon then s.answer m 0x04 .busy 0 [] else
    match s.session m.session with
    | none => s
    | some x => match s.timeValue graceMs 250 60000 x.graceMs with
      | (g, s) => match s.timeValue reaperS 1 3600 x.reaperS with
        | (r, s) => (s.modSession m.session fun x => { x with graceMs := g, reaperS := r }).answer m 0x04 .ok 0 []

/-! ## ATTEST (14 R662, R663) -/

/-- The first 352 bytes of a quote (14 R663). -/
def State.quoteBody (s : State) (nonce : List Byte) : List Byte :=
  let slots := [s.fw.dawn.slotB, s.fw.noon.slotB, s.fw.dusk.slotB, s.fw.twilight.slotB]
  leBytes 2 1 ++ leBytes 2 0 ++ leBytes 4 (match s.fw.running with
    | some m => m.fwVersion.toNat
    | none => 0) ++ leBytes 8 Config.deviceUid.toNat ++ leBytes 8 s.frame.counter ++
    leBytes 1 s.fw.svnFuses ++ leBytes 1 s.power.lock.toNat ++
    leBytes 1 (b2n s.bootSlot + 2 * b2n (slots.all id || !slots.any id) + 4 * b2n s.fw.unconfirmed) ++ leBytes 5 0 ++
    (nonce ++ leBytes 32 0).take 32 ++ s.fw.measurements.flatten
/-- A quote (14 R663). -/
def State.quote (s : State) (nonce : List Byte) : List Byte :=
  let b := s.quoteBody nonce
  b ++ Config.ecdsaSign b

/-- ATTEST: a signed quote, followed by the device certificate; BUSY while Dawn is stopped (14 R663, R673). -/
def execAttest (m : Msg) (nonce : List Byte) (s : State) : Res :=
  sessionOp m 0x05 false s fun s =>
    if s.runs .dawn then s.answer m 0x05 .ok 0 (s.quote nonce ++ Config.certificate) else s.answer m 0x05 .busy 0 []

/-! ## Losing the host (14 R670; 15 R688) -/

/-- The heartbeat and grace timers of sessions run: not in Doze and Retain (15 R688). -/
def State.timersRun (s : State) : Bool :=
  match s.power.state with
  | .doze | .retain => false
  | _ => true

/-- HEARTBEAT_LOST: 250 ms have passed without a heartbeat (12 R611; 14 R670). -/
def execHeartbeatLost (session : Nat) (s : State) : Res :=
  if s.timersRun then ok (s.modSession session fun x => { x with lost := true }) else ok s

/-- GRACE_END: Noon takes no further descriptor of a session whose heartbeat is lost (14 R670). -/
def execGraceEnd (session : Nat) (s : State) : Res :=
  if s.timersRun then ok (s.modSession session fun x => { x with grace := x.grace || x.lost }) else ok s

/-- REAPER: a session whose grace has ended is closed once its last command has completed (14 R668, R670). -/
def execReaper (session : Nat) (s : State) : Res :=
  match s.session session with
  | none => ok s
  | some x =>
    if x.lost && x.grace && s.runs .noon && s.timersRun then
      ok ((s.modSession session fun x => { x with closing := some (x.closing.getD none) }).tryClose session)
    else ok s

end Sys2Proof.Machine
end

