-- ==== Sys2Proof/Machine/Firmware.lean ====
section
/-! DEFINITION. The firmware processors (14 R673 to R682; 15 R697, R709; 16 R724, R735; 17 R753): watchdogs, returns, live update and its rollback, and the emergency latch. -/

namespace Sys2Proof.Machine

/-! ## A processor stops and returns (14 R673) -/

/-- The device has its processors running: it has booted a package and is not in Retain, Off or tripped. -/
def State.released (s : State) : Bool :=
  s.fw.booted && !s.fw.recovery && (match s.power.state with
    | .run | .doze | .entering | .resuming => true
    | _ => false)

/-- A processor stops: what stands until it reports RESUMED (14 R673; 05 R273; 15 R697). -/
def State.procStops (s : State) (p : Proc) : State :=
  let s := s.modProc p fun x => { x with up := false, halted := false, words := [] }
  match p with
  | .dusk => s.force true
  | .twilight => s.twilightStops
  | _ => s

/-- A processor reports RESUMED: the consequences of its stop end (14 R673). -/
def State.procReturns (s : State) (p : Proc) : State :=
  let s := s.modProc p fun x => { x with up := true }
  match p with
  | .dusk => s.force false
  | .twilight => s.twilightReturns
  | .noon => s.noonReturns
  | .dawn => s

/-! ## Live update (14 R677 to R682) -/

/-- The order in which processors switch (14 R678). -/
def switchOrder : List Proc := [.twilight, .dusk, .noon, .dawn]

/-- A processor takes the image of a slot: it stops, and its core takes the measurement of the image (14 R662, R678,
R679). The values of the package that Dawn runs change with Dawn's image (R663). -/
def State.switchTo (s : State) (p : Proc) (slotB : Bool) : State :=
  let m := s.manifestOf slotB
  let s := (s.procStops p).modProc p fun x => { x with slotB := slotB }
  let s := { s with fw := { s.fw with measurements := s.fw.measurements.set (procIndex p + 1) (nth m.cores (procIndex p) []) } }
  if p = .dawn then { s with fw := { s.fw with running := some m, measurements := s.fw.measurements.set 0 m.hash } } else s

/-- UPDATE_NOTICE to the session that asked (14 R664). -/
def State.notice (s : State) (session stage core result : Nat) : State :=
  s.send (.notice session stage core result s.frame.counter)

/-- Every processor runs. -/
def State.allUp (s : State) : Bool := switchOrder.all fun p => (s.proc p).up

/-- A rollback whose last processor has returned ends with its notice and log entry (14 R679, R681; 16 R734). Where no
processor failed, which one the notice names is free (log 58). -/
def State.endRollback (s : State) : State :=
  match s.fw.update with
  | .rollback session [] culprit result w _ =>
    if !s.allUp then s else
    let s := { s with fw := { s.fw with update := .none } }
    match culprit with
    | some p => (s.notice session 3 (procIndex p) result).logError 0x0501 6 10 (procIndex p) result w
    | none => match takeNat s with
      | (k, s) => (s.notice session 3 (k % 256) result).logError 0x0501 6 0 0 result w
  | _ => s

/-- A new image has failed: Midnight restarts the old one, and those already switched go back in reverse order (14
R679). -/
def State.rollBack (s : State) (p : Proc) : State :=
  match s.fw.update with
  | .running session slotB w switched (some q) =>
    if p ≠ q then s else
    let t := s.switchTo p (!slotB)
    { t with fw := { t.fw with update := .rollback session switched.reverse (some p) 11 w s.frame.counter } }
  | _ => s

/-- WATCHDOG_EXPIRY: Midnight restarts the processor; the crash record gets an entry, and eight expiries within 60 s assert
ALERT_N (14 R673, R674, R676; 16 R735; 17 R753). A new image whose watchdog expires before READY is given up (14 R679). -/
def execWatchdogExpiry (p : Proc) (pc : Word32) (s : State) : Res :=
  if !s.released then ok s else
  let s := (s.logCrash 1 (procIndex p) pc.toNat 0).modProc p fun x => { x with expiries := x.expiries + 1 }
  let s := s.procStops p
  let s := if 8 ≤ (s.proc p).expiries then
      { s with power := { s.power with alertProc := if s.power.alertProc.contains p then s.power.alertProc else s.power.alertProc ++ [p] } }.updateAlert
        (procIndex p)
    else s
  ok (s.rollBack p)

/-- ALERT_WINDOW_EXPIRY: an expiry leaves the last 60 s; with fewer than eight the condition ends (14 R674; 17 R753). -/
def execAlertWindowExpiry (p : Proc) (s : State) : Res :=
  let s := s.modProc p fun x => { x with expiries := x.expiries - 1 }
  if (s.proc p).expiries < 8 then
    ok ({ s with power := { s.power with alertProc := s.power.alertProc.filter fun q => q != p } }.updateAlert (procIndex p))
  else ok s

/-- The processor that failed is back: the first of those switched goes back at the next boundary (14 R679). -/
def Update.culpritBack (u : Update) (p : Proc) (frame : Nat) : Update :=
  match u with
  | .rollback n back c r w a => .rollback n back c r w (if c = some p then frame + 1 else a)
  | u => u

/-- PROCESSOR_RESUMED: a restarted or switched processor is back (14 R673, R675, R678, R679). -/
def execProcessorResumed (p : Proc) (s : State) : Res :=
  if !s.released ∨ (s.proc p).up = true then ok s else
  let t := s.procReturns p
  ok { t with fw := { t.fw with update := t.fw.update.culpritBack p t.frame.counter } }.endRollback

/-- PROCESSOR_SWITCH: at its boundary the next processor of the sequence switches, unless the emergency latch is set; in a
rollback the newest of those switched goes back, one a boundary, once the one that failed has returned (14 R678, R679, R681). -/
def execProcessorSwitch (p : Proc) (s : State) : Res :=
  if !s.released ∨ s.power.emergency = true then ok s else
  match s.fw.update with
  | .running session slotB w switched none =>
    if w ≤ s.frame.counter ∧ switchOrder[switched.length]? = some p then
      let t := s.switchTo p slotB
      ok { t with fw := { t.fw with update := .running session slotB s.frame.counter switched (some p) } }
    else ok s
  | .rollback session (q :: back) culprit result w at' =>
    let back' := match culprit with
      | some c => (s.proc c).up
      | none => true
    if p = q ∧ back' = true ∧ at' ≤ s.frame.counter then
      let t := s.switchTo p (!(s.proc p).slotB)
      ok { t with fw := { t.fw with update := .rollback session back culprit result w (s.frame.counter + 1) } }
    else ok s
  | _ => ok s

/-- PROCESSOR_READY: the notice names the processor, and the next one's switch is at the next boundary; after the fourth
the package runs unconfirmed (14 R678, R680). -/
def execProcessorReady (p : Proc) (s : State) : Res :=
  match s.fw.update with
  | .running session slotB _ switched (some q) =>
    if p ≠ q ∨ (s.proc p).up = false then ok s else
    let s := s.notice session 2 (procIndex p) 0
    if switched.length < 3 then
      ok { s with fw := { s.fw with update := .running session slotB (s.frame.counter + 1) (switched ++ [p]) none } }
    else
      let s := { s with fw := { s.fw with update := .none, unconfirmed := slotB != s.bootSlot } }
      ok (s.notice session 4 0 0)
  | _ => ok s

/-- UPDATE_ROLLBACK: a new image misses RESUMED or READY (14 R679). -/
def execUpdateRollback (p : Proc) (s : State) : Res := ok (s.rollBack p)

/-- The handover version that a package's images write (14 R657, R677). -/
def Manifest.compatible (m run : Manifest) (open' : List Session) : Bool :=
  m.intercore == run.intercore && decide (m.hoRead ≤ run.hoWrite) && decide (run.hoWrite ≤ m.hoWrite) &&
    open'.all fun x => decide (m.ifaceLow ≤ x.iface) && decide (x.iface ≤ m.fwVersion.toNat / 2 ^ 24) &&
      x.features &&& m.features == x.features

/-- STAGE: Dawn accepts the request (14 R677): LOCKED under LK_UPDATE, BUSY while Dawn is stopped or an update is staging or
activating. -/
def execStage (m : Msg) (address size : Nat) (s : State) : Res :=
  sessionOp m 0x06 false s fun s =>
    if s.locked 2 then s.answer m 0x06 .locked 0 []
    else if !s.runs .dawn ∨ s.fw.update ≠ .none then s.answer m 0x06 .busy 0 []
    else { s with fw := { s.fw with update := .staging m.session address size } }.answer m 0x06 .ok 0 []

/-- The result of staging what now lies in a slot (14 R658, R677): 7 invalid, 8 only its SVN is too low, 9 incompatible
(log 59). -/
def State.stageResult (s : State) (slotB : Bool) : Nat :=
  if s.packageValid slotB then
    match s.fw.running with
    | some r => if (s.manifestOf slotB).compatible r (s.openSessions.filterMap s.session) then 0 else 9
    | none => 9
  else if { s with fw := { s.fw with svnFuses := 0 } }.packageValid slotB then 8 else 7

/-- STAGE_COMPLETE: the package has been copied from HBM into the slot that BOOT_SLOT does not name, and verified there; the
notice tells the outcome (14 R677). A package that cannot be read whole is not valid. -/
def execStageComplete (s : State) : Res :=
  match s.fw.update with
  | .staging session address size =>
    if !s.runs .dawn then ok s else
    let slotB := !s.bootSlot
    let whole := decide (0 < size) && decide (size ≤ slotSize) && s.isHbm address && s.isHbm (address + size - 1) &&
      (s.unreadableBlock address size).isNone
    let s := if whole then { s with fw := { s.fw with flash := writeFlash s.fw.flash (slotBase slotB) (s.bytes address size) } } else s
    let r := if whole then s.stageResult slotB else 7
    let others := s.fw.staged.filter fun (x : Bool × Manifest) => x.1 != slotB
    let s := { s with fw := { s.fw with update := .none, staged := if r = 0 then others ++ [(slotB, s.manifestOf slotB)] else others } }
    ok (s.notice session 1 0 r)
  | _ => ok s

/-- The update sequence starts: its first boundary is the first at least 4 frames after the answer (14 R678). -/
def State.startUpdate (s : State) (m : Msg) (slotB : Bool) : State :=
  let w := s.frame.counter + (if s.frame.symbol = 0 then 4 else 5)
  { s with fw := { s.fw with update := .running m.session slotB w [] none } }.answer m 0x07 .ok 0 []

/-- ACTIVATE: of a slot staged since the last boot, or of the old slot under an unconfirmed package (14 R678, R680 to
R682); held while the emergency latch is set. -/
def execActivate (m : Msg) (slot : Nat) (s : State) : Res :=
  sessionOp m 0x07 false s fun s =>
    let slotB := slot == 1
    let staged := s.fw.staged.any fun (x : Bool × Manifest) => x.1 == slotB
    if s.locked 2 then s.answer m 0x07 .locked 0 []
    else if !s.runs .dawn ∨ s.fw.update ≠ .none then s.answer m 0x07 .busy 0 []
    else if 2 ≤ slot ∨ ¬ (staged = true ∨ (s.fw.unconfirmed = true ∧ slotB = s.bootSlot)) then s.answer m 0x07 .ok 10 []
    else if (s.manifestOf slotB).svn < s.fw.svnFuses then s.answer m 0x07 .ok 8 []
    else if s.power.emergency then { s with fw := { s.fw with update := .held m slotB } }
    else s.startUpdate m slotB

/-- ACTIVATE_LATCH_TIMEOUT: the emergency latch has been set for 5 s. A held request is dropped with BUSY; a sequence under
way is switched back once the latch clears, with RESULT 12 (14 R681). -/
def execActivateLatchTimeout (s : State) : Res :=
  if !s.power.emergency then ok s else
  match s.fw.update with
  | .held m _ => ok ({ s with fw := { s.fw with update := .none } }.answer m 0x07 .busy 0 [])
  | .running session _ w switched inSwitch =>
    let back := (match inSwitch with
      | some p => [p]
      | none => []) ++ switched.reverse
    ok { s with fw := { s.fw with update := .rollback session back none 12 w s.frame.counter } }.endRollback
  | _ => ok s

/-- EMERGENCY_LATCH_CLEAR: no condition has held the latch for 1 s; a held ACTIVATE starts (14 R681; 15 R709). -/
def execEmergencyLatchClear (s : State) : Res :=
  if !s.power.emergency ∨ s.power.thermHold = true ∨ s.power.dipHold = true ∨ s.runs .dusk = false then ok s else
  let s := { s with power := { s.power with emergency := false } }
  match s.fw.update with
  | .held m slotB => ok (s.startUpdate m slotB)
  | _ => ok s

/-- CONFIRM: Dawn writes both boot records, blows fuses and then answers (14 R680). -/
def execConfirm (m : Msg) (s : State) : Res :=
  sessionOp m 0x08 false s fun s =>
    if !s.runs .dawn ∨ s.fw.update ≠ .none ∨ s.fw.confirming.isSome = true then s.answer m 0x08 .busy 0 []
    else { s with fw := { s.fw with confirming := some m } }

/-- CONFIRM_WRITE_COMPLETE: both boot records name the running slot and its SVN, and fuses are blown up to it (14 R680). -/
def execConfirmWriteComplete (s : State) : Res :=
  match s.fw.confirming with
  | none => ok s
  | some m =>
    if !s.runs .dawn then ok s else
    let b := s.fw.dawn.slotB
    let svn := match s.fw.running with
      | some r => r.svn
      | none => 0
    ok ({ s with fw := { s.fw with records := [(b, svn, true), (b, svn, true)], svnFuses := Nat.max s.fw.svnFuses svn,
                                   unconfirmed := false, confirming := none } }.answer m 0x08 .ok 0 [])

/-! ## HBM base dies (16 R724) -/

/-- HBM_STACK_NO_ANSWER: a base die that does not answer declares its stack failed (09 R453; 16 R724). -/
def execHbmStackNoAnswer (stack : Nat) (s : State) : Res :=
  if 12 ≤ stack ∨ !s.released then ok s else ok (s.declare (.stack stack) 0)

end Sys2Proof.Machine
end

