-- ==== Sys2Proof/Machine/Sideband.lean ====
section
/-! DEFINITION. The I3C sideband (17 R754 to R759; 14 R660, R676): common commands, private reads, recovery mode and debug access. -/

namespace Sys2Proof.Machine

/-- Send bytes on the sideband. -/
def State.i3cSend (s : State) (bs : List Byte) : State := s.send (.i3c bs)
/-- The status and data that the next private read returns (17 R755). -/
def State.sideAnswer (s : State) (st : RegStatus) (data : Word32) : State :=
  { s with side := { s.side with status := st.code, data := data } }

/-! ## Common commands (17 R754) -/

/-- ENTDAA: the device takes a dynamic address when it has none. -/
def execEntdaa (address : BitVec 7) (s : State) : Res :=
  if s.side.dynAddr.isSome then ok s else ok { s with side := { s.side with dynAddr := some address } }
/-- SETDASA: the device takes a dynamic address through its static address 0x3A, when it has none. -/
def execSetdasa (address : BitVec 7) (s : State) : Res :=
  if s.side.dynAddr.isSome then ok s else ok { s with side := { s.side with dynAddr := some address } }
/-- RSTDAA: the dynamic address is forgotten. -/
def execRstdaa (s : State) : Res := ok { s with side := { s.side with dynAddr := none } }
/-- ENEC: event bit 0 enables in-band interrupts (log 11). -/
def execEnec (events : Byte) (s : State) : Res :=
  ok { s with side := { s.side with ibi := s.side.ibi || events.getLsbD 0 } }
/-- DISEC: event bit 0 disables in-band interrupts (log 11). -/
def execDisec (events : Byte) (s : State) : Res :=
  ok { s with side := { s.side with ibi := s.side.ibi && !events.getLsbD 0 } }
/-- GETPID: the provisioned ID, highest byte first (log 11). -/
def execGetpid (s : State) : Res := ok (s.i3cSend (leBytes 6 Config.i3cPid.toNat).reverse)
/-- GETBCR (log 11). -/
def execGetbcr (s : State) : Res := ok (s.i3cSend [Config.i3cBcr])
/-- GETDCR (log 11). -/
def execGetdcr (s : State) : Res := ok (s.i3cSend [Config.i3cDcr])
/-- GETSTATUS: the status word, highest byte first (log 11). -/
def execGetstatus (s : State) : Res := ok (s.i3cSend (leBytes 2 (Config.i3cStatus s.power.alert).toNat).reverse)

/-! ## Private transfers (17 R755 to R757, R759) -/

/-- I3C_PRIVATE_READ: the status of the last private write and the data of a read of one word; with an operand, the private
write before it was OP 0x01 at that offset (R755 to R757). -/
def execI3cPrivateRead (op01 : Option Word32) (s : State) : Res :=
  let s := match op01 with
    | some o => match s.regRead .i3c o.toNat with
      | (st, v) => s.sideAnswer st (BitVec.ofNat 32 v)
    | none => s
  ok (s.i3cSend (leBytes 1 s.side.status ++ leBytes 4 s.side.data.toNat))

/-- BLOCK_WRITE: in recovery mode bytes of a package go into slot A, in ascending offsets; else BUSY (R756, R758). A write of
another length, or that reaches outside slot A or goes back, is refused (log 60). -/
def execBlockWrite (offset : Nat) (data : List Byte) (s : State) : Res :=
  let n := data.length
  if !s.fw.recovery then ok (s.sideAnswer .busy 0)
  else if n < 4 ∨ 256 < n then ok (s.sideAnswer .size 0)
  else if offset < 0x10000000 ∨ 0x10000000 + slotSize < offset + n ∨ (offset - 0x10000000 < s.fw.blockNext ∧ offset ≠ 0x10000000) then
    ok (s.sideAnswer .reserved 0)
  else
    let a := offset - 0x10000000
    ok ({ s with fw := { s.fw with flash := writeFlash s.fw.flash (slotBase false + a) data, blockNext := a + n } }.sideAnswer .ok 0)

/-- BOOT_SLOT_A: in recovery mode the ROM verifies slot A and boots it when it is valid; else BUSY (R758; 14 R660). -/
def execBootSlotA (size : Nat) (s : State) : Res :=
  if !s.fw.recovery then ok (s.sideAnswer .busy 0)
  else if size ≤ slotSize ∧ s.packageValid false = true then ok ((s.boot false {}).sideAnswer .ok 0)
  else ok (s.sideAnswer .reserved 0)

/-! ## Debug access (14 R676; 17 R756) -/

/-- A debug access: LOCKED while LK_DEBUG is set. -/
def debugOp (s : State) (f : State → State) : Res :=
  if s.locked 3 then ok (s.sideAnswer .locked 0) else ok (f s)

/-- DEBUG_HALT: the processor halts; its watchdog keeps running. -/
def execDebugHalt (p : Proc) (s : State) : Res :=
  debugOp s fun s => (s.modProc p fun x => { x with halted := true }).sideAnswer .ok 0
/-- DEBUG_STEP: a halted processor executes one instruction of its own; what that does to its registers and memory is
firmware's, and no rule of the device gives it (log 61). -/
def execDebugStep (p : Proc) (s : State) : Res :=
  debugOp s fun s =>
    let x := s.proc p
    (if x.halted then s.modProc p fun x => { x with words := [] } else s).sideAnswer .ok 0
/-- DEBUG_READ_WORD: a word of the processor's memory; one that debug has not written since the processor last ran is
firmware's and free (log 61). -/
def execDebugReadWord (p : Proc) (address : BitVec 30) (s : State) : Res :=
  debugOp s fun s =>
    match (s.proc p).words.find? fun (x : Nat × Word32) => x.1 == address.toNat with
    | some x => s.sideAnswer .ok x.2
    | none => match takeNat s with
      | (n, s) => s.sideAnswer .ok (BitVec.ofNat 32 n)
/-- DEBUG_WRITE_WORD: a word of the processor's memory is written; it is held while the processor is halted. -/
def execDebugWriteWord (p : Proc) (address : BitVec 30) (value : Word32) (s : State) : Res :=
  debugOp s fun s =>
    (s.modProc p fun x => if x.halted then
      { x with words := (x.words.filter fun (y : Nat × Word32) => y.1 != address.toNat) ++ [(address.toNat, value)] } else x).sideAnswer .ok 0

end Sys2Proof.Machine
end

