-- ==== Sys2Proof/Machine/Frames.lean ====
section
/-! DEFINITION. Frame time (10 R466 to R482, R769; 13 R639 to R641): the anchor's markers, the frame source, steps, and what happens at a frame boundary. -/

namespace Sys2Proof.Machine

/-! ## The frame source (10 R470 to R474) -/

/-- Holdover times above this many frames exceed 1 s (10 R477; 00, Device time). -/
def frames1s : Nat := 122070

/-- The frame source enters HOLDOVER; a holdover interrupted by realignment goes on (10 R471, R472, R769). -/
def FrameSt.hold (f : FrameSt) (frames : Nat) : FrameSt :=
  if f.source = .realigning then { f with source := .holdover, markerInHold := false }
  else { f with source := .holdover, markerInHold := false, holdFrames := frames, holdLogged := false }

/-- The frame source enters LOCKED; the end of a holdover of more than 1 s is logged (10 R470, R769; 16 R734). -/
def State.lockFrames (s : State) : State :=
  let long := s.frame.over1s
  let ms := framesMs s.frame.holdFrames
  let s := { s with frame := { s.frame with source := .locked, over1s := false, stepPending := false, missed := 0, markerInHold := false,
                                            acquired := true } }
  if long then s.logError 0x0400 5 0 0 1 ms else s

/-- The mean of the trailing 4,096 intervals lies outside 1,280 cycles ± 5 ppm; false until so many are measured (10
R467). -/
def intervalBad (l : List Nat) : Bool :=
  decide (l.length = 4096) &&
    (let d := (sumNat l : Int) - 5242880
     decide (5 * 5242880 < d.natAbs * 1000000))

/-- The chips of a boundary marker that differ from the pattern (10 R466, R468). -/
def chipErrors (chips : Word32) : Nat := popCount 32 (chips ^^^ 0xF3A50C69#32).toNat
/-- A numbered marker carries the CRC-32C of its number's 8 bytes, in a frame whose number is divisible by 1,024 (10 R466, R468). -/
def markerValid (number : Word64) (crc : Word32) : Bool :=
  crc.toNat == crc32c (leBytes 8 number.toNat) && number.toNat % 1024 == 0

/-- One more measured interval, from the valid marker before, and its evaluation: outside tolerance the anchor counts as absent, until 4,096 evaluations in
succession are within it (10 R467, R471). -/
def State.measureInterval (s : State) (n : Nat) : State :=
  if !s.frame.hadMarker then { s with frame := { s.frame with hadMarker := true } } else
  let l := (n :: s.frame.intervals).take 4096
  let bad := intervalBad l
  let f := { s.frame with intervals := l }
  let f := if bad then { f with anchorFreq := true, goodEvals := 0 }
    else if f.anchorFreq then
      { f with goodEvals := f.goodEvals + 1, anchorFreq := decide (f.goodEvals + 1 < 4096) }
    else f
  let f := if bad && (f.source == .locked || f.source == .realigning) then f.hold 0 else f
  { s with frame := f }

/-- BOUNDARY_MARKER: 32 chips with at most two errors are a valid marker, while LOCKED only within ±64 symbols of the
expected boundary. Its interval is measured; in HOLDOVER the next numbered marker decides; REALIGNING ends at a phase of one
symbol (10 R466 to R472). -/
def execBoundaryMarker (chips : Word32) (e : Int) (interval : Nat) (s : State) : Res :=
  if 2 < chipErrors chips ∨ (s.frame.source = .locked ∧ 64 < e.natAbs) ∨ s.released = false then ok s else
  let s := s.measureInterval interval
  let s := { s with frame := { s.frame with markerSeen := true, phase := e } }
  if s.frame.anchorFreq then ok s
  else match s.frame.source with
    | .holdover => ok { s with frame := { s.frame with markerInHold := true } }
    | .realigning => if e.natAbs ≤ 1 then ok s.lockFrames else ok s
    | _ => ok s

/-- A frame number moved by a step of the counter, so that a wait kept as a frame number stays a count of boundaries
(00 R17). -/
def shiftFrame (d : Int) (f : Nat) : Nat := ((f : Int) + d).toNat

/-- The waits of a live update moved by a step (14 R678, R679). -/
def Update.moved (u : Update) (d : Int) : Update :=
  match u with
  | .running n b w sw cur => .running n b (shiftFrame d w) sw cur
  | .rollback n back c r w a => .rollback n back c r (shiftFrame d w) (shiftFrame d a)
  | u => u

/-- The frames that a command names, moved by a step: what one whose record is written still holds of the calendar (10 R497), and
where the counter itself goes round (00 R15), everything that an open one waits for. -/
def Job.moved (j : Job) (d : Int) : Job :=
  { j with
    decided := shiftFrame d j.decided, deadline := shiftFrame d j.deadline, handover := j.handover.map (shiftFrame d), guardFrom := j.guardFrom.map (shiftFrame d)
    lastConv := j.lastConv.map (shiftFrame (d * Config.symbolsPerFrame))
    run := { j.run with drainFrame := j.run.drainFrame.map (shiftFrame d) }
    placed := j.placed.map fun p => { p with first := shiftFrame d p.first, cut := p.cut.map (shiftFrame d) }
    first := shiftFrame d j.first, last := shiftFrame d j.last
    guardEnd := shiftFrame d j.guardEnd
    phase := match j.phase with
      | .written st fr => .written st (shiftFrame d fr)
      | p => p }

/-- Every wait that is kept as a frame number follows a step of the counter, and the counter's own return to 0: it counts
boundaries (00 R15, R17; 05 R261, R266; 12 R571, R598; 14 R678; 15 R706, R714). -/
def State.moveWaits (s : State) (d : Int) : State :=
  let queue := fun (l : List SeqEntry) => l.map fun x => { x with frame := shiftFrame d x.frame }
  { s with
    jobs := s.jobs.map fun j => j.moved d
    farFree := s.farFree.map fun (x : Nat × Nat) => (x.1, shiftFrame (d * Config.symbolsPerFrame) x.2)
    kernels := s.kernels.map fun k => { k with start := shiftFrame d k.start }
    clusters := s.clusters.map fun (x : Nat × Cluster) => (x.1, { x.2 with leader := queue x.2.leader, follower := queue x.2.follower })
    engines := s.engines.map fun (x : Nat × Engine) => (x.1, { x.2 with
      lit := x.2.lit.map fun y => (shiftFrame (d * Config.symbolsPerFrame) y.1, y.2)
      lossEvent := x.2.lossEvent.map (shiftFrame d), outAt := 0, relock := { x.2.relock with startFrame := shiftFrame d x.2.relock.startFrame } })
    link := { s.link with
      lanes := s.link.lanes.map fun (x : Nat × Lane) => (x.1, { x.2 with
        retune := x.2.retune.map (shiftFrame d), rxRetune := x.2.rxRetune.map (shiftFrame d)
        noSlotsUntil := if x.2.noSlotsUntil = 0 then 0 else shiftFrame d x.2.noSlotsUntil
        noRxUntil := if x.2.noRxUntil = 0 then 0 else shiftFrame d x.2.noRxUntil, slotDone := 0 })
      relays := s.link.relays.map fun x => { x with at' := shiftFrame (d * Config.symbolsPerFrame) x.at' }
      conns := s.link.conns.map fun (x : Nat × Connector) => (x.1, { x.2 with
        frameP := if x.2.attn then shiftFrame d x.2.frameP else x.2.frameP
        darkAt := if x.2.dark then shiftFrame (d * Config.symbolsPerFrame) x.2.darkAt else 0 }) }
    fw := { s.fw with update := s.fw.update.moved d }
    power := { s.power with floorPlan := s.power.floorPlan.map fun x => (shiftFrame d x.1, x.2), lastDip := s.power.lastDip.map (shiftFrame d) } }

/-- A step: the counter takes the marker's number and the boundary is aligned to it; waits keep their count of boundaries, and
the calibration rotation starts again at a frame divisible by 16 (00 R17; 10 R474, R476, R479). -/
def State.stepTo (s : State) (n : Nat) : State :=
  let s := s.lockFrames.moveWaits ((n : Int) - s.frame.counter)
  { s with
    frame := { s.frame with counter := n, symbol := 0, phase := 0, stepRequested := false, committed := n + 63 }
    cal := { s.cal with rotating := false, resumeDue := s.cal.rotating || s.cal.resumeDue } }

/-- HOLDOVER marks the commands that execute while frames are unsure, or at a boundary in a holdover of more than 1 s (10 R477). -/
def State.markHoldover (s : State) : State :=
  let f := s.frame
  if f.unsure || (f.source == .holdover && decide (frames1s < f.holdFrames)) then
    s.flagJobs (fun j => j.phase == .running) fun x => { x with holdover := true }
  else s

/-- NUMBERED_MARKER: a valid one supplies the number of the frame that begins. The first acquisition and a requested step
wait until no command is accepted and not completed; after a holdover the number and the phase decide between realignment
and a step, and commands that execute are marked (10 R477). -/
def execNumberedMarker (number : Word64) (crc : Word32) (e : Int) (s : State) : Res :=
  if !markerValid number crc ∨ s.frame.anchorFreq = true ∨ s.released = false then ok s else
  let n := number.toNat
  let idle := !s.busyJobs
  let own := if s.frame.symbol ≤ 51200 then s.frame.counter else s.frame.counter + 1
  if s.frame.source = .localFrames ∧ s.frame.acquired = false then
    if idle then ok (s.stepTo n) else ok ({ s with frame := { s.frame with stepPending := true } }).markHoldover
  else if s.frame.stepRequested ∧ idle = true then ok (s.stepTo n)
  else if s.frame.source = .holdover ∧ s.frame.markerInHold = true then
    if e.natAbs ≤ 51200 ∧ n = own then
      ok ({ s with frame := { s.frame with source := .realigning, phase := e, missed := 0, markerInHold := false } }).markHoldover
    else ok ({ s with frame := { s.frame with stepPending := true, phase := e } }).markHoldover
  else ok s

/-- MARKER_TIMEOUT: four consecutive expected markers are missing or invalid; the holdover time runs from the first of them
(10 R470, R471). -/
def execMarkerTimeout (s : State) : Res :=
  let f := s.frame
  if (f.source = .locked ∨ f.source = .realigning) ∧ 4 ≤ f.missed then
    ok { s with frame := f.hold f.missed }
  else ok s

/-- HOLDOVER_1S: at the first boundary at which the holdover time exceeds 1 s, the entry is written and the commands that
execute are marked (10 R477, R769; 16 R734). -/
def execHoldover1s (s : State) : Res :=
  let f := s.frame
  if !((f.source = .holdover ∨ f.source = .realigning) ∧ frames1s < f.holdFrames ∧ f.holdLogged = false) then ok s else
  let s := { s with frame := { f with over1s := true, holdLogged := true } }
  ok ((s.logError 0x0400 5 0 0 0 (framesMs f.holdFrames)).flagJobs (fun j => j.phase == .running) fun x => { x with holdover := true })

/-! ## A boundary -/

/-- A number moved towards zero by at most a step. -/
def towardZero (e : Int) (step : Nat) : Int := if e < 0 then min 0 (e + step) else max 0 (e - step)

/-- The 64-bit counter is about to return to 0: waits keep their count of boundaries (00 R15, R17). -/
def State.turnCounter (s : State) : State :=
  if s.frame.counter + 1 < 2 ^ 64 then s else
  let s := s.moveWaits (-(2 ^ 64))
  { s with frame := { s.frame with committed := shiftFrame (-(2 ^ 64)) s.frame.committed } }

/-- The frame that begins: the 64-bit counter's increment (00 R15), markers that were expected, holdover time, and the steering of the symbol clock (10 R469 to R474). -/
def State.nextFrame (s : State) : State :=
  let f := s.frame
  let held := f.source == .holdover || f.source == .realigning
  let n := if held then f.holdFrames + 1 else f.holdFrames
  let f := { f with
    counter := (f.counter + 1) % 2 ^ 64, symbol := 0, missed := if f.markerSeen then 0 else f.missed + 1, markerSeen := false
    holdFrames := n, over1s := f.over1s || (held && decide (frames1s < n))
    phase := match f.source with
      | .realigning => towardZero f.phase 8
      | .locked => towardZero f.phase 1
      | _ => f.phase }
  let s := { s with frame := f }
  if f.source = .realigning ∧ f.phase.natAbs ≤ 1 ∧ f.missed = 0 then s.lockFrames else s

/-- Noon commits one frame more, while it runs (10 R479). -/
def State.commit (s : State) : State := if s.runs .noon then s.commitFrames else s


/-- The re-run of a stage begins (03 R164); a drain-only stage's drains the values saved at its start (R158, R167). -/
def State.beginRerun (s : State) (j : Job) : StageRun :=
  let ts := match j.body.stageList[j.run.stage]? with
    | some st => s.drainOnlyTiles j.mask (st.eff true)
    | none => []
  { j.run with started := true, tiles := ts.map fun t => { t with inFile := false }, values := if ts.isEmpty then [] else j.run.saved }

/-- Re-runs whose frame has come begin (03 R164). -/
def State.startReruns (s : State) : State :=
  { s with jobs := s.jobs.map fun (j : Job) =>
      if j.phase == .running && j.run.rerun && !j.run.started && (match j.handover with
        | some h => decide (h ≤ s.frame.counter)
        | none => false) then { j with run := s.beginRerun j, staged := [] } else j }

/-- EVENT kind 1 to the session of each completion queue with NOTIFY set in which records were written in the frame that ends
(11 R520; 12 R610). -/
def State.notifyQueues (s : State) : State :=
  forEach (List.range 16) (fun s c =>
    let x := s.cq c
    if !x.wrote then s else
    let s := s.modCq c fun x => { x with wrote := false }
    if !(x.enable && x.notify) then s else
    match s.openSessions.find? fun n => (s.session n).any fun ss => ss.cqs.contains c with
    | some n => s.send (.event n 1 (BitVec.ofNat 32 (c + 256 * x.t)) s.frame.counter)
    | none => s) s

/-- CFG_CRC of the boundary, the copy into the reference, and the comparison (13 R639 to R641; 16 R734). -/
def State.cfgBoundary (s : State) : State :=
  if !s.runs .noon then s else
  let crc := BitVec.ofNat 32 s.cfgCrc
  let c := { s.cfg with crc := crc }
  let c := if c.commitDue then { c with ref := crc, armed := true, suspended := false, commitDue := false } else c
  let c := if c.suspendDue then { c with suspended := true, suspendDue := false } else c
  let bad := c.armed && !c.suspended && crc != c.ref
  let first := bad && !c.lastBad
  let c := if bad then { c with mismatch := true, mismatches := Nat.min 0xFFFF (c.mismatches + 1) } else c
  let s := { s with cfg := { c with lastBad := bad } }
  if first then s.logError 0x0601 7 0 0 0 (crc.toNat * 2 ^ 32 + c.ref.toNat) else s

/-- SHADOW_CTRL takes a written value at the boundary (07 R378); a window with a frame without samples is not complete (07
R379). -/
def State.shadowBoundary (s : State) : State :=
  let s := { s with cal := { s.cal with windowCut := s.cal.windowCut || !s.cal.sampleEn } }
  match s.cal.shadowNext with
  | some (n, en) => { s with cal := { s.cal with log2N := n, sampleEn := en, shadowNext := none } }
  | none => s

/-- The sequencers park the banks whose last tile has streamed (02 R62, R92): also of a command that has stopped, or of an earlier
stage. -/
def State.parkIdle (s : State) : State :=
  { s with engines := (s.engines.map fun (x : Nat × Engine) => (x.1, x.2.park (s.bankDone x.1))).filter fun x => x.2 != {} }

/-- A command that a fault has ended is complete at the first boundary after its last access in flight has returned, one that a failed
unit or a lapsed peer has ended at the first boundary (10 R500). -/
def State.settleEnded (s : State) : State :=
  { s with jobs := s.jobs.map fun (j : Job) => if j.endDue then j else match j.phase with
      | .finished st => if st.waitsBoundary && !(st.waitsAccess && s.inFlight j.id) then { j with endDue := true } else j
      | _ => j }

/-- The traffic of each kernel in the frame starts from zero, and requests that waited go out (07 R369). -/
def State.refillKernels (s : State) : State :=
  forEach s.kernels (fun s k => State.askLate k.job k.late s)
    { s with kernels := s.kernels.map fun (k : Kernel) => { k with inFrame := 0 } }

/-- Every transmit lane has its slots anew (12 R574). -/
def State.refillSlots (s : State) : State :=
  { s with link := { s.link with lanes := mapSparse {} (fun (l : Lane) => { l with relayUsed := 0, ownUsed := 0 }) s.link.lanes } }

/-- FRAME_BOUNDARY: the next frame begins (10 R474, R479). Frames stop while REFCLK is lost (15 R717). -/
def execFrameBoundary (obs : BoundaryObs) (s : State) : Res :=
  if s.power.refclkLost then ok s else
  let s := (s.takeDecay obs.decay).notifyQueues.turnCounter.nextFrame
  let s := { s with cal := { s.cal with sinceRecord := s.cal.sinceRecord + 1 } }
  let s := s.clearQueues.commit.markHoldover.startReruns.parkIdle
  let s := s.shadowBoundary
  let s := (s.takeMeans.twilightBoundary obs (s.power.state == .run)).displace.failStranded
  let s := s.countUnreachable
  let s := s.powerBoundary.refillKernels.refillSlots
  ok s.cfgBoundary.refreshShown.takeSnapshots.settleEnded

end Sys2Proof.Machine
end

