-- ==== Sys2Proof/Machine/Scalar.lean ====
section
/-! DEFINITION. The other class of the vector cores' instructions (07 R346 to R371): scalar arithmetic, memory, branches, barriers, engine work and events. -/

namespace Sys2Proof.Machine

/-! ## Scalar arithmetic (07 R353, R355) -/

/-- An exact scalar result; one outside INT64 is not stated (log 9). -/
def intWord (op : Nat) (a b : Word64) (i : Int) : Word64 :=
  if VTy.i64.fits i then BitVec.ofNat 64 (toBits i 64) else Config.vectorValue op 3 a b

/-- The second operand of format S: s(SB) + IMM9, sign-extended. -/
def Thread.operand (th : Thread) (f : FS) : Word64 :=
  intWord 0 (th.sreg f.sb) (f.imm.signExtend 64) ((th.sreg f.sb).toInt + f.imm.toInt)

/-- A scalar instruction `s(SD) = s(SA) op operand`. -/
def scalarOp (t : Nat) (op : BitVec 8) (f : FS) (s : State) (g : Word64 → Word64 → Word64) : Res :=
  regOp t ⟨op, .s f⟩ s fun th => th.setS f.sd (g (th.sreg f.sa) (th.operand f))

/-- SADD. -/
def execSadd (thread : Nat) (f : FS) (s : State) : Res :=
  scalarOp thread 0x40 f s fun a b => intWord 0x40 a b (a.toInt + b.toInt)
/-- SSUB. -/
def execSsub (thread : Nat) (f : FS) (s : State) : Res :=
  scalarOp thread 0x41 f s fun a b => intWord 0x41 a b (a.toInt - b.toInt)
/-- SMUL. -/
def execSmul (thread : Nat) (f : FS) (s : State) : Res :=
  scalarOp thread 0x42 f s fun a b => intWord 0x42 a b (a.toInt * b.toInt)
/-- SAND. -/
def execSand (thread : Nat) (f : FS) (s : State) : Res := scalarOp thread 0x43 f s (· &&& ·)
/-- SOR. -/
def execSor (thread : Nat) (f : FS) (s : State) : Res := scalarOp thread 0x44 f s (· ||| ·)
/-- SXOR. -/
def execSxor (thread : Nat) (f : FS) (s : State) : Res := scalarOp thread 0x45 f s (· ^^^ ·)
/-- SSHL; the manual states no result for a count outside 0 to 63 (log 9). -/
def execSshl (thread : Nat) (f : FS) (s : State) : Res :=
  scalarOp thread 0x46 f s fun a b =>
    if b.toNat < 64 then a <<< b.toNat else Config.vectorValue 0x46 3 a b
/-- SSHR: the manual does not say whether a negative value's vacated bits are its sign (log 9). -/
def execSshr (thread : Nat) (f : FS) (s : State) : Res :=
  scalarOp thread 0x47 f s fun a b =>
    if b.toNat < 64 then freePick 0x47 .i64 a.toNat b.toNat (a.sshiftRight b.toNat) (a >>> b.toNat)
    else Config.vectorValue 0x47 3 a b

/-- A scalar FP64 instruction. -/
def scalarFp (t : Nat) (op : BitVec 8) (f : FS) (s : State) (g : Fv → Fv → Ex × BitVec 5) : Res :=
  regOp t ⟨op, .s f⟩ s fun th =>
    match fp64.finish .ne (g (fp64.decode (th.sreg f.sa).toNat) (fp64.decode (th.operand f).toNat)) with
    | (n, fl) => (th.setS f.sd (BitVec.ofNat 64 n)).raise fl

/-- SFADD. -/
def execSfadd (thread : Nat) (f : FS) (s : State) : Res := scalarFp thread 0x48 f s (fpAdd .ne)
/-- SFMUL. -/
def execSfmul (thread : Nat) (f : FS) (s : State) : Res := scalarFp thread 0x49 f s fpMul
/-- SFDIV. -/
def execSfdiv (thread : Nat) (f : FS) (s : State) : Res := scalarFp thread 0x4A f s fpDiv
/-- SFCMPLT writes 1 or 0; an ordered comparison of a NaN is invalid (IEEE 754). -/
def execSfcmplt (thread : Nat) (f : FS) (s : State) : Res :=
  regOp thread ⟨0x4B, .s f⟩ s fun th =>
    match fpCmp (fp64.decode (th.sreg f.sa).toNat) (fp64.decode (th.operand f).toNat) with
    | some .lt => th.setS f.sd 1
    | some _ => th.setS f.sd 0
    | none => (th.setS f.sd 0).raise flInvalid

/-- SLI: IMM32 sign-extended. -/
def execSli (thread : Nat) (f : FSI) (s : State) : Res :=
  regOp thread ⟨0xC0, .si f⟩ s fun th => th.setS f.sd (f.imm.signExtend 64)
/-- SLIH: IMM32 into the upper half. -/
def execSlih (thread : Nat) (f : FSI) (s : State) : Res :=
  regOp thread ⟨0xC1, .si f⟩ s fun th => th.setS f.sd (f.imm ++ (th.sreg f.sd).extractLsb' 0 32)

/-! ## Memory (07 R346 to R352) -/

/-- VLD: 256 contiguous bytes at s(SA) + OFS24. -/
def execVld (thread : Nat) (f : FM) (s : State) : Res :=
  loadOp thread ⟨0xA0, .m f⟩ s f.sp (widthOf f.w) (fun th => contiguous th f (widthOf f.w)) fun _ => wholeDest f.vd
/-- VST: 256 contiguous bytes at s(SA) + OFS24. -/
def execVst (thread : Nat) (f : FM) (s : State) : Res :=
  storeOp thread ⟨0xA1, .m f⟩ s f.sp (widthOf f.w) (fun th => contiguous th f (widthOf f.w)) (fun th => th.lane f.vd) true
/-- VLDS: lane i at s(SA) + OFS24 + i × s(SB). -/
def execVlds (thread : Nat) (f : FM) (s : State) : Res :=
  loadOp thread ⟨0xA2, .m f⟩ s f.sp (widthOf f.w) (fun th => strided th f)
    fun _ => elemDest 0xA2 f.vd (widthOf f.w)
/-- VSTS: lane i at s(SA) + OFS24 + i × s(SB). -/
def execVsts (thread : Nat) (f : FM) (s : State) : Res :=
  storeOp thread ⟨0xA3, .m f⟩ s f.sp (widthOf f.w) (fun th => strided th f) fun th => th.lane f.vd
/-- VGATH (07 R349). -/
def execVgath (thread : Nat) (f : FM) (s : State) : Res :=
  loadOp thread ⟨0xA4, .m f⟩ s f.sp (widthOf f.w) (fun th => indexed th f (widthOf f.w))
    fun _ => elemDest 0xA4 f.vd (widthOf f.w)
/-- VSCAT, in ascending lane order (07 R349). -/
def execVscat (thread : Nat) (f : FM) (s : State) : Res :=
  storeOp thread ⟨0xA5, .m f⟩ s f.sp (widthOf f.w) (fun th => indexed th f (widthOf f.w)) fun th => th.lane f.vd

/-- The one element of SLD, SST and SAADD.D. -/
def oneElem (th : Thread) (f : FM) : List Elem := [{ lane := 0, addr := baseAddr th f }]

/-- SLD: 64 bits at s(SA) + OFS24 to s(VD[4:0]). -/
def execSld (thread : Nat) (f : FM) (s : State) : Res :=
  loadOp thread ⟨0xA6, .m f⟩ s f.sp 8 (fun th => oneElem th f)
    fun _ vals => .scalar (lowS f.vd).toNat (BitVec.ofNat 64 ((vals.head?.map (·.2)).getD 0))
/-- SST: s(VD[4:0]) to 64 bits at s(SA) + OFS24. -/
def execSst (thread : Nat) (f : FM) (s : State) : Res :=
  storeOp thread ⟨0xA7, .m f⟩ s f.sp 8 (fun th => oneElem th f) fun th _ => th.sreg (lowS f.vd)

/-- One FP64 atomic add into cluster SRAM (07 R352): what the gather holds gains the previous value. An address outside
cluster SRAM is refused like those of 07 R347 (log 18). -/
def atomicElem (k : Kernel) (device : Bool) (pc : Nat) (val : Nat → Word64) (g : Gather) (e : Elem) : Gather :=
  if g.stop.isSome then g else
  let a := e.addr.toNat
  let tg := match g.st.target k device true e.addr 8 with
    | .sram c => Target.sram c
    | _ => Target.refused
  match g.st.access k tg a true with
  | .refused => { g with st := g.st.refuse k pc, vals := g.vals ++ [(e.lane, 0)] }
  | .stop st => { g with stop := some st }
  | .fine =>
    let old := g.st.word a 8
    match fp64.finish .ne (fpAdd .ne (fp64.decode old) (fp64.decode (val e.lane).toNat)) with
    | (new, fl) =>
      { g with st := g.st.write a (leBytes 8 new), vals := g.vals ++ [(e.lane, old)], fl := g.fl ||| fl }

/-- AADD.D: for each active lane in ascending order, an indivisible add at the lane's gather address (07 R352). -/
def execAaddD (thread : Nat) (f : FM) (s : State) : Res :=
  let c : CoreInstr := ⟨0xA8, .m f⟩
  coreRun thread c s fun k s =>
    let th := s.thread thread
    let g := (indexed th f 8).foldl (atomicElem k f.sp th.pc (th.lane f.vd)) { st := s }
    match g.stop with
    | some st => g.st.stopKernel k.job st
    | none => g.st.modThread thread fun th => (th.next c).raise g.fl

/-- SAADD.D: one such add at s(SA) + OFS24; the addend and the previous value in s(VD[4:0]) (07 R352). -/
def execSaaddD (thread : Nat) (f : FM) (s : State) : Res :=
  let c : CoreInstr := ⟨0xA9, .m f⟩
  coreRun thread c s fun k s =>
    let th := s.thread thread
    let g := (oneElem th f).foldl (atomicElem k f.sp th.pc fun _ => th.sreg (lowS f.vd)) { st := s }
    match g.stop with
    | some st => g.st.stopKernel k.job st
    | none => g.st.modThread thread fun th => ((th.next c).raise g.fl).awaits
        (.scalar (lowS f.vd).toNat (BitVec.ofNat 64 ((g.vals.head?.map (·.2)).getD 0))) 0

/-! ## Branches (07 R355) -/

/-- BR. -/
def execBr (thread : Nat) (f : FB) (s : State) : Res :=
  branchOp thread ⟨0x60, .b f⟩ s (fun _ => true) f.ofs.toInt false
/-- CALL writes its return address to s31 (07 R340). -/
def execCall (thread : Nat) (f : FB) (s : State) : Res :=
  branchOp thread ⟨0x67, .b f⟩ s (fun _ => true) f.ofs.toInt true
/-- BANY: any bit of p(P) is set. -/
def execBany (thread : Nat) (f : FB) (s : State) : Res :=
  branchOp thread ⟨0x61, .b f⟩ s (fun th => th.preg f.p != 0) f.ofs.toInt false
/-- BALL: all bits of p(P) are set. -/
def execBall (thread : Nat) (f : FB) (s : State) : Res :=
  branchOp thread ⟨0x62, .b f⟩ s (fun th => th.preg f.p == BitVec.allOnes 32) f.ofs.toInt false
/-- BNONE: no bit of p(P) is set. -/
def execBnone (thread : Nat) (f : FB) (s : State) : Res :=
  branchOp thread ⟨0x63, .b f⟩ s (fun th => th.preg f.p == 0) f.ofs.toInt false
/-- BEQ. -/
def execBeq (thread : Nat) (f : FBC) (s : State) : Res :=
  branchOp thread ⟨0x64, .bc f⟩ s (fun th => th.sreg f.sa == th.sreg f.sb) f.ofs.toInt false
/-- BNE. -/
def execBne (thread : Nat) (f : FBC) (s : State) : Res :=
  branchOp thread ⟨0x65, .bc f⟩ s (fun th => th.sreg f.sa != th.sreg f.sb) f.ofs.toInt false
/-- BLT: signed. -/
def execBlt (thread : Nat) (f : FBC) (s : State) : Res :=
  branchOp thread ⟨0x66, .bc f⟩ s (fun th => (th.sreg f.sa).slt (th.sreg f.sb)) f.ofs.toInt false
/-- RET: return to s31. -/
def execRet (thread : Nat) (f : FS) (s : State) : Res :=
  coreRun thread ⟨0x68, .e f⟩ s fun _ s => s.modThread thread fun th =>
    { th with pc := (th.sreg 31).toNat, st := .ready }

/-! ## Barriers, the end of a thread, progress and budgets (07 R350, R370, R371) -/

/-- The threads of a kernel, or of one of its cores, that have not ended (log 19). -/
def State.liveThreads (s : State) (k : Kernel) (core : Option Nat) : List Nat :=
  k.ids.filter fun t => (s.thread t).st != .ended && (match core with
    | some c => coreOf t == c
    | none => true)

/-- Release a barrier at which all of the given threads wait. -/
def State.releaseBar (s : State) (l : List Nat) (st : ThreadState) : State :=
  if !l.isEmpty && l.all (fun t => (s.thread t).st == st) then
    l.foldl (fun s t => s.modThread t fun th => { th with st := .ready }) s
  else s

/-- Release every barrier of a kernel that is complete. -/
def State.releaseBars (s : State) (k : Kernel) : State :=
  let s := k.cores.foldl (fun s c => s.releaseBar (s.liveThreads k (some c)) .barT) s
  s.releaseBar (s.liveThreads k none) .barK

/-- The thread waits; the same instruction is tried again. -/
def State.threadWaits (s : State) (t : Nat) : State := s.modThread t fun th => { th with st := .waiting }

/-- A thread reaches a barrier, which acts as an MFENCE for it (07 R350). -/
def barOp (t : Nat) (op : BitVec 8) (f : FS) (s : State) (st : ThreadState) : Res :=
  let c : CoreInstr := ⟨op, .e f⟩
  coreRun t c s fun k s =>
    if s.accessesDone k t then (s.modThread t fun th => { th.next c with st := st }).releaseBars k else s.threadWaits t

/-- BAR.T: the kernel's threads on this core. -/
def execBarT (thread : Nat) (f : FS) (s : State) : Res := barOp thread 0x70 f s .barT
/-- BAR.K: all the kernel's threads. -/
def execBarK (thread : Nat) (f : FS) (s : State) : Res := barOp thread 0x71 f s .barK
/-- MFENCE: the thread goes on when all its earlier accesses are complete (07 R350). -/
def execMfence (thread : Nat) (f : FS) (s : State) : Res :=
  let c : CoreInstr := ⟨0x72, .e f⟩
  coreRun thread c s fun k s =>
    if s.accessesDone k thread then s.modThread thread fun th => th.next c else s.threadWaits thread

/-- END: the thread ends; with every thread ended the kernel completes (07 R371). -/
def execEndThread (thread : Nat) (f : FS) (s : State) : Res :=
  coreRun thread ⟨0x69, .e f⟩ s fun k s =>
    let s := s.modThread thread fun th => { th with st := .ended }
    if k.ids.all fun t => (s.thread t).st == .ended then s.endKernel k .done else s.releaseBars k

/-- SETPROG: progress is s(SA)[31:0]. -/
def execSetprog (thread : Nat) (f : FS) (s : State) : Res :=
  regOp thread ⟨0x73, .e f⟩ s fun th => { th with progress := some ((th.sreg f.sa).toNat % 2 ^ 32) }
/-- RDCYC: budget cycles used. -/
def execRdcyc (thread : Nat) (f : FS) (s : State) : Res :=
  let c : CoreInstr := ⟨0x74, .e f⟩
  coreRun thread c s fun k s => s.modThread thread fun th =>
    (th.setS f.sd (BitVec.ofNat 64 (s.cyclesUsed k))).next c
/-- RDBUD: traffic budget left. -/
def execRdbud (thread : Nat) (f : FS) (s : State) : Res :=
  let c : CoreInstr := ⟨0x75, .e f⟩
  coreRun thread c s fun k s => s.modThread thread fun th =>
    (th.setS f.sd (BitVec.ofNat 64 (k.budget - k.traffic))).next c
/-- RDFPS: FPSTAT; IMM9[0] = 1 also clears it (07 R355). -/
def execRdfps (thread : Nat) (f : FS) (s : State) : Res :=
  regOp thread ⟨0x7B, .e f⟩ s fun th =>
    let th' := th.setS f.sd (th.fpstat.setWidth 64)
    if f.imm.getLsbD 0 then { th' with fpstat := 0 } else th'

/-! ## Engine work and events (07 R360 to R365) -/

/-- EPOST: post the descriptor at s(SA) to queue s(SB)[5:0] and return a handle; with 16 handles held it waits
(07 R360 to R362). A descriptor that does not lie readable in cluster SRAM is posted empty (log 20). -/
def execEpost (thread : Nat) (f : FS) (s : State) : Res :=
  let c : CoreInstr := ⟨0x76, .e f⟩
  coreRun thread c s fun k s =>
    if 16 ≤ k.handles.length then s.threadWaits thread else
    let th := s.thread thread
    let a := (th.sreg f.sa).toNat
    let readable := s.isSram a && s.isSram (a + 127) && !s.onBadCluster a &&
      !(s.poisoned a || s.poisoned (a + 64) || s.poisoned (a + 127))
    let p : Posted := { session := k.session, sq := (th.sreg f.sb).toNat % 64, handle := k.nextHandle,
                        thread := thread, kernel := k.job, desc := if readable then s.bytes a 128 else [] }
    let s := s.modKernel k.job fun k =>
      { k with nextHandle := k.nextHandle + 1,
               handles := k.handles ++ [{ handle := k.nextHandle, result := none, job := none, done := none }] }
    { s with posted := s.posted ++ [p] }.modThread thread fun th =>
      (th.setS f.sd (BitVec.ofNat 64 k.nextHandle)).next c

/-- The result of EWAIT for a handle (07 R363): the admission result; or the completion status with the flags word in
bits [63:32]. A rejected command's final record carries its rejection (11 R505). The manual does not state bits [63:32]
of the admission kind (log 9). -/
def ewaitResult (k : Kernel) (h : Word64) (completion : Bool) : Option Word64 :=
  match k.handles.find? fun x => x.handle == h.toNat with
  | none => none
  | some x =>
    if completion then
      match x.done, x.result with
      | some (st, fl), _ => some (BitVec.ofNat 64 (st.code + 2 ^ 32 * fl.word))
      | none, some r => if r = .accepted then none else some (BitVec.ofNat 64 r.code)
      | none, none => none
    else x.result.map fun r =>
      BitVec.ofNat 64 (r.code + 2 ^ 32 * ((Config.vectorValue 0x77 3 h 0).toNat / 2 ^ 32))

/-- EWAIT: IMM9[0] selects the completion status, IMM9[1] non-blocking operation; a completion status returned releases
the handle (07 R362, R363). -/
def execEwait (thread : Nat) (f : FS) (s : State) : Res :=
  let c : CoreInstr := ⟨0x77, .e f⟩
  coreRun thread c s fun k s =>
    let h := (s.thread thread).sreg f.sa
    match ewaitResult k h (f.imm.getLsbD 0) with
    | some r =>
      let s := if f.imm.getLsbD 0 then
          s.modKernel k.job fun k => { k with handles := k.handles.filter fun x => x.handle != h.toNat }
        else s
      s.modThread thread fun th => (th.setS f.sd r).next c
    | none =>
      if f.imm.getLsbD 1 then
        s.modThread thread fun th => (th.setS f.sd (BitVec.ofNat 64
          (0xFF + 2 ^ 32 * ((Config.vectorValue 0x77 3 h 1).toNat / 2 ^ 32)))).next c
      else s.threadWaits thread

/-- EVSIG: adds s(SB) to event counter s(SA)[11:0] (07 R364). -/
def execEvsig (thread : Nat) (f : FS) (s : State) : Res :=
  let c : CoreInstr := ⟨0x78, .e f⟩
  coreRun thread c s fun _ s =>
    let th := s.thread thread
    (s.raise ((th.sreg f.sa).toNat % 4096) (th.sreg f.sb).toNat).modThread thread fun th => th.next c

/-- EVWAIT: waits until event counter s(SA)[11:0] is at least s(SB) (07 R364). -/
def execEvwait (thread : Nat) (f : FS) (s : State) : Res :=
  let c : CoreInstr := ⟨0x79, .e f⟩
  coreRun thread c s fun _ s =>
    let th := s.thread thread
    if (th.sreg f.sb).toNat ≤ s.counter ((th.sreg f.sa).toNat % 4096) then
      s.modThread thread fun th => th.next c
    else s.threadWaits thread

/-! ## Loads return; kernels start and stop (07 R342 to R346, R366 to R370) -/

/-- What a returning load writes. -/
def Thread.deliver (th : Thread) : LoadDest → Thread
  | .scalar sd v => th.setS (BitVec.ofNat 5 sd) v
  | .vec vd l => (lanes.zip l).foldl (fun acc x => match x.2 with
      | some w => acc.setLane (BitVec.ofNat 6 vd) x.1 w
      | none => acc) th

/-- LOAD_RETURN: the data of the thread's oldest load that has every answer reaches the register (07 R339, R346; log
18). -/
def execLoadReturn (thread : Nat) (s : State) : Res :=
  match (s.thread thread).loads.find? fun l => l.waits == 0 with
  | some l => ok (s.modThread thread fun th =>
      { (th.deliver l.dest) with loads := th.loads.filter fun x => x.n != l.n })
  | none => ok s

/-- VKERNEL: the accepted kernel takes the threads and windows its admission reserved (07 R343, R367). -/
def execVkernel (job : Nat) (s : State) : Res :=
  match s.job? job with
  | some j =>
    match j.phase, j.body, j.cost with
    | .planned, .vkernel image size entry arg threads _ cores, some c =>
      if j.stopped || (s.kernel? job).isSome then ok s else
      let cs := bitList 256 cores
      ok { s with kernels := s.kernels ++
            [{ job := job, session := j.session, cores := cs, threads := threads,
               ids := j.threadIds, image := image, size := size, entry := entry,
               arg := arg, lsBytes := c.lsBytes, start := j.first, cycles := c.cycles, budget := c.traffic,
               rate := c.rate }] }
    | _, _, _ => ok s
  | none => ok s

/-- The registers of thread number `i` of `n` at its start (07 R342). -/
def startThread (k : Kernel) (t i n : Nat) : Thread :=
  let th : Thread := { st := .ready, kernel := k.job, pc := k.entry }
  ((((th.setS 1 (BitVec.ofNat 64 i)).setS 2 (BitVec.ofNat 64 n)).setS 3 (BitVec.ofNat 64 k.arg)).setS 4
    (BitVec.ofNat 64 (coreOf t))).setS 5 (BitVec.ofNat 64 k.lsBytes)

/-- The requests of the image copies, one copy for each core, when the image lies in HBM (07 R344, R346, R366). -/
def State.imageRequests (s : State) (k : Kernel) : List (KernelReq × Nat) :=
  if s.isHbm k.image then k.cores.flatMap fun _ =>
    (List.range ((k.image + k.size - 1) / 2048 - k.image / 2048 + 1)).map fun i => (.image (2048 * (k.image / 2048 + i)), 2048)
  else []

/-- What the image's blocks do to the kernel that copies it: nothing, or the status that stops it (09 R449, R453;
16 R725). -/
def State.imageStop (s : State) (k : Kernel) : Option Status :=
  let blocks := (List.range ((k.image + k.size - 1) / 64 - k.image / 64 + 1)).map fun i => (k.image / 64 + i) * 64
  if blocks.any fun a => s.onBadStack a || s.onBadCluster a then some .unitFailed
  else if blocks.any s.poisoned then some .dataUncorrectable
  else none

/-- The kernels that still stand on threads of one that starts: their last reserved frames lie before it, by whose end they complete
(07 R367, R370). -/
def State.stopBefore (s : State) (k : Kernel) : State :=
  (s.kernels.filter fun x => x.job != k.job && (x.started || x.copying) && x.ids.any k.ids.contains).foldl
    (fun s x => s.endKernel x .budgetExhausted) s

/-- A kernel's threads may start: its first frame has begun and is committed, its command's waits are met, and neither CANCEL nor a FULL
fence holds it back (10 R482; 11 R549, R551, R556). -/
def State.kernelMayStart (s : State) (k : Kernel) : Bool :=
  !k.started && !k.copying && decide (k.start ≤ s.frame.counter) && s.committedNow && (match s.job? k.job with
    | some j => !j.stopped && s.waitsMet j && !s.fullHolds j
    | none => false)

/-- Every request of the image copies has been answered. -/
def State.imageIn (s : State) (k : Kernel) : Bool :=
  !(s.reads.any fun r => r.job == k.job && r.use == .image) && k.late.isEmpty

/-- The image is copied to offset 0 of each core's window and the threads start (07 R342, R344). A kernel with a core mapped out, or
whose image cannot be read, stops as at its budget (16 R725; 09 R449, R453). -/
def State.startThreads (s : State) (k : Kernel) : State :=
  if k.cores.any fun n => s.mapped.contains (.core n) then s.stopKernel k.job .unitFailed else
  match s.imageStop k with
  | some st => s.stopKernel k.job st
  | none =>
    let image := s.bytes k.image k.size
    let s := k.cores.foldl (fun s n => s.writeLocal k.job n 0 image) s
    let s := (List.range k.ids.length).foldl (fun s i =>
      s.modThread (nth k.ids i 0) fun _ => startThread k (nth k.ids i 0) i k.ids.length) s
    s.modKernel k.job fun k => { k with started := true, copying := false }

/-- KERNEL_START: at frame S the kernel begins and its image is read, at TRAFFIC_RATE when it lies in HBM; the threads start when all
of it has come (07 R342, R344, R366, R368, R369). -/
def execKernelStart (job : Nat) (s : State) : Res :=
  match s.kernel? job with
  | some k =>
    if s.kernelMayStart k then
      let s := ((s.stopBefore k).findIn k.image k.size).modJob k.job fun j => j.execute s.frame
      if (s.imageRequests k).isEmpty then ok (s.startThreads k) else
      ok (forEach (s.imageRequests k) (fun s x => s.ask k.job x) (s.modKernel k.job fun k => { k with copying := true }))
    else if k.copying && s.imageIn k then ok ((s.findIn k.image k.size).startThreads k)
    else ok s
  | none => ok s

/-- KERNEL_BUDGET_STOP: the cycle count has reached CYCLE_BUDGET or the counted traffic TRAFFIC_BUDGET (07 R370). -/
def execKernelBudgetStop (job : Nat) (s : State) : Res :=
  match s.kernel? job with
  | some k =>
    if (k.started || k.copying) && (decide (k.cycles ≤ s.cyclesUsed k) || decide (k.budget ≤ k.traffic)) then
      ok (s.endKernel k .budgetExhausted)
    else ok s
  | none => ok s

end Sys2Proof.Machine
end

