-- ==== Sys2Proof/Machine/Vector.lean ====
section
/-! DEFINITION. The vector class of the vector cores' instructions (07 R355 to R359): arithmetic, comparisons, conversions, permutes, reductions and predicate logic. -/

namespace Sys2Proof.Machine

/-! ## What the lane-wise instructions share -/

/-- Write the active lanes of VD from a function of the lane number; inactive lanes keep their values (07 R341). -/
def Thread.mapLanes (th : Thread) (f : FV) (g : Nat → Word64 × BitVec 5) : Thread :=
  (activeLanes th f.p).foldl (fun acc i => (acc.setLane f.vd i (g i).1).raise (g i).2) th

/-- A lane from elements and the conditions they raised. -/
def packEls (ty : VTy) (l : List (Nat × BitVec 5)) : Word64 × BitVec 5 :=
  (ty.pack (l.map (·.1)), l.foldl (fun fl x => fl ||| x.2) 0)

/-- A lane-wise operation on the elements of VA, VB and VC. -/
def Thread.mapEls (th : Thread) (f : FV) (g : VTy → Nat → Nat → Nat → Nat × BitVec 5) : Thread :=
  th.mapLanes f fun i =>
    let ty := vty f.t
    packEls ty ((List.range ty.count).map fun j =>
      g ty (ty.elem (th.lane f.va i) j) (ty.elem (th.lane f.vb i) j) (ty.elem (th.lane f.vc i) j))

/-- The rounding mode of an instruction: RND of a VX, nearest ties to even of a V (07 R353). -/
def rmOf (f : FV) : Rnd := if f.x then Rnd.ofBits f.rnd else .ne

/-- An element-wise vector instruction. -/
def elOp (t : Nat) (op : BitVec 8) (f : FV) (s : State) (g : Rnd → VTy → Nat → Nat → Nat → Nat × BitVec 5) : Res :=
  regOp t ⟨op, .v f⟩ s fun th => th.mapEls f (g (rmOf f))

/-- A vector instruction on whole lanes. -/
def laneOp (t : Nat) (op : BitVec 8) (f : FV) (s : State) (g : Thread → Nat → Word64) : Res :=
  regOp t ⟨op, .v f⟩ s fun th => th.mapLanes f fun i => (g th i, 0)

/-! ## Arithmetic -/

/-- Sum of two elements. -/
def addEl (rm : Rnd) (ty : VTy) (a b : Nat) : Nat × BitVec 5 :=
  if ty.isFp then ty.finish rm (fpAdd rm (ty.fp a) (ty.fp b)) else (intEl 0x01 ty a b (ty.int a + ty.int b), 0)
/-- Difference of two elements. -/
def subEl (rm : Rnd) (ty : VTy) (a b : Nat) : Nat × BitVec 5 :=
  if ty.isFp then ty.finish rm (fpAdd rm (ty.fp a) (ty.fp b).negate)
  else (intEl 0x02 ty a b (ty.int a - ty.int b), 0)
/-- Product of two elements. -/
def mulEl (rm : Rnd) (ty : VTy) (a b : Nat) : Nat × BitVec 5 :=
  if ty.isFp then ty.finish rm (fpMul (ty.fp a) (ty.fp b)) else (intEl 0x03 ty a b (ty.int a * ty.int b), 0)

/-- The datum is a NaN. -/
def Fv.isNan : Fv → Bool
  | .nan _ => true
  | _ => false

/-- The smaller (`big = false`) or larger of two elements; the non-NaN operand when exactly one is NaN (07 R358). Of
two zeros of unlike sign the manual names neither (log 9). -/
def minMaxEl (op : Nat) (big : Bool) (ty : VTy) (a b : Nat) : Nat × BitVec 5 :=
  if ty.isFp then
    let x := ty.fp a
    let y := ty.fp b
    let fl := (nanOf [x, y]).getD 0
    if x.isNan && y.isNan then (ty.qnan, fl)
    else if x.isNan then (b, fl)
    else if y.isNan then (a, fl)
    else match fpCmp x y with
      | some .lt => (if big then b else a, 0)
      | some .gt => (if big then a else b, 0)
      | _ => (if a = b then a else freePick op ty a b a b, 0)
  else if ty.int a < ty.int b then (if big then b else a, 0)
  else (if big then a else b, 0)

/-- Magnitude of an element. -/
def absEl (ty : VTy) (a : Nat) : Nat × BitVec 5 :=
  if ty.isFp then (if (ty.fp a).isNan then ty.qnan else a % 2 ^ (ty.width - 1), 0)
  else (intEl 0x06 ty a 0 (ty.int a).natAbs, 0)
/-- An element with its sign changed. -/
def negEl (ty : VTy) (a : Nat) : Nat × BitVec 5 :=
  if ty.isFp then
    (if (ty.fp a).isNan then ty.qnan
     else if a < 2 ^ (ty.width - 1) then a + 2 ^ (ty.width - 1) else a - 2 ^ (ty.width - 1), 0)
  else (intEl 0x07 ty a 0 (-(ty.int a)), 0)

/-- VADD (07 R355, R356). -/
def execVadd (thread : Nat) (f : FV) (s : State) : Res :=
  elOp thread (vxOp 0x01 f) f s fun rm ty a b _ => addEl rm ty a b
/-- VSUB. -/
def execVsub (thread : Nat) (f : FV) (s : State) : Res :=
  elOp thread (vxOp 0x02 f) f s fun rm ty a b _ => subEl rm ty a b
/-- VMUL. -/
def execVmul (thread : Nat) (f : FV) (s : State) : Res :=
  elOp thread (vxOp 0x03 f) f s fun rm ty a b _ => mulEl rm ty a b
/-- VMIN (07 R358). -/
def execVmin (thread : Nat) (f : FV) (s : State) : Res :=
  elOp thread (vxOp 0x04 f) f s fun _ ty a b _ => minMaxEl 0x04 false ty a b
/-- VMAX (07 R358). -/
def execVmax (thread : Nat) (f : FV) (s : State) : Res :=
  elOp thread (vxOp 0x05 f) f s fun _ ty a b _ => minMaxEl 0x05 true ty a b
/-- VABS ignores VB (07 R355). -/
def execVabs (thread : Nat) (f : FV) (s : State) : Res :=
  elOp thread (vxOp 0x06 f) f s fun _ ty a _ _ => absEl ty a
/-- VNEG ignores VB (07 R355). -/
def execVneg (thread : Nat) (f : FV) (s : State) : Res :=
  elOp thread (vxOp 0x07 f) f s fun _ ty a _ _ => negEl ty a

/-- The fused multiply-adds: `±(a × b) ± c` with one rounding (07 R355, R356). -/
def fmaEl (negP negC : Bool) (rm : Rnd) (ty : VTy) (a b c : Nat) : Nat × BitVec 5 :=
  let x := if negP then (ty.fp a).negate else ty.fp a
  let z := if negC then (ty.fp c).negate else ty.fp c
  ty.finish rm (fpFma rm x (ty.fp b) z)

/-- VFMA: VA × VB + VC. -/
def execVfma (thread : Nat) (f : FV) (s : State) : Res := elOp thread 0x90 f s (fmaEl false false)
/-- VFMS: VA × VB − VC. -/
def execVfms (thread : Nat) (f : FV) (s : State) : Res := elOp thread 0x91 f s (fmaEl false true)
/-- VFNMA: −VA × VB + VC. -/
def execVfnma (thread : Nat) (f : FV) (s : State) : Res := elOp thread 0x92 f s (fmaEl true false)
/-- VFNMS: −VA × VB − VC. -/
def execVfnms (thread : Nat) (f : FV) (s : State) : Res := elOp thread 0x93 f s (fmaEl true true)
/-- VDIV: correctly rounded. -/
def execVdiv (thread : Nat) (f : FV) (s : State) : Res :=
  elOp thread 0x94 f s fun rm ty a b _ => ty.finish rm (fpDiv (ty.fp a) (ty.fp b))
/-- VSQRT: correctly rounded square root of VA. -/
def execVsqrt (thread : Nat) (f : FV) (s : State) : Res :=
  elOp thread 0x95 f s fun rm ty a _ _ => ty.finish rm (fpSqrt (ty.fp a))

/-! ## Estimates (07 R355) -/

/-- The reciprocal estimate of a datum: off by a free error below the bound (log 8); the special operands as IEEE 754
divides 1 by them. -/
def rcpEx (ty : VTy) (n : Nat) : Ex × BitVec 5 :=
  match ty.fp n with
  | .nan sg => (.nan, if sg then flInvalid else 0)
  | .inf neg => (.rat neg 0 1 0, 0)
  | .fin neg m e =>
    if m = 0 then (.inf neg, flDivZero)
    else (estimate neg 1 m (-e) (Config.estimateError false ty.code (BitVec.ofNat 64 n)), 0)

/-- The reciprocal square root estimate of a datum (log 8). -/
def rsqEx (ty : VTy) (n : Nat) : Ex × BitVec 5 :=
  match ty.fp n with
  | .nan sg => (.nan, if sg then flInvalid else 0)
  | .inf neg => if neg then (.nan, flInvalid) else (.rat false 0 1 0, 0)
  | .fin neg m e =>
    if m = 0 then (.inf neg, flDivZero)
    else if neg then (.nan, flInvalid)
    else match sqrtQ m e with
      | (r, e') => (estimate false 1 r (-e') (Config.estimateError true ty.code (BitVec.ofNat 64 n)), 0)

/-- VRCPE. -/
def execVrcpe (thread : Nat) (f : FV) (s : State) : Res :=
  elOp thread 0x0C f s fun _ ty a _ _ => ty.finish .ne (rcpEx ty a)
/-- VRSQE. -/
def execVrsqe (thread : Nat) (f : FV) (s : State) : Res :=
  elOp thread 0x0D f s fun _ ty a _ _ => ty.finish .ne (rsqEx ty a)

/-! ## Comparisons and selection -/

/-- The comparison of two elements: `lt` and `eq` say which orders count; an ordered comparison of a NaN is invalid,
an equality one only for a signalling NaN (IEEE 754). -/
def cmpEl (lt eq : Bool) (ty : VTy) (a b : Nat) : Bool × BitVec 5 :=
  if ty.isFp then
    let x := ty.fp a
    let y := ty.fp b
    match fpCmp x y with
    | none => (false, if lt then flInvalid else (nanOf [x, y]).getD 0)
    | some o => (match o with
      | .lt => lt
      | .eq => eq
      | .gt => false, 0)
  else ((lt && decide (ty.int a < ty.int b)) || (eq && decide (ty.int a = ty.int b)), 0)

/-- The comparison of a lane: one predicate bit for all its elements. Where they disagree the manual states no
result (log 9). -/
def cmpLane (op : Nat) (lt eq : Bool) (ty : VTy) (x y : Word64) : Bool × BitVec 5 :=
  let rs := (List.range ty.count).map fun j => cmpEl lt eq ty (ty.elem x j) (ty.elem y j)
  let fl := rs.foldl (fun fl r => fl ||| r.2) 0
  if rs.all (·.1) then (true, fl)
  else if rs.any (·.1) then (freePick op ty x.toNat y.toNat true false, fl)
  else (false, fl)

/-- A comparison into predicate p(VD[2:0]); the bits of inactive lanes stay (07 R341, R355). -/
def cmpOp (t : Nat) (op : BitVec 8) (f : FV) (s : State) (lt eq : Bool) : Res :=
  regOp t ⟨op, .v f⟩ s fun th =>
    let r := fun i => cmpLane op.toNat lt eq (vty f.t) (th.lane f.va i) (th.lane f.vb i)
    let old := th.preg (lowP f.vd)
    let set := lanes.filter fun i => if th.active f.p i then (r i).1 else old.getLsbD i
    let fl := (activeLanes th f.p).foldl (fun fl i => fl ||| (r i).2) 0
    (th.setP (lowP f.vd) (BitVec.ofNat 32 (ofBitList set))).raise fl

/-- VCMPEQ. -/
def execVcmpeq (thread : Nat) (f : FV) (s : State) : Res := cmpOp thread 0x08 f s false true
/-- VCMPLT. -/
def execVcmplt (thread : Nat) (f : FV) (s : State) : Res := cmpOp thread 0x09 f s true false
/-- VCMPLE. -/
def execVcmple (thread : Nat) (f : FV) (s : State) : Res := cmpOp thread 0x0A f s true true

/-- VSEL: VD = VA where p(P), else VB (07 R355). -/
def execVsel (thread : Nat) (f : FV) (s : State) : Res :=
  regOp thread ⟨0x0B, .v f⟩ s fun th =>
    lanes.foldl (fun acc i => acc.setLane f.vd i (if th.active f.p i then th.lane f.va i else th.lane f.vb i)) th

/-! ## Conversions (07 R355) -/

/-- A value `(-1)^neg × m × 2^e` as an integer of a type: rounded by the mode; out of range it is held to the range
under SAT, and otherwise the manual states no result (log 9). -/
def toIntEl (op : Nat) (dst : VTy) (rm : Rnd) (sat : Bool) (src : Nat) (neg : Bool) (m : Nat) (e : Int) :
    Nat × BitVec 5 :=
  match quantQ rm neg m 1 e 0 with
  | (q, exact) =>
    let i : Int := if neg then -(q : Int) else q
    if dst.fits i then (toBits i dst.width, if exact then 0 else flInexact)
    else if sat then (toBits (if neg then dst.minInt else dst.maxInt) dst.width, flInvalid)
    else (freeEl op dst src 0, flInvalid)

/-- One element converted from a type to another. -/
def cvtEl (op : Nat) (src dst : VTy) (rm : Rnd) (sat : Bool) (n : Nat) : Nat × BitVec 5 :=
  if src.isFp then
    match src.fp n with
    | .nan sg =>
      if dst.isFp then (dst.qnan, if sg then flInvalid else 0) else (freeEl op dst n 0, flInvalid)
    | .inf neg =>
      if dst.isFp then (if sat then dst.maxBits neg else (dst.finish rm (.inf neg, 0)).1, 0)
      else if sat then (toBits (if neg then dst.minInt else dst.maxInt) dst.width, flInvalid)
      else (freeEl op dst n 0, flInvalid)
    | .fin neg m e =>
      if dst.isFp then
        match dst.finish rm (.rat neg m 1 e, 0) with
        | (r, fl) => (if sat && fl.getLsbD 2 then dst.maxBits neg else r, fl)
      else toIntEl op dst rm sat n neg m e
  else if dst.isFp then dst.finish rm (.ofDy (Dy.ofInt (src.int n)) false, 0)
  else
    let i := src.int n
    if dst.fits i then (toBits i dst.width, 0)
    else if sat then (toBits (if i < 0 then dst.minInt else dst.maxInt) dst.width, 0)
    else (freeEl op dst n 0, 0)

/-- VCVT: element j of the source type to element j of type T; elements of the destination for which the source has
none are not stated (log 9). -/
def execVcvt (thread : Nat) (f : FV) (s : State) : Res :=
  regOp thread ⟨vxOp 0x18 f, .v f⟩ s fun th =>
    let src := vty (lowP f.vb)
    let dst := vty f.t
    th.mapLanes f fun i =>
      packEls dst ((List.range dst.count).map fun j =>
        if j < src.count then cvtEl 0x18 src dst (rmOf f) f.sat (src.elem (th.lane f.va i) j)
        else (freeEl 0x18 dst (th.lane f.va i).toNat j, 0))

/-! ## Bitwise operations and shifts -/

/-- VAND. -/
def execVand (thread : Nat) (f : FV) (s : State) : Res :=
  laneOp thread 0x20 f s fun th i => th.lane f.va i &&& th.lane f.vb i
/-- VOR. -/
def execVor (thread : Nat) (f : FV) (s : State) : Res :=
  laneOp thread 0x21 f s fun th i => th.lane f.va i ||| th.lane f.vb i
/-- VXOR. -/
def execVxor (thread : Nat) (f : FV) (s : State) : Res :=
  laneOp thread 0x22 f s fun th i => th.lane f.va i ^^^ th.lane f.vb i

/-- An element shifted left by an element; the manual states no result for a count outside 0 to width − 1 (log 9). -/
def shlEl (ty : VTy) (a b : Nat) : Nat := if b < ty.width then a * 2 ^ b % 2 ^ ty.width else freeEl 0x23 ty a b
/-- An element shifted right arithmetically by an element (07 R355; log 9). -/
def sarEl (ty : VTy) (a b : Nat) : Nat :=
  if b < ty.width then toBits (ty.int a / (2 ^ b : Nat)) ty.width else freeEl 0x24 ty a b

/-- VSHL. -/
def execVshl (thread : Nat) (f : FV) (s : State) : Res :=
  elOp thread 0x23 f s fun _ ty a b _ => (shlEl ty a b, 0)
/-- VSHR, which is arithmetic. -/
def execVshr (thread : Nat) (f : FV) (s : State) : Res :=
  elOp thread 0x24 f s fun _ ty a b _ => (sarEl ty a b, 0)

/-! ## Permutes -/

/-- VPERM: VD[i] = VA[VB[i] mod 32]. -/
def execVperm (thread : Nat) (f : FV) (s : State) : Res :=
  laneOp thread 0x30 f s fun th i => th.lane f.va ((th.lane f.vb i).toNat % 32)
/-- VBCAST: every lane = s(VA[4:0]). -/
def execVbcast (thread : Nat) (f : FV) (s : State) : Res :=
  laneOp thread 0x31 f s fun th _ => th.sreg (lowS f.va)
/-- VSLUP: lane i takes lane i − s(VB[4:0]); vacated lanes are 0. -/
def execVslup (thread : Nat) (f : FV) (s : State) : Res :=
  laneOp thread 0x32 f s fun th i =>
    let n := (th.sreg (lowS f.vb)).toNat
    if n ≤ i then th.lane f.va (i - n) else 0
/-- VSLDN: lane i takes lane i + s(VB[4:0]); vacated lanes are 0. -/
def execVsldn (thread : Nat) (f : FV) (s : State) : Res :=
  laneOp thread 0x33 f s fun th i =>
    let n := (th.sreg (lowS f.vb)).toNat
    if i + n < 32 then th.lane f.va (i + n) else 0
/-- VCOMP: active lanes of VA packed to the low lanes in order; the others 0. -/
def execVcomp (thread : Nat) (f : FV) (s : State) : Res :=
  regOp thread ⟨0x34, .v f⟩ s fun th =>
    let src := (activeLanes th f.p).map (th.lane f.va)
    lanes.foldl (fun acc i => acc.setLane f.vd i (nth src i 0)) th
/-- VIOTA: VD[i] = i. -/
def execViota (thread : Nat) (f : FV) (s : State) : Res :=
  laneOp thread 0x35 f s fun _ i => BitVec.ofNat 64 i

/-! ## Reductions (07 R359) -/

/-- One level of the pairwise tree; a position with no value passes its neighbour on. -/
def pairUp {α : Type} (g : α → α → α) : List (Option α) → List (Option α)
  | [] => []
  | [x] => [x]
  | x :: y :: rest => (match x, y with
    | some a, some b => some (g a b)
    | some a, none => some a
    | none, y => y) :: pairUp g rest

/-- The pairwise tree over 32 lanes: (0,1), (2,3) and so on, then adjacent pairs of the results. -/
def treeFold {α : Type} (g : α → α → α) (l : List (Option α)) : Option α :=
  (pairUp g (pairUp g (pairUp g (pairUp g (pairUp g l))))).head?.join

/-- Sum of two partial sums with the conditions they raised. -/
def sumPair (ty : VTy) (x y : Nat × BitVec 5) : Nat × BitVec 5 :=
  match addEl .ne ty x.1 y.1 with
  | (n, fl) => (n, fl ||| x.2 ||| y.2)

/-- The sum of a lane's elements in ascending order. -/
def laneSum (ty : VTy) (w : Word64) : Nat × BitVec 5 :=
  match ty.elems w with
  | [] => (0, 0)
  | e :: es => es.foldl (fun acc x => sumPair ty acc (x, 0)) (e, 0)

/-- A result of a type in a scalar register: the bits above a narrower type are not stated (log 9). -/
def scalarOf (op : Nat) (ty : VTy) (n : Nat) : Word64 :=
  if ty.width = 64 then BitVec.ofNat 64 n
  else BitVec.ofNat 64 (n + 2 ^ ty.width *
    ((Config.vectorValue op ty.code (BitVec.ofNat 64 n) 1).toNat / 2 ^ ty.width))

/-- An operation that produces NaN returns the canonical quiet NaN of its type (R358). -/
def VTy.canonNan (ty : VTy) (n : Nat) : Nat := if ty.isFp && (ty.fp n).isNan then ty.qnan else n

/-- VRSUM: the sum of the active lanes' elements to s(VD[4:0]); no active lane leaves a free value (log 9). -/
def execVrsum (thread : Nat) (f : FV) (s : State) : Res :=
  regOp thread ⟨0x38, .v f⟩ s fun th =>
    let ty := vty f.t
    let l := lanes.map fun i => if th.active f.p i then some (laneSum ty (th.lane f.va i)) else none
    match treeFold (sumPair ty) l with
    | some (n, fl) => (th.setS (lowS f.vd) (scalarOf 0x38 ty (ty.canonNan n))).raise fl
    | none => th.setS (lowS f.vd) (Config.vectorValue 0x38 ty.code 0 0)

/-- `a` comes before `b` in the order of a reduction to the larger (`big`) or smaller. -/
def laneBeats (big : Bool) (ty : VTy) (a b : Nat) : Bool :=
  if ty.isFp then
    match fpCmp (ty.fp a) (ty.fp b) with
    | some .gt => big
    | some .lt => !big
    | _ => false
  else if big then decide (ty.int b < ty.int a) else decide (ty.int a < ty.int b)

/-- The elements that take part in VRMAX and VRMIN with their indices: those of active lanes, NaN skipped. -/
def candidates (th : Thread) (f : FV) : List (Nat × Nat) :=
  let ty := vty f.t
  ((activeLanes th f.p).flatMap fun i =>
    (List.range ty.count).map fun j => (ty.elem (th.lane f.va i) j, ty.count * i + j)).filter
    fun x => !(ty.isFp && (ty.fp x.1).isNan)

/-- The winner: the lowest index on a tie. -/
def winner (big : Bool) (ty : VTy) : List (Nat × Nat) → Option (Nat × Nat)
  | [] => none
  | x :: xs => some (xs.foldl (fun best y => if laneBeats big ty y.1 best.1 then y else best) x)

/-- VRMAX and VRMIN: the value to s(VD[4:0]), the winning index to s(VB[4:0]); with nothing to choose from, or when
both name one register, what is left there is free (log 9). -/
def reduceOp (t : Nat) (op : BitVec 8) (f : FV) (s : State) (big : Bool) : Res :=
  regOp t ⟨op, .v f⟩ s fun th =>
    let ty := vty f.t
    let free := Config.vectorValue op.toNat ty.code (th.lane f.va 0) 0
    let th := match winner big ty (candidates th f) with
      | some (n, i) => (th.setS (lowS f.vd) (scalarOf op.toNat ty n)).setS (lowS f.vb) (BitVec.ofNat 64 i)
      | none => (th.setS (lowS f.vd) free).setS (lowS f.vb) (Config.vectorValue op.toNat ty.code 0 1)
    if lowS f.vd = lowS f.vb then th.setS (lowS f.vd) free else th

/-- VRMAX. -/
def execVrmax (thread : Nat) (f : FV) (s : State) : Res := reduceOp thread 0x39 f s true
/-- VRMIN. -/
def execVrmin (thread : Nat) (f : FV) (s : State) : Res := reduceOp thread 0x3A f s false

/-! ## Predicate logic -/

/-- A predicate operation on the registers named by bits [2:0] of VD, VA and VB. -/
def predOp (t : Nat) (op : BitVec 8) (f : FV) (s : State) (g : BitVec 32 → BitVec 32 → BitVec 32) : Res :=
  regOp t ⟨op, .v f⟩ s fun th => th.setP (lowP f.vd) (g (th.preg (lowP f.va)) (th.preg (lowP f.vb)))

/-- PAND. -/
def execPand (thread : Nat) (f : FV) (s : State) : Res := predOp thread 0x3C f s (· &&& ·)
/-- POR. -/
def execPor (thread : Nat) (f : FV) (s : State) : Res := predOp thread 0x3D f s (· ||| ·)
/-- PXOR. -/
def execPxor (thread : Nat) (f : FV) (s : State) : Res := predOp thread 0x3E f s (· ^^^ ·)
/-- PNOT. -/
def execPnot (thread : Nat) (f : FV) (s : State) : Res := predOp thread 0x3F f s fun a _ => ~~~a

end Sys2Proof.Machine
end

