-- ==== Sys2Proof/Machine/Dispatch.lean ====
section
/-! DEFINITION. The dispatch: one arm per command, each one direct call of its meaning. -/

namespace Sys2Proof.Machine

def exec (i : Instr) (s : State) : Host.Outcome State Fault Refusal :=
  match i with
  | .xfer job => Sys2Proof.Machine.execXfer job s
  | .matmul job => Sys2Proof.Machine.execMatmul job s
  | .suite job => Sys2Proof.Machine.execSuite job s
  | .reduce job => Sys2Proof.Machine.execReduce job s
  | .collect job => Sys2Proof.Machine.execCollect job s
  | .vkernel job => Sys2Proof.Machine.execVkernel job s
  | .accLoad job => Sys2Proof.Machine.execAccLoad job s
  | .accStore job => Sys2Proof.Machine.execAccStore job s
  | .scaleLoad job => Sys2Proof.Machine.execScaleLoad job s
  | .scaleRead job => Sys2Proof.Machine.execScaleRead job s
  | .fence job => Sys2Proof.Machine.execFence job s
  | .eventSignal job => Sys2Proof.Machine.execEventSignal job s
  | .waitFrame job => Sys2Proof.Machine.execWaitFrame job s
  | .calibrate job => Sys2Proof.Machine.execCalibrate job s
  | .selftest job failed => Sys2Proof.Machine.execSelftest job failed s
  | .restoreFactory job => Sys2Proof.Machine.execRestoreFactory job s
  | .query job => Sys2Proof.Machine.execQuery job s
  | .cancel job => Sys2Proof.Machine.execCancel job s
  | .descriptorTake => Sys2Proof.Machine.execDescriptorTake s
  | .frameBoundary obs => Sys2Proof.Machine.execFrameBoundary obs s
  | .boundaryMarker chips e interval => Sys2Proof.Machine.execBoundaryMarker chips e interval s
  | .numberedMarker number crc e => Sys2Proof.Machine.execNumberedMarker number crc e s
  | .markerTimeout => Sys2Proof.Machine.execMarkerTimeout s
  | .holdover1s => Sys2Proof.Machine.execHoldover1s s
  | .refclkLoss => Sys2Proof.Machine.execRefclkLoss s
  | .refclkReturn => Sys2Proof.Machine.execRefclkReturn s
  | .groupIssue job cluster vec grp slice => Sys2Proof.Machine.execGroupIssue job cluster vec grp slice s
  | .conversionArrival engine row noise => Sys2Proof.Machine.execConversionArrival engine row noise s
  | .bankLoad job engine ob rb ws patch => Sys2Proof.Machine.execBankLoad job engine ob rb ws patch s
  | .bankSwap engine => Sys2Proof.Machine.execBankSwap engine s
  | .tileDrain job engine => Sys2Proof.Machine.execTileDrain job engine s
  | .activationFetch job cluster => Sys2Proof.Machine.execActivationFetch job cluster s
  | .hbmReadReturn read ecc => Sys2Proof.Machine.execHbmReadReturn read ecc s
  | .farandoleSend job head clusters src size dst => Sys2Proof.Machine.execFarandoleSend job head clusters src size dst s
  | .farandoleHop send => Sys2Proof.Machine.execFarandoleHop send s
  | .polonaiseHop job part ob => Sys2Proof.Machine.execPolonaiseHop job part ob s
  | .stepDecision job => Sys2Proof.Machine.execStepDecision job s
  | .rerunDrain job => Sys2Proof.Machine.execRerunDrain job s
  | .suiteHandover job => Sys2Proof.Machine.execSuiteHandover job s
  | .completionWrite job => Sys2Proof.Machine.execCompletionWrite job s
  | .cancelEffect job => Sys2Proof.Machine.execCancelEffect job s
  | .cancelCompletion job => Sys2Proof.Machine.execCancelCompletion job s
  | .kernelStart job => Sys2Proof.Machine.execKernelStart job s
  | .kernelBudgetStop job => Sys2Proof.Machine.execKernelBudgetStop job s
  | .loadReturn thread => Sys2Proof.Machine.execLoadReturn thread s
  | .vadd thread f => Sys2Proof.Machine.execVadd thread f s
  | .vsub thread f => Sys2Proof.Machine.execVsub thread f s
  | .vmul thread f => Sys2Proof.Machine.execVmul thread f s
  | .vmin thread f => Sys2Proof.Machine.execVmin thread f s
  | .vmax thread f => Sys2Proof.Machine.execVmax thread f s
  | .vabs thread f => Sys2Proof.Machine.execVabs thread f s
  | .vneg thread f => Sys2Proof.Machine.execVneg thread f s
  | .vcmpeq thread f => Sys2Proof.Machine.execVcmpeq thread f s
  | .vcmplt thread f => Sys2Proof.Machine.execVcmplt thread f s
  | .vcmple thread f => Sys2Proof.Machine.execVcmple thread f s
  | .vsel thread f => Sys2Proof.Machine.execVsel thread f s
  | .vrcpe thread f => Sys2Proof.Machine.execVrcpe thread f s
  | .vrsqe thread f => Sys2Proof.Machine.execVrsqe thread f s
  | .vcvt thread f => Sys2Proof.Machine.execVcvt thread f s
  | .vand thread f => Sys2Proof.Machine.execVand thread f s
  | .vor thread f => Sys2Proof.Machine.execVor thread f s
  | .vxor thread f => Sys2Proof.Machine.execVxor thread f s
  | .vshl thread f => Sys2Proof.Machine.execVshl thread f s
  | .vshr thread f => Sys2Proof.Machine.execVshr thread f s
  | .vperm thread f => Sys2Proof.Machine.execVperm thread f s
  | .vbcast thread f => Sys2Proof.Machine.execVbcast thread f s
  | .vslup thread f => Sys2Proof.Machine.execVslup thread f s
  | .vsldn thread f => Sys2Proof.Machine.execVsldn thread f s
  | .vcomp thread f => Sys2Proof.Machine.execVcomp thread f s
  | .viota thread f => Sys2Proof.Machine.execViota thread f s
  | .vrsum thread f => Sys2Proof.Machine.execVrsum thread f s
  | .vrmax thread f => Sys2Proof.Machine.execVrmax thread f s
  | .vrmin thread f => Sys2Proof.Machine.execVrmin thread f s
  | .pand thread f => Sys2Proof.Machine.execPand thread f s
  | .por thread f => Sys2Proof.Machine.execPor thread f s
  | .pxor thread f => Sys2Proof.Machine.execPxor thread f s
  | .pnot thread f => Sys2Proof.Machine.execPnot thread f s
  | .vfma thread f => Sys2Proof.Machine.execVfma thread f s
  | .vfms thread f => Sys2Proof.Machine.execVfms thread f s
  | .vfnma thread f => Sys2Proof.Machine.execVfnma thread f s
  | .vfnms thread f => Sys2Proof.Machine.execVfnms thread f s
  | .vdiv thread f => Sys2Proof.Machine.execVdiv thread f s
  | .vsqrt thread f => Sys2Proof.Machine.execVsqrt thread f s
  | .sadd thread f => Sys2Proof.Machine.execSadd thread f s
  | .ssub thread f => Sys2Proof.Machine.execSsub thread f s
  | .smul thread f => Sys2Proof.Machine.execSmul thread f s
  | .sand thread f => Sys2Proof.Machine.execSand thread f s
  | .sor thread f => Sys2Proof.Machine.execSor thread f s
  | .sxor thread f => Sys2Proof.Machine.execSxor thread f s
  | .sshl thread f => Sys2Proof.Machine.execSshl thread f s
  | .sshr thread f => Sys2Proof.Machine.execSshr thread f s
  | .sfadd thread f => Sys2Proof.Machine.execSfadd thread f s
  | .sfmul thread f => Sys2Proof.Machine.execSfmul thread f s
  | .sfdiv thread f => Sys2Proof.Machine.execSfdiv thread f s
  | .sfcmplt thread f => Sys2Proof.Machine.execSfcmplt thread f s
  | .sli thread f => Sys2Proof.Machine.execSli thread f s
  | .slih thread f => Sys2Proof.Machine.execSlih thread f s
  | .vld thread f => Sys2Proof.Machine.execVld thread f s
  | .vst thread f => Sys2Proof.Machine.execVst thread f s
  | .vlds thread f => Sys2Proof.Machine.execVlds thread f s
  | .vsts thread f => Sys2Proof.Machine.execVsts thread f s
  | .vgath thread f => Sys2Proof.Machine.execVgath thread f s
  | .vscat thread f => Sys2Proof.Machine.execVscat thread f s
  | .sld thread f => Sys2Proof.Machine.execSld thread f s
  | .sst thread f => Sys2Proof.Machine.execSst thread f s
  | .aaddD thread f => Sys2Proof.Machine.execAaddD thread f s
  | .saaddD thread f => Sys2Proof.Machine.execSaaddD thread f s
  | .br thread f => Sys2Proof.Machine.execBr thread f s
  | .call thread f => Sys2Proof.Machine.execCall thread f s
  | .bany thread f => Sys2Proof.Machine.execBany thread f s
  | .ball thread f => Sys2Proof.Machine.execBall thread f s
  | .bnone thread f => Sys2Proof.Machine.execBnone thread f s
  | .beq thread f => Sys2Proof.Machine.execBeq thread f s
  | .bne thread f => Sys2Proof.Machine.execBne thread f s
  | .blt thread f => Sys2Proof.Machine.execBlt thread f s
  | .ret thread f => Sys2Proof.Machine.execRet thread f s
  | .endThread thread f => Sys2Proof.Machine.execEndThread thread f s
  | .barT thread f => Sys2Proof.Machine.execBarT thread f s
  | .barK thread f => Sys2Proof.Machine.execBarK thread f s
  | .mfence thread f => Sys2Proof.Machine.execMfence thread f s
  | .setprog thread f => Sys2Proof.Machine.execSetprog thread f s
  | .rdcyc thread f => Sys2Proof.Machine.execRdcyc thread f s
  | .rdbud thread f => Sys2Proof.Machine.execRdbud thread f s
  | .epost thread f => Sys2Proof.Machine.execEpost thread f s
  | .ewait thread f => Sys2Proof.Machine.execEwait thread f s
  | .evsig thread f => Sys2Proof.Machine.execEvsig thread f s
  | .evwait thread f => Sys2Proof.Machine.execEvwait thread f s
  | .rdfps thread f => Sys2Proof.Machine.execRdfps thread f s
  | .engineRemoval engine => Sys2Proof.Machine.execEngineRemoval engine s
  | .relockStart engine => Sys2Proof.Machine.execRelockStart engine s
  | .vectorCheckComplete engine readings => Sys2Proof.Machine.execVectorCheckComplete engine readings s
  | .toneCheckComplete engine readings modRowOk => Sys2Proof.Machine.execToneCheckComplete engine readings modRowOk s
  | .indexSearchComplete engine row isB => Sys2Proof.Machine.execIndexSearchComplete engine row isB s
  | .acquisitionComplete engine => Sys2Proof.Machine.execAcquisitionComplete engine s
  | .recoveryRunComplete engine codes exact => Sys2Proof.Machine.execRecoveryRunComplete engine codes exact s
  | .rateExcursion sector => Sys2Proof.Machine.execRateExcursion sector s
  | .calibSlotStart engine => Sys2Proof.Machine.execCalibSlotStart engine s
  | .calibSlotEnd engine obs => Sys2Proof.Machine.execCalibSlotEnd engine obs s
  | .unitMapOut u => Sys2Proof.Machine.execUnitMapOut u s
  | .combStable comb => Sys2Proof.Machine.execCombStable comb s
  | .combOutputDrop comb => Sys2Proof.Machine.execCombOutputDrop comb s
  | .slewUpdate chan w => Sys2Proof.Machine.execSlewUpdate chan w s
  | .monitorOutput k o => Sys2Proof.Machine.execMonitorOutput k o s
  | .monitorSelfcalComplete k offsetUp gainUp ppmUp => Sys2Proof.Machine.execMonitorSelfcalComplete k offsetUp gainUp ppmUp s
  | .lossLocatorRun hub k => Sys2Proof.Machine.execLossLocatorRun hub k s
  | .ageingRecordWrite hours => Sys2Proof.Machine.execAgeingRecordWrite hours s
  | .residWindowEnd => Sys2Proof.Machine.execResidWindowEnd s
  | .laneWindowEnd figs => Sys2Proof.Machine.execLaneWindowEnd figs s
  | .scrubRead stack granule block ecc => Sys2Proof.Machine.execScrubRead stack granule block ecc s
  | .flashSaveComplete => Sys2Proof.Machine.execFlashSaveComplete s
  | .planValidation => Sys2Proof.Machine.execPlanValidation s
  | .planActivation => Sys2Proof.Machine.execPlanActivation s
  | .laneTrainingStart lane => Sys2Proof.Machine.execLaneTrainingStart lane s
  | .laneTrained lane r => Sys2Proof.Machine.execLaneTrained lane r s
  | .lossOfLight lane => Sys2Proof.Machine.execLossOfLight lane s
  | .probePulse lane => Sys2Proof.Machine.execProbePulse lane s
  | .laneFecFailure lane => Sys2Proof.Machine.execLaneFecFailure lane s
  | .rendezvous f => Sys2Proof.Machine.execRendezvous f s
  | .collectData f => Sys2Proof.Machine.execCollectData f s
  | .polonaiseValues f => Sys2Proof.Machine.execPolonaiseValues f s
  | .acknowledgement f first last => Sys2Proof.Machine.execAcknowledgement f first last s
  | .cancelNotice f => Sys2Proof.Machine.execCancelNotice f s
  | .slotResend job => Sys2Proof.Machine.execSlotResend job s
  | .peerContractLapse job peer => Sys2Proof.Machine.execPeerContractLapse job peer s
  | .attnPress connector => Sys2Proof.Machine.execAttnPress connector s
  | .connectorQuiesce connector => Sys2Proof.Machine.execConnectorQuiesce connector s
  | .attentionCycleEnd connector => Sys2Proof.Machine.execAttentionCycleEnd connector s
  | .doorbell m sq tail => Sys2Proof.Machine.execDoorbell m sq tail s
  | .memRead m address len => Sys2Proof.Machine.execMemRead m address len s
  | .memWrite m address data => Sys2Proof.Machine.execMemWrite m address data s
  | .heartbeat m => Sys2Proof.Machine.execHeartbeat m s
  | .haResp m data crcOk => Sys2Proof.Machine.execHaResp m data crcOk s
  | .credit port req data => Sys2Proof.Machine.execCredit port req data s
  | .linkNak port => Sys2Proof.Machine.execLinkNak port s
  | .linkReplayTimeout port => Sys2Proof.Machine.execLinkReplayTimeout port s
  | .haRespTimeout tag => Sys2Proof.Machine.execHaRespTimeout tag s
  | .openSession m req => Sys2Proof.Machine.execOpenSession m req s
  | .close m => Sys2Proof.Machine.execClose m s
  | .claim m target key tableAddr => Sys2Proof.Machine.execClaim m target key tableAddr s
  | .timers m graceMs reaperS => Sys2Proof.Machine.execTimers m graceMs reaperS s
  | .attest m nonce => Sys2Proof.Machine.execAttest m nonce s
  | .stage m address size => Sys2Proof.Machine.execStage m address size s
  | .stageComplete => Sys2Proof.Machine.execStageComplete s
  | .activate m slot => Sys2Proof.Machine.execActivate m slot s
  | .confirm m => Sys2Proof.Machine.execConfirm m s
  | .heartbeatLost session => Sys2Proof.Machine.execHeartbeatLost session s
  | .graceEnd session => Sys2Proof.Machine.execGraceEnd session s
  | .reaper session => Sys2Proof.Machine.execReaper session s
  | .watchdogExpiry p pc => Sys2Proof.Machine.execWatchdogExpiry p pc s
  | .processorResumed p => Sys2Proof.Machine.execProcessorResumed p s
  | .processorSwitch p => Sys2Proof.Machine.execProcessorSwitch p s
  | .processorReady p => Sys2Proof.Machine.execProcessorReady p s
  | .updateRollback p => Sys2Proof.Machine.execUpdateRollback p s
  | .activateLatchTimeout => Sys2Proof.Machine.execActivateLatchTimeout s
  | .powerLimiter measured vec fill issue => Sys2Proof.Machine.execPowerLimiter measured vec fill issue s
  | .thermalLoop temps => Sys2Proof.Machine.execThermalLoop temps s
  | .thermalTrip die temp => Sys2Proof.Machine.execThermalTrip die temp s
  | .emergencyLatchClear => Sys2Proof.Machine.execEmergencyLatchClear s
  | .supplyDipStart rail sector mv => Sys2Proof.Machine.execSupplyDipStart rail sector mv s
  | .supplyDipEnd us => Sys2Proof.Machine.execSupplyDipEnd us s
  | .dipReferenceCheck failed => Sys2Proof.Machine.execDipReferenceCheck failed s
  | .powerFailWarning sector us => Sys2Proof.Machine.execPowerFailWarning sector us s
  | .supplyReset rail die mv => Sys2Proof.Machine.execSupplyReset rail die mv s
  | .powerOnReset => Sys2Proof.Machine.execPowerOnReset s
  | .coldReset => Sys2Proof.Machine.execColdReset s
  | .hubRelease obs => Sys2Proof.Machine.execHubRelease obs s
  | .wakeEvent railsOk => Sys2Proof.Machine.execWakeEvent railsOk s
  | .retainEntryComplete => Sys2Proof.Machine.execRetainEntryComplete s
  | .retainExitComplete obs => Sys2Proof.Machine.execRetainExitComplete s obs
  | .powerdownComplete => Sys2Proof.Machine.execPowerdownComplete s
  | .sqDoorbellWrite m q value => Sys2Proof.Machine.execSqDoorbellWrite m q value s
  | .cqHeadWrite m c value => Sys2Proof.Machine.execCqHeadWrite m c value s
  | .sqEnable m q value => Sys2Proof.Machine.execSqEnable m q value s
  | .sqDisable m q value => Sys2Proof.Machine.execSqDisable m q value s
  | .sqQfullClear m q => Sys2Proof.Machine.execSqQfullClear m q s
  | .cqEnable m c value => Sys2Proof.Machine.execCqEnable m c value s
  | .frameStepRequest m => Sys2Proof.Machine.execFrameStepRequest m s
  | .planArm m => Sys2Proof.Machine.execPlanArm m s
  | .planDisarm m => Sys2Proof.Machine.execPlanDisarm m s
  | .shadowCtrlWrite m value => Sys2Proof.Machine.execShadowCtrlWrite m value s
  | .wideSelWrite m value => Sys2Proof.Machine.execWideSelWrite m value s
  | .wideSnapshotReady session => Sys2Proof.Machine.execWideSnapshotReady session s
  | .wideData3Read m => Sys2Proof.Machine.execWideData3Read m s
  | .cfgCommit m => Sys2Proof.Machine.execCfgCommit m s
  | .cfgSuspend m => Sys2Proof.Machine.execCfgSuspend m s
  | .lockWrite src value => Sys2Proof.Machine.execLockWrite src value s
  | .assetTagWrite m value => Sys2Proof.Machine.execAssetTagWrite m value s
  | .powerCapWrite src value => Sys2Proof.Machine.execPowerCapWrite src value s
  | .powerCapCWrite src value => Sys2Proof.Machine.execPowerCapCWrite src value s
  | .tripLimitWrite src value => Sys2Proof.Machine.execTripLimitWrite src value s
  | .tripLimitCWrite src value => Sys2Proof.Machine.execTripLimitCWrite src value s
  | .laserEnableWrite src value => Sys2Proof.Machine.execLaserEnableWrite src value s
  | .laserEnableCWrite src value => Sys2Proof.Machine.execLaserEnableCWrite src value s
  | .guardPendingExpiry src => Sys2Proof.Machine.execGuardPendingExpiry src s
  | .scalePageWrite m value => Sys2Proof.Machine.execScalePageWrite m value s
  | .scalePageRefresh m => Sys2Proof.Machine.execScalePageRefresh m s
  | .scaleWindowWrite m index value => Sys2Proof.Machine.execScaleWindowWrite m index value s
  | .pwrReqRun m retainMask => Sys2Proof.Machine.execPwrReqRun m retainMask s
  | .pwrReqDoze m retainMask => Sys2Proof.Machine.execPwrReqDoze m retainMask s
  | .pwrReqRetain m retainMask => Sys2Proof.Machine.execPwrReqRetain m retainMask s
  | .pwrReqOff m retainMask => Sys2Proof.Machine.execPwrReqOff m retainMask s
  | .pwrWakeWrite src value railsOk => Sys2Proof.Machine.execPwrWakeWrite src value railsOk s
  | .resetCtrlWarm src => Sys2Proof.Machine.execResetCtrlWarm src s
  | .issueFloorWrite m value => Sys2Proof.Machine.execIssueFloorWrite m value s
  | .aliasWrite m offset bit value => Sys2Proof.Machine.execAliasWrite m offset bit value s
  | .registerWrite src offset len value => Sys2Proof.Machine.execRegisterWrite src offset len value s
  | .entdaa address => Sys2Proof.Machine.execEntdaa address s
  | .setdasa address => Sys2Proof.Machine.execSetdasa address s
  | .rstdaa => Sys2Proof.Machine.execRstdaa s
  | .enec events => Sys2Proof.Machine.execEnec events s
  | .disec events => Sys2Proof.Machine.execDisec events s
  | .getpid => Sys2Proof.Machine.execGetpid s
  | .getbcr => Sys2Proof.Machine.execGetbcr s
  | .getdcr => Sys2Proof.Machine.execGetdcr s
  | .getstatus => Sys2Proof.Machine.execGetstatus s
  | .i3cPrivateRead op01 => Sys2Proof.Machine.execI3cPrivateRead op01 s
  | .blockWrite offset data => Sys2Proof.Machine.execBlockWrite offset data s
  | .bootSlotA size => Sys2Proof.Machine.execBootSlotA size s
  | .debugHalt p => Sys2Proof.Machine.execDebugHalt p s
  | .debugStep p => Sys2Proof.Machine.execDebugStep p s
  | .debugReadWord p address => Sys2Proof.Machine.execDebugReadWord p address s
  | .debugWriteWord p address value => Sys2Proof.Machine.execDebugWriteWord p address value s
  | .staleCopyRefresh => Sys2Proof.Machine.execStaleCopyRefresh s
  | .toneOscillatorCycle currents => Sys2Proof.Machine.execToneOscillatorCycle s currents
  | .slotFrameSend lane => Sys2Proof.Machine.execSlotFrameSend lane s
  | .linkLayerAck port seq => Sys2Proof.Machine.execLinkLayerAck port seq s
  | .combStartTimeout comb => Sys2Proof.Machine.execCombStartTimeout comb s
  | .hbmStackNoAnswer stack => Sys2Proof.Machine.execHbmStackNoAnswer stack s
  | .alertWindowExpiry p => Sys2Proof.Machine.execAlertWindowExpiry p s
  | .retainRailWaitEnd => Sys2Proof.Machine.execRetainRailWaitEnd s
  | .retainRailWaitTimeout => Sys2Proof.Machine.execRetainRailWaitTimeout s
  | .restoreFactoryWriteComplete => Sys2Proof.Machine.execRestoreFactoryWriteComplete s
  | .confirmWriteComplete => Sys2Proof.Machine.execConfirmWriteComplete s

end Sys2Proof.Machine
end

