-- ==== Sys2Proof/Safety.lean ====
section
/-! DEFINITION. What a safe state and a safe run are, in the terms that statements use. -/

namespace Sys2Proof.Machine

/-- A state is safe when its next step answers a next state. -/
def Safe (s : State) : Prop := ∃ t, step s = .next t

/-- The memory of HBM and SRAM is in its canonical form, so that equal memories are equal data (09 R438; log 2). -/
def State.memOk (s : State) : Bool := Memory.wf s.mem

end Sys2Proof.Machine
end

