-- ==== Sys2Proof/Certificates/Slice0/Obligations.lean ====
section
/-! DEFINITION. The statements for the provers, each a proposition about the model, in the order of the chapters they rest on. -/

namespace Sys2Proof.Machine

/-! ## What the statements share -/

/-- The command takes effect in this state: it answers a next state, of which `P` holds. -/
def Does (i : Instr) (s : State) (P : State → Prop) : Prop := ∃ t, exec i s = .next t ∧ P t

/-- `j` is the accepted command with number `id`, of the opcode `op`, and it may do its work now (10 R479; 11 R547). -/
def State.works (s : State) (id op : Nat) (j : Job) : Prop :=
  s.job? id = some j ∧ j.hdr.opcode = op ∧ s.mayWork j = true

/-- In this state the work of command `id` has ended with the status `st`. -/
def State.ended (s : State) (id : Nat) (st : Status) : Prop := ∃ j, s.job? id = some j ∧ j.phase = .finished st

/-- The bytes of HBM and SRAM, and which blocks are poisoned, are as before. -/
def State.sameMem (s t : State) : Prop := t.mem = s.mem ∧ t.poison = s.poison

end Sys2Proof.Machine

open Sys2Proof Sys2Proof.Machine

/-! ## The queue, time and reset -/

/-- What takes a step's place in a block: with a command at the front of the queue, a step is that command's effect on the
state with the queue's rest. -/
def Obligations.StepRunsTheFrontCommand : Prop :=
  ∀ (s : State) (c : Instr) (rest : List Instr),
    step (s.withPending (c :: rest)) = exec c (s.withPending rest)


/-! ## The vector cores (07) -/

namespace Sys2Proof.Machine

/-- A command that is a lane-wise instruction `c` of thread `t` writes the active lanes of VD from `g`, keeps the inactive
lanes and every other register, ORs the conditions of the active lanes into FPSTAT, moves the program counter past the
instruction, takes what it writes from loads that are outstanding, and changes nothing outside the thread. -/
def LaneWise (t : Nat) (c : CoreInstr) (i : Instr) (f : FV) (g : Thread → Nat → Word64 × BitVec 5) : Prop :=
  ∀ (s : State) (k : Kernel), s.issuing t c = some k →
    ∃ th : Thread, exec i s = .next (s.modThread t fun _ => th) ∧
      (∀ l < 32, th.lane f.vd l =
        if (s.thread t).active f.p l then (g (s.thread t) l).1 else (s.thread t).lane f.vd l) ∧
      (∀ v l, l < 32 → v ≠ f.vd → th.lane v l = (s.thread t).lane v l) ∧
      th.fpstat = (activeLanes (s.thread t) f.p).foldl (fun fl l => fl ||| (g (s.thread t) l).2) (s.thread t).fpstat ∧
      th = { s.thread t with v := th.v, fpstat := th.fpstat, pc := (s.thread t).pc + c.len, st := .ready,
                             loads := (s.thread t).loadsAfter c }

/-- The same for an instruction that writes every lane of VD, whatever the predicate says. -/
def EveryLane (t : Nat) (c : CoreInstr) (i : Instr) (f : FV) (g : Thread → Nat → Word64) : Prop :=
  ∀ (s : State) (k : Kernel), s.issuing t c = some k →
    ∃ th : Thread, exec i s = .next (s.modThread t fun _ => th) ∧
      (∀ l < 32, th.lane f.vd l = g (s.thread t) l) ∧
      (∀ v l, l < 32 → v ≠ f.vd → th.lane v l = (s.thread t).lane v l) ∧
      th = { s.thread t with v := th.v, pc := (s.thread t).pc + c.len, st := .ready, loads := (s.thread t).loadsAfter c }

/-- An operation on elements of the type T, done on every element of the lanes of VA, VB and VC. -/
def onElements (f : FV) (op : VTy → Nat → Nat → Nat → Nat × BitVec 5) (th : Thread) (l : Nat) : Word64 × BitVec 5 :=
  packEls (vty f.t) ((List.range (vty f.t).count).map fun j =>
    op (vty f.t) ((vty f.t).elem (th.lane f.va l) j) ((vty f.t).elem (th.lane f.vb l) j)
      ((vty f.t).elem (th.lane f.vc l) j))

/-- A lane result without conditions. -/
def quiet (g : Thread → Nat → Word64) (th : Thread) (l : Nat) : Word64 × BitVec 5 := (g th l, 0)

/-- A command that is the instruction `c` of thread `t` writes `g` to predicate register `d` (p0 keeps reading as all ones)
and the conditions to FPSTAT, and nothing else but the program counter. -/
def PredicateResult (t : Nat) (c : CoreInstr) (i : Instr) (d : BitVec 3) (g : Thread → Nat → Bool) (fl : Thread → BitVec 5) :
    Prop :=
  ∀ (s : State) (k : Kernel), s.issuing t c = some k →
    ∃ th : Thread, exec i s = .next (s.modThread t fun _ => th) ∧
      (∀ l < 32, (th.preg d).getLsbD l = if d = 0 then true else g (s.thread t) l) ∧
      (∀ p, p ≠ d → th.preg p = (s.thread t).preg p) ∧
      th.fpstat = (s.thread t).fpstat ||| fl (s.thread t) ∧
      th = { s.thread t with p := th.p, fpstat := th.fpstat, pc := (s.thread t).pc + c.len, st := .ready }

/-- A command that is the instruction `c` of thread `t` writes `g` to scalar register `d` (s0 keeps reading as 0) and the
conditions to FPSTAT, and nothing else but the program counter. -/
def ScalarResult (t : Nat) (c : CoreInstr) (i : Instr) (d : BitVec 5) (g : Thread → Word64) (fl : Thread → BitVec 5) : Prop :=
  ∀ (s : State) (k : Kernel), s.issuing t c = some k →
    ∃ th : Thread, exec i s = .next (s.modThread t fun _ => th) ∧
      th.sreg d = (if d = 0 then 0 else g (s.thread t)) ∧
      (∀ n, n ≠ d → th.sreg n = (s.thread t).sreg n) ∧
      th.fpstat = (s.thread t).fpstat ||| fl (s.thread t) ∧
      th = { s.thread t with s := th.s, fpstat := th.fpstat, pc := (s.thread t).pc + c.len, st := .ready,
                             loads := (s.thread t).loadsAfter c }

/-- No condition is raised. -/
def noFlags (_ : Thread) : BitVec 5 := 0

/-- The comparison of lane `l` that a compare instruction makes. -/
def compared (op : Nat) (lt eq : Bool) (f : FV) (th : Thread) (l : Nat) : Bool × BitVec 5 :=
  cmpLane op lt eq (vty f.t) (th.lane f.va l) (th.lane f.vb l)

/-- What a compare instruction writes: the comparison in the bits of active lanes, the old bits elsewhere; and the
conditions of the active lanes. -/
def Compares (t : Nat) (op : BitVec 8) (i : Instr) (f : FV) (lt eq : Bool) : Prop :=
  PredicateResult t ⟨op, .v f⟩ i (lowP f.vd)
    (fun th l => if th.active f.p l then (compared op.toNat lt eq f th l).1 else (th.preg (lowP f.vd)).getLsbD l)
    (fun th => (activeLanes th f.p).foldl (fun fl l => fl ||| (compared op.toNat lt eq f th l).2) 0)

end Sys2Proof.Machine

/-- The lane-wise arithmetic of the vector cores: each element of each active lane of VD is the operation of the elements
of the same place of VA, VB and VC in the type T and the rounding mode of the instruction; inactive lanes keep their values,
and FPSTAT gathers the conditions. -/
def Obligations.VectorArithmeticWorksLaneByLane : Prop :=
  ∀ (t : Nat) (f : FV),
    LaneWise t ⟨vxOp 0x01 f, .v f⟩ (.vadd t f) f (onElements f fun ty a b _ => addEl (rmOf f) ty a b) ∧
    LaneWise t ⟨vxOp 0x02 f, .v f⟩ (.vsub t f) f (onElements f fun ty a b _ => subEl (rmOf f) ty a b) ∧
    LaneWise t ⟨vxOp 0x03 f, .v f⟩ (.vmul t f) f (onElements f fun ty a b _ => mulEl (rmOf f) ty a b) ∧
    LaneWise t ⟨vxOp 0x04 f, .v f⟩ (.vmin t f) f (onElements f fun ty a b _ => minMaxEl 0x04 false ty a b) ∧
    LaneWise t ⟨vxOp 0x05 f, .v f⟩ (.vmax t f) f (onElements f fun ty a b _ => minMaxEl 0x05 true ty a b) ∧
    LaneWise t ⟨vxOp 0x06 f, .v f⟩ (.vabs t f) f (onElements f fun ty a _ _ => absEl ty a) ∧
    LaneWise t ⟨vxOp 0x07 f, .v f⟩ (.vneg t f) f (onElements f fun ty a _ _ => negEl ty a) ∧
    LaneWise t ⟨0x90, .v f⟩ (.vfma t f) f (onElements f fun ty a b c => ty.finish (rmOf f) (fpFma (rmOf f) (ty.fp a) (ty.fp b) (ty.fp c))) ∧
    LaneWise t ⟨0x91, .v f⟩ (.vfms t f) f (onElements f fun ty a b c => ty.finish (rmOf f) (fpFma (rmOf f) (ty.fp a) (ty.fp b) (ty.fp c).negate)) ∧
    LaneWise t ⟨0x92, .v f⟩ (.vfnma t f) f (onElements f fun ty a b c => ty.finish (rmOf f) (fpFma (rmOf f) (ty.fp a).negate (ty.fp b) (ty.fp c))) ∧
    LaneWise t ⟨0x93, .v f⟩ (.vfnms t f) f (onElements f fun ty a b c => ty.finish (rmOf f) (fpFma (rmOf f) (ty.fp a).negate (ty.fp b) (ty.fp c).negate)) ∧
    LaneWise t ⟨0x94, .v f⟩ (.vdiv t f) f (onElements f fun ty a b _ => ty.finish (rmOf f) (fpDiv (ty.fp a) (ty.fp b))) ∧
    LaneWise t ⟨0x95, .v f⟩ (.vsqrt t f) f (onElements f fun ty a _ _ => ty.finish (rmOf f) (fpSqrt (ty.fp a))) ∧
    LaneWise t ⟨0x0C, .v f⟩ (.vrcpe t f) f (onElements f fun ty a _ _ => ty.finish .ne (rcpEx ty a)) ∧
    LaneWise t ⟨0x0D, .v f⟩ (.vrsqe t f) f (onElements f fun ty a _ _ => ty.finish .ne (rsqEx ty a)) ∧
    LaneWise t ⟨0x23, .v f⟩ (.vshl t f) f (onElements f fun ty a b _ => (shlEl ty a b, 0)) ∧
    LaneWise t ⟨0x24, .v f⟩ (.vshr t f) f (onElements f fun ty a b _ => (sarEl ty a b, 0)) ∧
    LaneWise t ⟨vxOp 0x18 f, .v f⟩ (.vcvt t f) f (fun th l => packEls (vty f.t) ((List.range (vty f.t).count).map fun j =>
      if j < (vty (lowP f.vb)).count then
        cvtEl 0x18 (vty (lowP f.vb)) (vty f.t) (rmOf f) f.sat ((vty (lowP f.vb)).elem (th.lane f.va l) j)
      else (freeEl 0x18 (vty f.t) (th.lane f.va l).toNat j, 0)))

/-- Bitwise operations, permutes and selection of whole lanes: which lane or register each active lane of VD takes; the
slides leave zeros in vacated lanes; VCOMP packs the active lanes of VA; VSEL chooses by the predicate. -/
def Obligations.VectorMovesPlaceTheLanes : Prop :=
  ∀ (t : Nat) (f : FV),
    LaneWise t ⟨0x20, .v f⟩ (.vand t f) f (quiet fun th l => th.lane f.va l &&& th.lane f.vb l) ∧
    LaneWise t ⟨0x21, .v f⟩ (.vor t f) f (quiet fun th l => th.lane f.va l ||| th.lane f.vb l) ∧
    LaneWise t ⟨0x22, .v f⟩ (.vxor t f) f (quiet fun th l => th.lane f.va l ^^^ th.lane f.vb l) ∧
    LaneWise t ⟨0x30, .v f⟩ (.vperm t f) f (quiet fun th l => th.lane f.va ((th.lane f.vb l).toNat % 32)) ∧
    LaneWise t ⟨0x31, .v f⟩ (.vbcast t f) f (quiet fun th _ => th.sreg (lowS f.va)) ∧
    LaneWise t ⟨0x32, .v f⟩ (.vslup t f) f (quiet fun th l =>
      if (th.sreg (lowS f.vb)).toNat ≤ l then th.lane f.va (l - (th.sreg (lowS f.vb)).toNat) else 0) ∧
    LaneWise t ⟨0x33, .v f⟩ (.vsldn t f) f (quiet fun th l =>
      if l + (th.sreg (lowS f.vb)).toNat < 32 then th.lane f.va (l + (th.sreg (lowS f.vb)).toNat) else 0) ∧
    LaneWise t ⟨0x35, .v f⟩ (.viota t f) f (quiet fun _ l => BitVec.ofNat 64 l) ∧
    EveryLane t ⟨0x0B, .v f⟩ (.vsel t f) f (fun th l => if th.active f.p l then th.lane f.va l else th.lane f.vb l) ∧
    EveryLane t ⟨0x34, .v f⟩ (.vcomp t f) f (fun th l => nth ((activeLanes th f.p).map (th.lane f.va)) l 0)

/-- Compares write one predicate bit for each active lane; predicate logic combines whole predicate registers; p0 keeps
reading as all ones. -/
def Obligations.ComparesAndPredicateLogic : Prop :=
  ∀ (t : Nat) (f : FV),
    Compares t 0x08 (.vcmpeq t f) f false true ∧
    Compares t 0x09 (.vcmplt t f) f true false ∧
    Compares t 0x0A (.vcmple t f) f true true ∧
    PredicateResult t ⟨0x3C, .v f⟩ (.pand t f) (lowP f.vd)
      (fun th l => (th.preg (lowP f.va)).getLsbD l && (th.preg (lowP f.vb)).getLsbD l) noFlags ∧
    PredicateResult t ⟨0x3D, .v f⟩ (.por t f) (lowP f.vd)
      (fun th l => (th.preg (lowP f.va)).getLsbD l || (th.preg (lowP f.vb)).getLsbD l) noFlags ∧
    PredicateResult t ⟨0x3E, .v f⟩ (.pxor t f) (lowP f.vd)
      (fun th l => Bool.xor ((th.preg (lowP f.va)).getLsbD l) ((th.preg (lowP f.vb)).getLsbD l)) noFlags ∧
    PredicateResult t ⟨0x3F, .v f⟩ (.pnot t f) (lowP f.vd) (fun th l => !(th.preg (lowP f.va)).getLsbD l) noFlags

/-- Reductions: VRSUM writes the sum of the active lanes in the order of the pairwise tree, VRMAX and VRMIN the winner and
its index (to two different registers); no other register changes, and the instruction completes whatever its operands are
(with no lane to choose from, or both results in one register, the values left are free: log 9). -/
def Obligations.ReductionsWriteTheirScalars : Prop :=
  ∀ (t : Nat) (f : FV) (s : State) (k : Kernel),
    (s.issuing t ⟨0x38, .v f⟩ = some k → ∀ n fl,
      treeFold (sumPair (vty f.t)) (lanes.map fun l =>
        if (s.thread t).active f.p l then some (laneSum (vty f.t) ((s.thread t).lane f.va l)) else none) = some (n, fl) →
      ∃ th : Thread, exec (.vrsum t f) s = .next (s.modThread t fun _ => th) ∧
        th.sreg (lowS f.vd) = (if lowS f.vd = 0 then 0 else scalarOf 0x38 (vty f.t) ((vty f.t).canonNan n)) ∧
        (∀ r, r ≠ lowS f.vd → th.sreg r = (s.thread t).sreg r) ∧
        th = { s.thread t with s := th.s, fpstat := (s.thread t).fpstat ||| fl, pc := (s.thread t).pc + 4, st := .ready, loads := (s.thread t).loadsAfter ⟨0x38, .v f⟩ }) ∧
    (∀ (big : Bool), s.issuing t ⟨if big then 0x39 else 0x3A, .v f⟩ = some k → ∀ n i,
      winner big (vty f.t) (candidates (s.thread t) f) = some (n, i) → lowS f.vd ≠ lowS f.vb →
      ∃ th : Thread, exec (if big then .vrmax t f else .vrmin t f) s = .next (s.modThread t fun _ => th) ∧
        th.sreg (lowS f.vd) = (if lowS f.vd = 0 then 0 else scalarOf (if big then 0x39 else 0x3A) (vty f.t) n) ∧
        th.sreg (lowS f.vb) = (if lowS f.vb = 0 then 0 else BitVec.ofNat 64 i) ∧
        (∀ r, r ≠ lowS f.vd → r ≠ lowS f.vb → th.sreg r = (s.thread t).sreg r) ∧
        th = { s.thread t with s := th.s, pc := (s.thread t).pc + 4, st := .ready,
                               loads := (s.thread t).loadsAfter ⟨if big then 0x39 else 0x3A, .v f⟩ }) ∧
    (s.issuing t ⟨0x38, .v f⟩ = some k → ∃ th : Thread, exec (.vrsum t f) s = .next (s.modThread t fun _ => th) ∧
      (∀ r, r ≠ lowS f.vd → th.sreg r = (s.thread t).sreg r) ∧
      th = { s.thread t with s := th.s, fpstat := th.fpstat, pc := (s.thread t).pc + 4, st := .ready, loads := (s.thread t).loadsAfter ⟨0x38, .v f⟩ }) ∧
    (∀ (big : Bool), s.issuing t ⟨if big then 0x39 else 0x3A, .v f⟩ = some k →
      ∃ th : Thread, exec (if big then .vrmax t f else .vrmin t f) s = .next (s.modThread t fun _ => th) ∧
        (∀ r, r ≠ lowS f.vd → r ≠ lowS f.vb → th.sreg r = (s.thread t).sreg r) ∧
        th = { s.thread t with s := th.s, pc := (s.thread t).pc + 4, st := .ready,
                               loads := (s.thread t).loadsAfter ⟨if big then 0x39 else 0x3A, .v f⟩ })

/-- An operation of the vector cores that produces NaN returns the canonical quiet NaN of its type: addition, subtraction,
multiplication, fused multiply-add, division, square root, the two estimates, VABS, VNEG, VMIN, VMAX, conversions and the
result of VRSUM (the scalar FP64 instructions and the atomic adds are the FP64 case of the first ones). VMIN and VMAX return
the non-NaN operand when exactly one operand is NaN. -/
def Obligations.NanResultsAreCanonical : Prop :=
  (VTy.qnan .f64 = 0x7FF8000000000000 ∧ VTy.qnan .f32 = 0x7FC00000 ∧ VTy.qnan .bf = 0x7FC0) ∧
  (∀ (ty : VTy) (rm : Rnd) (op a b c n : Nat) (big : Bool), ty.isFp = true → a < 2 ^ ty.width → b < 2 ^ ty.width →
    n ∈ [addEl rm ty a b, subEl rm ty a b, mulEl rm ty a b, absEl ty a, negEl ty a, minMaxEl op big ty a b,
      ty.finish rm (fpFma rm (ty.fp a) (ty.fp b) (ty.fp c)), ty.finish rm (fpFma rm (ty.fp a) (ty.fp b) (ty.fp c).negate),
      ty.finish rm (fpFma rm (ty.fp a).negate (ty.fp b) (ty.fp c)),
      ty.finish rm (fpFma rm (ty.fp a).negate (ty.fp b) (ty.fp c).negate), ty.finish rm (fpDiv (ty.fp a) (ty.fp b)),
      ty.finish rm (fpSqrt (ty.fp a)), ty.finish .ne (rcpEx ty a), ty.finish .ne (rsqEx ty a)].map (·.1) ++ [ty.canonNan a] →
    (ty.fp n).isNan = true → n = ty.qnan) ∧
  (∀ (src dst : VTy) (rm : Rnd) (sat : Bool) (a : Nat), dst.isFp = true → (dst.fp (cvtEl 0x18 src dst rm sat a).1).isNan = true →
    (cvtEl 0x18 src dst rm sat a).1 = dst.qnan) ∧
  (∀ (op : Nat) (big : Bool) (ty : VTy) (a b : Nat), ty.isFp = true →
    ((ty.fp a).isNan = true → (ty.fp b).isNan = false → (minMaxEl op big ty a b).1 = b) ∧
    ((ty.fp a).isNan = false → (ty.fp b).isNan = true → (minMaxEl op big ty a b).1 = a))

/-- Scalar instructions: s(SD) takes the operation of s(SA) and the operand s(SB) + IMM9, s0 keeps reading as 0, and no other
register changes; the free values that stand where the manual states no result (log 9) are those of `intWord`. -/
def Obligations.ScalarInstructionsWriteOneRegister : Prop :=
  ∀ (t : Nat) (f : FS) (g : FSI),
    ScalarResult t ⟨0x40, .s f⟩ (.sadd t f) f.sd
      (fun th => intWord 0x40 (th.sreg f.sa) (th.operand f) ((th.sreg f.sa).toInt + (th.operand f).toInt)) noFlags ∧
    ScalarResult t ⟨0x41, .s f⟩ (.ssub t f) f.sd
      (fun th => intWord 0x41 (th.sreg f.sa) (th.operand f) ((th.sreg f.sa).toInt - (th.operand f).toInt)) noFlags ∧
    ScalarResult t ⟨0x42, .s f⟩ (.smul t f) f.sd
      (fun th => intWord 0x42 (th.sreg f.sa) (th.operand f) ((th.sreg f.sa).toInt * (th.operand f).toInt)) noFlags ∧
    ScalarResult t ⟨0x43, .s f⟩ (.sand t f) f.sd (fun th => th.sreg f.sa &&& th.operand f) noFlags ∧
    ScalarResult t ⟨0x44, .s f⟩ (.sor t f) f.sd (fun th => th.sreg f.sa ||| th.operand f) noFlags ∧
    ScalarResult t ⟨0x45, .s f⟩ (.sxor t f) f.sd (fun th => th.sreg f.sa ^^^ th.operand f) noFlags ∧
    ScalarResult t ⟨0x46, .s f⟩ (.sshl t f) f.sd
      (fun th => if (th.operand f).toNat < 64 then th.sreg f.sa <<< (th.operand f).toNat
        else Config.vectorValue 0x46 3 (th.sreg f.sa) (th.operand f)) noFlags ∧
    ScalarResult t ⟨0x47, .s f⟩ (.sshr t f) f.sd
      (fun th => if (th.operand f).toNat < 64 then
          freePick 0x47 .i64 (th.sreg f.sa).toNat (th.operand f).toNat ((th.sreg f.sa).sshiftRight (th.operand f).toNat)
            (th.sreg f.sa >>> (th.operand f).toNat)
        else Config.vectorValue 0x47 3 (th.sreg f.sa) (th.operand f)) noFlags ∧
    ScalarResult t ⟨0x48, .s f⟩ (.sfadd t f) f.sd
      (fun th => BitVec.ofNat 64 (fp64.finish .ne (fpAdd .ne (fp64.decode (th.sreg f.sa).toNat) (fp64.decode (th.operand f).toNat))).1)
      (fun th => (fp64.finish .ne (fpAdd .ne (fp64.decode (th.sreg f.sa).toNat) (fp64.decode (th.operand f).toNat))).2) ∧
    ScalarResult t ⟨0x49, .s f⟩ (.sfmul t f) f.sd
      (fun th => BitVec.ofNat 64 (fp64.finish .ne (fpMul (fp64.decode (th.sreg f.sa).toNat) (fp64.decode (th.operand f).toNat))).1)
      (fun th => (fp64.finish .ne (fpMul (fp64.decode (th.sreg f.sa).toNat) (fp64.decode (th.operand f).toNat))).2) ∧
    ScalarResult t ⟨0x4A, .s f⟩ (.sfdiv t f) f.sd
      (fun th => BitVec.ofNat 64 (fp64.finish .ne (fpDiv (fp64.decode (th.sreg f.sa).toNat) (fp64.decode (th.operand f).toNat))).1)
      (fun th => (fp64.finish .ne (fpDiv (fp64.decode (th.sreg f.sa).toNat) (fp64.decode (th.operand f).toNat))).2) ∧
    ScalarResult t ⟨0x4B, .s f⟩ (.sfcmplt t f) f.sd
      (fun th => if fpCmp (fp64.decode (th.sreg f.sa).toNat) (fp64.decode (th.operand f).toNat) = some .lt then 1 else 0)
      (fun th => if fpCmp (fp64.decode (th.sreg f.sa).toNat) (fp64.decode (th.operand f).toNat) = none then flInvalid else 0) ∧
    ScalarResult t ⟨0xC0, .si g⟩ (.sli t g) g.sd (fun _ => g.imm.signExtend 64) noFlags ∧
    ScalarResult t ⟨0xC1, .si g⟩ (.slih t g) g.sd (fun th => g.imm ++ (th.sreg g.sd).extractLsb' 0 32) noFlags

namespace Sys2Proof.Machine

/-- The values that a load's elements bring, by lane, each at its place in the lane. -/
def State.loadValues (s : State) (k : Kernel) (t : Nat) (device : Bool) (n : Nat) (es : List Elem) : List (Nat × Nat) :=
  es.map fun e => (e.lane, match s.target k device false e.addr n with
    | .local' => 2 ^ (8 * e.sub) * ofLe (s.localBytes k.job (coreOf t) e.addr.toNat n)
    | .host => 0
    | .refused => 0
    | _ => 2 ^ (8 * e.sub) * s.word e.addr.toNat n)

/-- A load whose elements can all be accessed, and that is not throttled, makes its counted requests (a granule of HBM is one, an
element in the host aperture one), and leaves an outstanding load with the values it brings and the answers it waits for: the
thread goes on (R339), memory and the other threads are unchanged. -/
def LoadCompletes (t : Nat) (c : CoreInstr) (i : Instr) (device : Bool) (n : Nat) (es : Thread → List Elem)
    (dest : Thread → List (Nat × Nat) → LoadDest) : Prop :=
  ∀ (s : State) (k : Kernel), s.issuing t c = some k →
    k.throttled (s.trafficOf k device false n (es (s.thread t))) = false →
    (∀ e ∈ es (s.thread t), s.access k (s.target k device false e.addr n) e.addr.toNat true = .fine) →
    ∃ u, exec i s = .next (u.modThread t fun th =>
        { th with pc := th.pc + c.len, st := .ready, nextLoad := th.nextLoad + 1,
                  loads := th.loadsAfter c ++ [⟨th.nextLoad, dest th (s.loadValues k t device n (es (s.thread t))),
                    (s.loadRequests k t device n (es (s.thread t))).length⟩] }) ∧
      u = forEach (s.loadRequests k t device n (es (s.thread t))) (fun u x => u.ask k.job x) (s.findElems k device n (es (s.thread t))) ∧
      u.mem = s.mem ∧ u.poison = s.poison ∧ u.locals = s.locals ∧ u.threads = s.threads

/-- Store one element at its target in `s`. -/
def State.storesAt (s : State) (k : Kernel) (t : Nat) (device : Bool) (n : Nat) (val : Nat → Word64) (u : State) (e : Elem) : State :=
  match s.target k device true e.addr n with
  | .local' => u.writeLocal k.job (coreOf t) e.addr.toNat (e.bytes n val)
  | .host => u.haWrite k.session e.addr.toNat (e.bytes n val) (.write k.job (some t))
  | _ => u.write e.addr.toNat (e.bytes n val)

/-- The state after a store's elements, its traffic counted. -/
def State.storesAll (s : State) (k : Kernel) (t : Nat) (device : Bool) (n : Nat) (val : Nat → Word64) (whole : Bool) (es : List Elem) :
    State :=
  let u := es.foldl (s.storesAt k t device n val) (s.count k (s.trafficOf k device true n es))
  if whole then u.clearCovered k device n es else u

/-- A store whose elements can all be accessed, and that is not throttled, moves on. Within TRAFFIC_RATE it counts its traffic and stores
its elements in the order of the lanes (so that the highest active lane's value remains), and a contiguous one clears the poison of
the blocks that it covers whole (09 R450); past it, the rest of its HBM and host elements wait in the kernel (R369). Memory outside
its elements is unchanged. The spaces are cases of their own: all the elements are in HBM, or in the host aperture, or none is in
either. -/
def StoreCompletes (t : Nat) (c : CoreInstr) (i : Instr) (device : Bool) (n : Nat) (es : Thread → List Elem)
    (val : Thread → Nat → Word64) (whole : Bool := false) : Prop :=
  ∀ (s : State) (k : Kernel), s.issuing t c = some k →
    k.throttled (s.trafficOf k device true n (es (s.thread t))) = false →
    (∀ e ∈ es (s.thread t), s.access k (s.target k device true e.addr n) e.addr.toNat false = .fine) →
    ((∀ e ∈ es (s.thread t), s.target k device true e.addr n = .hbm) ∨ (∀ e ∈ es (s.thread t), s.target k device true e.addr n = .host) ∨
      (∀ e ∈ es (s.thread t), s.target k device true e.addr n ≠ .host ∧ s.target k device true e.addr n ≠ .hbm)) →
    ∃ u, exec i s = .next (u.modThread t fun th => { th with pc := th.pc + c.len, st := .ready }) ∧
      (k.late = [] → k.inFrame + s.trafficOf k device true n (es (s.thread t)) ≤ k.rate →
        u = s.storesAll k t device n (val (s.thread t)) whole (es (s.thread t))) ∧
      u.threads = s.threads ∧
      (∀ k', u.kernel? k.job = some k' → k'.late.length ≤ k.late.length + (es (s.thread t)).length ∧
        (k'.late ≠ k.late → k'.rate ≤ k'.inFrame)) ∧
      (∀ a, (∀ e ∈ es (s.thread t), s.target k device true e.addr n = .local' ∨ s.target k device true e.addr n = .host ∨
          a < e.addr.toNat ∨ e.addr.toNat + n ≤ a) → u.byte a = s.byte a)

end Sys2Proof.Machine

/-- Loads of the vector cores: VLD, VLDS, VGATH and SLD over all their targets. The data is read at issue and reaches the
register when LOAD_RETURN comes (log 18); until then no instruction that reads the register issues (R339), and the others do. A
request goes out while the kernel's traffic of the frame is below TRAFFIC_RATE, and counts; a further one waits for the next frame
(R369). -/
def Obligations.LoadsBringTheirElements : Prop :=
  ∀ (t : Nat) (f : FM),
    LoadCompletes t ⟨0xA0, .m f⟩ (.vld t f) f.sp (widthOf f.w) (fun th => contiguous th f (widthOf f.w))
      (fun _ => wholeDest f.vd) ∧
    LoadCompletes t ⟨0xA2, .m f⟩ (.vlds t f) f.sp (widthOf f.w) (fun th => strided th f)
      (fun _ => elemDest 0xA2 f.vd (widthOf f.w)) ∧
    LoadCompletes t ⟨0xA4, .m f⟩ (.vgath t f) f.sp (widthOf f.w) (fun th => indexed th f (widthOf f.w))
      (fun _ => elemDest 0xA4 f.vd (widthOf f.w)) ∧
    LoadCompletes t ⟨0xA6, .m f⟩ (.sld t f) f.sp 8 (fun th => [{ lane := 0, addr := baseAddr th f }])
      (fun _ vals => .scalar (lowS f.vd).toNat (BitVec.ofNat 64 ((vals.head?.map (·.2)).getD 0))) ∧
    (∀ (s : State) (l : LoadOut) (c : CoreInstr), l ∈ (s.thread t).loads → l.dest.meets c = true → s.issuing t c = none) ∧
    (∀ (s : State) (k : Kernel) (x : KernelReq × Nat), s.kernel? k.job = some k →
      (k.late = [] → x.2 = 0 ∨ k.inFrame < k.rate → s.ask k.job x = (s.count k x.2).perform k x.1) ∧
      (k.late ≠ [] ∨ (x.2 ≠ 0 ∧ k.rate ≤ k.inFrame) → s.ask k.job x = s.modKernel k.job fun k => { k with late := k.late ++ [x] }))

/-- Stores of the vector cores: VST, VSTS, VSCAT and SST over all their targets. -/
def Obligations.StoresWriteTheirElements : Prop :=
  ∀ (t : Nat) (f : FM),
    StoreCompletes t ⟨0xA1, .m f⟩ (.vst t f) f.sp (widthOf f.w) (fun th => contiguous th f (widthOf f.w)) (fun th => th.lane f.vd) true ∧
    StoreCompletes t ⟨0xA3, .m f⟩ (.vsts t f) f.sp (widthOf f.w) (fun th => strided th f) (fun th => th.lane f.vd) ∧
    StoreCompletes t ⟨0xA5, .m f⟩ (.vscat t f) f.sp (widthOf f.w) (fun th => indexed th f (widthOf f.w)) (fun th => th.lane f.vd) ∧
    StoreCompletes t ⟨0xA7, .m f⟩ (.sst t f) f.sp 8 (fun th => [{ lane := 0, addr := baseAddr th f }])
      (fun th _ => th.sreg (lowS f.vd))

/-- A refused access (R347): the load returns 0, the store or atomic add is discarded, the kernel continues with RANGE set,
and the count of refused accesses and the PC of the first are kept for its report. A load or store that meets a revoked page
of the host aperture stops its kernel as at the end of its budget (R348): the command ends with TRANSLATION_FAULT, the fault
offset is the kernel's progress value, and the kernel is gone. -/
def Obligations.RefusedAccessesAreDiscardedOrStop : Prop :=
  (∀ (t : Nat) (f : FM) (s : State) (k : Kernel) (i : Instr) (c : CoreInstr), s.issuing t c = some k →
    ((i = .sld t f ∧ c = ⟨0xA6, .m f⟩ ∧
        s.target k f.sp false (baseAddr (s.thread t) f) 8 = .refused) ∨
      (i = .sst t f ∧ c = ⟨0xA7, .m f⟩ ∧ s.target k f.sp true (baseAddr (s.thread t) f) 8 = .refused) ∨
      (i = .saaddD t f ∧ c = ⟨0xA9, .m f⟩ ∧
        s.target k f.sp true (baseAddr (s.thread t) f) 8 = .refused)) →
    Does i s fun u =>
      s.sameMem u ∧ u.locals = s.locals ∧
      (∀ j, s.job? k.job = some j → ∃ j', u.job? k.job = some j' ∧ j'.flags = ({ j.flags with range := true } : Flags) ∧ j'.phase = j.phase) ∧
      (∃ k', u.kernel? k.job = some k' ∧ k'.refused = k.refused + 1 ∧
        k'.refusedPc = (if k.refused = 0 then (s.thread t).pc else k.refusedPc)) ∧
      (u.thread t).pc = (s.thread t).pc + 8 ∧ (u.thread t).st = .ready ∧
      (u.thread t).loads = (s.thread t).loadsAfter c ++
        (if i = .sst t f then [] else [⟨(s.thread t).nextLoad, .scalar (lowS f.vd).toNat 0, 0⟩])) ∧
  (∀ (t : Nat) (f : FM) (s : State) (k : Kernel) (i : Instr) (j : Job),
    ((i = .sld t f ∧ s.issuing t ⟨0xA6, .m f⟩ = some k ∧
        s.target k f.sp false (baseAddr (s.thread t) f) 8 = .host ∧ s.canRead k.session (baseAddr (s.thread t) f).toNat = false ∧
        k.throttled (s.trafficOf k f.sp false 8 [{ lane := 0, addr := baseAddr (s.thread t) f }]) = false) ∨
      (i = .sst t f ∧ s.issuing t ⟨0xA7, .m f⟩ = some k ∧ s.target k f.sp true (baseAddr (s.thread t) f) 8 = .host ∧
        s.canWrite k.session (baseAddr (s.thread t) f).toNat = false ∧
        k.throttled (s.trafficOf k f.sp true 8 [{ lane := 0, addr := baseAddr (s.thread t) f }]) = false)) →
    s.job? k.job = some j → j.phase = .running →
    Does i s fun u =>
      s.sameMem u ∧ u.kernel? k.job = none ∧
      (∃ j', u.job? k.job = some j' ∧ j'.phase = .finished .translationFault ∧ j'.faultOfs = s.progressOf k) ∧
      (∀ x ∈ k.ids, (s.thread x).kernel = k.job → u.thread x = {}) ∧
      (∀ x, (x ∉ k.ids ∨ (s.thread x).kernel ≠ k.job) → u.thread x = s.thread x))

namespace Sys2Proof.Machine

/-- The FP64 sum that an atomic add leaves in the word at `a`, and the conditions that it raises. -/
def State.atomicSum (s : State) (a : Nat) (v : Word64) : Nat × BitVec 5 :=
  fp64.finish .ne (fpAdd .ne (fp64.decode (s.word a 8)) (fp64.decode v.toNat))

end Sys2Proof.Machine

/-- Atomic adds (R352): AADD.D adds, for each active lane in ascending order, lane i of VD to the FP64 word at the lane's
gather address; SAADD.D performs one such add and brings the word's previous value to s(VD[4:0]). Every word lies in cluster
SRAM and can be accessed. The conditions of the adds are ORed into FPSTAT (R357). The SRAM of cluster c is the 16 MiB from
0x1000_0000_0000 + c × 16 MiB, and bits [11:6] of the offset choose the bank, one of 64, so that lines 64 lines apart share
one (09 R438, R454). -/
def Obligations.AtomicAddsUpdateClusterSram : Prop :=
  ∀ (t : Nat) (f : FM) (s : State) (k : Kernel),
    (∀ c < 64, ∀ o < 0x1000000, s.space (0x100000000000 + c * 0x1000000 + o) = .sram c ∧
      sramBank (0x100000000000 + c * 0x1000000 + o) = o / 64 % 64 ∧
      sramBank (0x100000000000 + c * 0x1000000 + o) < 64) ∧
    (s.issuing t ⟨0xA8, .m f⟩ = some k →
      (∀ e ∈ indexed (s.thread t) f 8, (∃ c, s.target k f.sp true e.addr 8 = .sram c) ∧ s.onBadCluster e.addr.toNat = false ∧
        s.poisoned e.addr.toNat = false) →
      ∃ u, exec (.aaddD t f) s = .next (u.1.modThread t fun th =>
          { th with pc := th.pc + 8, st := .ready, fpstat := th.fpstat ||| u.2 }) ∧
        u = (indexed (s.thread t) f 8).foldl (fun u e =>
          (u.1.write e.addr.toNat (leBytes 8 (u.1.atomicSum e.addr.toNat ((s.thread t).lane f.vd e.lane)).1),
            u.2 ||| (u.1.atomicSum e.addr.toNat ((s.thread t).lane f.vd e.lane)).2)) (s, 0) ∧
        u.1.threads = s.threads ∧
        (∀ a, (∀ e ∈ indexed (s.thread t) f 8, a < e.addr.toNat ∨ e.addr.toNat + 8 ≤ a) → u.1.byte a = s.byte a)) ∧
    (s.issuing t ⟨0xA9, .m f⟩ = some k →
      (∃ c, s.target k f.sp true (baseAddr (s.thread t) f) 8 = .sram c) →
      s.onBadCluster (baseAddr (s.thread t) f).toNat = false → s.poisoned (baseAddr (s.thread t) f).toNat = false →
      exec (.saaddD t f) s = .next ((s.write (baseAddr (s.thread t) f).toNat (leBytes 8
          (s.atomicSum (baseAddr (s.thread t) f).toNat ((s.thread t).sreg (lowS f.vd))).1)).modThread t fun th =>
        { th with pc := th.pc + 8, st := .ready, nextLoad := th.nextLoad + 1,
                  fpstat := th.fpstat ||| (s.atomicSum (baseAddr (s.thread t) f).toNat ((s.thread t).sreg (lowS f.vd))).2,
                  loads := th.loadsAfter ⟨0xA9, .m f⟩ ++ [⟨th.nextLoad, .scalar (lowS f.vd).toNat
                    (BitVec.ofNat 64 (s.word (baseAddr (s.thread t) f).toNat 8)), 0⟩] }))

namespace Sys2Proof.Machine

/-- A branch instruction of thread `t`: the program counter takes the target, the branch's own address plus the offset in
words modulo 2⁶⁴, when the branch is taken, and the next instruction's address when not; only `regs` says what registers it
writes. -/
def Branches (t : Nat) (c : CoreInstr) (i : Instr) (ofs : Int) (taken : Thread → Bool) (regs : Thread → Thread) : Prop :=
  ∀ (s : State) (k : Kernel), s.issuing t c = some k →
    ∃ th : Thread, exec i s = .next (s.modThread t fun _ => th) ∧
      th.pc = (if taken (s.thread t) then ((((s.thread t).pc : Int) + 4 * ofs) % (2 ^ 64 : Nat)).toNat else (s.thread t).pc + 4) ∧
      th = { regs (s.thread t) with pc := th.pc, st := .ready }

end Sys2Proof.Machine

/-- Branches: BR and CALL always, CALL with its return address in s31; BANY, BALL and BNONE on the bits of p(P); BEQ, BNE
and BLT on two scalar registers, signed; RET to s31. -/
def Obligations.BranchesSetTheProgramCounter : Prop :=
  ∀ (t : Nat) (f : FB) (g : FBC) (e : FS),
    Branches t ⟨0x60, .b f⟩ (.br t f) f.ofs.toInt (fun _ => true) id ∧
    Branches t ⟨0x67, .b f⟩ (.call t f) f.ofs.toInt (fun _ => true) 
      (fun th => { th.setS 31 (BitVec.ofNat 64 (th.pc + 4)) with loads := th.loadsAfter ⟨0x67, .b f⟩ }) ∧
    Branches t ⟨0x61, .b f⟩ (.bany t f) f.ofs.toInt (fun th => (List.range 32).any fun l => (th.preg f.p).getLsbD l) id ∧
    Branches t ⟨0x62, .b f⟩ (.ball t f) f.ofs.toInt (fun th => (List.range 32).all fun l => (th.preg f.p).getLsbD l) id ∧
    Branches t ⟨0x63, .b f⟩ (.bnone t f) f.ofs.toInt (fun th => (List.range 32).all fun l => !(th.preg f.p).getLsbD l) id ∧
    Branches t ⟨0x64, .bc g⟩ (.beq t g) g.ofs.toInt (fun th => decide (th.sreg g.sa = th.sreg g.sb)) id ∧
    Branches t ⟨0x65, .bc g⟩ (.bne t g) g.ofs.toInt (fun th => decide (th.sreg g.sa ≠ th.sreg g.sb)) id ∧
    Branches t ⟨0x66, .bc g⟩ (.blt t g) g.ofs.toInt (fun th => decide ((th.sreg g.sa).toInt < (th.sreg g.sb).toInt)) id ∧
    (∀ (s : State) (k : Kernel), s.issuing t ⟨0x68, .e e⟩ = some k →
      exec (.ret t e) s = .next (s.modThread t fun th => { th with pc := (th.sreg 31).toNat, st := .ready }))

/-- Barriers, the end of a thread, progress and budgets. BAR.T and BAR.K hold a thread until every live thread of the core,
or of the kernel, has come, and then release them all; they and MFENCE wait until the thread's earlier accesses are complete (R350); END ends a thread and, as the last, completes the kernel with DONE. -/
def Obligations.BarriersEndsAndBudgets : Prop :=
  ∀ (t : Nat) (f : FS) (s : State) (k : Kernel), t ∈ k.ids →
    (s.issuing t ⟨0x70, .e f⟩ = some k → coreOf t ∈ k.cores → s.accessesDone k t = true →
      Does (.barT t f) s fun u => (u.thread t).pc = (s.thread t).pc + 4 ∧ u = { s with threads := u.threads } ∧
        ((∀ x ∈ k.ids, x ≠ t → coreOf x = coreOf t → (s.thread x).st = .ended ∨ (s.thread x).st = .barT) →
          (u.thread t).st = .ready ∧
          ∀ x ∈ k.ids, coreOf x = coreOf t → (s.thread x).st = .barT → (u.thread x).st = .ready) ∧
        ((∃ x ∈ k.ids, x ≠ t ∧ coreOf x = coreOf t ∧ (s.thread x).st ≠ .ended ∧ (s.thread x).st ≠ .barT) →
          (u.thread t).st = .barT)) ∧
    (s.issuing t ⟨0x71, .e f⟩ = some k → s.accessesDone k t = true →
      Does (.barK t f) s fun u => (u.thread t).pc = (s.thread t).pc + 4 ∧ u = { s with threads := u.threads } ∧
        ((∀ x ∈ k.ids, x ≠ t → (s.thread x).st = .ended ∨ (s.thread x).st = .barK) →
          (u.thread t).st = .ready ∧ ∀ x ∈ k.ids, (s.thread x).st = .barK → (u.thread x).st = .ready) ∧
        ((∃ x ∈ k.ids, x ≠ t ∧ (s.thread x).st ≠ .ended ∧ (s.thread x).st ≠ .barK) →
          (u.thread t).st = .barK)) ∧
    (∀ i op, (i, op) ∈ ([(.barT t f, 0x70), (.barK t f, 0x71), (.mfence t f, 0x72)] : List (Instr × BitVec 8)) → s.issuing t ⟨op, .e f⟩ = some k →
      (s.thread t).loads ≠ [] ∨ (∃ r ∈ s.ha, r.use = .write k.job (some t)) → exec i s = .next (s.modThread t fun th => { th with st := .waiting })) ∧
    (s.issuing t ⟨0x72, .e f⟩ = some k → s.accessesDone k t = true →
      exec (.mfence t f) s = .next (s.modThread t fun th => { th with pc := th.pc + 4, st := .ready })) ∧
    (s.issuing t ⟨0x69, .e f⟩ = some k →
      ((∃ x ∈ k.ids, x ≠ t ∧ (s.thread x).st ≠ .ended) →
        Does (.endThread t f) s fun u => (u.thread t).st = .ended ∧ u = { s with threads := u.threads }) ∧
      (∀ j, (∀ x ∈ k.ids, x ≠ t → (s.thread x).st = .ended) → s.job? k.job = some j → j.phase = .running →
        Does (.endThread t f) s fun u => u.ended k.job .done ∧ u.kernel? k.job = none ∧ (k.late = [] → s.sameMem u) ∧
          ∀ x ∈ k.ids, (s.thread x).kernel = k.job → u.thread x = {})) ∧
    (s.issuing t ⟨0x73, .e f⟩ = some k →
      exec (.setprog t f) s = .next (s.modThread t fun th =>
        { th with progress := some ((th.sreg f.sa).toNat % 2 ^ 32), pc := th.pc + 4, st := .ready })) ∧
    (s.issuing t ⟨0x74, .e f⟩ = some k →
      exec (.rdcyc t f) s = .next (s.modThread t fun th =>
        { th.setS f.sd (BitVec.ofNat 64 ((s.frame.counter - k.start) * 16384 + s.frame.symbol * 4 / 25)) with
          pc := th.pc + 4, st := .ready, loads := th.loadsAfter ⟨0x74, .e f⟩ })) ∧
    (s.issuing t ⟨0x75, .e f⟩ = some k →
      exec (.rdbud t f) s = .next (s.modThread t fun th =>
        { th.setS f.sd (BitVec.ofNat 64 (k.budget - k.traffic)) with
          pc := th.pc + 4, st := .ready, loads := th.loadsAfter ⟨0x75, .e f⟩ })) ∧
    (s.issuing t ⟨0x7B, .e f⟩ = some k →
      exec (.rdfps t f) s = .next (s.modThread t fun th =>
        { th.setS f.sd (th.fpstat.setWidth 64) with
          fpstat := if f.imm.getLsbD 0 then 0 else th.fpstat, pc := th.pc + 4, st := .ready,
          loads := th.loadsAfter ⟨0x7B, .e f⟩ }))

/-- Engine work and events of a kernel (R360 to R364). -/
def Obligations.KernelsPostAndSignal : Prop :=
  ∀ (t : Nat) (f : FS) (s : State) (k : Kernel),
    (s.issuing t ⟨0x76, .e f⟩ = some k → k.handles.length < 16 →
      Does (.epost t f) s fun u =>
        (∃ d, u.posted = s.posted ++ [⟨k.session, ((s.thread t).sreg f.sb).toNat % 64, k.nextHandle, t, k.job, d⟩] ∧
          ((s.isSram ((s.thread t).sreg f.sa).toNat && s.isSram (((s.thread t).sreg f.sa).toNat + 127) &&
              !s.onBadCluster ((s.thread t).sreg f.sa).toNat &&
              !(s.poisoned ((s.thread t).sreg f.sa).toNat || s.poisoned (((s.thread t).sreg f.sa).toNat + 64) ||
                s.poisoned (((s.thread t).sreg f.sa).toNat + 127))) = true →
            d = s.bytes ((s.thread t).sreg f.sa).toNat 128)) ∧
        (u.thread t).sreg f.sd = (if f.sd = 0 then 0 else BitVec.ofNat 64 k.nextHandle) ∧
        (∃ k', u.kernel? k.job = some k' ∧ k'.handles.length = k.handles.length + 1) ∧
        u = { s with posted := u.posted, kernels := u.kernels, threads := u.threads }) ∧
    (s.issuing t ⟨0x76, .e f⟩ = some k → 16 ≤ k.handles.length →
      exec (.epost t f) s = .next (s.modThread t fun th => { th with st := .waiting })) ∧
    (s.issuing t ⟨0x77, .e f⟩ = some k →
      (∀ r, ewaitResult k ((s.thread t).sreg f.sa) (f.imm.getLsbD 0) = some r →
        Does (.ewait t f) s fun u =>
          (u.thread t).sreg f.sd = (if f.sd = 0 then 0 else r) ∧ (u.thread t).pc = (s.thread t).pc + 4 ∧
          (∃ k', u.kernel? k.job = some k' ∧ k'.handles = if f.imm.getLsbD 0 then
            k.handles.filter fun x => x.handle != ((s.thread t).sreg f.sa).toNat else k.handles) ∧
          u = { s with kernels := u.kernels, threads := u.threads }) ∧
      (ewaitResult k ((s.thread t).sreg f.sa) (f.imm.getLsbD 0) = none → f.imm.getLsbD 1 = true →
        Does (.ewait t f) s fun u =>
          ((u.thread t).sreg f.sd).toNat % 256 = (if f.sd = 0 then 0 else 0xFF) ∧ (u.thread t).pc = (s.thread t).pc + 4 ∧
          u = { s with threads := u.threads }) ∧
      (ewaitResult k ((s.thread t).sreg f.sa) (f.imm.getLsbD 0) = none → f.imm.getLsbD 1 = false →
        exec (.ewait t f) s = .next (s.modThread t fun th => { th with st := .waiting }))) ∧
    (s.issuing t ⟨0x78, .e f⟩ = some k →
      Does (.evsig t f) s fun u =>
        u.counter (((s.thread t).sreg f.sa).toNat % 4096) =
          Nat.min 0xFFFFFFFF (s.counter (((s.thread t).sreg f.sa).toNat % 4096) + ((s.thread t).sreg f.sb).toNat) ∧
        (∀ c, c ≠ ((s.thread t).sreg f.sa).toNat % 4096 → u.counter c = s.counter c) ∧
        u = { s with counters := u.counters, threads := u.threads } ∧
        u.thread t = { s.thread t with pc := (s.thread t).pc + 4, st := .ready }) ∧
    (s.issuing t ⟨0x79, .e f⟩ = some k →
      (((s.thread t).sreg f.sb).toNat ≤ s.counter (((s.thread t).sreg f.sa).toNat % 4096) →
        exec (.evwait t f) s = .next (s.modThread t fun th => { th with pc := th.pc + 4, st := .ready })) ∧
      (s.counter (((s.thread t).sreg f.sa).toNat % 4096) < ((s.thread t).sreg f.sb).toNat →
        exec (.evwait t f) s = .next (s.modThread t fun th => { th with st := .waiting })))

/-- Kernels: VKERNEL takes the cores, threads and budgets of its admission; KERNEL_START reads the image, at TRAFFIC_RATE when it lies in
HBM, copies it to offset 0 of each window and starts the threads with the registers of R342, and a kernel that still stands on one of those threads has ended
BUDGET_EXHAUSTED; LOAD_RETURN delivers the oldest load that has its data; KERNEL_BUDGET_STOP stops a kernel at either budget
with BUDGET_EXHAUSTED and its smallest progress value. -/
def Obligations.KernelsStartReturnAndStop : Prop :=
  (∀ (s : State) (id : Nat) (j : Job) (c : Cost) (image size entry arg threads cores : Nat) (excl : Bool),
    s.job? id = some j → j.phase = .planned → j.body = .vkernel image size entry arg threads excl cores →
    j.cost = some c → s.kernel? id = none → j.stopped = false →
    Does (.vkernel id) s fun t => t = { s with kernels := t.kernels } ∧
      ∃ k, t.kernels = s.kernels ++ [k] ∧ k.job = id ∧ k.session = j.session ∧ k.cores = bitList 256 cores ∧
        k.threads = threads ∧ k.ids = j.threadIds ∧ k.image = image ∧ k.size = size ∧ k.entry = entry ∧ k.arg = arg ∧ k.start = j.first ∧
        k.lsBytes = c.lsBytes ∧ k.cycles = c.cycles ∧ k.budget = c.traffic ∧ k.rate = c.rate ∧ k.started = false) ∧
  (∀ (s : State) (k : Kernel), s.kernel? k.job = some k →
    ((s.kernelMayStart k = true ∧ s.isHbm k.image = false) ∨ (k.started = false ∧ k.copying = true ∧ s.imageIn k = true)) →
    (∀ n ∈ k.cores, s.mapped.contains (.core n) = false) → s.imageStop k = none → k.ids.Nodup → k.cores.Nodup →
    (∀ n ∈ k.cores, n < 256) → k.size ≤ 65536 →
    (∀ x ∈ s.kernels, x.job = k.job ∨ (x.started = false ∧ x.copying = false) ∨ ∀ i ∈ x.ids, i ∉ k.ids) →
    Does (.kernelStart k.job) s fun t =>
      (∀ n ∈ k.cores, ∀ a < k.size, t.localByte k.job n a = s.anyByte (k.image + a)) ∧
      (∀ i < k.ids.length, t.thread (nth k.ids i 0) = startThread k (nth k.ids i 0) i k.ids.length) ∧
      (∃ k', t.kernel? k.job = some k' ∧ k'.started = true ∧ k'.copying = false ∧ k'.traffic = k.traffic) ∧
      (∀ x, x ∉ k.ids → t.thread x = s.thread x) ∧ s.sameMem t) ∧
  (∀ (s : State) (k : Kernel), s.kernel? k.job = some k → s.kernelMayStart k = true → s.isHbm k.image = true → k.cores ≠ [] →
    s.imageStop k = none → k.late = [] →
    (∀ x ∈ s.kernels, x.job = k.job ∨ (x.started = false ∧ x.copying = false) ∨ ∀ i ∈ x.ids, i ∉ k.ids) →
    Does (.kernelStart k.job) s fun t => t.threads = s.threads ∧ t.locals = s.locals ∧ s.sameMem t ∧
      (∃ k', t.kernel? k.job = some k' ∧ k'.started = false ∧ k'.copying = true ∧
        t.reads.length + k'.late.length = s.reads.length + k.late.length + (s.imageRequests k).length ∧
        k'.traffic = k.traffic + 2048 * (t.reads.length - s.reads.length) ∧ (k'.late = [] ∨ k'.rate ≤ k'.inFrame))) ∧
  (∀ (s : State) (k k' : Kernel) (j : Job) (i : Nat), s.kernel? k.job = some k → s.kernelMayStart k = true →
    (∀ x ∈ s.kernels, x.job = k'.job → x = k') → k' ∈ s.kernels → k'.job ≠ k.job → k'.started = true → i ∈ k'.ids → i ∈ k.ids →
    s.job? k'.job = some j → j.phase = .running →
    Does (.kernelStart k.job) s fun t => t.ended k'.job .budgetExhausted ∧ t.kernel? k'.job = none) ∧
  (∀ (k : Kernel) (x i n : Nat),
    (startThread k x i n).pc = k.entry ∧ (startThread k x i n).st = .ready ∧
    (startThread k x i n).sreg 1 = BitVec.ofNat 64 i ∧ (startThread k x i n).sreg 2 = BitVec.ofNat 64 n ∧
    (startThread k x i n).sreg 3 = BitVec.ofNat 64 k.arg ∧ (startThread k x i n).sreg 4 = BitVec.ofNat 64 (x / 8) ∧
    (startThread k x i n).sreg 5 = BitVec.ofNat 64 k.lsBytes ∧
    (∀ r, r = 0 ∨ 6 ≤ r.toNat → (startThread k x i n).sreg r = 0) ∧
    (∀ v l, (startThread k x i n).lane v l = 0) ∧ (∀ p, p ≠ 0 → (startThread k x i n).preg p = 0) ∧
    (startThread k x i n).fpstat = 0) ∧
  (∀ (s : State) (t : Nat) (l : LoadOut), ((s.thread t).loads.find? fun x => x.waits == 0) = some l →
    exec (.loadReturn t) s = .next (s.modThread t fun th =>
      { th.deliver l.dest with loads := th.loads.filter fun x => x.n != l.n })) ∧
  (∀ (s : State) (k : Kernel) (j : Job), s.kernel? k.job = some k → k.started = true ∨ k.copying = true →
    (k.cycles ≤ s.cyclesUsed k ∨ k.budget ≤ k.traffic) → s.job? k.job = some j → j.phase = .running →
    Does (.kernelBudgetStop k.job) s fun t =>
      (∃ j', t.job? k.job = some j' ∧ j'.phase = .finished .budgetExhausted ∧ j'.faultOfs = s.progressOf k) ∧
      t.kernel? k.job = none ∧ (∀ x ∈ k.ids, (s.thread x).kernel = k.job → t.thread x = {}) ∧
      (∀ x, (x ∉ k.ids ∨ (s.thread x).kernel ≠ k.job) → t.thread x = s.thread x) ∧ (k.late = [] → s.sameMem t) ∧ t.posted = s.posted)

/-! ## Commands (08, 04, 03, 11) -/

namespace Sys2Proof.Machine

/-- Memory with the elements of a destination written, each to every cluster of a multicast (08 R403, R406). -/
def writeEach (m : Sparse Byte) (d : TDesc) (l : List (Nat × List Byte)) : Sparse Byte :=
  l.foldl (fun m x => (copiesOf d (d.addr x.1)).foldl (fun m a => writeMem m a x.2) m) m

/-- Every element of a destination, and every copy of it, falls on HBM or SRAM in service. -/
def State.storable (s : State) (d : TDesc) (l : List (Nat × List Byte)) : Prop :=
  ∀ x ∈ l, x.2 ≠ [] ∧ ∀ a ∈ d.addr x.1 :: copiesOf d (d.addr x.1), ∀ y, a ≤ y → y < a + x.2.length →
    (s.isHbm y || s.isSram y) = true ∧ s.onBadStack y = false

/-- The command can use these elements of a source now: `got` gives the bytes of each, which stand in cluster SRAM or scale
memory, or have come from HBM or the host aperture. -/
def State.holds (s : State) (j : Job) (d : TDesc) (n : Nat) (is : List Nat) (got : Nat → List Byte) : Prop :=
  ∀ i ∈ is, s.readFor j (d.addr i) n = .bytes (got i)

/-- The elements of the segment that an XFER executes next (08 R380; log 120). -/
def Job.segmentOf (j : Job) (src : TDesc) : List Nat :=
  (src.covered.drop j.progress).take (j.segmentSize src.covered.length)

end Sys2Proof.Machine

/-- XFER runs by segments, one for each entry of its Leader (R380): it copies each source element of the segment to the
destination element of the same index, without conversion, and completes with the last one; nothing else of the state changes
but its job and the Leader's queue. XFER stops at an element that it may not deliver (R431): with the segment's first source
element unreadable, the command ends with the status of the cause, its fault offset names that element and its report the
page where it lies in the host aperture; which elements past it have been delivered is free (log 30). -/
def Obligations.TransfersCopyAndStop : Prop :=
  (∀ (s : State) (id : Nat) (j : Job) (src dst : TDesc) (e : SeqEntry) (got : Nat → List Byte),
    s.works id 0x01 j → j.body = .xfer src dst → s.segment? j (s.xferLeader src dst) = some e →
    s.holds j src (src.size 0) (j.segmentOf src) got →
    s.storable dst ((j.segmentOf src).map fun i => (i, got i)) →
    Does (.xfer id) s fun t =>
      t.mem = writeEach s.mem dst ((j.segmentOf src).map fun i => (i, got i)) ∧
      (∃ j', t.job? id = some j' ∧ j'.progress = j.progress + (j.segmentOf src).length ∧
        j'.phase = if src.covered.length ≤ j.progress + (j.segmentOf src).length then .finished .done else .running) ∧
      (∀ c, t.cluster c = if c = s.xferLeader src dst then { s.cluster c with leader := (s.cluster c).leader.erase e }
        else s.cluster c) ∧
      t = { s with mem := t.mem, poison := t.poison, latent := t.latent, jobs := t.jobs, clusters := t.clusters }) ∧
  (∀ (s : State) (id : Nat) (j : Job) (src dst : TDesc) (e : SeqEntry) (i : Nat) (st : Status) (page : Nat),
    s.works id 0x01 j → j.body = .xfer src dst → s.segment? j (s.xferLeader src dst) = some e →
    (j.segmentOf src).head? = some i → s.readFor j (src.addr i) (src.size 0) = .stop st page →
    Does (.xfer id) s fun t => ∃ j', t.job? id = some j' ∧ j'.phase = .finished st ∧ j'.faultOfs = i ∧
      j'.report = j.report ++ [faultLocus 0 0 0 (if st = .translationFault then page else 0)])

/-- ACC_STORE exports the records of its range to the destination in their form and completes; RANGE is set when a record
left the finite range or a tile carries its sticky bit. ACC_LOAD opens the tile of each named engine in the named format and
imports the records. An exact record is lossless: what ACC_STORE writes of a 320-bit value in the exact form is that value
again when ACC_LOAD imports it, and no RANGE is raised; the accumulator's five slots hold it as written. -/
def Obligations.AccumulatorRecordsAreStoredAndLoaded : Prop :=
  (∀ (s : State) (id : Nat) (j : Job) (d : TDesc) (base vecB f engines : Nat) (exact pair : Bool) (b : Int) (form : RecForm),
    j.body = .acc d base vecB f exact pair b engines → RecForm.ofCode f = some form →
    (∀ k ∈ d.covered, s.fileLost (s.recordAt engines vecB pair k).1 = false) →
    (s.works id 0x08 j → (∀ k ∈ d.covered, s.recordBad base exact (s.recordAt engines vecB pair k) = false) → s.storable d (s.exportAll form engines base vecB exact pair b d.covered).2.1 →
      Does (.accStore id) s fun t => t.ended id .done ∧
        t.mem = writeEach s.mem d (s.exportAll form engines base vecB exact pair b d.covered).2.1 ∧
        t.acc = s.acc ∧ t.tiles = s.tiles ∧
        (∀ j', t.job? id = some j' → j'.flags.range = (j.flags.range || (s.exportAll form engines base vecB exact pair b d.covered).2.2 ||
          (bitList 256 engines).any fun e => s.tiles.any fun x => x.engine == e && x.base == base && x.range))) ∧
    (∀ got, s.works id 0x07 j → s.holds j d form.size d.covered got →
      Does (.accLoad id) s fun t => t.ended id .done ∧ s.sameMem t ∧
        (∀ e ∈ bitList 256 engines, { engine := e, base := base, slots := vecB * (if exact then 5 else 1), exact := exact, b := b, range := false } ∈ t.tiles) ∧
        t.acc = (s.importAll form engines base vecB exact pair b (d.covered.map fun k => (k, got k))).1.acc)) ∧
  ((∀ v : Int, -(2 ^ 319) ≤ v → v < 2 ^ 319 →
    importExact (importRecord .exact (leBytes 40 (toBits v 320))) = (v, false)) ∧
  (∀ (s : State) (e row slot : Nat) (v : Int), -(2 ^ 319) ≤ v → v < 2 ^ 319 →
    (s.setExact e row slot v).exactAt e row slot = v) ∧
  (∀ (s : State) (e row slot : Nat) (v : Int), (s.setExact e row slot v).exactAt e row slot = sext (toBits v 320) 320))

/-- SCALE_LOAD into scale entries: each entry of the image whose FP32 scale is positive, normal and finite, or whose scale
field is not selected, replaces the fields that WMASK selects in every named cluster; the others are left, counted, and set
RANGE. SCALE_LOAD into a slot: a codebook whose entries rise strictly, and an activation table that keeps R236, replace the
slot in every named cluster; any other leaves the slots, sets RANGE and reports the first offending index. SCALE_READ writes
the entries' 64 B images to memory and, with CLEAR, clears the counters of each entry it read and no other field. -/
def Obligations.ScaleEntriesAndSlotsLoadAndRead : Prop :=
  ((∀ (s : State) (id : Nat) (j : Job) (slot first count wmask clusters : Nat) (d : TDesc) (got : Nat → List Byte),
    s.works id 0x09 j → j.body = .scaleLoad 0 slot first count wmask d clusters → s.holds j d (d.size 0) d.covered got →
    (∀ i ∈ d.covered, first + i < 4096) →
    Does (.scaleLoad id) s fun t => t.ended id .done ∧ t.mem = s.mem ∧ (wmask % 128 ≠ 127 → t.poison = s.poison) ∧
      (∀ b ∈ s.poison, b ∉ t.poison → ∃ n ∈ bitList 64 clusters, ∃ i ∈ d.covered, 64 * b = scaleAddr n (first + i)) ∧
      (∀ n ∈ bitList 64 clusters, ∀ i ∈ d.covered, t.scale n (first + i) =
        if bit wmask 0 = false ∨ scaleValid (bits (ofLe (got i)) 0 32) = true then
          BitVec.ofNat 512 (mergeEntry (s.scale n (first + i)).toNat (ofLe (got i)) wmask)
        else s.scale n (first + i)) ∧
      (∀ n e, e < 4096 → (n ∉ bitList 64 clusters ∨ ∀ i ∈ d.covered, e ≠ first + i) → t.scale n e = s.scale n e) ∧
      (∀ j', t.job? id = some j' → j'.flags.range = (j.flags.range || d.covered.any fun i =>
        bit wmask 0 && !scaleValid (bits (ofLe (got i)) 0 32)))) ∧
  (∀ (s : State) (id : Nat) (j : Job) (target slot first count wmask clusters : Nat) (d : TDesc) (got : Nat → List Byte),
    s.works id 0x09 j → j.body = .scaleLoad target slot first count wmask d clusters → s.holds j d (d.size 0) d.covered got →
    target = 1 ∨ target = 2 →
    Does (.scaleLoad id) s fun t => t.ended id .done ∧ s.sameMem t ∧ t.scales = s.scales ∧
      (target = 1 → firstNotRising 0 (d.covered.map fun i => sext (ofLe (got i)) 16) = none →
        ∀ n ∈ bitList 64 clusters, (slot, d.covered.map fun i => sext (ofLe (got i)) 16) ∈ (t.cluster n).codebooks ∧
          (t.cluster n).tables = (s.cluster n).tables) ∧
      (target = 2 → firstBadTable 0 (d.covered.map fun i => parseActEntry (got i)) = none →
        ∀ n ∈ bitList 64 clusters,
          (slot, d.covered.map fun i => parseActEntry (got i)) ∈ (t.cluster n).tables ∧
          (t.cluster n).codebooks = (s.cluster n).codebooks) ∧
      (∀ x, (target = 1 ∧ firstNotRising 0 (d.covered.map fun i => sext (ofLe (got i)) 16) = some x) ∨
          (target = 2 ∧ firstBadTable 0 (d.covered.map fun i => parseActEntry (got i)) = some x) →
        t.clusters = s.clusters ∧ ∃ j', t.job? id = some j' ∧ j'.flags.range = true ∧
          j'.report = j.report ++ [offendingSection x slot]))) ∧
  (∀ (s : State) (id : Nat) (j : Job) (first count clusters : Nat) (clear : Bool) (d : TDesc),
    s.works id 0x0A j → j.body = .scaleRead first count clear d clusters →
    (∀ k ∈ d.covered, s.clusterOut (nth (bitList 64 clusters) (k / count) 0) = false ∧
      s.poisoned (scaleAddr (nth (bitList 64 clusters) (k / count) 0) (first + k % count)) = false) →
    s.storable d (d.covered.map fun k =>
      (k, leBytes 64 (s.scale (nth (bitList 64 clusters) (k / count) 0) (first + k % count)).toNat)) →
    Does (.scaleRead id) s fun t => t.ended id .done ∧
      t.mem = writeEach s.mem d (d.covered.map fun k =>
        (k, leBytes 64 (s.scale (nth (bitList 64 clusters) (k / count) 0) (first + k % count)).toNat)) ∧
      (clear = false → t.scales = s.scales) ∧
      (clear = true → ∀ k ∈ d.covered, t.scale (nth (bitList 64 clusters) (k / count) 0) (first + k % count) =
        BitVec.ofNat 512 ((s.scale (nth (bitList 64 clusters) (k / count) 0) (first + k % count)).toNat % 2 ^ 384)) ∧
      t = { s with mem := t.mem, poison := t.poison, latent := t.latent, scales := t.scales, jobs := t.jobs })

/-- FENCE completes once what its kind waits for has come; EVENT_SIGNAL adds to its counter, which sticks at 0xFFFF_FFFF, or
resets it; WAIT_FRAME completes from its target frame on. Nothing else changes. -/
def Obligations.ControlCommandsComplete : Prop :=
  ∀ (s : State) (id : Nat) (j : Job),
    (∀ kind, s.works id 0x0B j → j.body = .fence kind → s.fenceMet j kind = true →
      Does (.fence id) s fun t => t.ended id .done ∧ t = { s with jobs := t.jobs }) ∧
    (∀ ctr value, s.works id 0x0C j → j.body = .signal ctr false value →
      Does (.eventSignal id) s fun t => t.ended id .done ∧ t = { s with jobs := t.jobs, counters := t.counters } ∧
        t.counter ctr = Nat.min 0xFFFFFFFF (s.counter ctr + value) ∧ ∀ c, c ≠ ctr → t.counter c = s.counter c) ∧
    (∀ ctr value, s.works id 0x0C j → j.body = .signal ctr true value →
      Does (.eventSignal id) s fun t => t.ended id .done ∧ t = { s with jobs := t.jobs, counters := t.counters } ∧
        t.counter ctr = 0 ∧ ∀ c, c ≠ ctr → t.counter c = s.counter c) ∧
    (∀ n, s.works id 0x0D j → j.body = .waitFrame n → n ≤ s.frame.counter →
      Does (.waitFrame id) s fun t => t.ended id .done ∧ t = { s with jobs := t.jobs })

/-- The service commands: CALIBRATE ends with its last slot, and with SAVE after Dawn's write of the active coefficients to the
area that does not hold the newest valid image, whose own image is invalid meanwhile; SELFTEST pauses the rotation while
exclusive and declares the failed units it covers; RESTORE_FACTORY puts every coefficient but the ring trims at its factory
value, marks the trims of every engine in service, and ends when both user areas are invalid; QUERY writes its item as it
stood at the boundary after its decision. -/
def Obligations.ServiceCommandsComplete : Prop :=
  (∀ (s : State) (id : Nat) (j : Job) (engines : Nat), s.works id 0x0E j → j.body = .calibrate false engines →
    s.slotsDone j engines false = true →
    Does (.calibrate id) s fun t => t.ended id .done ∧ t = { s with jobs := t.jobs } ∧
      ∃ j', t.job? id = some j' ∧ j'.report = j.report ++ [calibSection j.calib]) ∧
  (∀ (s : State) (id : Nat) (j : Job) (engines : Nat), s.works id 0x0E j → j.body = .calibrate true engines →
    s.slotsDone j engines true = true → s.cal.saveJob ≠ some id → s.cal.saveBusy = false → s.runs .dawn = true →
    Does (.calibrate id) s fun t =>
      t = { s with jobs := t.jobs, cal := { s.cal with saveBusy := true, saveJob := some id, areas := t.cal.areas } } ∧
      (∀ a, nth t.cal.areas a none = if a = s.cal.saveArea then none else nth s.cal.areas a none) ∧
      ∃ j', t.job? id = some j' ∧ j'.phase = .running ∧ j'.report = j.report ++ [calibSection j.calib] ∧
        j'.saveSet = some (j.saveSet.getD s.cal.active)) ∧
  (∀ (s : State) (id : Nat) (j : Job) (set : CoefSet), s.cal.saveJob = some id → s.runs .dawn = true → s.job? id = some j →
    j.phase = .running → j.saveSet = some set →
    Does .flashSaveComplete s fun t => t.ended id .done ∧ t.cal.saveBusy = false ∧ t.cal.saveJob = none ∧
      (s.cal.areas.length = 2 → s.cal.newest < 2 → nth t.cal.areas t.cal.newest none = some set.image ∧ set.image.valid = true ∧
        t.cal.userSet = some set ∧
        (∀ x, nth s.cal.areas s.cal.newest none = some x → x.valid = true →
          t.cal.newest ≠ s.cal.newest ∧ nth t.cal.areas s.cal.newest none = some x)) ∧
      t = { s with jobs := t.jobs, cal := t.cal }) ∧
  (∀ (s : State) (id units engines : Nat) (j : Job) (excl : Bool) (failed : List Unit'), s.job? id = some j →
    j.body = .selftest excl units engines →
    (s.mayStart j = true → Does (.selftest id failed) s fun t =>
      (∃ j', t.job? id = some j' ∧ j'.phase = .running) ∧
      (excl = true → t.cal = { s.cal with selftest := true, rotating := false, resumeDue := false } ∧
        (bit units 1 = true → t.locals = []) ∧ (bit units 3 = true → bit units 0 = false → t.acc = [] ∧ t.accLost = s.accLost + 1)) ∧
      (excl = false → t = { s with jobs := t.jobs })) ∧
    (j.phase = .running → s.testOver j excl units engines = true → s.mayStart j = false → j.stopped = false → Does (.selftest id failed) s fun t =>
      t.ended id .done ∧ t.failing = s.failing ++ (failed.filter (selftestCovers units engines)).map (fun u => (u, 3)) ∧
      (excl = true → t.cal = { s.cal with selftest := false, resumeDue := true }) ∧ (excl = false → t.cal = s.cal))) ∧
  (∀ (s : State) (id : Nat) (j : Job), s.job? id = some j → j.hdr.opcode = 0x10 → s.mayStart j = true →
    Does (.restoreFactory id) s fun t =>
      t.cal = { s.cal with userLoaded := false, restoreJob := some id, active := t.cal.active } ∧
      (∀ c, t.cal.active.get c = if coefIsTrim c = true ∧ s.cal.active.vals.any (fun v => v.1 == c) = true then s.cal.active.get c
        else coefClamp c (Config.factoryCoef s.fw.factoryOk c)) ∧
      (∃ j', t.job? id = some j' ∧ j'.phase = .running) ∧
      (∀ e < 256, t.engine e = if (s.engine e).lock = .mappedOut then s.engine e else { s.engine e with trimsStale := true }) ∧
      t = { s with jobs := t.jobs, cal := t.cal, engines := t.engines }) ∧
  (∀ (s : State) (id : Nat) (j : Job), s.cal.restoreJob = some id → s.job? id = some j → j.phase = .running →
    Does .restoreFactoryWriteComplete s fun t => t.ended id .done ∧
      t = { s with jobs := t.jobs, cal := { s.cal with areas := [none, none], restoreJob := none } }) ∧
  (∀ (s : State) (id item : Nat) (j : Job) (d : TDesc) (bs : List Byte), s.works id 0x11 j → j.body = .query item d →
    j.snapshot = some bs →
    s.storable d (((List.range bs.length).zip bs).filter (fun x => decide (d.resume ≤ x.1)) |>.map fun x => (x.1, [x.2])) →
    Does (.query id) s fun t => t.ended id .done ∧ t = { s with mem := t.mem, poison := t.poison, latent := t.latent, jobs := t.jobs } ∧
      t.mem = writeEach s.mem d
        (((List.range bs.length).zip bs).filter (fun x => decide (d.resume ≤ x.1)) |>.map fun x => (x.1, [x.2]))) ∧
  (∀ (s : State) (id item : Nat) (j : Job) (d : TDesc), s.job? id = some j → j.body = .query item d → j.live = true →
    j.snapshot = none → j.decided + 1 ≤ s.frame.counter →
    ∃ j', s.takeSnapshots.job? id = some j' ∧ j'.snapshot = some (s.queryItem j.session item))

/-- Cancelling: once its waits are met CANCEL marks its target, or completes with its outcome when the target is not found, has its record, is
already being cancelled or cannot be cancelled; at the boundary E the target stops, its buffers are freed and its frames
beyond the committed horizon go back; when its last read has returned it completes CANCELLED and CANCEL completes DONE. -/
def Obligations.CancellationStopsItsTarget : Prop :=
  (∀ (s : State) (id : Nat) (c x : Job), s.job? id = some c → c.hdr.opcode = 0x12 → c.phase = .planned →
    (c.hdr.waits ≠ [] → s.mayStart c = false → exec (.cancel id) s = .next s) ∧
    (c.hdr.waits = [] ∨ s.mayStart c = true → s.cancelTarget c = none → Does (.cancel id) s fun t => t.ended id .done ∧ t = { s with jobs := t.jobs } ∧
      ∃ c', t.job? id = some c' ∧ c'.report = c.report ++ [cancelSection 1 0 0]) ∧
    (c.hdr.waits = [] ∨ s.mayStart c = true → s.cancelTarget c = some x → s.job? x.id = some x → x.open' = true → x.cancelBy = none →
      x.uncancellable (s.frame.counter + 1) = false →
      Does (.cancel id) s fun t => t = { s with jobs := t.jobs } ∧ (∃ c', t.job? id = some c' ∧ c'.phase = .running) ∧
        ∃ x', t.job? x.id = some x' ∧ x'.cancelBy = some id ∧ x'.phase = x.phase) ∧
    (c.hdr.waits = [] ∨ s.mayStart c = true → s.cancelTarget c = some x → x.open' = true → x.cancelBy = none → x.uncancellable (s.frame.counter + 1) = true →
      Does (.cancel id) s fun t => t.ended id .done ∧ t = { s with jobs := t.jobs } ∧
        ∃ c', t.job? id = some c' ∧ c'.report = c.report ++ [cancelSection 3 0 0])) ∧
  (∀ (s : State) (id : Nat) (x c : Job), s.job? id = some x → x.cancelBy = some c.id → s.job? c.id = some c →
    c.decided + 1 ≤ s.frame.counter → x.live = true → x.stopped = false → s.kernel? id = none →
    Does (.cancelEffect id) s fun t => s.sameMem t ∧
      (∃ x', t.job? id = some x' ∧ x'.stopped = true ∧ x'.handover = none ∧
        x'.guardEnd = Nat.min x.guardEnd s.frame.committed ∧
        x'.phase = (if x.endsAtE then .finished .cancelled else x.phase)) ∧
      (∀ n < 64, (t.cluster n).bufs = (s.cluster n).bufs.filter fun b => b.job != id) ∧
      (∀ e, (t.engine e).wbufs = (s.engine e).wbufs.filter fun b => b.job != id) ∧
      (∀ r ∈ t.ha, r ∈ s.ha ∧ (∀ a n, r.use ≠ .feed id a n) ∧ ∀ c u a, r.use ≠ .tile id c u a)) ∧
  (∀ (s : State) (id : Nat) (x c : Job), s.job? id = some x → x.cancelBy = some c.id → s.job? c.id = some c → c.id ≠ id →
    c.phase = .running → x.stopped = true → x.live = true → c.decided + 2 ≤ s.frame.counter →
    (∀ r ∈ s.reads, r.job ≠ id) →
    Does (.cancelCompletion id) s fun t => t.ended id .cancelled ∧ t.ended c.id .done ∧ t = { s with jobs := t.jobs } ∧
      ∃ x', t.job? id = some x' ∧ x'.faultOfs = x.undeliveredFrom)

/-! ## Queues, records and stages (11, 10, 02 to 04, 08) -/

namespace Sys2Proof.Machine

/-- What the final record of a command says, with its status (11 R539). -/
def Job.finalHead (j : Job) (fin : Status) (frame : Nat) : RecHead :=
  { status := fin.code, sq := j.sq, posted := j.posted, stage := j.faultStage, flags := j.flags.word, frame := frame,
    seq := j.seq, faultOfs := j.faultOfs }

/-- The place of a channel in a tile. -/
def TileRun.place (t : TileRun) (ch : Nat) : Nat := (t.chans.findIdx? (· == some ch)).getD 0

end Sys2Proof.Machine

/-- Noon takes the next descriptor of the queue whose turn it is: with room in the completion queue an admitted descriptor
becomes an accepted command, a refused one is counted as rejected and gets its record with the rejection's code; without
room QFULL stops the queue and nothing is decided. The submission count moves on in each case. -/
def Obligations.DescriptorsAreTakenInTurn : Prop :=
  ∀ (s s1 s2 : State) (q n c want : Nat),
    s.runs .noon = true → s.power.state ≠ .entering → (∀ p ∈ s.posted, s.ownsSq p.session p.sq = true) →
    s.turn = some q → s.postedWork q = none → s.sqOwner q = some n → c = (s.sq q).cq →
    s1 = ({ s with rrNext := (q + 1) % 64 }.modSq q fun x => { x with seq := (x.seq + 1) % 2 ^ 32 }).findSoft
      ((s.sq q).base + 128 * ((s.sq q).seq % 2 ^ (s.sq q).log2)) 128 →
    s1.unreadableBlock ((s.sq q).base + 128 * ((s.sq q).seq % 2 ^ (s.sq q).log2)) 128 = none →
    want = (if fbit (s1.bytes ((s.sq q).base + 128 * ((s.sq q).seq % 2 ^ (s.sq q).log2)) 128) 2 1 4 then 2 else 1) →
    s2 = (s1.modCq c fun x => { x with reserved := x.reserved + want }).findInStructs n
      (s1.bytes ((s.sq q).base + 128 * ((s.sq q).seq % 2 ^ (s.sq q).log2)) 128) →
    ((s.cq c).free < want →
      exec .descriptorTake s = .next (s1.modSq q fun x => { x with qfull := true })) ∧
    (want ≤ (s.cq c).free → ∀ j,
      s2.verdict n q (s.sq q).seq false (s1.bytes ((s.sq q).base + 128 * ((s.sq q).seq % 2 ^ (s.sq q).log2)) 128) = .ok j →
      Does .descriptorTake s fun t => t.jobs = s.jobs ++ [{ j with cq := c }] ∧ t.admitted = s.admitted + 1 ∧
        t.rejected = s.rejected ∧ t.nextJob = s.nextJob + 1 ∧ (t.sq q).seq = ((s.sq q).seq + 1) % 2 ^ 32 ∧
        t.rrNext = (q + 1) % 64 ∧ (t.cq c).reserved = (s.cq c).reserved + 1 ∧ (want = 1 → s.sameMem t)) ∧
    (want ≤ (s.cq c).free → ∀ r,
      s2.verdict n q (s.sq q).seq false (s1.bytes ((s.sq q).base + 128 * ((s.sq q).seq % 2 ^ (s.sq q).log2)) 128) = .error r →
      r.bad = none →
      Does .descriptorTake s fun t => t.jobs = s.jobs ∧ t.rejected = s.rejected + 1 ∧ t.admitted = s.admitted ∧
        (t.sq q).seq = ((s.sq q).seq + 1) % 2 ^ 32 ∧ (t.cq c).reserved = (s.cq c).reserved ∧
        (t.cq c).t = (s.cq c).t + 1 ∧
        t.mem = (s2.writeRecord c { status := r.st.code, sq := q, posted := false, frame := s.frame.counter, seq := (s.sq q).seq } r.report).mem)

/-- A command whose work has ended gets its final record in its reserved completion queue entry, the extended report before
the record; the record's status is LATE_ENVELOPE, DONE_RERUN, DONE_FLAGGED or DONE for work that ended well, in this order,
and the cause for any other; a fault, a failed unit or a lapsed peer completes at its boundary (R500); the command's signal
counter is raised. The record stands in entry t mod size of its queue, 32 bytes
with the phase bit of the pass, after its report when it has one. -/
def Obligations.CompletionsWriteTheFinalRecord : Prop :=
  (∀ (s : State) (id : Nat) (j : Job) (st fin : Status),
    s.job? id = some j → j.phase = .finished st → (j.doneFrame ≤ s.frame.counter ∨ st.isDone = false) →
    (st.waitsBoundary = true → j.endDue = true) →
    (∀ x ∈ j.resid, s.residualHigh x = false) → (∀ ss, s.session j.session = some ss → ss.closing = none) →
    fin = (if st.isDone then (if j.late s.frame.counter then .lateEnvelope else if j.reran then .doneRerun
      else if j.flags.any then .doneFlagged else .done) else st) →
    Does (.completionWrite id) s fun t =>
      (∃ j', t.job? id = some j' ∧ j'.phase = .written fin s.frame.counter) ∧
      t.mem = (s.writeRecord j.cq (j.finalHead fin s.frame.counter)
        (j.report ++ if j.stageStats.isEmpty then [] else [statsSection j.stageStats])).mem ∧
      (t.cq j.cq).t = (s.cq j.cq).t + 1 ∧ (t.cq j.cq).reserved = (s.cq j.cq).reserved - 1 ∧ (t.cq j.cq).wrote = true ∧
      (∀ c, t.counter c = if j.hdr.sigEn = true ∧ c = j.hdr.sigCtr then Nat.min 0xFFFFFFFF (s.counter c + 1) else s.counter c) ∧
      t.sessions = s.sessions ∧ t.engines = s.engines ∧ t.acc = s.acc) ∧
  (∀ (s : State) (id : Nat) (j : Job) (st : Status), s.job? id = some j → j.phase = .finished st → st.waitsBoundary = true →
    j.endDue = false → exec (.completionWrite id) s = .next s ∧
    ∃ j', s.settleEnded.job? id = some j' ∧ (j'.endDue = true ↔ (st.waitsAccess = true → s.inFlight id = false))) ∧
  (∀ (s : State) (c : Nat) (r : RecHead) (report : Report),
    (recordBytes r true 0).length = 32 ∧
    ((∀ y, (s.cq c).base ≤ y → y < (s.cq c).base + 32 * 2 ^ (s.cq c).log2 → (s.isHbm y || s.isSram y) = true ∧ s.onBadStack y = false) →
      ∀ i < 32, (s.writeRecord c r report).byte ((s.cq c).base + 32 * ((s.cq c).t % 2 ^ (s.cq c).log2) + i) =
        (recordBytes r ((s.cq c).t / 2 ^ (s.cq c).log2 % 2 == 0)
          (if report.isEmpty then 0 else (s.cq c).base + 0x20000 + (s.cq c).t % 2 ^ (s.cq c).log2 * 0x2000)).getD i 0) ∧
    ((s.writeRecord c r report).cq c).t = (s.cq c).t + 1 ∧
    ((s.writeRecord c r report).cq c).reserved = (s.cq c).reserved - 1)

/-- MATMUL, SUITE and REDUCE begin with their first stage once they may start; the next stage of a Suite begins from its
hand-over frame on; nothing but the command changes. -/
def Obligations.StagesBegin : Prop :=
  (∀ (s : State) (id op : Nat) (j : Job) (i : Instr), s.job? id = some j → j.hdr.opcode = op → s.mayStart j = true →
    (i = .matmul id ∧ op = 0x02 ∨ i = .suite id ∧ op = 0x03 ∨ i = .reduce id ∧ op = 0x04) →
    Does i s fun t => t = { s with jobs := t.jobs } ∧
      ∃ j', t.job? id = some j' ∧ j'.phase = .running ∧ j'.run.stage = 0 ∧ j'.run.started = true ∧ j'.run.rerun = false ∧
        j'.run.drained = 0 ∧ j'.handover = none ∧ j'.flags.holdover = (j.flags.holdover || s.frame.unsure)) ∧
  (∀ (s : State) (id h : Nat) (j : Job), s.job? id = some j → j.handover = some h → h ≤ s.frame.counter → j.phase = .running →
    j.stopped = false → j.run.rerun = false → j.run.stage + 1 < j.body.stageList.length →
    Does (.suiteHandover id) s fun t => t = { s with jobs := t.jobs } ∧
      ∃ j', t.job? id = some j' ∧ j'.phase = .running ∧ j'.run.stage = j.run.stage + 1 ∧ j'.run.started = true ∧
        j'.run.drained = 0 ∧ j'.handover = none)

/-- Streams: ACTIVATION_FETCH takes a buffer for the next tile in every cluster of the multicast set, asks for each granule once
and moves on; a granule that comes back gives up its tag, leaves its bytes where they were asked for, and counts, poisons or
logs what its ECC found; Farandole tiles are written where they pass, in the clusters of the set, and no two share a hop in the same
symbols (R415). -/
def Obligations.StreamsReachTheClusters : Prop :=
  (∀ (s : State) (id c u : Nat) (j : Job) (st : Stage) (d : TDesc), s.job? id = some j → j.stage? = some st →
    s.committedNow = true → u = Nat.max st.firstTile (j.run.nextFetch.get 0 c) → c ∈ s.fetchSet j st c →
    (∀ n ∈ s.fetchSet j st c, s.roomFor j st u n = true) → 0 < st.redLen → u < st.tileCount →
    j.run.drainFrame = none → st.inDesc = some d → st.inMx = none →
    (∀ i ∈ st.tileElems c u, s.isHbm (d.addr i) = true) →
    Does (.activationFetch id c) s fun t => s.sameMem t ∧
      (∃ j', t.job? id = some j' ∧ ∀ n ∈ s.fetchSet j st c, j'.run.nextFetch.get 0 n = u + 1) ∧
      ∃ b l, (∀ n ∈ s.fetchSet j st c, (t.cluster n).bufs = (s.cluster n).bufs ++ [b]) ∧
        (∀ n, n ∉ s.fetchSet j st c → t.cluster n = s.cluster n) ∧
        b.job = id ∧ b.u = u ∧ b.stage = j.run.stage ∧ b.rerun = j.run.rerun ∧ b.bad = none ∧ b.hostReads = [] ∧ b.cells = [] ∧
        t.reads = s.reads ++ l ∧ t.nextRead = s.nextRead + l.length ∧ (l.map (·.address)).Nodup ∧ l.map (·.id) = b.reads ∧
        (∀ r ∈ l, r.job = id ∧ r.use = .tile (sectorCopies (s.fetchSet j st c)) ∧ r.stack = stackAt s.remapped r.address) ∧
        ∀ i ∈ st.tileElems c u, ∃ r ∈ l, r.address = d.addr i / 2048 * 2048) ∧
  (∀ (s : State) (r : ReadReq) (ecc : EccResult), s.reads.find? (fun x => x.id == r.id) = some r → s.holdsTag r = true →
    (∀ th n parts k, r.use = .load th n parts → s.kernel? r.job = some k → k.late = []) →
    Does (.hbmReadReturn r.id ecc) s fun t => (∀ x ∈ t.reads, x ∈ s.reads ∧ x.id ≠ r.id) ∧ t.mem = s.mem ∧
      (∀ x ∈ s.reads, x.id ≠ r.id → x.job ≠ r.job ∨ (∀ th n parts, r.use ≠ .load th n parts) → x ∈ t.reads) ∧
      (ecc = .clean → s.quietAt r.address 2048 = true → t.corrected = s.corrected ∧ t.poison = s.poison ∧ t.log = s.log) ∧
      (ecc = .corrected → s.quietAt r.address 2048 = true → s.onBadStack r.address = false → t.corrected.get 0 r.stack = s.corrected.get 0 r.stack + 1 ∧ t.poison = s.poison) ∧
      (ecc = .uncorrectable → s.quietAt r.address 2048 = true → s.onBadStack r.address = false →
        (∃ k < 32, t.poison = insertNat ((r.address + 64 * k) / 64) s.poison) ∧
        ∃ e, t.log.entries.getLast? = some e ∧ e.code = 0x0200 ∧ e.unit = r.stack) ∧
      (∀ copies, r.use = .tile copies → ∀ c ∈ copies.flatMap (·.2), ∀ b ∈ (t.cluster c).bufs, b.job = r.job → r.id ∉ b.reads) ∧
      (∀ e, r.use = .weight e → ∀ b ∈ (t.engine e).wbufs, r.id ∉ b.reads) ∧
      (∀ th n parts, r.use = .load th n parts → (s.thread th).kernel = r.job → ecc = .clean → s.quietAt r.address 2048 = true →
        (∀ x ∈ parts, s.unitBad x.1 x.2 = false ∧ s.anyPoison x.1 x.2 = false) → (t.thread th).loads =
          (s.thread th).loads.map fun l => if l.n = n then { l with waits := l.waits - 1 } else l) ∧
      (∀ parts j, r.use = .feed parts → s.job? r.job = some j → j.live = true → ecc = .clean → s.quietAt r.address 2048 = true →
        (∀ x ∈ parts, ∀ i < x.2, s.unitBad (x.1 + i) 1 = false ∧ s.anyPoison (x.1 + i) 1 = false) →
        ∃ j', t.job? r.job = some j' ∧ ∀ x ∈ parts, ∀ i < x.2, j'.staged.get none (x.1 + i) = some (s.byte (x.1 + i)))) ∧
  (∀ (s : State) (id head src size dst : Nat) (clusters : Word64) (j : Job) (st : Stage) (l : List Byte), s.job? id = some j →
    j.stage? = some st →
    (s.space src = .sram head ∨ s.space src = .hbm) → s.space (src + size - 1) = s.space src → bit j.mask head = true →
    (∀ c ∈ bitList 64 clusters.toNat, bit j.mask c = true) → bitList 64 clusters.toNat ≠ [] → 0 < size → dst + size ≤ 0x1000000 →
    s.readFor j src size = .bytes l → head < 64 →
    Does (.farandoleSend id head clusters src size dst) s fun t =>
      (head ∈ bitList 64 clusters.toNat → ∀ i < size, t.byte (0x100000000000 + head * 0x1000000 + dst + i) = l.getD i 0) ∧
      (head ∉ bitList 64 clusters.toNat → t.mem = s.mem) ∧
      ((∃ c ∈ bitList 64 clusters.toNat, c ≠ head) → ∃ f, t.far = s.far ++ [f] ∧ f.at' = head ∧ f.bytes = l ∧
        f.dst = dst ∧ f.left = (bitList 64 clusters.toNat).filter fun c => c != head)) ∧
  (∀ (s : State) (f : Far), s.far.find? (fun x => x.id == f.id) = some f → f.dst + f.bytes.length ≤ 0x1000000 → ringNext f.at' < 64 →
    s.hopFree f.at' = true →
    Does (.farandoleHop f.id) s fun t =>
      t.farFree.get 0 (ringPlace f.at') = s.now + ceilDiv f.bytes.length 128 ∧
      (ringNext f.at' ∈ f.left → ∀ i < f.bytes.length,
        t.byte (0x100000000000 + ringNext f.at' * 0x1000000 + f.dst + i) = f.bytes.getD i 0) ∧
      (ringNext f.at' ∉ f.left → t.mem = s.mem) ∧
      (f.left = [ringNext f.at'] → ∀ x ∈ t.far, x.id ≠ f.id) ∧
      (∀ x ∈ t.far, x.id = f.id → x.at' = ringNext f.at' ∧ ringNext f.at' ∉ x.left)) ∧
  (∀ (s : State) (f : Far), s.far.find? (fun x => x.id == f.id) = some f → s.hopFree f.at' = false → exec (.farandoleHop f.id) s = .next s)

/-- The light path: a bank load fills the bank that the weight port writes with the rows of its tile; the swap puts that bank
under light, when its tile is the next to stream, with its range shift, and parks the other, unless a further tile is due on it (R62);
a bank that is not next waits, and with nothing due both banks are parked (R62, R92); a group issue sends the quantised group to the engines of the quad whose active bank holds the group's tile; a conversion is clamped to its code range,
counted, and its group term is added to the tile's value modulo 2³²⁰. -/
def Obligations.LightPathLoadsIssuesAndConverts : Prop :=
  (∀ (s : State) (id e ob rb ws : Nat) (patch : List Nat) (j : Job) (st : Stage) (d : TDesc) (l : List (List Byte)) (p : Nat × Nat × Nat),
    s.job? id = some j → j.stage? = some st → st.partOf (e / 4) = some p → p.2.1 ≤ rb → rb < p.2.1 + p.2.2 → s.committedNow = true →
    bit j.mask (e / 4) = true → ws < st.ws → ob < st.blocks → s.inService e = true → s.slotIdle e = false → e < 256 → (∀ ch ∈ patch, ch < st.chans) →
    j.aheadOn st e = false → st.wDesc = some d → s.weightTile j st d e (st.tilesOf (s.bankChans st e ob patch) rb ws) = .done l none →
    Does (.bankLoad id e ob rb ws patch) s fun t =>
      (t.engine e).activeB = !(s.engine e).loadB ∧
      ((t.engine e).bank (s.engine e).loadB).job = id ∧ ((t.engine e).bank (s.engine e).loadB).rb = rb ∧
      ((t.engine e).bank (s.engine e).loadB).ws = ws ∧ ((t.engine e).bank (s.engine e).loadB).h = st.h ∧
      ((t.engine e).bank (s.engine e).loadB).stage = j.run.stage ∧ ((t.engine e).bank (s.engine e).loadB).rerun = j.run.rerun ∧
      ((t.engine e).bank (s.engine e).loadB).pair = (st.g == 2) ∧
      ((t.engine e).bank (s.engine e).loadB).rows.map (·.chan) = (s.bankChans st e ob patch).map (fun ch => match ch with
        | none => none
        | some ch => if ((st.tilesOf (s.bankChans st e ob patch) rb ws).zip l).any (fun x => x.1 == st.wElement (ch / st.rows) rb ws) then some ch else none) ∧
      (t.engine e).bank (!(s.engine e).loadB) = (s.engine e).bank (!(s.engine e).loadB) ∧
      (∀ x, x ≠ e → t.engine x = s.engine x) ∧ s.sameMem t ∧ t.acc = s.acc) ∧
  (∀ (s : State) (e : Nat), (s.engine e).activeB ≠ (s.engine e).loadB →
    Does (.bankSwap e) s fun t => t = { s with engines := t.engines } ∧ (∀ x, x ≠ e → t.engine x = s.engine x) ∧
      (s.bankReady e ((s.engine e).bank (s.engine e).loadB) = true → (t.engine e).activeB = (s.engine e).loadB ∧
        (t.engine e).active = (s.engine e).bank (s.engine e).loadB ∧ (t.engine e).h = ((s.engine e).bank (s.engine e).loadB).h ∧
        (t.engine e).bank (s.engine e).activeB =
          if s.bankKept e (s.engine e).active ((s.engine e).bank (s.engine e).loadB) then (s.engine e).active else {}) ∧
      (s.bankReady e ((s.engine e).bank (s.engine e).loadB) = false →
        (s.bankDue e (s.engine e).active || s.bankDue e ((s.engine e).bank (s.engine e).loadB)) = true → t = s) ∧
      (s.bankReady e ((s.engine e).bank (s.engine e).loadB) = false → s.bankDue e (s.engine e).active = false →
        s.bankDue e ((s.engine e).bank (s.engine e).loadB) = false → (t.engine e).bankA = {} ∧ (t.engine e).bankB = {})) ∧
  (∀ (s : State) (id c vec grp slice e : Nat) (j : Job) (st : Stage) (p : Nat × Nat × Nat) (b : TileBuf) (tl : TileRun) (bank : Bank) (q : Quantised),
    s.job? id = some j → j.stage? = some st → st.partOf c = some p → p.2.1 ≤ grp → grp < p.2.1 + p.2.2 → bit j.mask c = true →
    vec < st.vecs → st.firstTile ≤ vec / st.vecB → slice < st.inSlices → j.run.drainFrame = none → s.issueHeld c = false → s.hasRoom j = true →
    j.run.cur.get 0 c ≤ vec / st.vecB → j.run.doneBefore c (vec / st.vecB) = true → s.buf? j c (vec / st.vecB) = some b →
    b.reads = [] → b.hostReads = [] → b.bad = none → s.inputBad st c vec grp = none → q = s.quantGroup st j.run.rerun c b vec grp →
    e / 4 = c → c < 64 → s.clusterOut c = false → s.inService e = true → s.slotIdle e = false → bank = (s.engine e).active → bank.job = id → bank.stage = j.run.stage →
    bank.rerun = j.run.rerun → bank.rb = grp → bank.rows ≠ [] →
    j.run.tileFor e (vec / st.vecB) p.1 (st.tileChans (bank.rows.map (·.chan))) = some tl →
    tl.issued = ((grp - p.2.1) * st.ws + bank.ws) * (st.vecsIn tl.u * st.inSlices) + (vec - tl.u * st.vecB) * st.inSlices + slice →
    Does (.groupIssue id c vec grp slice) s fun t => s.sameMem t ∧
      (∃ j', t.job? id = some j' ∧ j'.run.cur.get 0 c =
        vec / st.vecB + if j'.run.tileIssued st p.1 (vec / st.vecB) then 1 else 0) ∧
      (t.cluster c).emit = (s.cluster c).emit ++ streamed (sliceValues st.inf (s.codebook c st.inCb) slice q.v).2.2
        (sliceValues st.inf (s.codebook c st.inCb) slice q.v).1 ∧
      ∃ is, (t.engine e).issues = (s.engine e).issues ++ [is] ∧ is.job = id ∧ is.vec = vec ∧ is.grp = grp ∧ is.slice = slice ∧
        is.ws = bank.ws ∧ is.ex = q.ex ∧ is.arrived = [] ∧
        is.rows = (s.convRows e bank).map (issueRow (sliceValues st.inf (s.codebook c st.inCb) slice q.v).2.2
          (sliceValues st.inf (s.codebook c st.inCb) slice q.v).1)) ∧
  (∀ (s : State) (e row ch file : Nat) (noise raw code : Int) (is : Issue) (light wv : Dy) (b : BankRow) (j : Job) (st0 st : Stage)
      (tl : TileRun) (ts : List Int × Bool),
    (s.engine e).waiting row = some is → nth is.rows row none = some (ch, light, wv, b) →
    raw = (light.scale (-is.a)).roundEven + noise → code = clampInt (adcRange is.narrow).1 (adcRange is.narrow).2 raw →
    Does (.conversionArrival e row noise) s (fun t =>
      (t.engine e).convs = (s.engine e).convs + 1 ∧
      (t.engine e).clips = (s.engine e).clips + (if code = raw then 0 else 1) ∧
      (∀ x ∈ (t.engine e).issues, x.arrived.contains row = false → (nth x.rows row none).isSome = true → x ∈ (s.engine e).issues) ∧
      s.sameMem t) ∧
    (s.job? is.job = some j → j.open' = true → j.run.stage = is.stage → j.run.rerun = is.rerun →
      j.body.stageList[is.stage]? = some st0 → st = st0.eff is.rerun → j.run.tileOf st e (is.vec / st.vecB) ch = some tl →
      ts = termAddends (is.term st b code) → file = s.rowFile st tl.engine (tl.place ch) →
      Does (.conversionArrival e row noise) s fun t =>
        (st.exact = true → tl.inFile = true →
          t.exactAt tl.engine file (st.accBase + 5 * (is.vec - tl.u * st.vecB)) =
            sext (toBits (s.exactAt tl.engine file (st.accBase + 5 * (is.vec - tl.u * st.vecB)) + ts.1.foldl (· + ·) 0) 320) 320) ∧
        (tl.inFile = false → t.acc = s.acc) ∧
        (∃ j', t.job? is.job = some j' ∧ (code ≠ raw → j'.flags.saturation = true) ∧ (ts.2 = true → j'.flags.range = true) ∧
          (st.exact = true → tl.inFile = false → nth tl.chans (tl.place ch) none = some ch →
            j'.run.values.get 0 (st.cell tl.part (st.element is.vec ch)) = ts.1.foldl (fun v x => wrapExact (v + x))
              (j.run.values.get 0 (st.cell tl.part (st.element is.vec ch)))))))

/-- The stochastic rounding of compact accumulation gives the quotient rounded down or the next one, and the quotient itself
when nothing is lost (R193); the 64-bit window holds a sum that fits and takes its largest or smallest value otherwise, with
RANGE (R195). The generator that decides comes back to a state other than zero after the multiples of 2¹²⁸ − 1 steps and after
no other number (R197). -/
def Obligations.CompactRoundingPicksANeighbour : Prop :=
  (∀ g : BitVec 128, g ≠ 0 → ∀ n : Nat, Config.lfsrStep^[n] g = g ↔ 2 ^ 128 - 1 ∣ n) ∧
  (∀ (g : BitVec 128) (t : Dy) (b : Int), t.e < b →
    ((stochastic g t b).1 = t.m / (2 ^ (b - t.e).toNat : Nat) ∨ (stochastic g t b).1 = t.m / (2 ^ (b - t.e).toNat : Nat) + 1) ∧
    (t.m % (2 ^ (b - t.e).toNat : Nat) = 0 → stochastic g t b = (t.m / (2 ^ (b - t.e).toNat : Nat), g))) ∧
  (∀ (g : BitVec 128) (t : Dy) (b : Int), b ≤ t.e → stochastic g t b = (t.m * (2 ^ (t.e - b).toNat : Nat), g)) ∧
  (∀ w : Int, (-(2 ^ 63) ≤ w → w < 2 ^ 63 → toWindow w = (w, false)) ∧ (2 ^ 63 ≤ w → toWindow w = (2 ^ 63 - 1, true)) ∧
    (w < -(2 ^ 63) → toWindow w = (-(2 ^ 63), true)))

namespace Sys2Proof.Machine

/-- Memory with elements stored to a descriptor that a stage may leave out, from its RESUME on. -/
def storeOpt (m : Sparse Byte) (d : Option TDesc) (l : List (Nat × List Byte)) : Sparse Byte :=
  match d with
  | none => m
  | some d => writeEach m d (l.filter fun x => decide (d.resume ≤ x.1))

/-- Those elements all fall on HBM or SRAM in service. -/
def State.storableOpt (s : State) (d : Option TDesc) (l : List (Nat × List Byte)) : Prop :=
  ∀ x, d = some x → s.storable x (l.filter fun y => decide (x.resume ≤ y.1))

/-- The elements that a re-run ends with, in rising order. -/
def rerunElems (j : Job) : List KeptY := j.run.ys.mergeSort fun a b => decide (a.elem ≤ b.elem)
/-- What a re-run stores to its BF16 buffer (03 R170). -/
def rerunBf16 (j : Job) : List (Nat × List Byte) := (rerunElems j).map fun k => (k.elem, leBytes 2 (convPlain .bf16 7 .na k.y.toNat).code)
/-- What a re-run stores to the output: each element converted with the copy of its scale entry that its own cluster holds (03 R137, R167). -/
def State.rerunOut (u : State) (st : Stage) (j : Job) : List (Nat × List Byte) :=
  (rerunElems j).map fun k => (k.elem, leBytes (2 ^ st.out.esize) (u.convElem st .na k.cluster (k.drainY st)).code)

end Sys2Proof.Machine

/-- A tile that has all its terms drains: whatever its forms it goes through the epilogue of its cluster; the elements of a
main run with outputs that are not MX are converted and stored from the descriptor's RESUME on, and the tile is closed. -/
def Obligations.TilesDrainThroughTheEpilogue : Prop :=
  (∀ (s : State) (id e : Nat) (j : Job) (st : Stage) (tl : TileRun) (elts : List (List Byte)),
    s.job? id = some j → j.stage? = some st → st.drain = true → j.run.drainOn st e = some tl →
    s.drainBad j st tl = none →
    ((st.eltDesc = none ∧ elts = []) ∨ ∃ d, st.eltDesc = some d ∧
      s.readAll j (fun i => (d.addr i, d.size 0)) ((tl.elems st).map (·.1)) = .done elts none) →
    exec (.tileDrain id e) s = .next (s.drainTile j st tl (s.drainYs j st tl (tl.elems st) elts))) ∧
  (∀ (s : State) (id e : Nat) (j : Job) (st : Stage) (tl : TileRun) (x : Nat × Nat × Nat), s.job? id = some j → j.stage? = some st →
    st.drain = true → j.run.drainOn st e = some tl → s.drainBad j st tl = some x →
    Does (.tileDrain id e) s fun t => t.mem = s.mem ∧ ∃ j', t.job? id = some j' ∧ j'.phase = .finished .dataUncorrectable ∧
      j'.faultOfs = x.2.1 ∧ j'.report = j.report ++ [faultLocus x.1 j.run.stage 0 0]) ∧
  (∀ (s : State) (id : Nat) (j : Job) (st : Stage) (tl : TileRun) (d : TDesc) (ys : List DrainY) (l : List (Nat × List Byte)),
    s.job? id = some j → j.phase = .running → tl ∈ j.run.tiles → tl.closed = false → st.arg = 0 → j.run.rerun = false →
    st.out.isMx = false → st.outDesc = some d →
    l = ys.map (fun y => (y.elem, leBytes (2 ^ st.out.esize) (s.convElem st .ne (tl.engine / 4) y).code)) →
    s.storable d (l.filter fun x => decide (d.resume ≤ x.1)) →
    (s.drainTile j st tl ys).mem = writeEach s.mem d (l.filter fun x => decide (d.resume ≤ x.1)) ∧
    (s.drainTile j st tl ys).acc = s.acc ∧ (s.drainTile j st tl ys).scales = s.scales ∧
    ∃ j', (s.drainTile j st tl ys).job? id = some j' ∧ tl ∉ j'.run.tiles ∧ { tl with closed := true } ∈ j'.run.tiles ∧
      j'.flags.saturation = (j.flags.saturation || ys.any fun y => y.big) ∧
      j'.run.drained = j.run.drained + (if tl.part = st.finalPart then (tl.chans.filter Option.isSome).length * st.vecsIn tl.u else 0))

/-- The step decision tests the thresholds: with a re-run reserved and a threshold exceeded, the re-run is triggered and
begins two frames after the drain; otherwise the flags are set and the command ends or its next stage is fixed. The re-run's
end stores the outputs of the re-run with the entries it has set, and ends the step. -/
def Obligations.StepsAreDecidedAndRerun : Prop :=
  (∀ (s : State) (id dF : Nat) (j : Job) (st : Stage) (x : Nat × Nat × Nat), s.job? id = some j → j.stage? = some st →
    j.run.drainFrame = some dF → j.run.rerun = false → j.handover = none → st.drain = true → dF + 1 ≤ s.frame.counter →
    st.finalPart = st.lastPart → x = overCounts st j.run.stats →
    Does (.stepDecision id) s fun t => s.sameMem t ∧ t.acc = s.acc ∧ ∃ j', t.job? id = some j' ∧
      (st.rerunReserved j.hdr = true → x ≠ (0, 0, 0) → j'.phase = .running ∧ j'.reran = true ∧ j'.handover = some (dF + 2) ∧
        j'.run.rerun = true ∧ j'.run.drainFrame = none ∧ j'.run.stage = j.run.stage ∧ j'.got = [] ∧ j'.acked = []) ∧
      (st.rerunReserved j.hdr = false ∨ x = (0, 0, 0) →
        j'.reran = j.reran ∧ (∀ p ∈ j'.placed, p.rerun = true → p.phase.stage = j.run.stage → p.cut = some s.frame.committed) ∧ j'.flags.saturation = (j.flags.saturation || x.1 != 0) ∧
        j'.flags.staleScale = (j.flags.staleScale || x.2.1 != 0) ∧ j'.flags.mseHigh = (j.flags.mseHigh || x.2.2 != 0) ∧
        (j.run.stage + 1 < j.body.stageList.length → j'.phase = .running ∧ ∃ h, j'.handover = some h ∧ dF + 2 ≤ h) ∧
        (j.body.stageList.length ≤ j.run.stage + 1 → j'.phase = .finished .done))) ∧
  (∀ (s u : State) (id dF : Nat) (j : Job) (st : Stage), s.job? id = some j → j.stage? = some st → j.run.drainFrame = some dF →
    j.run.rerun = true → st.arg = 0 → u = (s.updateEntries j.mask st j.run.stats (stepEntry st true)).1 →
    s.storableOpt st.rerunBuf (rerunBf16 j) → s.storableOpt st.outDesc (u.rerunOut st j) →
    Does (.rerunDrain id) s fun t =>
      t.mem = storeOpt (storeOpt s.mem st.rerunBuf (rerunBf16 j)) st.outDesc (u.rerunOut st j) ∧
      t.acc = s.acc ∧ ∃ j', t.job? id = some j' ∧ j'.run.rerun = false ∧ j'.run.ys = [] ∧
      (j.run.stage + 1 < j.body.stageList.length → j'.phase = .running ∧ j'.handover.isSome = true) ∧
      (j.body.stageList.length ≤ j.run.stage + 1 → j'.phase = .finished .done))

/-! ## Locking, calibration, combs and failed units (05, 02, 06, 16) -/

namespace Sys2Proof.Machine

/-- Only engine `e` has changed. -/
def State.onlyEngine (s t : State) (e : Nat) : Prop :=
  t = { s with engines := t.engines } ∧ ∀ x, x ≠ e → t.engine x = s.engine x

/-- The newest entry of the error log is this one: its code, unit, AUX word and DETAIL word, dated with the present frame,
under the number that `s` would give its next entry (16 R732, R733). -/
def State.logs (s t : State) (code unit aux detail : Nat) : Prop :=
  t.log.next = s.log.next + 1 ∧ ∃ e, t.log.entries.getLast? = some e ∧ e.index = s.log.next ∧ e.code = code ∧ e.unit = unit ∧
    e.aux = aux ∧ e.detail = detail ∧ e.frame = s.frame.counter

end Sys2Proof.Machine

/-- At the boundary after a lock-loss event Twilight takes the engine out of service: a LOCKED engine becomes UNLOCKED, and
one in its calibration slot becomes UNLOCKED with the slot's result abandoned, its staged coefficients discarded and an entry
(0x0003, AUX 1). Its banks take the identity pattern of the check that the event starts, its converters go on with discarded
data unless an excursion holds, and what it has under way carries LOCK_EXCURSION. No other engine changes. Thirty-eight
estimates in succession above 6 °C/ms make an excursion of the whole sector, or take the sector's other engines into a standing
one: each of its engines that was in service or in calibration becomes UNLOCKED, no other sector's engine changes, and Dusk
ramps the sector down; an excursion that begins counts up to 255 and entry 0x0002 names the sector. -/
def Obligations.LockLossAndExcursionsRemoveEngines : Prop :=
  (∀ (s : State) (e f : Nat) (exc : Bool), (s.engine e).lossEvent = some f → f < s.frame.counter → s.runs .twilight = true →
    exc = (s.sector (sectorOfEngine e)).excursion →
    ((s.engine e).lock = .locked → Does (.engineRemoval e) s fun t =>
      t.engine e = (s.engine e).removed exc ∧ (∀ x, x ≠ e → t.engine x = s.engine x) ∧ s.sameMem t ∧ t.log = s.log) ∧
    ((s.engine e).lock = .calib → Does (.engineRemoval e) s fun t =>
      t.engine e = { (s.engine e).removed exc with calibAbandoned := true } ∧
        (∀ x, x ≠ e → t.engine x = s.engine x) ∧ s.sameMem t ∧ t.cal = s.cal ∧
        s.logs t 0x0003 e 1 (65536 * (s.engine e).residRms + (s.engine e).residPeak)) ∧
    ((s.engine e).removed exc).lock = .unlocked ∧ ((s.engine e).removed exc).lossEvent = none ∧
    ((s.engine e).removed exc).staged = [] ∧ ((s.engine e).removed exc).discards = !exc ∧
    (∀ y ∈ ((s.engine e).removed exc).issues, y.excursion = true) ∧
    ((s.engine e).checkDue = true → (s.engine e).bankAFailed = false → ((s.engine e).removed exc).bankA = { pattern := true })) ∧
  (∀ (s : State) (k e : Nat), 38 ≤ (s.sector k).fastCount → s.runs .twilight = true → 64 * k ≤ e → e < 64 * k + 64 →
    s.engineOut e = false → e ∉ (s.sector k).affected →
    Does (.rateExcursion k) s fun t => s.sameMem t ∧ (t.sector k).excursion = true ∧ (t.sector k).ramp = true ∧
      ((s.sector k).excursion = false → t.cal.excursions = Nat.min 255 (s.cal.excursions + 1) ∧ s.logs t 0x0002 k k 0) ∧
      ((s.sector k).excursion = true → t.cal = s.cal ∧ t.log = s.log) ∧
      (∀ e, 64 * k ≤ e → e < 64 * k + 64 → (s.engine e).lock = .locked ∨ (s.engine e).lock = .held ∨ (s.engine e).lock = .calib →
        (t.engine e).lock = .unlocked ∧ (t.engine e).discards = false ∧ e ∈ (t.sector k).affected) ∧
      (∀ e, e < 64 * k ∨ 64 * k + 64 ≤ e → t.engine e = s.engine e) ∧
      (∀ e, 64 * k ≤ e → e < 64 * k + 64 → (s.engine e).lock ≠ .locked → (s.engine e).lock ≠ .held → (s.engine e).lock ≠ .calib →
        t.engine e = if s.engineOut e then s.engine e else { s.engine e with discards := false }))

/-- A relock goes through its steps: an UNLOCKED engine whose sector's rate estimate, headroom and comb allow it enters VERIFY with
its banks under check; the first check leads to SEARCH with an index search for each bank on another line, whose heater moves by
as many line spacings; the last line found, acquisition leads back to VERIFY; a second check that every bank passes leads to the
recovery run, and any other restarts the relock; a recovery run, which uses every accumulator slot of the engine, brings the
engine into service within RESID_LIMITS, and otherwise restarts the relock, the third in succession declaring the engine failed.
A check is of live vectors, or of tones where a modulator row has lost lock (R258). What a check reports of a bank: a bank on
another line is counted (up to 255), logged with the check's row, bank and shift, and marked invalid; a bank that passes is
marked invalid no more and has its centre where its heater stands; a bank that was undecided at two checks in succession, or is
on another line after an index search, is declared failed. -/
def Obligations.RelocksCheckAndReportEachBank : Prop :=
  ((∀ (s : State) (e : Nat), (s.engine e).lock = .unlocked → s.runs .twilight = true → s.slowRate (sectorOfEngine e) = true →
    (s.engine e).beyond = [] → s.combOn e = true →
    Does (.relockStart e) s fun t => t = { s with engines := t.engines, sectors := t.sectors } ∧
      t.engine e = { (s.engine e).underCheck with lock := .verify, lossEvent := none, checkDue := false,
                                                  relock := { startFrame := s.frame.counter, step := 0, search := [] } } ∧
      (∀ x, x ≠ e → t.engine x = s.engine x)) ∧
  (∀ (s : State) (e : Nat) (i : Instr) (r : List CheckReading) (rowOk : Bool) (l : List BankShift), s.runs .twilight = true →
    (s.engine e).lock = .verify →
    (i = .vectorCheckComplete e r ∧ (s.engine e).toneRelock = false ∧ s.checkShifts e false r = some l) ∨
      (i = .toneCheckComplete e r rowOk ∧ (s.engine e).toneRelock = true ∧ s.checkShifts e true r = some l) →
    ((s.engine e).relock.step = 0 →
      Does i s fun t => (t.engine e).lock = .search ∧ (t.engine e).relock.step = 1 ∧
        (t.engine e).relock.search = wrongBanks l ∧ (t.engine e).relock.startFrame = (s.engine e).relock.startFrame ∧
        (t.engine e).bankA = {} ∧ (t.engine e).bankB = {} ∧ (∀ x, x ≠ e → t.engine x = s.engine x) ∧ s.sameMem t) ∧
    ((s.engine e).relock.step = 2 →
      Does i s fun t => (t.engine e).lock = .verify ∧
        ((∀ b ∈ l, b.shift = some 0) → (t.engine e).relock.step = 3 ∧ (i = .vectorCheckComplete e r → s.failing = t.failing)) ∧
        ((∃ b ∈ l, b.shift ≠ some 0) → (t.engine e).relock.step = 5) ∧ ∀ x, x ≠ e → t.engine x = s.engine x)) ∧
  (∀ (s : State) (e row : Nat) (isB : Bool) (n : Int), (s.engine e).lock = .search → (s.engine e).relock.step = 1 →
    (row, isB, n) ∈ (s.engine e).relock.search →
    (s.slew (heaterChan e row isB)).present = (s.slew (heaterChan e row isB)).target →
    Does (.indexSearchComplete e row isB) s fun t => s.onlyEngine t e ∧ (row, isB) ∈ (t.engine e).searched ∧
      (t.engine e).lock = .search ∧
      ∀ k, k ∈ (t.engine e).relock.search ↔ k ∈ (s.engine e).relock.search ∧ (k.1, k.2.1) ≠ (row, isB)) ∧
  (∀ (s : State) (e row : Nat) (isB : Bool) (n target : Int), target = ((s.slew (heaterChan e row isB)).present : Int) + n * lineBits →
    ((s.tones.get {} (heaterChan e row isB)).amp : Int) ≤ target → target ≤ 65535 - ((s.tones.get {} (heaterChan e row isB)).amp : Int) →
    ((s.startSearch e [(row, isB, n)]).slew (heaterChan e row isB)).target = target.toNat) ∧
  (∀ (s : State) (e : Nat), (s.engine e).lock = .search → (s.engine e).relock.step = 1 → (s.engine e).relock.search = [] →
    s.runs .twilight = true →
    Does (.acquisitionComplete e) s fun t => s.onlyEngine t e ∧
      t.engine e = { (s.engine e).underCheck with lock := .verify, relock := { (s.engine e).relock with step := 2 } }) ∧
  (∀ (s : State) (e : Nat) (codes exact resid : List Int), resid = runResid codes exact → (s.engine e).lock = .verify → (s.engine e).relock.step = 3 → s.runs .twilight = true →
    s.tempOk (sectorOfEngine e) = true →
    Does (.recoveryRunComplete e codes exact) s fun t => (∀ x, x ≠ e → t.engine x = s.engine x) ∧
      (∀ k, t.acc.get none k = if accOf e k then none else s.acc.get none k) ∧
      (s.residOver resid = false → (t.engine e).lock = .locked ∧ (t.engine e).recovFails = 0 ∧ (t.engine e).bankA = {} ∧
        (t.engine e).bankB = {} ∧
        (t.engine e).lastPass = s.frame.counter ∧ e ∉ (t.sector (sectorOfEngine e)).affected ∧ t.failing = s.failing) ∧
      (s.residOver resid = true → (t.engine e).lock = .verify ∧ (t.engine e).relock.step = 5 ∧
        (t.engine e).recovFails = (s.engine e).recovFails + 1 ∧
        (2 ≤ (s.engine e).recovFails → s.mapped.contains (.engine e) = false →
          (∃ c, (Unit'.engine e, c) ∈ t.failing) ∧ ∀ x ∈ s.failing, x ∈ t.failing)))) ∧
  (∀ (s : State) (e detail : Nat) (b : BankShift),
    (if b.isB then (s.engine e).bankBFailed else (s.engine e).bankAFailed) = false →
    s.mapped.contains (.bank e b.isB) = false →
    (b.shift = some 0 → (b.row, b.isB) ∉ ((s.bankReport e detail b).engine e).invalid ∧ (s.bankReport e detail b).cal = s.cal ∧
      (s.bankReport e detail b).failing = s.failing ∧
      (s.bankReport e detail b).centres.get 0 (heaterChan e b.row b.isB) = (s.slew (heaterChan e b.row b.isB)).present) ∧
    (∀ n : Int, b.shift = some n → n ≠ 0 →
      (b.row, b.isB) ∈ ((s.bankReport e detail b).engine e).invalid ∧
      (s.bankReport e detail b).cal.wrongLine = Nat.min 255 (s.cal.wrongLine + 1) ∧
      s.logs (s.bankReport e detail b) 0x0001 e (b.row + 256 * b2n b.isB + 4096 * toBits n 4) detail ∧
      ((b.row, b.isB) ∈ (s.engine e).searched → ∃ c, (Unit'.bank e b.isB, c) ∈ (s.bankReport e detail b).failing)) ∧
    (b.shift = none → (b.row, b.isB) ∈ ((s.bankReport e detail b).engine e).undecided ∧
      ((b.row, b.isB) ∈ (s.engine e).undecided → ∃ c, (Unit'.bank e b.isB, c) ∈ (s.bankReport e detail b).failing)) ∧
    ∀ x, x ≠ e → (s.bankReport e detail b).engine x = s.engine x)

/-- A calibration slot: a LOCKED engine whose turn it is leaves service with both banks parked, and ring trims that
RESTORE_FACTORY has replaced return to their factory values; a tone check on it flags with LOCK_EXCURSION every command that has
used the engine since its last passing check when a bank sits on another line without a lock-loss event; at the slot's end its
staged coefficients take effect, unless the verification exceeds RESID_LIMITS, and it returns LOCKED, or to SEARCH with a bank
invalid, or UNLOCKED outside 25 °C to 105 °C (log 115), with its calibration age at 0 and an entry for each CALIBRATE that took
part; while Twilight is stopped it returns HELD with the coefficients as they were. -/
def Obligations.CalibrationSlotsTakeAndReturnTheEngine : Prop :=
  (∀ (s : State) (e : Nat), s.frame.counter % 16 = 0 → s.cal.rotating = true → s.runs .twilight = true →
    (s.engine e).lock = .locked → (s.engine e).lossEvent = none → s.slotEngine (sectorOfEngine e) s.frame.counter = some e →
    Does (.calibSlotStart e) s fun t => (∀ x, x ≠ e → t.engine x = s.engine x) ∧ s.sameMem t ∧
      t.engine e = { s.engine e with lock := .calib, bankA := {}, bankB := {}, wbufs := [], calibAbandoned := false, staged := [],
                                     trimsStale := (s.engine e).trimsStale && s.slotTested e s.frame.counter } ∧
      ((s.engine e).trimsStale = false → t = { s with engines := t.engines }) ∧
      ((s.engine e).trimsStale = true → s.slotTested e s.frame.counter = false →
        ∀ c, t.cal.active.get c = if coefIsTrim c = true ∧ coefEngine c = e then coefClamp c (Config.factoryCoef s.cal.active.blob c)
          else s.cal.active.get c)) ∧
  (∀ (s : State) (e : Nat) (r : List CheckReading) (l : List BankShift), s.runs .twilight = true → (s.engine e).lock = .calib →
    s.checkShifts e true r = some l →
    Does (.toneCheckComplete e r true) s fun t => (t.cluster (e / 4)).modFails = 0 ∧ (t.engine e).lock = .calib ∧ s.sameMem t ∧
      (wrongBanks l ≠ [] → (s.engine e).lossSince = false → ∀ id j, id ∈ (s.engine e).usedBy → s.job? id = some j → j.open' = true →
        ∃ j', t.job? id = some j' ∧ j'.flags.lockExcursion = true) ∧
      ((∀ b ∈ l, b.shift = some 0) → (t.engine e).lastPass = s.frame.counter ∧ (t.engine e).usedBy = [] ∧
        (t.engine e).lossSince = false ∧ t.jobs = s.jobs) ∧
      ∀ x, x ≠ e → t.engine x = s.engine x) ∧
  (∀ (s : State) (e : Nat) (r : List CheckReading) (l : List BankShift), s.runs .twilight = true → (s.cluster (e / 4)).modFails = 1 →
    s.mapped.contains (.modulator (e / 4) 0) = false → (s.engine e).lock = .calib → s.checkShifts e true r = some l →
    Does (.toneCheckComplete e r false) s fun t => ∃ c, (Unit'.modulator (e / 4) 0, c) ∈ t.failing) ∧
  (∀ (s : State) (e : Nat) (obs : CalibObs), (s.engine e).lock = .calib → s.frame.counter % 16 = 0 → s.runs .twilight = true →
    s.slotTested e (s.frame.counter - 16) = false → s.checkShifts e true obs.tone = none →
    (s.engine e).calibAbandoned = false → (s.engine e).lossEvent = none →
    Does (.calibSlotEnd e obs) s fun t => s.sameMem t ∧ (t.engine e).calFrames = some 0 ∧
      (t.engine e).trimsStale = (s.engine e).trimsStale ∧
      (t.engine e).bankA = {} ∧ (t.engine e).bankB = {} ∧ (t.engine e).staged = [] ∧
      ((s.engine e).invalid = [] →
        (t.engine e).lock = if s.tempOk (sectorOfEngine e) then LockState.locked else .unlocked) ∧
      ((s.engine e).invalid ≠ [] → (t.engine e).lock = .search ∧ (t.engine e).relock.step = 4) ∧
      (∀ x, x ≠ e → t.engine x = s.engine x) ∧
      (s.residOver (residsOf obs.after) = true → t.cal = s.cal) ∧
      (s.residOver (residsOf obs.after) = false → ((s.engine e).staged.map (·.1)).Nodup → ∀ v ∈ (s.engine e).staged, coefIsTrim v.1 = false →
        t.cal.active.get v.1 = coefClamp v.1 v.2) ∧
      (∀ id j, s.job? id = some j → j.takesCalib e (s.frame.counter - 16) = true →
        ∃ j', t.job? id = some j' ∧ e ∈ j'.calSlots ∧ (e, (residFigures (residsOf obs.before)).1,
          (residFigures (residsOf obs.before)).2, (residFigures (residsOf obs.after)).1, (residFigures (residsOf obs.after)).2) ∈ j'.calib)) ∧
  (∀ (s : State) (e : Nat) (obs : CalibObs), (s.engine e).lock = .calib → s.frame.counter % 16 = 0 → s.runs .twilight = false →
    Does (.calibSlotEnd e obs) s fun t => (∀ x, x ≠ e → t.engine x = s.engine x) ∧ t = { s with engines := t.engines, slews := t.slews } ∧
      t.engine e = { s.engine e with lock := .held, bankA := {}, bankB := {}, wbufs := [], staged := [],
                                     heldLoss := (s.engine e).lossEvent.isSome, lossEvent := none } ∧
      ∀ c, (s.slews.any fun x => x.1 == c) = true → 32832 ≤ c → (c - 32832) / 8192 = e → (t.slew c).target = (s.slewRest c).target)

/-- A compute comb: stable lines let its OFF engines begin to lock; a second start without stable lines declares it failed,
a first one leaves it starting; an output drop stops group issue on its 32 engines and flags what they have under way with
LOCK_EXCURSION, and declares the comb failed only when it is permitted and below full bias. -/
def Obligations.CombsStartAndDrop : Prop :=
  (∀ (s : State) (c : Nat), c < 8 → (s.comb c).state = 1 → s.power.laser.getLsbD c = true → (s.comb c).failed = false →
    Does (.combStable c) s fun t => t = { s with combs := t.combs, engines := t.engines } ∧
      t.comb c = { s.comb c with state := 2, startFails := 0 } ∧ (∀ x, x ≠ c → t.comb x = s.comb x) ∧
      (∀ e, t.engine e = if combOfEngine e = c ∧ (s.engine e).lock = .off then
        { s.engine e with lock := .search, relock := { step := 4, held := true } } else s.engine e)) ∧
  (∀ (s : State) (c : Nat), c < 8 → (s.comb c).state = 1 →
    Does (.combStartTimeout c) s fun t => (t.comb c).startFails = (s.comb c).startFails + 1 ∧
      ((s.comb c).startFails = 0 → (t.comb c).state = 1 ∧ t.failing = s.failing) ∧
      (1 ≤ (s.comb c).startFails → (t.comb c).state = 0 ∧
        (s.mapped.contains (.comb c) = false → ∃ x, (Unit'.comb c, x) ∈ t.failing)) ∧
      (∀ x, x ≠ c → t.comb x = s.comb x)) ∧
  (∀ (s : State) (c : Nat), c < 8 → 2 ≤ (s.comb c).state →
    Does (.combOutputDrop c) s fun t => s.sameMem t ∧ t.combs = s.combs ∧
      (∀ e, combOfEngine e = c → t.engine e = { s.engine e with combStopped := true }) ∧
      (∀ e, combOfEngine e ≠ c → t.engine e = s.engine e) ∧
      (∀ e i j, combOfEngine e = c → i ∈ (s.engine e).issues → s.job? i.job = some j → j.open' = true →
        ∃ j', t.job? i.job = some j' ∧ j'.flags.lockExcursion = true) ∧
      (s.power.laser.getLsbD c = false ∨ 1000 ≤ (s.comb c).bias → t.failing = s.failing) ∧
      (s.power.laser.getLsbD c = true → (s.comb c).bias < 1000 → s.mapped.contains (.comb c) = false →
        ∃ x, (Unit'.comb c, x) ∈ t.failing))

/-- A declared unit is mapped out at the boundary: it leaves the list of failing units and joins the mapped-out ones; an
engine becomes MAPPED_OUT with both banks parked and entry 0x0101, a stack is out of service from there on with entry
0x0105, a lane's direction is failed with entry 0x0103, and a bank's engine goes on with its other bank, or is mapped out
itself when that has failed before. -/
def Obligations.FailedUnitsAreMappedOut : Prop :=
  ∀ (s : State) (u : Unit') (cause : Nat), s.failing.find? (fun x => x.1 == u) = some (u, cause) →
    Does (.unitMapOut u) s fun t => u ∈ t.mapped ∧ (∀ c, (u, c) ∉ t.failing) ∧ ((∀ k ∈ s.kernels, k.late = []) → s.mem = t.mem) ∧
      (∀ e, u = .engine e → (s.engine e).lock ≠ .mappedOut → (t.engine e).lock = .mappedOut ∧ (t.engine e).bankA = {} ∧
        (t.engine e).bankB = {} ∧ s.logs t 0x0101 e cause 0 ∧ (∀ x, x ≠ e → t.engine x = s.engine x)) ∧
      (∀ n, u = .stack n → t.stackBad = insertNat n s.stackBad ∧ t.engines = s.engines ∧ ∃ a, s.logs t 0x0105 n a 0) ∧
      (∀ i tx, u = .lane i tx → s.logs t 0x0103 i 0 0 ∧ t.lane i = (if tx then { s.lane i with tx := 5 } else { s.lane i with rx := 5 })) ∧
      (∀ e isB, u = .bank e isB → (s.engine e).lock ≠ .mappedOut →
        (if isB then (t.engine e).bankBFailed else (t.engine e).bankAFailed) = true ∧
        ((if isB then (s.engine e).bankAFailed else (s.engine e).bankBFailed) = false →
          (t.engine e).lock = (s.engine e).lock ∧ (t.engine e).activeB = !isB) ∧
        ((if isB then (s.engine e).bankAFailed else (s.engine e).bankBFailed) = true →
          (t.engine e).lock = .mappedOut ∧ Unit'.engine e ∈ t.mapped))

/-! ## Converters, tones, monitors and figures (06, 05, 09) -/

/-- Slew limiters, tones and monitors: every SLEW_UPDATE moves its channel's output towards the target by at most the smaller of 64
and its step limit and never past it (STEP_MAX 0 freezes it), whatever Twilight has written; the target that it writes to a bank
heater stays clear of the DAC ends by its tone's amplitude and within ±8.0 °C of its centre, and one that would have to lie beyond
marks the bank; the idle bank's heater follows the active bank's with the difference of their centres; while the comb is out of service or
in Doze no heater target is written; a modulator row heater stays within ±8.0 °C of its centre; a ring trim is written in its engine's
calibration slot alone. Every oscillator adds its increment once a cycle, and a lock detector adds, but not in Doze, the product of its
row's current and the tone reference to its trailing 4,096 products. A valid output of a monitor becomes the corrected result of
its input, with the dwell's sum, and the outputs before the first valid one after a change of input or filter are discarded; that of a
lane's receive tap refreshes the lane's receive power; a self-calibration whose factors fit their fields commits them, and one whose
factors do not marks the converter failed. The four commands complete in every state and on all operands. -/
def Obligations.SlewsTonesAndMonitors : Prop :=
  (∀ (s : State) (chan : Nat) (w : Option SlewWrite), Does (.slewUpdate chan w) s fun t =>
    t = { s with slews := t.slews, engines := t.engines } ∧
    ((s.slew chan).present ≤ (t.slew chan).target →
      (t.slew chan).present = Nat.min (t.slew chan).target ((s.slew chan).present + Nat.min 64 (t.slew chan).stepMax)) ∧
    ((t.slew chan).target ≤ (s.slew chan).present →
      (t.slew chan).present = Nat.max (t.slew chan).target ((s.slew chan).present - Nat.min 64 (t.slew chan).stepMax))) ∧
  (∀ (s : State) (chan : Nat) (w : Option SlewWrite), w = none ∨ s.runs .twilight = false → Does (.slewUpdate chan w) s fun t =>
    t = { s with slews := t.slews } ∧ (t.slew chan).target = (s.slew chan).target ∧ (t.slew chan).stepMax = (s.slew chan).stepMax ∧
    (t.slew chan).div = (s.slew chan).div ∧ ∀ x, x ≠ chan → t.slew x = s.slew x) ∧
  (∀ (s : State) (chan n d : Nat), s.runs .twilight = true → n < 128 → d < 16 →
    Does (.slewUpdate chan (some { stepMax := some n, div := some d })) s fun t => t = { s with slews := t.slews } ∧
      (t.slew chan).stepMax = n ∧ (t.slew chan).div = d ∧ (t.slew chan).target = (s.slew chan).target ∧
      ∀ x, x ≠ chan → t.slew x = s.slew x) ∧
  (∀ (s : State) (chan target : Nat), s.heaterHeld chan = true ∨ (32832 ≤ chan ∧ (s.engine ((chan - 32832) / 8192)).lock ≠ .calib) →
    Does (.slewUpdate chan (some { target := some target })) s fun t => t.engines = s.engines ∧
      (t.slew chan).target = (s.slew chan).target ∧ ∀ x, x ≠ chan → t.slew x = s.slew x) ∧
  (∀ (s : State) (chan target amp c : Nat), s.runs .twilight = true → s.heaterHeld chan = false → chan < 32832 →
    amp = (s.tones.get {} chan).amp → amp ≤ 32767 → c = s.centres.get 0 chan → c = 0 ∨ (amp ≤ c ∧ c ≤ 65535 - amp) →
    Does (.slewUpdate chan (some { target := some target })) s fun t =>
      amp ≤ (t.slew chan).target ∧ (t.slew chan).target ≤ 65535 - amp ∧
      (c = 0 ∨ (((t.slew chan).target : Int) - c).natAbs ≤ headroomBits) ∧
      (amp ≤ target → target ≤ 65535 - amp → c = 0 ∨ ((target : Int) - c).natAbs ≤ headroomBits → (t.slew chan).target = target) ∧
      (32768 ≤ chan → t.engines = s.engines ∧ ∀ x, x ≠ chan → t.slew x = s.slew x) ∧
      (chan < 32768 → (t.slew chan).target ≠ target → (chan / 2 % 64, chan % 2 == 1) ∈ (t.engine (chan / 128)).beyond)) ∧
  (∀ (s : State) (e row target a b idle amp : Nat) (isB : Bool), s.runs .twilight = true → e < 256 → row < 64 →
    s.heaterHeld (heaterChan e row isB) = false → (s.engine e).activeB = isB → idle = heaterChan e row (!isB) →
    a = s.centres.get 0 (heaterChan e row isB) → b = s.centres.get 0 idle → 0 < a → 0 < b → amp = (s.tones.get {} idle).amp →
    (s.tones.get {} (heaterChan e row isB)).amp ≤ a → a + (s.tones.get {} (heaterChan e row isB)).amp ≤ 65535 →
    Does (.slewUpdate (heaterChan e row isB) (some { target := some target })) s fun t =>
      a + amp ≤ (t.slew (heaterChan e row isB)).target + b → (t.slew (heaterChan e row isB)).target + b + amp ≤ a + 65535 →
      (t.slew idle).target + a = (t.slew (heaterChan e row isB)).target + b) ∧
  (∀ (s : State) (chan target : Nat), s.runs .twilight = true → 32832 ≤ chan → (s.engine ((chan - 32832) / 8192)).lock = .calib →
    s.slotTested ((chan - 32832) / 8192) (s.frame.counter - s.frame.counter % 16) = false → target < 65536 →
    Does (.slewUpdate chan (some { target := some target })) s fun t => t.engines = s.engines ∧
      (s.frame.counter % 16 < 14 → (t.slew chan).target = target) ∧
      (s.frame.counter % 16 = 15 → (t.slew chan).target = (s.slew chan).target) ∧ ∀ x, x ≠ chan → t.slew x = s.slew x) ∧
  (∀ (s : State) (currents : List (Nat × Int)), Does (.toneOscillatorCycle currents) s fun t =>
    t = { s with oscCycles := s.oscCycles + 1, detect := t.detect } ∧
    (∀ chan, t.tonePhase chan < 2 ^ 32 ∧ ((s.tone chan).since ≤ s.oscCycles →
      t.tonePhase chan = (s.tonePhase chan + clampInc (s.tone chan).inc) % 2 ^ 32)) ∧
    (s.detecting = false → t.detect = s.detect) ∧
    (∀ d i, currents = [(d, i)] → d < 16448 → s.detecting = true → t.detected d = i * t.toneOutput (t.reference d) +
      ((s.detect.get [] d).filter fun y => decide (s.oscCycles + 1 < y.1 + 4096)).foldl (fun (n : Int) y => n + y.2) 0)) ∧
  (∀ (s : State) (k : Nat) (o : MonOut), Does (.monitorOutput k o) s fun t => s.sameMem t ∧ t.jobs = s.jobs ∧ t.engines = s.engines ∧
    t.frame = s.frame ∧ (∀ x, x ≠ k → t.monitor x = s.monitor x) ∧ (68 ≤ k → t = s)) ∧
  (∀ (s : State) (k : Nat) (raw : Int) (m : Monitor), m = s.monitor k → k < 68 →
    (0 < m.skip → exec (.monitorOutput k { raw := raw }) s = .next (s.modMonitor k fun m => { m with skip := m.skip - 1 })) ∧
    (m.skip = 0 → m.selfcal = false → Does (.monitorOutput k { raw := raw }) s fun t =>
      t = { s with monitors := t.monitors, clusters := t.clusters, link := t.link, out := t.out } ∧
      (k < 64 ∨ s.runs .twilight = false → t.link = s.link ∧ t.out = s.out) ∧
      (∀ i, 64 ≤ k → s.runs .twilight = true → laneOfInput (k - 64) m.input = some i →
        (t.lane i).rxPower = clampInt (-32767) 32767 (Config.tapPower k m.key (correct m raw)) ∧
        (i = 258 → ((t.lane i).rx = 3 ↔ -2500 < (t.lane i).rxPower)) ∧ ∀ x, x ≠ i → t.lane x = s.lane x) ∧
      (t.monitor k).results.get (0, Dy.zero) m.key = (correct m raw, s.dwellSum k m) ∧
      (m.input ≠ centreInput k → m.dwell = true → (t.monitor k).input = m.input) ∧
      (m.input ≠ centreInput k → m.dwell = false → (t.monitor k).skip = m.order ∧ (t.monitor k).centreNext = !m.centreNext) ∧
      ∀ x, x ≠ k → t.monitor x = s.monitor x) ∧
    (m.selfcal = true → m.skip = 0 → m.calStep = 0 → m.calN = 3 → Does (.monitorOutput k { raw := raw }) s fun t =>
      (t.monitor k).calZero = m.calSum + raw ∧ (t.monitor k).calStep = 1 ∧ (t.monitor k).input = selfcalInput k 1 ∧
      (t.monitor k).skip = m.order) ∧
    (∀ input engine order decim, 0 < m.skip → m.selfcal = false → s.runs .twilight = true → inputDefined k input = true → order < 4 →
      4 ≤ decim → decim ≤ 256 → engine < 4 →
      Does (.monitorOutput k { raw := raw, choice := some { dwell := some (input, engine, order, decim) } }) s fun t =>
        (t.monitor k).dwell = true ∧ (t.monitor k).input = input ∧ (t.monitor k).order = order ∧ (t.monitor k).decim16 = decim ∧
        (t.monitor k).skip = order)) ∧
  (∀ (s : State) (k : Nat) (offsetUp gainUp ppmUp : Bool), Does (.monitorSelfcalComplete k offsetUp gainUp ppmUp) s fun t =>
    s.sameMem t ∧ t.jobs = s.jobs ∧ t.engines = s.engines ∧ (∀ x, x ≠ k → t.monitor x = s.monitor x) ∧
    ((s.monitor k).selfcal = false ∨ (s.monitor k).calStep ≠ 3 → t = s)) ∧
  (∀ (s : State) (k : Nat) (m : Monitor) (offsetUp gainUp ppmUp good : Bool) (offset gain : Int), m = s.monitor k → m.selfcal = true →
    m.calStep = 3 → offset = m.newOffset offsetUp → gain = m.newGain offset gainUp →
    good = (decide (-2048 ≤ offset) && decide (offset < 2048) && decide (-2048 ≤ gain) && decide (gain < 2048) &&
      decide (0 < m.refSum offset)) →
    Does (.monitorSelfcalComplete k offsetUp gainUp ppmUp) s fun t => (t.monitor k).selfcal = false ∧ (t.monitor k).calTemp = m.centre ∧
      (good = true → (t.monitor k).offset = offset ∧ (t.monitor k).gain = gain ∧ (t.monitor k).failed = false) ∧
      (good = false → (t.monitor k).failed = true ∧ (t.monitor k).offset = m.offset ∧ (t.monitor k).gain = m.gain ∧
        t.log.next = s.log.next + 1) ∧
      ∀ x, x ≠ k → t.monitor x = s.monitor x)

/-- Records and figures: at the end of a scan cycle the loss locator names, for each path of the converter, the first stage that
has lost more than 1 dB, and logs a change; after 24 h of powered time an ageing record puts the bias of the twelve combs in front
of the record; at a boundary divisible by 128 the residual figures of each engine with samples are shown and its window restarts,
and a window that SAMPLE_EN has cut leaves them (07 R379); a correctable error that patrol scrub finds is counted for its stack
and leaves memory as it is, an uncorrectable one poisons the block and is logged (0x0200), a clean block moves the scrub
position alone; a stack that answers no more is declared failed. SLEW_UPDATE, TONE_OSCILLATOR_CYCLE, MONITOR_OUTPUT and
MONITOR_SELFCAL_COMPLETE complete in every state and on all operands: the first moves its channel by at most 64 and touches the limiters
and the engines' heater marks alone, the second advances the oscillators, and the other two touch no other converter. -/
def Obligations.RecordsFiguresAndScrub : Prop :=
  (∀ (s : State) (k : Nat), k < 64 → s.runs .twilight = true → (s.monitor k).cycled = true → (s.monitor k).failed = false →
    Does (.lossLocatorRun false k) s fun t => s.sameMem t ∧ (t.monitor k).cycled = false ∧
      (∀ i < 4, s.combOn (4 * k + i) = true → (t.engine (4 * k + i)).lossStage = firstLoss (s.enginePath k i).1) ∧
      (∀ i < 4, s.combOn (4 * k + i) = false → t.engine (4 * k + i) = s.engine (4 * k + i)) ∧
      (∀ x, x / 4 ≠ k → t.engine x = s.engine x) ∧
      ((∀ i < 4, s.combOn (4 * k + i) = true → (s.engine (4 * k + i)).lossStage = firstLoss (s.enginePath k i).1) → t.log = s.log)) ∧
  (∀ (s : State) (d : Nat), d < 4 → s.runs .twilight = true → (s.monitor (64 + d)).cycled = true → (s.monitor (64 + d)).failed = false →
    Does (.lossLocatorRun true d) s fun t => s.sameMem t ∧ t.engines = s.engines ∧
      (∀ i ∈ lanesOf d, (s.lane i).tx ≠ 1 → (s.lane i).tx ≠ 4 → (s.lane i).tx ≠ 5 →
        (t.lane i).lossStage = firstLoss (s.lanePath d i)) ∧
      (∀ i, i ∉ lanesOf d ∨ (s.lane i).tx = 1 ∨ (s.lane i).tx = 4 ∨ (s.lane i).tx = 5 → t.lane i = s.lane i)) ∧
  (∀ (s : State) (hours : Nat), s.runs .dawn = true → frames24h ≤ s.cal.sinceRecord → hours = s.poweredHours →
    Does (.ageingRecordWrite hours) s fun t =>
    t.cal.ageing = (((s.cal.ageing.head?.map (·.1)).getD 0) + s.cal.sinceRecord / framesHour, (List.range 12).map s.biasOf) ::
      s.cal.ageing ∧
    t.cal.sinceRecord = s.cal.sinceRecord % framesHour ∧ s.sameMem t ∧
    (∀ c, (t.comb c).bias = (s.comb c).bias) ∧ t.engines = s.engines ∧
    (s.runs .twilight = true → ∀ c < 8, (t.comb c).lifeEst = lifeEst t.cal.ageing c (s.comb c).bias)) ∧
  (∀ s : State, s.frame.counter % 128 = 0 → Does .residWindowEnd s fun t =>
    t = { s with engines := t.engines, cal := { s.cal with windowCut := false }, shown := t.shown } ∧
      (s.runs .twilight = true → (s.engines.map (·.1)).Nodup → ∀ x ∈ t.engines, t.shownValue (0x20500 + 4 * x.1) = x.2.residWord % 2 ^ 32) ∧
      (s.runs .twilight = false → t.shown = s.shown) ∧ ∀ e, (t.engine e).samples = 0 ∧
      (t.engine e).sumSq = Dy.zero ∧ (t.engine e).peakAbs = Dy.zero ∧
      (0 < (s.engine e).samples → s.runs .twilight = true → s.cal.windowCut = false →
        (t.engine e).residRms = rms88 (s.engine e).sumSq (s.engine e).samples ∧ (t.engine e).residPeak = peak88 (s.engine e).peakAbs) ∧
      ((s.engine e).samples = 0 ∨ s.runs .twilight = false ∨ s.cal.windowCut = true →
        (t.engine e).residRms = (s.engine e).residRms ∧ (t.engine e).residPeak = (s.engine e).residPeak) ∧
      (t.engine e).lock = (s.engine e).lock ∧ (t.engine e).bankA = (s.engine e).bankA) ∧
  (∀ (s : State) (stack g b : Nat) (ecc : EccResult), s.power.state = .run → stack < 12 → g < 0x2000000 → b < 32 →
    s.stackOut stack = false →
    Does (.scrubRead stack g b ecc) s fun t => t.mem = s.mem ∧ t.scrubPos.get 0 stack = 2048 * g + 64 * b ∧
      (∀ x, x ≠ stack → t.scrubPos.get 0 x = s.scrubPos.get 0 x ∧ t.corrected.get 0 x = s.corrected.get 0 x) ∧
      (ecc = .clean → s.poisoned (s.granuleAddr stack g + 64 * b) = false → s.quietAt (s.granuleAddr stack g + 64 * b) 64 = true →
        t.corrected = s.corrected ∧ t.poison = s.poison ∧ t.log = s.log) ∧
      (ecc = .corrected → s.poisoned (s.granuleAddr stack g + 64 * b) = false → t.corrected.get 0 stack = s.corrected.get 0 stack + 1 ∧ t.poison = s.poison ∧ t.log = s.log) ∧
      (ecc = .uncorrectable ∨ s.poisoned (s.granuleAddr stack g + 64 * b) = true →
        t.poison = insertNat ((s.granuleAddr stack g + 64 * b) / 64) s.poison ∧
        s.logs t 0x0200 stack 0 (s.granuleAddr stack g + 64 * b))) ∧
  (∀ (s : State) (stack : Nat), stack < 12 → s.mapped.contains (.stack stack) = false → s.released = true →
    Does (.hbmStackNoAnswer stack) s fun t => (∃ c, (Unit'.stack stack, c) ∈ t.failing) ∧ s.sameMem t ∧ t.mapped = s.mapped) ∧
  (∀ (s : State) (chan : Nat) (w : Option SlewWrite), ∃ t, exec (.slewUpdate chan w) s = .next t ∧
    t = { s with slews := t.slews, engines := t.engines } ∧ (t.slew chan).present ≤ (s.slew chan).present + 64 ∧
    (s.slew chan).present ≤ (t.slew chan).present + 64) ∧
  (∀ (s : State) (currents : List (Nat × Int)), ∃ t, exec (.toneOscillatorCycle currents) s = .next t ∧
    t = { s with oscCycles := s.oscCycles + 1, detect := t.detect }) ∧
  (∀ (s : State) (k : Nat) (o : MonOut), ∃ t, exec (.monitorOutput k o) s = .next t ∧ t.mem = s.mem ∧ t.jobs = s.jobs ∧
    ∀ x, x ≠ k → t.monitor x = s.monitor x) ∧
  (∀ (s : State) (k : Nat) (offsetUp gainUp ppmUp : Bool), ∃ t, exec (.monitorSelfcalComplete k offsetUp gainUp ppmUp) s = .next t ∧
    t.mem = s.mem ∧ t.jobs = s.jobs ∧ ∀ x, x ≠ k → t.monitor x = s.monitor x)

/-! ## Frame time (10) -/

/-- The frame source: a valid boundary marker is measured and gives the phase, arms the decision of the next numbered marker
in HOLDOVER, and ends REALIGNING at a phase of one symbol; a mean interval outside tolerance makes the anchor absent and
puts a LOCKED source into HOLDOVER; a marker with more than two chip errors, or of a LOCKED source more than 64 symbols off,
is none. Numbered markers, holdover and steps: the first acquisition, and a requested step, take the marker's number as soon
as no command is accepted and not completed, and the first acquisition waits otherwise; waits that are kept as frame numbers move
with the counter, so that they stay counts of boundaries (R17); after a holdover the number of the
frame and a phase within half a frame lead to realignment with the counter unchanged, anything else leaves a step pending.
Four missing markers lead to HOLDOVER; more than 1 s of it is logged and marks the commands that execute. -/
def Obligations.MarkersSteerTheFrameSource : Prop :=
  ((∀ (s : State) (n : Word32) (k : Nat) (e : Int), chipErrors n ≤ 2 → s.released = true → s.frame.anchorFreq = false →
    s.frame.hadMarker = true → intervalBad ((k :: s.frame.intervals).take 4096) = false →
    (s.frame.source = .locked → e.natAbs ≤ 64 → Does (.boundaryMarker n e k) s fun t =>
      t = { s with frame := { s.frame with intervals := (k :: s.frame.intervals).take 4096, markerSeen := true, phase := e } }) ∧
    (s.frame.source = .holdover → Does (.boundaryMarker n e k) s fun t =>
      t = { s with frame := { s.frame with intervals := (k :: s.frame.intervals).take 4096, markerSeen := true, phase := e,
                                           markerInHold := true } }) ∧
    (s.frame.source = .realigning → e.natAbs ≤ 1 → Does (.boundaryMarker n e k) s fun t => t.frame.source = .locked ∧
      t.frame.over1s = false ∧ t.frame.counter = s.frame.counter ∧ s.sameMem t ∧ t.jobs = s.jobs ∧
      (s.frame.over1s = false → t.log = s.log) ∧
      (s.frame.over1s = true → s.logs t 0x0400 0 1 (framesMs s.frame.holdFrames)))) ∧
  (∀ (s : State) (n : Word32) (k : Nat) (e : Int), chipErrors n ≤ 2 → s.released = true → s.frame.hadMarker = false → s.frame.source = .localFrames →
    s.frame.anchorFreq = false →
    exec (.boundaryMarker n e k) s = .next { s with frame := { s.frame with hadMarker := true, markerSeen := true, phase := e } }) ∧
  (∀ (s : State) (n : Word32) (k : Nat) (e : Int), chipErrors n ≤ 2 → e.natAbs ≤ 64 → s.released = true → s.frame.source = .locked →
    s.frame.hadMarker = true → intervalBad ((k :: s.frame.intervals).take 4096) = true →
    Does (.boundaryMarker n e k) s fun t => t.frame.source = .holdover ∧ t.frame.anchorFreq = true ∧ t.frame.holdFrames = 0 ∧
      t.frame.counter = s.frame.counter) ∧
  (∀ (s : State) (n : Word32) (k : Nat) (e : Int), 2 < chipErrors n ∨ (s.frame.source = .locked ∧ 64 < e.natAbs) →
    exec (.boundaryMarker n e k) s = .next s)) ∧
  ((∀ (s : State) (n : Word64) (crc : Word32) (e : Int), markerValid n crc = true → s.frame.anchorFreq = false → s.released = true →
    (s.frame.source = .localFrames → s.frame.acquired = false → s.busyJobs = true →
      Does (.numberedMarker n crc e) s fun t => t = { s with frame := { s.frame with stepPending := true }, jobs := t.jobs } ∧
        ∀ id j, s.job? id = some j → j.phase = .running → ∃ j', t.job? id = some j' ∧ j'.flags.holdover = true) ∧
    (s.busyJobs = false → (s.frame.source = .localFrames ∧ s.frame.acquired = false) ∨ s.frame.stepRequested = true →
      Does (.numberedMarker n crc e) s fun t => t.frame.counter = n.toNat ∧ t.frame.symbol = 0 ∧ t.frame.source = .locked ∧
        t.frame.acquired = true ∧ t.frame.stepPending = false ∧ t.frame.stepRequested = false ∧ s.sameMem t ∧
        t.frame.committed = n.toNat + 63 ∧ t.jobs = s.jobs.map (fun j => j.moved ((n.toNat : Int) - s.frame.counter)) ∧
        (∀ c, (t.conn c).frameP = if (s.conn c).attn then shiftFrame ((n.toNat : Int) - s.frame.counter) (s.conn c).frameP
          else (s.conn c).frameP) ∧
        t.power.floorPlan = s.power.floorPlan.map (fun x => (shiftFrame ((n.toNat : Int) - s.frame.counter) x.1, x.2)) ∧
        t.cal.rotating = false ∧ t.cal.resumeDue = (s.cal.rotating || s.cal.resumeDue)) ∧
    (s.frame.source = .holdover → s.frame.markerInHold = true → s.frame.stepRequested = false →
      (e.natAbs ≤ 51200 → n.toNat = (if s.frame.symbol ≤ 51200 then s.frame.counter else s.frame.counter + 1) →
        Does (.numberedMarker n crc e) s fun t =>
          t = { s with frame := { s.frame with source := .realigning, phase := e, missed := 0, markerInHold := false }, jobs := t.jobs } ∧
          ∀ id j, s.job? id = some j → j.phase = .running → ∃ j', t.job? id = some j' ∧
            j'.flags.holdover = (j.flags.holdover || s.frame.over1s)) ∧
      (51200 < e.natAbs ∨ n.toNat ≠ (if s.frame.symbol ≤ 51200 then s.frame.counter else s.frame.counter + 1) →
        Does (.numberedMarker n crc e) s fun t => t = { s with frame := { s.frame with stepPending := true, phase := e }, jobs := t.jobs } ∧
          ∀ id j, s.job? id = some j → j.phase = .running → (s.frame.over1s || decide (frames1s < s.frame.holdFrames)) = true →
            ∃ j', t.job? id = some j' ∧ j'.flags.holdover = true))) ∧
  (∀ (s : State) (n : Word64) (crc : Word32) (e : Int), markerValid n crc = false → exec (.numberedMarker n crc e) s = .next s) ∧
  (∀ s : State, s.frame.source = .locked → 4 ≤ s.frame.missed → Does .markerTimeout s fun t =>
    t = { s with frame := t.frame } ∧ t.frame.source = .holdover ∧ t.frame.holdFrames = s.frame.missed ∧
      t.frame.counter = s.frame.counter) ∧
  (∀ s : State, s.frame.source = .realigning → 4 ≤ s.frame.missed → Does .markerTimeout s fun t =>
    t = { s with frame := t.frame } ∧ t.frame.source = .holdover ∧ t.frame.holdFrames = s.frame.holdFrames) ∧
  (∀ s : State, s.frame.source = .holdover → frames1s < s.frame.holdFrames → s.frame.holdLogged = false →
    Does .holdover1s s fun t => t.frame = { s.frame with over1s := true, holdLogged := true } ∧
      s.logs t 0x0400 0 0 (framesMs s.frame.holdFrames) ∧ s.sameMem t ∧
      ∀ id j, s.job? id = some j → j.phase = .running → ∃ j', t.job? id = some j' ∧ j'.flags.holdover = true))

/-- A frame boundary: the counter moves on by one, modulo 2⁶⁴, and the symbol starts at 0; Noon, when it runs, commits frames up to 63 past
the new one, and the committed frames keep their distance when the counter returns to 0; kernels' frame traffic starts from zero, and their requests that waited go out, SHADOW_CTRL takes its written value and CFG_COMMIT takes the reference;
no byte of memory changes but by stores that waited. While REFCLK is lost nothing changes. -/
def Obligations.BoundariesBeginTheNextFrame : Prop :=
  (∀ (s : State) (o : BoundaryObs), s.power.refclkLost = false → Does (.frameBoundary o) s fun t =>
    t.frame.counter = (s.frame.counter + 1) % 2 ^ 64 ∧ t.frame.symbol = 0 ∧ t.frame.markerSeen = false ∧
    ((∀ k ∈ s.kernels, k.late = []) → s.sameMem t) ∧
    (∀ n, n = (if s.frame.counter + 1 < 2 ^ 64 then s.frame.committed else shiftFrame (-(2 ^ 64)) s.frame.committed) →
      t.frame.committed = if s.runs .noon then Nat.max n ((s.frame.counter + 1) % 2 ^ 64 + 63) else n) ∧
    (∀ k ∈ t.kernels, k.inFrame = 0 ∨ ∃ x ∈ s.kernels, x.job = k.job ∧ x.late ≠ []) ∧ t.cal.shadowNext = none ∧
    (∀ n b, s.cal.shadowNext = some (n, b) → t.cal.log2N = n ∧ t.cal.sampleEn = b) ∧
    (s.cal.shadowNext = none → t.cal.log2N = s.cal.log2N ∧ t.cal.sampleEn = s.cal.sampleEn) ∧
    (s.runs .noon = true → s.cfg.commitDue = true → t.cfg.ref = t.cfg.crc ∧ t.cfg.armed = true ∧ t.cfg.commitDue = false ∧
      t.cfg.mismatch = s.cfg.mismatch) ∧
    (∀ c < 16, (t.cq c).wrote = false) ∧ t.sessions = s.sessions ∧ t.counters = s.counters) ∧
  (∀ (s : State) (o : BoundaryObs), s.power.refclkLost = true → exec (.frameBoundary o) s = .next s)

/-! ## Fawell links (12) -/

/-- A wavelength plan: Noon validates an armed plan and holds it armed, or rejects it with the code of the first condition it
breaks; at its frame the armed plan becomes active, its enabled lanes take its lines, retune in slots 0 and 1 when they have
trained on the new line and else train with no slot planned up to PLAN_AT + 244 (R571), and a peer context keeps its counts
exactly when both plans give it the same address and identity; frames that have gone out to a context that does not, and
acknowledgements to it, are dropped. -/
def Obligations.PlansAreValidatedAndActivated : Prop :=
  (∀ (s : State) (size : Nat) (readable : Bool) (e : Nat), s.link.armed = 1 → s.runs .noon = true →
    size = 2112 + 16 * Nat.min 4096 (s.word (s.link.planAddr + 2) 2) →
    readable = (s.isHbm s.link.planAddr && s.isHbm (s.link.planAddr + size - 1) && (s.unreadableBlock s.link.planAddr size).isNone) →
    e = s.planError (s.bytes s.link.planAddr size) readable →
    Does .planValidation s fun t => t.link.armed = (if e = 0 then 2 else 3) ∧ t.link.err = e ∧ t.link.armedAt = s.link.planAt ∧
      t.link.armedPlan = (if e = 0 then some (parsePlan (s.bytes s.link.planAddr size) (field (s.bytes s.link.planAddr size) 2 2)) else none) ∧
      t.link.active = s.link.active ∧ t.link.lanes = s.link.lanes ∧ s.sameMem t ∧ t.jobs = s.jobs) ∧
  (∀ (s : State) (bs : List Byte), s.planError bs true = 0 → field bs 0 2 = 1 ∧ 1 ≤ field bs 2 2 ∧ field bs 2 2 ≤ 4096 ∧
    planLines (parsePlan bs (field bs 2 2)) = false ∧ s.link.fabricAddr ≠ 0 ∧ s.frame.counter + 66 ≤ s.link.planAt ∧
    (∀ l ∈ (parsePlan bs (field bs 2 2)).lanes, (l.txEn = true → (parsePlan bs (field bs 2 2)).direct l.txPeer = true) ∧
      (l.rxEn = true → (parsePlan bs (field bs 2 2)).direct l.rxPeer = true)) ∧
    ∀ j ∈ s.jobs, j.linksFrom s.link.planAt = false) ∧
  (∀ (s : State) (p : Plan), s.link.armedPlan = some p → s.link.armed = 2 → s.link.armedAt ≤ s.frame.counter →
    Does .planActivation s fun t => t.link.active = some p ∧ t.link.armed = 0 ∧ t.link.armedPlan = none ∧
      t.link.activations = (s.link.activations + 1) % 65536 ∧ s.sameMem t ∧ t.jobs = s.jobs ∧
      (∀ n, t.link.peers.get {} n = if keepsPeer s.link.active (some p) n then s.link.peers.get {} n else {}) ∧
      (∀ x, x ∈ t.link.tx ↔ x ∈ s.link.tx ∧ (keepsPeer s.link.active (some p) x.peer = true ∨ (x.sent = false ∧ x.resent = false ∧ x.kind ≠ 4))) ∧
      (∀ i < 256, ∀ l, p.lanes[i]? = some l →
        (t.lane i).txLine = (if l.txEn then l.txLine else (s.lane i).txLine) ∧
        (t.lane i).rxLine = (if l.rxEn then l.rxLine else (s.lane i).rxLine) ∧
        ((s.lane i).txChanges l = true → (l.txLine ∈ (s.lane i).txLines → (t.lane i).retune = some s.link.armedAt) ∧
          (l.txLine ∉ (s.lane i).txLines → (t.lane i).noSlotsUntil = s.link.armedAt + 245 ∧ (t.lane i).tx ≠ 3)) ∧
        ((s.lane i).rxChanges l = true → (l.rxLine ∈ (s.lane i).rxLines → (t.lane i).rxRetune = some s.link.armedAt) ∧
          (l.rxLine ∉ (s.lane i).rxLines → (t.lane i).noRxUntil = s.link.armedAt + 245 ∧ (t.lane i).rx ≠ 3))) ∧
      (∀ i, 256 ≤ i → t.lane i = s.lane i))

/-- A lane: answered at probe power its directions train that the plan lets (R595); training that succeeds with the identity of its peer records brings it into
service from the next boundary; the third failure in a row, or another identity, fails it and is logged; loss of light
darkens it and puts the lanes paired with it back to probe power; sixteen undecodable codewords, or a BER above 2 × 10⁻⁴ over
a window, take it out of service to retrain. -/
def Obligations.LanesTrainServeAndFail : Prop :=
  (∀ (s : State) (i : Nat), i < 258 → s.laneLit i = true → (s.lane i).tx = 1 →
    s.txHeard i = true ∨ s.rxOn i = true →
    Does (.laneTrainingStart i) s fun t =>
      t.lane i = { s.lane i with tx := if s.txHeard i then 2 else 1, rx := if s.rxOn i then 2 else (s.lane i).rx } ∧ (∀ x, x ≠ i → t.lane x = s.lane x) ∧
      s.sameMem t ∧ t.jobs = s.jobs) ∧
  (∀ (s : State) (i : Nat), (s.lane i).tx = 2 ∨ (s.lane i).rx = 2 → Does (.laneTrained i .failed) s fun t => (∀ x, x ≠ i → t.lane x = s.lane x) ∧
    ((s.lane i).fails ≤ 1 → t.lane i = { s.lane i with fails := (s.lane i).fails + 1 } ∧ t.log = s.log) ∧
    (2 ≤ (s.lane i).fails → t.lane i = { s.lane i with tx := 5, rx := 5, fails := 0 } ∧ s.logs t 0x0103 i 0 0)) ∧
  (∀ (s : State) (i node req data : Nat) (w : LaneIdent) (bond : Bool), 256 ≤ i → i < 258 → (s.lane i).tx = 2 ∨ (s.lane i).rx = 2 →
    (∀ r ∈ s.ha, r.held = false) →
    Does (.laneTrained i (.trained w bond node req data)) s fun t =>
      (t.link.ports.get {} (i - 256)).hostReq = req ∧ (t.link.ports.get {} (i - 256)).hostData = data ∧ (t.lane i).fails = 0) ∧
  (∀ (s : State) (i node req data : Nat) (w : LaneIdent) (bond : Bool), (s.lane i).tx = 2 ∨ (s.lane i).rx = 2 → i < 256 →
    Does (.laneTrained i (.trained w bond node req data)) s fun t => (∀ x, x ≠ i → t.lane x = s.lane x) ∧ s.sameMem t ∧
      (s.identityOk i w = true → (t.lane i).tx = (if (s.lane i).tx = 2 then 3 else (s.lane i).tx) ∧
        (t.lane i).rx = (if (s.lane i).rx = 2 then 3 else (s.lane i).rx) ∧ (t.lane i).fails = 0 ∧
        ((s.lane i).tx = 2 → s.frame.counter + 1 ≤ (t.lane i).noSlotsUntil ∧ (s.lane i).txLine ∈ (t.lane i).txLines) ∧
        ((s.lane i).rx = 2 → s.frame.counter + 1 ≤ (t.lane i).noRxUntil ∧ (s.lane i).rxLine ∈ (t.lane i).rxLines)) ∧
      (s.identityOk i w = false → (t.lane i).tx = 5 ∧ (t.lane i).rx = 5 ∧ s.logs t 0x0103 i 1 w.uid.toNat)) ∧
  (∀ (s : State) (i : Nat), i < 258 → Does (.lossOfLight i) s fun t => s.sameMem t ∧
    (∀ id j, s.job? id = some j → ∃ j', t.job? id = some j' ∧ { j' with flags := j.flags, guardFrom := j.guardFrom } = j ∧
      (j' = j ∨ j'.flags = { j.flags with remapped := true })) ∧
    (t.lane i).rx = (if (s.lane i).rx = 5 then 5 else 1) ∧
    (∀ k ∈ s.pairedTx i, (t.lane k).tx = if (s.lane k).tx = 2 ∨ (s.lane k).tx = 3 then 1 else (s.lane k).tx) ∧
    (∀ k, k ∉ s.pairedTx i → (t.lane k).tx = (s.lane k).tx) ∧ (∀ k, k ≠ i → (t.lane k).rx = (s.lane k).rx)) ∧
  (∀ (s : State) (i : Nat), i < 258 → s.laneLit i = true → (s.lane i).tx = 1 ∨ (s.lane i).tx = 4 ∨ (s.lane i).tx = 5 →
    exec (.probePulse i) s = .next (s.send (.probe i))) ∧
  (∀ (s : State) (i : Nat), (s.lane i).rx = 3 → Does (.laneFecFailure i) s fun t =>
    t.lane i = { s.lane i with tx := if (s.lane i).tx = 3 then 2 else (s.lane i).tx, rx := 2 } ∧
    (∀ x, x ≠ i → t.lane x = s.lane x) ∧ s.sameMem t ∧
    ∀ p id j n, s.planLane i = some p → s.job? id = some j → j.phase = .running → n ∈ j.peersNamed → s.goesBy p.txPeer n = true →
      ∃ j', t.job? id = some j' ∧ j'.flags.remapped = true ∧ j'.guardFrom = some (j.guardFrom.getD (s.frame.counter + 1))) ∧
  (∀ (s : State) (f : LaneFigures) (b : Bool) (m : Nat) (x : Int), s.frame.counter % 128 = 0 → f.lane < 258 →
    fp32.decode f.ber.toNat = .fin b m x →
    Does (.laneWindowEnd [f]) s fun t => (t.lane f.lane).width = f.width ∧ (t.lane f.lane).height = f.height ∧
      (t.lane f.lane).ber = f.ber ∧ (t.lane f.lane).rxPower = (s.lane f.lane).rxPower ∧ s.sameMem t ∧
      (s.runs .twilight = true → t.shownValue (0x21000 + 4 * f.lane) = (t.lane f.lane).eyeWord % 2 ^ 32) ∧
      (t.lane f.lane).rx = (if (s.lane f.lane).rx = 3 ∧ (Dy.ofInt 2).lt ((⟨m, x⟩ : Dy).mul (Dy.ofInt 10000)) = true then 2
        else (s.lane f.lane).rx))

/-- Slot frames of a COLLECT: the sender announces itself to each peer and queues its bytes, which go out on a lane that
reaches the peer, each once a slot, in the planned slots that are not held for relay (R574), with the header of R579 and its CRC-32C;
arriving data for a receive entry of the running command are written to its elements, counted and
acknowledged; an acknowledgement completes the range; frames not acknowledged go out again on request. A frame that is
damaged, or that arrives on a lane out of service, is discarded; one for another device is relayed to the peer it names on a
lane of the same I/O die that reaches that peer directly and has relay slots, unchanged, or dropped, as is one that has waited
there for more than eight slots (R577). -/
def Obligations.SlotFramesMoveOrRelayBytes : Prop :=
  ((∀ (s : State) (id cid : Nat) (j : Job) (es : List CollEntry) (l : List TxFrame), s.job? id = some j → j.hdr.opcode = 0x05 →
    s.mayStart j = true → j.body = .collect cid es → (s.begin' j).sendFrames j cid es ((List.range es.length).zip es) = .ok (l, none) →
    Does (.collect id) s fun t => s.sameMem t ∧
      t.link.tx = s.link.tx ++ ((es.map fun e => e.peer).eraseDups.map fun p => { peer := p, kind := 1, job := id, entry := 0, ident := cid, offset := 0, data := [] }) ++ l) ∧
  (∀ (s : State) (lane : Nat) (x : TxFrame), s.laneCarries lane = true →
    (s.relayRoom lane = true → ∀ r ∈ s.link.relays, r.lane = lane → r.at' + 6400 < s.now) → s.ownRoom lane = true →
    s.nextFrame? lane = some x →
    Does (.slotFrameSend lane) s fun t => s.sameMem t ∧ t.jobs = s.jobs ∧
      (∃ f, t.out = s.out ++ [.slotFrame f] ∧ f.lane = lane ∧ f.data = x.data ∧ f.flags = 0 ∧ f.srcFa = s.link.fabricAddr.toNat ∧
        (x.kind < 2 ^ 8 → f.kind = x.kind) ∧ (x.entry < 2 ^ 16 → f.entry = x.entry) ∧ (x.ident < 2 ^ 32 → f.ident = x.ident) ∧
        (x.offset < 2 ^ 48 → f.offset = x.offset) ∧ (s.peerFa x.peer < 2 ^ 32 → f.dstFa = s.peerFa x.peer) ∧
        (x.data.length ≤ 3168 → f.length = x.data.length ∧ f.crcOk = true)) ∧
      (t.lane lane).bytesSent = (s.lane lane).bytesSent + x.data.length ∧ t.laneCarries lane = false ∧
      (t.link.peers.get {} x.peer).sent = (s.link.peers.get {} x.peer).sent + 1 ∧
      (x.kind = 2 ∨ x.kind = 3 → t.link.tx = mapIf (fun y => y == x) (fun y => { y with sent := true }) s.link.tx) ∧
      (x.kind ≠ 2 → x.kind ≠ 3 → t.link.tx = s.link.tx.erase x)) ∧
  (∀ (s : State) (lane : Nat) (x : Relayed), s.laneCarries lane = true → s.relayRoom lane = true →
    (s.link.relays.find? fun r => r.lane == lane && decide (s.now ≤ r.at' + 6400)) = some x →
    Does (.slotFrameSend lane) s fun t => t.out = s.out ++ [.slotFrame (x.frame.relay lane)] ∧ s.sameMem t ∧
      t.link.tx = s.link.tx ∧ t.jobs = s.jobs ∧ (t.lane lane).relayUsed = (s.lane lane).relayUsed + 1 ∧
      (x.frame.header.length = 32 → (x.frame.relay lane).data = x.frame.data ∧ (x.frame.relay lane).crcOk = x.frame.crcOk ∧
        ∀ k < 32, (x.frame.relay lane).header.getD k 0 = if k = 1 then x.frame.header.getD 1 0 ||| 1 else x.frame.header.getD k 0)) ∧
  (∀ (s : State) (f : SlotFrame) (p : Nat), f.kind = 1 → f.crcOk = true → s.laneHears f.lane = true → s.link.fabricAddr.toNat = f.dstFa →
    s.peerOf f.srcFa = some p → exec (.rendezvous f) s = .next ((s.tookFrame f).countPeer p false)) ∧
  (∀ (s : State) (f : SlotFrame) (p cid i : Nat) (j : Job) (es : List CollEntry) (e : CollEntry), f.kind = 2 → f.crcOk = true →
    s.laneHears f.lane = true → s.link.fabricAddr.toNat = f.dstFa → s.peerOf f.srcFa = some p → s.collectFor f.ident p = some j →
    s.job? j.id = some j → j.body = .collect cid es → entryFor es p f.entry true = some (i, e) → f.data ≠ [] →
    f.offset + f.data.length ≤ e.bytes → e.desc.mcast = false → 0 < e.desc.size 0 →
    (∀ k < f.data.length, s.isHbm (e.desc.addr (e.desc.resume + (f.offset + k) / e.desc.size 0) + (f.offset + k) % e.desc.size 0) = true ∧
      s.onBadStack (e.desc.addr (e.desc.resume + (f.offset + k) / e.desc.size 0) + (f.offset + k) % e.desc.size 0) = false) →
    Does (.collectData f) s fun t =>
      t.mem = (List.range f.data.length).foldl (fun m k =>
        m.set Config.memDefault (e.desc.addr (e.desc.resume + (f.offset + k) / e.desc.size 0) + (f.offset + k) % e.desc.size 0)
          (f.data.getD k 0)) s.mem ∧
      (∃ j', t.job? j.id = some j' ∧ j'.got = j.got ++ [(i, f.offset, f.offset + f.data.length - 1)]) ∧
      (∃ a, t.link.tx = s.link.tx ++ [a] ∧ a.kind = 4 ∧ a.peer = p ∧ a.ident = f.ident ∧ a.entry = f.entry ∧ a.offset = f.offset)) ∧
  (∀ (s : State) (f : SlotFrame) (p cid i a b : Nat) (j : Job) (es : List CollEntry) (e : CollEntry), f.kind = 4 → f.crcOk = true →
    s.laneHears f.lane = true → s.link.fabricAddr.toNat = f.dstFa → s.peerOf f.srcFa = some p → s.collectFor f.ident p = some j →
    s.job? j.id = some j → j.body = .collect cid es → entryFor es p f.entry false = some (i, e) →
    Does (.acknowledgement f a b) s fun t => s.sameMem t ∧
      (∃ j', t.job? j.id = some j' ∧ j'.acked = j.acked ++ [(i, a, b)]) ∧
      ∀ x ∈ t.link.tx, x ∈ s.link.tx ∧ ¬ (x.acked = true ∧ x.job = j.id ∧ x.peer = p ∧ x.entry = f.entry ∧ a ≤ x.offset ∧
        x.offset + x.data.length ≤ b + 1)) ∧
  (∀ (s : State) (id : Nat), Does (.slotResend id) s fun t =>
    t = { s with link := { s.link with tx := s.link.tx.map fun x =>
      if x.job = id ∧ x.sent = true then { x with sent := false, resent := true } else x } })) ∧
  (∀ (s : State) (f : SlotFrame) (a b n : Nat) (c : Instr),
    (c, n) ∈ ([(.rendezvous f, 1), (.collectData f, 2), (.polonaiseValues f, 3), (.acknowledgement f a b, 4), (.cancelNotice f, 5)] :
      List (Instr × Nat)) →
    (f.kind ≠ n ∨ f.crcOk = false ∨ s.laneHears f.lane = false → exec c s = .next s) ∧
    (f.kind = n → f.crcOk = true → s.laneHears f.lane = true → s.link.fabricAddr.toNat ≠ f.dstFa →
      exec c s = .next ((s.tookFrame f).relayFrame f)) ∧
    (s.relayFrame f = s ∨ ∃ i p l, s.relayFrame f = { s with link := { s.link with relays := s.link.relays ++ [⟨i, s.now, f⟩] } } ∧
      i / 64 = f.lane / 64 ∧ s.peerOf f.dstFa = some p ∧ s.planLane i = some l ∧ l.txEn = true ∧ l.txPeer = p ∧ 0 < l.relay ∧
      (s.lane i).tx = 3))

/-- Peer contracts and the Polonaise chain: a peer that no route has reached for eight boundaries, or that cancels, ends the
command PEER_UNREACHABLE with entry 0x0300 and takes its waiting frames away; on this device the running sums of a part's
tiles are added to the next part's tiles and the sending tiles end; values from a peer are added once each and
acknowledged. -/
def Obligations.PeerContractsAndRunningSums : Prop :=
  (∀ (s : State) (id p : Nat) (j : Job), s.job? id = some j → j.phase = .running → j.stopped = false → p ∈ j.peersNamed →
    8 ≤ (s.link.peers.get {} p).unreachable →
    Does (.peerContractLapse id p) s fun t => t.ended id .peerUnreachable ∧ s.sameMem t ∧ s.logs t 0x0300 0 p (j.identWith p) ∧
      t.link.tx = s.link.tx.filter fun x => x.job != id) ∧
  (∀ (s : State) (f : SlotFrame) (p : Nat) (j : Job), f.kind = 5 → f.crcOk = true → s.laneHears f.lane = true → s.link.fabricAddr.toNat = f.dstFa →
    s.peerOf f.srcFa = some p → s.job? j.id = some j →
    (s.jobs.find? fun x => x.live && !x.stopped && x.peersNamed.contains p && x.identWith p == f.ident) = some j →
    Does (.cancelNotice f) s fun t => t.ended j.id .peerUnreachable ∧ s.sameMem t ∧ s.logs t 0x0300 0 p f.ident) ∧
  (∀ (s : State) (id part ob : Nat) (j : Job) (st : Stage) (next : Part) (tl r : TileRun), s.job? id = some j → j.stage? = some st →
    st.parts[part + 1]? = some next → next.peer = 0xFFFF → j.run.partTiles st part ob = [tl] → tl.sent = false →
    tl.need ≤ tl.terms → part = 0 ∨ tl.summed = true → tl.rowsOf ≠ [] →
    (∀ x ∈ tl.rowsOf, j.run.holds (part + 1) tl.u x.2 = some r) → (∀ ch, some ch ∈ r.chans → some ch ∈ tl.chans) → r.need ≤ r.terms →
    Does (.polonaiseHop id part ob) s fun t => s.sameMem t ∧ t.scales = s.scales ∧ ∀ j', t.job? id = some j' → ∀ x ∈ j'.run.tiles,
      (x.part = part → x.engine = tl.engine → x.u = tl.u → x.chans = tl.chans → x.closed = true) ∧
      (x.part = part + 1 → x.engine = r.engine → x.u = tl.u → x.chans = r.chans → x.summed = true ∨ x.closed = true)) ∧
  (∀ (s : State) (id : Nat) (st : Stage) (tl : TileRun) (vec ch i row : Nat) (x : Int) (j : Job), s.job? id = some j →
    i = (tl.chans.findIdx? (· == some ch)).getD 0 → row = s.rowFile st tl.engine i → st.exact = true → tl.inFile = true →
    (s.addSum id st tl vec ch x).exactAt tl.engine row (st.accBase + 5 * (vec - tl.u * st.vecB)) =
      sext (toBits (s.exactAt tl.engine row (st.accBase + 5 * (vec - tl.u * st.vecB)) + x) 320) 320 ∧
    s.sameMem (s.addSum id st tl vec ch x)) ∧
  (∀ (s : State) (f : SlotFrame) (p : Nat) (j : Job) (st : Stage), f.kind = 3 → f.crcOk = true → s.laneHears f.lane = true →
    s.link.fabricAddr.toNat = f.dstFa → s.peerOf f.srcFa = some p → s.chainFor f.ident p = some (j, st) → s.job? j.id = some j →
    0 < f.data.length / 10 → f.offset % 10 = 0 →
    (∀ i < f.data.length / 10, ∃ tl, j.run.holds (f.entry + 1) ((f.offset / 10 + i) / st.chans / st.vecB)
      ((f.offset / 10 + i) % st.chans) = some tl ∧ tl.need ≤ tl.terms) →
    Does (.polonaiseValues f) s fun t => s.sameMem t ∧
      (∃ j', t.job? j.id = some j' ∧ j'.got = j.got ++ [(f.entry, f.offset, f.offset + 10 * (f.data.length / 10) - 1)]) ∧
      ∃ a, t.link.tx = s.link.tx ++ [a] ∧ a.kind = 4 ∧ a.peer = p ∧ a.ident = f.ident ∧ a.offset = f.offset)

/-- Attention cycles: a press begins one, with the connector's indicator at its slow blink and the lanes' stored equaliser
states gone; at the boundary two frames later every lane of the connector that has not failed is quiet and the indicator is
steady; when light is back after 100 ms of darkness, or at a second press, the cycle ends and the quiet and failed lanes probe again; after a
replug the connector's indicator goes on to show a lane that fails its identity check. -/
def Obligations.AttentionCyclesQuietTheConnector : Prop :=
  (∀ (s : State) (c : Nat), c < 5 → (s.conn c).attn = false → Does (.attnPress c) s fun t => s.sameMem t ∧
    t.conn c = { ind := 1, attn := true, frameP := s.frame.counter, dark := false } ∧ (∀ x, x ≠ c → t.conn x = s.conn x) ∧
    ∀ i, t.lane i = if i ∈ connLanes c then { s.lane i with txLines := [], rxLines := [] } else s.lane i) ∧
  (∀ (s : State) (c : Nat), c < 5 → (s.conn c).attn = true → (s.conn c).ind = 1 → (s.conn c).frameP + 2 ≤ s.frame.counter →
    Does (.connectorQuiesce c) s fun t => s.sameMem t ∧ (t.conn c).ind = 2 ∧ (t.conn c).attn = true ∧ (t.conn c).frameP = (s.conn c).frameP ∧
      (∀ i ∈ connLanes c, (t.lane i).tx = (if (s.lane i).tx = 5 then 5 else 4) ∧
        (t.lane i).rx = (if (s.lane i).rx = 2 ∨ (s.lane i).rx = 3 then 4 else (s.lane i).rx)) ∧
      ∀ i, i ∉ connLanes c → t.lane i = s.lane i) ∧
  (∀ (s : State) (c : Nat) (i : Instr), c < 5 → (s.conn c).attn = true →
    (i = .attnPress c ∨ (i = .attentionCycleEnd c ∧ (s.conn c).dark = true ∧ (s.conn c).darkAt + symbols100ms ≤ s.now)) →
    Does i s fun t => s.sameMem t ∧ t.conn c = { replugged := i == .attentionCycleEnd c } ∧
      (∀ i ∈ connLanes c, (t.lane i).tx = (if (s.lane i).tx = 4 ∨ (s.lane i).tx = 5 then 1 else (s.lane i).tx) ∧
        (t.lane i).rx = (if (s.lane i).rx = 4 ∨ (s.lane i).rx = 5 then 1 else (s.lane i).rx) ∧ (t.lane i).fails = 0) ∧
      ∀ i, i ∉ connLanes c → t.lane i = s.lane i)

/-! ## The Rustra port, sessions and registers (12, 13, 14, 11) -/

namespace Sys2Proof.Machine

/-- A message of a session that the device hears: its lane is up and the session is bound to its port (14 R669). -/
def State.takes (s : State) (m : Msg) : Prop := s.hears m = true ∧ s.bound m = true

/-- A register message of a session that the device hears, with Noon running and no complement value pending. -/
def State.serves (s : State) (m : Msg) : Prop :=
  s.takes m ∧ s.runs .noon = true ∧ (s.window m.session).pair = none

/-- The answer of a register write. -/
def State.wrote (s : State) (m : Msg) (st : RegStatus) : State := s.send (.regResp m st.code 0)

end Sys2Proof.Machine

/-- Messages over Rustra: a doorbell of a running Noon moves the tail of a queue of the session when it names at most a whole
queue of descriptors, and sets DB_ERR otherwise; while Noon is stopped it is held; remote reads and writes move whole words
of HBM and SRAM that are aligned, in one page and at most 4,096 bytes long, and are refused with the status of their fault
otherwise; a heartbeat restores a session whose grace has not ended. What a session not bound to the port sends is refused
with RESERVED. -/
def Obligations.RustraMessagesReachTheDevice : Prop :=
  (∀ (s : State) (m : Msg) (q : Nat) (v : Word32) (ss : Session), s.takes m → s.ownsSq m.session q = true →
    s.session m.session = some ss →
    Does (.doorbell m q v) s fun t => t = { s with sqs := t.sqs } ∧ (∀ x, x ≠ q → t.sq x = s.sq x) ∧
      (s.runs .noon = false ∨ ss.grace = true → t.sq q = { s.sq q with latched := some (v.toNat % 65536) }) ∧
      (s.runs .noon = true → ss.grace = false → t.sq q =
        (if (v.toNat % 65536 + 65536 - (s.sq q).seq % 65536) % 65536 ≤ 2 ^ (s.sq q).log2
          then { s.sq q with tail := v.toNat % 65536, latched := none } else { s.sq q with dbErr := true, latched := none }))) ∧
  (∀ (s : State) (m : Msg) (a n : Nat), s.takes m → s.memStatus a n = .ok →
    s.anyPoison a n = false →
    exec (.memRead m a n) s = .next ((s.findIn a n).send (.memResp m 0 (s.bytes a n)))) ∧
  (∀ (s : State) (m : Msg) (a n : Nat), s.takes m → s.memStatus a n = .ok → s.anyPoison a n = true →
    Does (.memRead m a n) s fun t => t.mem = s.mem ∧ (∀ b, (b, true) ∈ s.latent → a / 64 ≤ b → b ≤ (a + n - 1) / 64 →
      s.onBadStack (64 * b) = false → b ∈ t.poison) ∧ ∃ l, t.out = (s.findIn a n).out ++ [.memResp m 0 l] ∧ l.length = n) ∧
  (∀ (s : State) (m : Msg) (a : Nat) (l : List Byte), s.takes m → s.memStatus a l.length = .ok →
    Does (.memWrite m a l) s fun t => (∀ i < l.length, t.byte (a + i) = l.getD i 0) ∧
      (∀ x, x < a ∨ a + l.length ≤ x → t.byte x = s.byte x) ∧ t.jobs = s.jobs ∧ t.out = s.out ++ [.memResp m 0 []]) ∧
  (∀ (s : State) (m : Msg) (a : Nat) (l : List Byte), s.takes m → s.memStatus a l.length ≠ .ok →
    exec (.memWrite m a l) s = .next (s.send (.memResp m (s.memStatus a l.length).code [])) ∧
    exec (.memRead m a l.length) s = .next (s.send (.memResp m (s.memStatus a l.length).code []))) ∧
  (∀ (s : State) (a n : Nat), s.memStatus a n = .ok ↔ n % 4 = 0 ∧ 0 < n ∧ n ≤ 4096 ∧ a / 4096 = (a + n - 1) / 4096 ∧ a % 4 = 0 ∧
    (s.isHbm a = true ∨ s.isSram a = true) ∧ s.onBadStack a = false ∧ s.onBadStack (a + n - 1) = false) ∧
  (∀ (s : State) (m : Msg) (ss : Session), s.takes m → s.session m.session = some ss →
    Does (.heartbeat m) s fun t => t.session m.session = some (if ss.grace then ss else { ss with lost := false }) ∧
      t.out = s.out ++ [.heartbeatResp m 0 s.frame.counter (BitVec.ofNat 32 s.frameStatus)] ∧ s.sameMem t ∧
      ∀ n, n ≠ m.session → t.session n = s.session n) ∧
  (∀ (s : State) (m : Msg) (a : Nat) (l : List Byte), s.hears m = true → s.bound m = false →
    exec (.memRead m a l.length) s = .next (s.send (.memResp m 5 [])) ∧ exec (.memWrite m a l) s = .next (s.send (.memResp m 5 [])) ∧
    exec (.heartbeat m) s = .next (s.send (.heartbeatResp m 5 0 0)) ∧ ∀ q v, exec (.doorbell m q v) s = .next s)

/-- Answers of the control node and the link layer: the bytes of a command's read of the host aperture reach it, a failed read
marks its page, and each answer ends its access; an access of a session that has lost its heartbeat fails after 1 ms; credits
add up, and a message that waited for them goes out once there is one for the request and enough for its data; an acknowledgement moves the first message kept for replay, and a NAK or 2 µs without one replays from there. -/
def Obligations.AnswersCreditsAndReplays : Prop :=
  (∀ (s : State) (m : Msg) (l : List Byte) (r : HaReq) (id a n : Nat), s.takes m →
    (s.ha.find? fun x => x.tag == m.tag.toNat && x.session == m.session && !x.held) = some r → r.use = .feed id a n → (s.job? id).isSome = true →
    (l.length = (r.lead + n + 3) / 4 * 4 → Does (.haResp m l true) s fun t =>
      t.ha = s.ha.filter (fun x => x.tag != r.tag) ∧ s.sameMem t ∧
      ∃ j', t.job? id = some j' ∧ ∀ i < n, j'.staged.get none (a + i) = some ((l.drop r.lead).getD i 0)) ∧
    (Does (.haResp m l false) s fun t => t.ha = s.ha.filter (fun x => x.tag != r.tag) ∧
      t.link.crcErr = Nat.min 0xFFFF (s.link.crcErr + 1) ∧ ∃ j', t.job? id = some j' ∧ r.page ∈ j'.hostBad) ∧
    (∀ ss, s.session r.session = some ss → ss.lost = true → (s.ha.find? fun x => x.tag == r.tag) = some r →
      Does (.haRespTimeout r.tag) s fun t => t.ha = s.ha.filter (fun x => x.tag != r.tag) ∧
        ∃ j', t.job? id = some j' ∧ r.page ∈ j'.hostBad)) ∧
  (∀ (s : State) (port a b : Nat), s.hears ⟨port, 0, 0⟩ = true → exec (.credit port a b) s =
    .next ((s.modPort port fun l => { l with hostReq := l.hostReq + a, hostData := l.hostData + b }).pump port)) ∧
  (∀ (s : State) (port a b : Nat) (r : HaReq) (c : LinkLayer), s.hears ⟨port, 0, 0⟩ = true → s.ha = [r] → r.held = true →
    s.requestPort r.session = port → c = s.link.ports.get {} port →
    Does (.credit port a b) s fun t => s.sameMem t ∧
      (1 ≤ c.hostReq + a → r.data.length ≤ 64 * (c.hostData + b) → t.ha = [{ r with held := false }]) ∧
      (c.hostReq + a = 0 ∨ 64 * (c.hostData + b) < r.data.length → t.ha = s.ha ∧ t.out = s.out)) ∧
  (∀ (s : State) (port seq : Nat) (l : LinkLayer), s.hears ⟨port, 0, 0⟩ = true → l = s.link.ports.get {} port → seq < 4096 →
    (seq + 4096 - l.firstUnacked) % 4096 < (l.nextSeq + 4096 - l.firstUnacked) % 4096 →
    exec (.linkLayerAck port seq) s = .next (s.modPort port fun x => { x with firstUnacked := (seq + 1) % 4096 })) ∧
  (∀ (s : State) (port : Nat), s.hears ⟨port, 0, 0⟩ = true → port < 2 → (s.link.ports.get {} port).nextSeq ≠ (s.link.ports.get {} port).firstUnacked →
    exec (.linkNak port) s = .next { s with out := s.out ++ [.replay port (s.link.ports.get {} port).firstUnacked] } ∧
    exec (.linkReplayTimeout port) s = .next { s with out := s.out ++ [.replay port (s.link.ports.get {} port).firstUnacked] })

/-- Sessions: OPEN grants the lowest free queues, completion queues and counters, the version and features both sides have
and a free session number; CLAIM with its key takes over a session whose grace has ended; CLOSE, with no command open,
returns all it held; TIMERS sets the times; ATTEST answers a signed quote. A lost heartbeat, the end of the grace and the
reaper follow each other. -/
def Obligations.SessionsOpenCloseAndPass : Prop :=
  (∀ (s : State) (m : Msg) (r : OpenReq) (man : Manifest) (base : Nat), s.hears m = true → m.session = 0 → s.runs .noon = true →
    s.fw.running = some man → s.fw.ready = true → r.ifaceMin ≤ ifaceFor r man → man.ifaceLow ≤ ifaceFor r man →
    (∃ n, 1 ≤ n ∧ n ≤ 8 ∧ s.session n = none) → s.ctrRange r.ctrs = some base → r.sqs ≤ s.freeSqs.length → r.cqs ≤ s.freeCqs.length →
    r.graceMs = 0 → r.reaperS = 0 →
    Does (.openSession m r) s fun t => s.sameMem t ∧ t.jobs = s.jobs ∧ ∃ n x, 1 ≤ n ∧ n ≤ 8 ∧ s.session n = none ∧ t.session n = some x ∧
      x.sqs = s.freeSqs.take r.sqs ∧ x.cqs = s.freeCqs.take r.cqs ∧ x.ctrBase = base ∧ x.ctrCount = r.ctrs ∧ x.graceMs = 2000 ∧
      x.reaperS = 60 ∧ x.key = r.claimKey ∧ x.features = featuresFor r man ∧ x.lost = false ∧ x.closing = none ∧
      t.window n = {} ∧ (∀ k, k ≠ n → t.session k = s.session k) ∧
      t.out = s.out ++ [.session { m with session := n } 0x81 0 0 (openAnswer x)]) ∧
  (∀ (s : State) (m : Msg) (ss : Session), s.takes m → s.session m.session = some ss → s.runs .noon = true →
    Does (.close m) s fun t => s.sameMem t ∧ (∀ k, k ≠ m.session → t.session k = s.session k) ∧
      ((s.jobs.any fun j => j.session == m.session && j.open') = true → t.session m.session = some { ss with closing := some (some m) } ∧
        t.jobs = s.jobs ∧ t.out = s.out) ∧
      ((s.jobs.any fun j => j.session == m.session && j.open') = false → t.session m.session = none ∧
        t.jobs = s.jobs.map (fun j => if j.session = m.session then { j with past := true } else j) ∧ (∀ q ∈ ss.sqs, t.sq q = {}) ∧
        (∀ c ∈ ss.cqs, t.cq c = {}) ∧ (∀ k, ss.ctrBase ≤ k → k < ss.ctrBase + ss.ctrCount → t.counter k = 0) ∧
        t.out = s.out ++ [.session m 0x82 0 0 []])) ∧
  (∀ (s : State) (m : Msg) (n table : Nat) (key : Word64) (ss : Session), s.hears m = true → m.session = 0 → s.runs .noon = true →
    s.session n = some ss →
    Does (.claim m n key table) s fun t => s.sameMem t ∧ t.jobs = s.jobs ∧ (∀ k, k ≠ n → t.session k = s.session k) ∧
      (s.claimable ss m.port = true → ss.key = key → (∃ x, t.session n = some x ∧ x.lost = false ∧ x.grace = false ∧
        x.sqs = ss.sqs ∧ x.cqs = ss.cqs ∧ x.ctrBase = ss.ctrBase ∧ x.features = ss.features ∧
        x.table = (if table = 0 then ss.table else table)) ∧ t.window n = {} ∧ t.out = s.out ++ [.session m 0x83 0 0 []]) ∧
      (s.claimable ss m.port = true → ss.key ≠ key → t.session n = some ss ∧ t.out = s.out ++ [.session m 0x83 0 4 []]) ∧
      (s.claimable ss m.port = false → t.session n = some ss ∧ t.out = s.out ++ [.session m 0x83 0 5 []])) ∧
  (∀ (s : State) (m : Msg) (g r : Nat) (ss : Session), s.takes m → s.session m.session = some ss → s.runs .noon = true →
    250 ≤ g → g ≤ 60000 → r = 0 → Does (.timers m g r) s fun t =>
      t.session m.session = some { ss with graceMs := g } ∧ (∀ k, k ≠ m.session → t.session k = s.session k) ∧
      t.out = s.out ++ [.session m 0x84 0 0 []]) ∧
  (∀ (s : State) (m : Msg) (nonce : List Byte), s.hears m = true → m.session = 0 → s.runs .dawn = true →
    exec (.attest m nonce) s = .next (s.send (.session m 0x85 0 0 (s.quote nonce ++ Config.certificate)))) ∧
  (∀ (s : State) (n : Nat) (ss : Session), s.session n = some ss → s.power.state = .run →
    exec (.heartbeatLost n) s = .next (s.modSession n fun x => { x with lost := true }) ∧
    exec (.graceEnd n) s = .next (s.modSession n fun x => { x with grace := x.grace || x.lost }) ∧
    (ss.lost = true → ss.grace = true → s.runs .noon = true → Does (.reaper n) s fun t => s.sameMem t ∧
      ((s.jobs.any fun j => j.session == n && j.open') = false → t.session n = none ∧
        t.jobs = s.jobs.map (fun j => if j.session = n then { j with past := true } else j)) ∧
      ((s.jobs.any fun j => j.session == n && j.open') = true → t.jobs = s.jobs ∧ ∃ x, t.session n = some x ∧ x.closing.isSome = true)))

/-- Queue registers, each written by its own command or by a REGISTER_WRITE of its offset: enabling a stopped, empty queue with a size, place and completion queue that the field tables allow starts
it at submission count 0; disabling it keeps its counts and is allowed while no descriptor waits, and with ENABLE set only
when nothing else changes; CQ_HEAD never passes the tail; QFULL is cleared by writing it. -/
def Obligations.QueueRegistersTakeTheirValues : Prop :=
  (∀ (s : State) (m : Msg) (q : Nat) (v : Word32), s.serves m → q < 64 → s.ownsSq m.session q = true →
    (∀ ss, s.session m.session = some ss → ss.grace = false) →
    exec (.sqDoorbellWrite m q v) s = .next ((s.modSq q fun x => { x.doorbell (v.toNat % 65536) with latched := none }).wrote m .ok)) ∧
  (∀ (s : State) (m : Msg) (q : Nat) (v : Word32), s.serves m → q < 64 → s.ownsSq m.session q = true →
    (∀ ss, s.session m.session = some ss → ss.grace = false) →
    exec (.registerWrite (.rustra m) (0x1000 + 4 * q) 4 v) s =
      .next ((s.modSq q fun x => { x.doorbell (v.toNat % 65536) with latched := none }).wrote m .ok)) ∧
  (∀ (s : State) (m : Msg) (c : Nat) (v : Word32) (ss : Session), s.serves m → c < 16 → s.session m.session = some ss → c ∈ ss.cqs →
    exec (.registerWrite (.rustra m) (0x1100 + 4 * c) 4 v) s = .next ((s.modCq c fun x => x.moveHead (v.toNat % 65536)).wrote m .ok)) ∧
  (∀ (s : State) (m : Msg) (q log2 c : Nat) (ss : Session), s.serves m → q < 64 → s.ownsSq m.session q = true →
    s.session m.session = some ss → (s.sq q).enable = false → (s.sq q).tail = (s.sq q).seq % 65536 →
    4 ≤ log2 → log2 ≤ 10 → c ∈ ss.cqs → c < 16 → s.isHbm (s.sq q).base = true → s.isHbm ((s.sq q).base + 128 * 2 ^ log2 - 1) = true →
    exec (.sqEnable m q (BitVec.ofNat 32 (2 ^ 8 * log2 + 2 ^ 16 * c))) s =
      .next ((s.modSq q fun x => { x with enable := true, log2 := log2, cq := c, seq := 0, tail := 0, posted := 0 }).wrote m .ok)) ∧
  (∀ (s : State) (m : Msg) (q : Nat), s.serves m → q < 64 → s.ownsSq m.session q = true → (s.sq q).log2 < 16 → (s.sq q).cq < 16 →
    (s.sq q).tail = (s.sq q).seq % 65536 →
    exec (.sqDisable m q (BitVec.ofNat 32 (2 ^ 8 * (s.sq q).log2 + 2 ^ 16 * (s.sq q).cq))) s =
      .next ((s.modSq q fun x => { x with enable := false }).wrote m .ok)) ∧
  (∀ (s : State) (m : Msg) (q : Nat) (v : Word32), s.serves m → q < 64 → s.ownsSq m.session q = true →
    (s.sq q).tail < 65536 → (s.sq q).tail ≠ (s.sq q).seq % 65536 →
    exec (.sqEnable m q v) s = .next (s.wrote m .busy) ∧ exec (.sqDisable m q v) s = .next (s.wrote m .busy)) ∧
  (∀ (s : State) (m : Msg) (q : Nat), s.serves m → q < 64 → s.ownsSq m.session q = true →
    exec (.sqQfullClear m q) s = .next ((s.modSq q fun x => { x with qfull := false }).wrote m .ok)) ∧
  (∀ (s : State) (m : Msg) (c : Nat) (v : Word32) (ss : Session), s.serves m → c < 16 → s.session m.session = some ss → c ∈ ss.cqs →
    exec (.cqHeadWrite m c v) s = .next ((s.modCq c fun x => x.moveHead (v.toNat % 65536)).wrote m .ok)) ∧
  (∀ (s : State) (m : Msg) (c log2 : Nat) (ss : Session), s.serves m → c < 16 → s.session m.session = some ss → c ∈ ss.cqs →
    (s.cq c).enable = false → (s.cq c).reserved = 0 → (∀ q < 64, (s.sq q).enable = true → (s.sq q).cq ≠ c) → 4 ≤ log2 → log2 ≤ 12 →
    s.isHbm (s.cq c).base = true → s.isHbm ((s.cq c).base + (0x20000 + 0x2000 * 2 ^ log2) - 1) = true →
    exec (.cqEnable m c (BitVec.ofNat 32 (2 ^ 8 * log2))) s =
      .next ((s.modCq c fun x => { x with enable := true, notify := false, log2 := log2, t := 0, head := 0, reserved := 0 }).wrote m .ok)) ∧
  (∀ (s : State) (m : Msg), s.serves m →
    exec (.frameStepRequest m) s = .next (if s.busyJobs then s.wrote m .busy
      else ({ s with frame := { s.frame with stepRequested := true } }).wrote m .ok))

/-- Control registers of the window: a plan is armed when none is and disarmed when no command holds its links; SHADOW_CTRL
and CFG_CTRL take effect at the boundary; WIDE_SEL starts a snapshot, which becomes valid whole and is taken by the read of
WIDE_DATA_3; ASSET_TAG is written once; the paged window shows a snapshot and writes an entry that no accepted command
names; a bit alias stands for its bit; a REGISTER_WRITE of a word that the register's field table, the locks and the session allow
has the register's effect and the answer OK, and one of another length or place changes nothing. What a session does in the register window leaves what every other session, and the
sideband, has of its own there as it was (R622): the snapshot, its selector, the pending value of a pair and the paged view. -/
def Obligations.ControlRegistersTakeTheirValues : Prop :=
  ((∀ (s : State) (m : Msg), s.serves m →
    exec (.planArm m) s = .next (if s.link.armed = 1 ∨ s.link.armed = 2 then s.wrote m .busy
      else ({ s with link := { s.link with armed := 1, armedPlan := none } }).wrote m .ok) ∧
    ((s.link.armed = 1 ∨ s.link.armed = 2) → exec (.planDisarm m) s =
      .next (if s.jobs.any (fun j => j.linksFrom (if s.link.armed = 2 then s.link.armedAt else s.link.planAt)) then s.wrote m .busy
        else ({ s with link := { s.link with armed := 0, armedPlan := none } }).wrote m .ok)) ∧
    (s.link.armed ≠ 1 → s.link.armed ≠ 2 → exec (.planDisarm m) s = .next (s.wrote m .ok)) ∧
    exec (.cfgCommit m) s = .next (({ s with cfg := { s.cfg with commitDue := true, suspendDue := false } }).wrote m .ok) ∧
    exec (.cfgSuspend m) s = .next (({ s with cfg := { s.cfg with suspendDue := true } }).wrote m .ok)) ∧
  (∀ (s : State) (m : Msg) (v : Word32), s.serves m →
    (s.locked 4 = false → exec (.shadowCtrlWrite m v) s =
      .next (({ s with cal := { s.cal with shadowNext := some (clampNat 14 20 (v.toNat % 32), v.getLsbD 5) } }).wrote m .ok)) ∧
    exec (.wideSelWrite m v) s = .next ((s.modWindow m.session fun w => w.select (v.toNat % 65536) (s.wideValue (v.toNat % 65536)).isSome).wrote m .ok) ∧
    (s.power.assetSet = false → exec (.assetTagWrite m v) s =
      .next (({ s with power := { s.power with assetTag := v, assetSet := true } }).wrote m .ok)) ∧
    (s.power.assetSet = true → Does (.assetTagWrite m v) s fun t => t.power.assetTag = s.power.assetTag ∧
      t.power.violations = Nat.min 0xFFFFFF (s.power.violations + 1) ∧ t.power.lockLast = 0x310C ∧ s.logs t 0x0600 0 0x310C m.session) ∧
    exec (.scalePageWrite m v) s = .next ((s.writePage m.session v.toNat).wrote m .ok)) ∧
  (∀ (s : State) (n sel v : Nat), s.runs .noon = true → (s.window n).busySel = some sel → s.wideValue sel = some v →
    exec (.wideSnapshotReady n) s = .next (s.modWindow n fun w =>
      { w with busySel := none, valid := true, snap := BitVec.ofNat 128 v, snapSel := sel })) ∧
  (∀ (s : State) (m : Msg), s.takes m → s.runs .noon = true →
    ((s.window m.session).valid = true → exec (.wideData3Read m) s =
      .next ((s.modWindow m.session fun w => { w with valid := false }).send
        (.regResp m 0 (BitVec.ofNat 32 (bits (s.window m.session).snap.toNat 96 32))))) ∧
    ((s.window m.session).valid = false → exec (.wideData3Read m) s = .next (s.send (.regResp m 6 0)))) ∧
  (∀ (s : State) (m : Msg), s.serves m → (s.window m.session).pageCluster < 64 → (s.window m.session).page < 64 →
    exec (.scalePageRefresh m) s = .next ((s.modWindow m.session fun w =>
      { w with pageSnap := s.scaleSnapshot w.pageCluster w.page }).wrote m .ok)) ∧
  (∀ (s : State) (m : Msg) (i : Nat) (v : Word32), s.serves m → i < 1024 → (i % 16 = 0 → scaleValid v.toNat = true) →
    s.entryNamed (s.window m.session).pageCluster (64 * (s.window m.session).page + i / 16) = false →
    (s.window m.session).pageCluster < 64 → (s.window m.session).page < 64 →
    Does (.scaleWindowWrite m i v) s fun t => s.sameMem t ∧
      bits (t.scale (s.window m.session).pageCluster (64 * (s.window m.session).page + i / 16)).toNat (32 * (i % 16)) 32 =
        v.toNat &&& (if i % 16 = 3 then 0x07FFFFFF else 0xFFFFFFFF) ∧
      ∀ c e, e < 4096 → (c ≠ (s.window m.session).pageCluster ∨ e ≠ 64 * (s.window m.session).page + i / 16) → t.scale c e = s.scale c e) ∧
  (∀ (s : State) (m : Msg) (o b : Nat) (v : Word32) (w : Nat), s.takes m → o % 4 = 0 → o < 0x10000 → b < 32 →
    s.aliasValue (.rustra m) o b v.toNat = some w →
    exec (.aliasWrite m o b v) s = .next (((s.plainWrite (.rustra m) o 4 w false).1).wrote m (s.plainWrite (.rustra m) o 4 w false).2)) ∧
  (∀ (s : State) (src : Src) (o len v : Nat) (rails : Bool), (len ≠ 4 → (s.regWrite src o len v rails).2 = .size) ∧
    (len = 4 → o % 4 ≠ 0 → (s.regWrite src o len v rails).2 = .align) ∧
    (len = 4 → o % 4 = 0 → aliasOf o = none → s.regKind o = none → (s.regWrite src o len v rails).2 = .reserved)) ∧
  (∀ (s : State) (m : Msg) (o : Nat) (v : Word32), s.serves m → o % 4 = 0 → aliasOf o = none → o ≠ 0x1004C →
    s.writeStatus (.rustra m) o 4 v.toNat = .ok → (s.writeEffect (.rustra m) o v.toNat false).2 = false →
    exec (.registerWrite (.rustra m) o 4 v) s = .next ((s.writeEffect (.rustra m) o v.toNat false).1.wrote m .ok)) ∧
  (∀ (s : State) (o : Nat) (v : Word32), o % 4 = 0 → aliasOf o = none → o ≠ 0x1004C → s.writeStatus .i3c o 4 v.toNat = .ok →
    (s.writeEffect .i3c o v.toNat false).2 = false →
    exec (.registerWrite .i3c o 4 v) s = .next ((s.writeEffect .i3c o v.toNat false).1.sideAnswer .ok 0)) ∧
  (∀ (s : State) (m : Msg) (v : Word32), s.serves m → s.locked 4 = false →
    exec (.registerWrite (.rustra m) 0x2000C 4 v) s =
      .next (({ s with cal := { s.cal with shadowNext := some (clampNat 14 20 (v.toNat % 32), v.getLsbD 5) } }).wrote m .ok) ∧
    exec (.registerWrite (.rustra m) 0x20008 4 v) s =
      .next (({ s with cal := { s.cal with rmsLim := v.toNat % 65536, peakLim := v.toNat / 65536 } }).wrote m .ok)) ∧
  (∀ (s : State) (o len : Nat) (v : Word32), len ≠ 4 ∨ o % 4 ≠ 0 → (s.window 0).pair = none →
    exec (.registerWrite .i3c o len v) s = .next { s with side := { s.side with status := (if len ≠ 4 then 1 else 2), data := 0 } })) ∧
  (∀ (s t : State) (src : Src) (o len v n : Nat) (rails : Bool), srcSession src ≠ n →
    o ≠ 0x1004C → t = s.writeAndAnswer src o len v rails → t.window n = s.window n)

/-- Guarded registers change only through a completed pair (R629): the first write makes its value pending and changes nothing,
the partner's write of its complement within the pair gives the register the value, any other partner write drops the value
and counts a guard failure, and 64 µs without a partner do so too. -/
def Obligations.GuardedRegistersChangeThroughPairs : Prop :=
  (∀ (s : State) (v : Word32), (s.window 0).pair = none → s.locked 0 = false → s.locked 1 = false →
    exec (.powerCapWrite .i3c v) s = .next { (s.modWindow 0 fun w => { w with pair := some (1, v) }) with side := { s.side with status := 0, data := 0 } } ∧
    exec (.tripLimitWrite .i3c v) s = .next { (s.modWindow 0 fun w => { w with pair := some (2, v) }) with side := { s.side with status := 0, data := 0 } } ∧
    exec (.laserEnableWrite .i3c v) s = .next { (s.modWindow 0 fun w => { w with pair := some (3, v) }) with side := { s.side with status := 0, data := 0 } }) ∧
  (∀ (s : State) (v : Word32), s.locked 0 = false → s.locked 1 = false →
    ((s.window 0).pair = some (1, v) → 100 ≤ v.toNat → v.toNat ≤ 280 → Does (.powerCapCWrite .i3c (~~~v)) s fun t =>
      t.power.cap = v.toNat ∧ (t.window 0).pair = none ∧ t.side.status = 0 ∧ t.power.tripC = s.power.tripC ∧ t.power.laser = s.power.laser) ∧
    ((s.window 0).pair = some (2, v) → 90 ≤ v.toNat → v.toNat ≤ 115 → Does (.tripLimitCWrite .i3c (~~~v)) s fun t =>
      t.power.tripC = v.toNat ∧ (t.window 0).pair = none ∧ t.side.status = 0 ∧ t.power.cap = s.power.cap ∧ t.power.laser = s.power.laser) ∧
    ((s.window 0).pair = some (3, v) → v.toNat < 2 ^ 17 → Does (.laserEnableCWrite .i3c (~~~v)) s fun t =>
      t.power.laser.toNat = v.toNat ∧ (t.window 0).pair = none ∧ t.side.status = 0 ∧ t.power.cap = s.power.cap ∧
      ∀ e, v.getLsbD (combOfEngine e) = false → s.power.laser.getLsbD (combOfEngine e) = true → combOfEngine e < 8 →
        (s.engine e).lock ≠ .mappedOut → (t.engine e).lock = .off)) ∧
  (∀ (s : State) (g : Nat) (v w : Word32) (c : Instr), (s.window 0).pair = some (g, v) → w ≠ ~~~v → s.locked 0 = false → s.locked 1 = false →
    (g = 1 ∧ c = .powerCapCWrite .i3c w ∨ g = 2 ∧ c = .tripLimitCWrite .i3c w ∨ g = 3 ∧ c = .laserEnableCWrite .i3c w) →
    Does c s fun t => (t.window 0).pair = none ∧ t.power = { s.power with guardFail := Nat.min 0xFFFF (s.power.guardFail + 1), guardLast := g } ∧
      t.side.status = 4) ∧
  (∀ (s : State) (src : Src) (g : Nat) (v : Word32), (s.window (srcSession src)).pair = some (g, v) →
    Does (.guardPendingExpiry src) s fun t => (t.window (srcSession src)).pair = none ∧
      t.power = { s.power with guardFail := Nat.min 0xFFFF (s.power.guardFail + 1), guardLast := g }) ∧
  (∀ (s : State) (src : Src) (o len v : Nat) (rails : Bool), o ≠ 0x10004 → o ≠ 0x1000C → o ≠ 0x10014 → aliasOf o = none →
    (s.regWrite src o len v rails).1.power.cap = s.power.cap ∧ (s.regWrite src o len v rails).1.power.tripC = s.power.tripC ∧
    (s.regWrite src o len v rails).1.power.laser = s.power.laser)

/-- What only a cold reset undoes: over every step whose command is neither COLD_RESET nor a power-on reset (POWER_ON_RESET, or
a SUPPLY_RESET of an always-on rail) a LOCK bit that was set stays set (13 R635), no engine leaves MAPPED_OUT (05 R259) and no
unit leaves the list of those mapped out (16 R722); warm resets, firmware restarts and live updates are such steps. A write
of LOCK sets the bits that are 1 in its value, clears none and counts no violation; a cold reset and a power-on reset clear
them all. -/
def Obligations.OnlyColdResetUndoesLocksAndMapping : Prop :=
  (∀ s t : State, step s = .next t → s.pending.head? ≠ some .coldReset → s.pending.head? ≠ some .powerOnReset →
    (∀ r die mv, s.pending.head? = some (.supplyReset r die mv) → Rail.always r = false) →
    (∀ b, s.power.lock.getLsbD b = true → t.power.lock.getLsbD b = true) ∧
    (∀ e, (s.engine e).lock = .mappedOut → (t.engine e).lock = .mappedOut) ∧ ∀ u ∈ s.mapped, u ∈ t.mapped) ∧
  (∀ (s : State) (src : Src) (v : Word32), (src = .i3c ∧ (s.window 0).pair = none) ∨ (∃ m, src = .rustra m ∧ s.serves m) →
    Does (.lockWrite src v) s fun t =>
      (∀ b < 5, t.power.lock.getLsbD b = (s.power.lock.getLsbD b || v.getLsbD b)) ∧
      t.power.violations = s.power.violations ∧ t.power.lockLast = s.power.lockLast ∧ t.log = s.log) ∧
  (∀ (s : State) (i : Instr), i = .coldReset ∨ i = .powerOnReset → Does i s fun t => t.power.lock = 0)

/-- The sideband: addresses are taken once and forgotten on request, in-band interrupts are enabled and disabled, the device
answers its identity, and a private read answers the status and data of the access before it; debug access halts a processor
and reads back a word it has written, until LK_DEBUG refuses it. -/
def Obligations.TheSidebandAnswers : Prop :=
  (∀ (s : State) (a : BitVec 7) (i : Instr), i = .entdaa a ∨ i = .setdasa a → exec i s =
    .next { s with side := { s.side with dynAddr := some (s.side.dynAddr.getD a) } }) ∧
  (∀ s : State, exec .rstdaa s = .next { s with side := { s.side with dynAddr := none } }) ∧
  (∀ (s : State) (e : Byte), exec (.enec e) s = .next { s with side := { s.side with ibi := s.side.ibi || e.getLsbD 0 } } ∧
    exec (.disec e) s = .next { s with side := { s.side with ibi := s.side.ibi && !e.getLsbD 0 } }) ∧
  (∀ s : State, Does .getpid s (fun t => ∃ l, t = { s with out := s.out ++ [.i3c l] } ∧ l.length = 6) ∧
    Does .getbcr s (fun t => ∃ b, t = { s with out := s.out ++ [.i3c [b]] }) ∧
    Does .getdcr s (fun t => ∃ b, t = { s with out := s.out ++ [.i3c [b]] }) ∧
    Does .getstatus s (fun t => ∃ l, t = { s with out := s.out ++ [.i3c l] } ∧ l.length = 2)) ∧
  (∀ s : State, exec (.i3cPrivateRead none) s =
    .next { s with out := s.out ++ [.i3c (leBytes 1 s.side.status ++ leBytes 4 s.side.data.toNat)] }) ∧
  (∀ (s : State) (o : Word32), Does (.i3cPrivateRead (some o)) s fun t =>
    t.side.status = (s.regRead .i3c o.toNat).1.code ∧ t.side.data = BitVec.ofNat 32 (s.regRead .i3c o.toNat).2 ∧
    t.out = s.out ++ [.i3c (leBytes 1 t.side.status ++ leBytes 4 t.side.data.toNat)]) ∧
  (∀ (s : State) (p : Proc), s.locked 3 = false → Does (.debugHalt p) s fun t => (t.proc p).halted = true ∧ t.runs p = false ∧
    (∀ q, q ≠ p → t.proc q = s.proc q) ∧ t.side.status = 0) ∧
  (∀ (s : State) (p : Proc), s.locked 3 = false → Does (.debugStep p) s fun t => (t.proc p).halted = (s.proc p).halted ∧ t.side.status = 0 ∧ s.sameMem t) ∧
  (∀ (s : State) (p : Proc) (a : BitVec 30) (v : Word32), s.locked 3 = false → (s.proc p).halted = true →
    Does (.debugWriteWord p a v) s fun t => t.side.status = 0 ∧ Does (.debugReadWord p a) t fun u => u.side.status = 0 ∧ u.side.data = v) ∧
  (∀ (s : State) (p : Proc) (a : BitVec 30) (v : Word32) (i : Instr), s.locked 3 = true →
    i = .debugHalt p ∨ i = .debugStep p ∨ i = .debugReadWord p a ∨ i = .debugWriteWord p a v →
    exec i s = .next { s with side := { s.side with status := 3, data := 0 } })

/-! ## Power, heat, supply, resets and firmware (15, 17, 14) -/

namespace Sys2Proof.Machine

/-- A figure of the four sectors, summed. -/
def State.overSectors (s : State) (f : Sector → Nat) : Nat := sumNat ((List.range 4).map fun k => f (s.sector k))

/-- The throttle of a sector once its share of the cap is held: what it has, or what its thermal loop asks as far as it draws it (log
50). -/
def State.shareHeld (s : State) (k : Nat) (v f i : List Nat) : Nat :=
  Nat.max (s.sector k).throttle (Nat.min (s.sector k).thermMw ((s.sector k).throttle + (nth v k 0 + nth f k 0 + nth i k 0)))

/-- No session and no command is left, and no memory inside the clusters (15 R718; 09 R460). -/
def State.cleared (t : State) : Prop :=
  t.jobs = [] ∧ t.sessions = [] ∧ t.sqs = [] ∧ t.cqs = [] ∧ t.counters = [] ∧ t.kernels = [] ∧ t.threads = [] ∧ t.acc = [] ∧
    t.scales = [] ∧ t.fw.booted = false ∧ t.frame.source = .localFrames ∧ ∀ p, t.runs p = false

/-- What a reset that is not cold keeps: the frame counter, the LOCK bits, the mapping of failed units and the error log (13
R635; 16 R722, R732). -/
def State.keeps (s t : State) : Prop :=
  t.frame.counter = s.frame.counter ∧ t.power.lock = s.power.lock ∧ t.mapped = s.mapped ∧ t.log.entries = s.log.entries ∧
    t.log.next = s.log.next ∧ t.power.assetTag = s.power.assetTag ∧ t.fw.flash = s.fw.flash

end Sys2Proof.Machine

/-- Power and heat: above the cap the limiter takes the excess off vector issue first, then off fill, then off group issue,
and at or under the cap it releases at most 40 W of each sector's throttle; a sector whose share of the cap the thermal loop has
lowered is throttled by that much while it draws it, and its throttle is released no further (log 50); the thermal loop throttles a sector above
THROTTLE_C until it is 2 °C below and sets the emergency latch, which clears once nothing holds it; a trip diode at
TRIP_LIMIT shuts the device down, and one below changes nothing. -/
def Obligations.PowerAndHeatAreLimited : Prop :=
  (∀ (s : State) (n x : Nat) (v f i : List Nat), v.length = 4 → f.length = 4 → i.length = 4 → 5 * s.power.capInForce < n →
    x = (n - 5 * s.power.capInForce) * 1000 → (∀ k < 4, (s.sector k).thermMw ≤ (s.sector k).throttle) →
    Does (.powerLimiter n v f i) s fun t => t.power.measured = Nat.min n 4095 ∧ t.power.energy = s.power.energy + n ∧ s.sameMem t ∧
      t.overSectors (·.thrVec) = s.overSectors (·.thrVec) + Nat.min x (sumNat v) ∧
      t.overSectors (·.thrFill) = s.overSectors (·.thrFill) + Nat.min (x - sumNat v) (sumNat f) ∧
      t.overSectors (·.thrIssue) = s.overSectors (·.thrIssue) + Nat.min (x - sumNat v - sumNat f) (sumNat i)) ∧
  (∀ (s : State) (n : Nat) (v f i : List Nat), v.length = 4 → f.length = 4 → i.length = 4 → 5 * s.power.capInForce < n →
    Does (.powerLimiter n v f i) s fun t => s.sameMem t ∧
      (∀ k < 4, s.shareHeld k v f i ≤ (t.sector k).throttle) ∧
      t.overSectors (·.throttle) = Nat.max (sumNat ((List.range 4).map fun k => s.shareHeld k v f i))
        (s.overSectors (·.throttle) + Nat.min ((n - 5 * s.power.capInForce) * 1000) (sumNat v + sumNat f + sumNat i))) ∧
  (∀ (s : State) (n : Nat) (v f i : List Nat), n ≤ 5 * s.power.capInForce →
    Does (.powerLimiter n v f i) s fun t => s.sameMem t ∧ ∀ k < 4,
      (t.sector k).throttle = s.shareHeld k v f i - Nat.min 40000 (s.shareHeld k v f i - (s.sector k).thermMw) ∧
      ((s.sector k).thermMw ≤ (s.sector k).throttle → (t.sector k).thrIssue ≠ 0 →
        (t.sector k).thrFill = (s.sector k).thrFill ∧ (t.sector k).thrVec = (s.sector k).thrVec)) ∧
  (∀ (s : State) (l : List Nat), s.runs .dusk = true → Does (.thermalLoop l) s fun t => s.sameMem t ∧ t.engines = s.engines ∧
    (∀ k < 4, (t.sector k).hot = nth l k 0 ∧
      (8 * s.power.throttleC < nth l k 0 → (t.sector k).thermThrottle = true ∧ t.power.emergency = true ∧ t.power.thermHold = true ∧
        (t.sector k).thermMw = Nat.min 210000 ((s.sector k).thermMw + 40000)) ∧
      (nth l k 0 ≤ 8 * s.power.throttleC - 16 → (t.sector k).thermThrottle = false ∧ (t.sector k).thermMw = (s.sector k).thermMw - 40000) ∧
      (8 * s.power.throttleC - 16 < nth l k 0 → nth l k 0 ≤ 8 * s.power.throttleC →
        (t.sector k).thermThrottle = (s.sector k).thermThrottle)) ∧
    ((∀ k < 4, nth l k 0 ≤ 8 * s.power.throttleC - 16) → t.power.thermHold = false ∧ t.power.emergency = s.power.emergency)) ∧
  (∀ s : State, s.power.emergency = true → s.power.thermHold = false → s.power.dipHold = false → s.runs .dusk = true → s.fw.update = .none →
    exec .emergencyLatchClear s = .next { s with power := { s.power with emergency := false } }) ∧
  (∀ (s : State) (die temp : Nat), s.power.state ≠ .tripped → s.power.state ≠ .off → 8 * s.power.tripC ≤ temp →
    Does (.thermalTrip die temp) s fun t => t.power.state = .tripped ∧ t.power.cause = (if 920 ≤ temp then 4 else 5) ∧
      t.power.causeDie = die ∧ t.cleared ∧ t.mem = [] ∧ s.keeps t ∧ t.power.alert = true ∧ t.power.cap = s.power.cap ∧
      ∃ c ∈ t.log.crash, c.kind = 3 ∧ c.unit = die ∧ c.detail = temp ∧ c.frame = s.frame.counter) ∧
  (∀ (s : State) (die temp : Nat), temp < 8 * s.power.tripC → exec (.thermalTrip die temp) s = .next s)

/-- A supply dip: it holds group issue and marks the commands with a group under way or converted in the last 512 symbols; one
longer than 20 µs puts the stacks into self-refresh and sets the emergency latch; at its end they leave it, and a dip outside
the envelope is logged; the reference check after it takes engines with a failed row out of service, their converters going on with discarded
data unless an excursion holds, declares a row that fails a second time, and lets issue go on. -/
def Obligations.SupplyDipsHoldAndMark : Prop :=
  (∀ (s : State) (r : Rail) (k mv : Nat), s.watches r = true → s.power.dip = false → s.power.lastDip = none →
    Does (.supplyDipStart r k mv) s fun t => t.power.dip = true ∧ t.power.issueHeld = true ∧ t.power.dipCount = Nat.min 255 (s.power.dipCount + 1) ∧
      t.power.lastDip = some s.frame.counter ∧ t.power.emergency = s.power.emergency ∧ s.sameMem t ∧ t.engines = s.engines ∧
      ∀ id j c, s.job? id = some j → j.open' = true → j.lastConv = some c →
        s.frame.counter * Config.symbolsPerFrame + s.frame.symbol ≤ c + 512 → ∃ j', t.job? id = some j' ∧ j'.flags.supplyDip = true) ∧
  (∀ (s : State) (k us : Nat), s.power.dip = true → 20 < us → exec (.powerFailWarning k us) s =
    .next { s with power := { s.power with selfRefresh := true, dipHold := true, emergency := true, dipSector := k } }) ∧
  (∀ (s : State) (us : Nat), s.power.dip = true → Does (.supplyDipEnd us) s fun t => t.power.dip = false ∧ t.power.dipEnded = true ∧
    t.power.selfRefresh = false ∧ t.power.lastDipUs = Nat.min us 63 ∧ t.power.dipHold = false ∧ s.sameMem t ∧
    (us ≤ 20 → s.power.dipHold = false → t.log = s.log ∧ t.power.emergency = s.power.emergency) ∧
    (20 < us ∨ s.power.dipHold = true → t.power.emergency = true ∧ s.logs t 0x0004 s.power.dipSector s.power.dipSector us)) ∧
  (∀ (s : State) (l : List (Nat × Nat)), s.power.dipEnded = true → Does (.dipReferenceCheck l) s fun t => t.power.issueHeld = false ∧
    t.power.dipEnded = false ∧ s.sameMem t ∧
    (∀ e < 256, (∀ r, (e, r) ∉ l) → (t.engine e).lock = (s.engine e).lock ∧ (t.engine e).refFailed = []) ∧
    (∀ e r, e < 256 → (e, r) ∈ l → r ∈ (t.engine e).refFailed ∧
      ((s.engine e).lock = .locked ∨ (s.engine e).lock = .held ∨ (s.engine e).lock = .calib →
        (t.engine e).lock = .unlocked ∧ (t.engine e).discards = !(s.sector (sectorOfEngine e)).excursion) ∧
      (r ∈ (s.engine e).refFailed → s.mapped.contains (.rowAdc e r) = false → ∃ c, (Unit'.rowAdc e r, c) ∈ t.failing)))

/-- Resets: every reset ends the sessions and the commands without records and leaves firmware stopped. A warm reset (on
request, or held while REFCLK is lost) keeps HBM, the frame counter, the guarded registers, the LOCK bits and the mapping of
failed units; a supply reset keeps the last two, loses HBM and returns the guarded registers; a cold reset clears the
registers and the error log and keeps the crash record, and the loss of an always-on rail clears that too. The release
of the hub boots the package of the boot slot, or the other one, with the coefficients of the factory blob and the user area, or
those of the fuses when the blob fails, and stays in recovery mode with neither package valid. -/
def Obligations.ResetsKeepWhatTheySay : Prop :=
  (∀ s : State, s.locked 0 = false → (s.window 0).pair = none → Does (.resetCtrlWarm .i3c) s fun t => t.cleared ∧ s.keeps t ∧
    t.power.cause = 2 ∧ t.power.cap = s.power.cap ∧ t.power.laser = s.power.laser ∧
    ∀ a, t.byte a = if s.isHbm a then s.byte a else Config.memDefault) ∧
  (∀ s : State, s.power.state ≠ .tripped → s.power.refclkLost = false → Does .refclkLoss s fun t => t.cleared ∧ s.keeps t ∧
    t.power.cause = 6 ∧ t.power.refclkLost = true ∧ t.power.tripC = s.power.tripC ∧
    (∀ a, t.byte a = if s.isHbm a then s.byte a else Config.memDefault)) ∧
  (∀ s : State, exec .refclkReturn s = .next { s with power := { s.power with refclkLost := false } }) ∧
  (∀ (s : State) (r : Rail) (die mv : Nat), Rail.always r = false → s.power.state ≠ .retain →
    Does (.supplyReset r die mv) s fun t => t.cleared ∧ s.keeps t ∧ t.mem = [] ∧ t.power.cause = 3 ∧ t.power.causeDie = die ∧
      t.power.cap = 0x118 ∧ t.power.tripC = 0x73 ∧ t.power.laser = 0x1FFFF ∧
      ∃ c ∈ t.log.crash, c.kind = 4 ∧ c.unit = die ∧ c.detail = mv) ∧
  (∀ s : State, Does .coldReset s fun t => t.cleared ∧ t.mem = [] ∧ t.frame = {} ∧ t.mapped = [] ∧ t.engines = [] ∧ t.log.entries = [] ∧
    t.log.next = 1 ∧ t.log.crash = s.log.crash ∧ t.power.lock = 0 ∧ t.power.cause = 1 ∧ t.power.state = .run ∧ t.power.cap = 0x118 ∧
    t.fw.flash = s.fw.flash ∧ t.pending = s.pending) ∧
  (∀ (s : State) (i : Instr) (r : Rail) (die mv : Nat), i = .powerOnReset ∨ (i = .supplyReset r die mv ∧ Rail.always r = true) →
    Does i s fun t => t.cleared ∧ t.mem = [] ∧ t.frame = {} ∧ t.mapped = [] ∧ t.log.entries = [] ∧ t.log.crash = [] ∧ t.power.resets = 0 ∧
      t.power.lock = 0 ∧ t.power.cause = 0 ∧ t.fw.flash = s.fw.flash) ∧
  (∀ s : State, s.power.state = .retain → s.power.railWait = true → s.power.wakeLatched = false →
    Does .retainRailWaitTimeout s fun t => t.cleared ∧ s.keeps t ∧ t.mem = [] ∧ t.power.cause = 3) ∧
  (∀ (s : State) (o : BootObs), s.fw.booted = false → s.power.refclkLost = false → s.power.state = .run → o.vrefOk = true → o.railsOk = true →
    Does (.hubRelease o) s fun t => t.fw.booted = true ∧ s.sameMem t ∧ t.fw.flash = s.fw.flash ∧
      t.fw.recovery = !(s.packageValid false || s.packageValid true) ∧
      (t.fw.recovery = true ∨ (t.fw.ready = true ∧ t.power.state = .run ∧ t.fw.factoryOk = s.blobOk ∧
        (o.fits = [] → t.cal.active = s.cal.bootSet s.blobOk) ∧ ∀ p, t.runs p = true ∧
        (t.proc p).slotB = (if s.packageValid s.bootSlot then s.bootSlot else !s.bootSlot)))) ∧
  (∀ (s : State) (o : BootObs), s.fw.booted = false → s.power.refclkLost = false → s.power.state = .run → o.vrefOk = false →
    Does (.hubRelease o) s fun t => t.fw.booted = false ∧ t.power.alertVref = true ∧ t.power.alert = true)

/-- Power states: with no command open, PWR_REQ takes the device into Doze or begins the entry of Retain or Off, and brings
it back to Run; with one open it answers BUSY. In Retain HBM and the SRAM of the retained domains are kept, all other memory
is lost and the processors are stopped; a wake event begins the exit, or is latched during the entry; Run returns with every
processor up, and with the engines in service after their start-up calibration, as after boot, whose sectors lie in 25 °C to 105 °C
(05 R244; that a sector without a reading counts as at 75 °C is the model's choice, log 141); the return from Doze leaves them
UNLOCKED, to relock. Off loses every memory. ISSUE_FLOOR lowers at once. Every edge of the slow clock refreshes every stale copy;
at a boundary Noon and Twilight, each while it runs, refresh the registers of their blocks, which read as last refreshed. -/
def Obligations.PowerStatesComeAndGo : Prop :=
  (∀ (s : State) (m : Msg) (k : BitVec 16), s.serves m → s.locked 0 = false → s.power.state = .run →
    (s.busyJobs = true → exec (.pwrReqDoze m k) s = .next (s.wrote m .busy) ∧ exec (.pwrReqRetain m k) s = .next (s.wrote m .busy) ∧
      exec (.pwrReqOff m k) s = .next (s.wrote m .busy)) ∧
    (s.busyJobs = false →
      exec (.pwrReqDoze m k) s = .next (({ s with power := { s.power with target := 1, retainMask := k, state := .doze } }).wrote m .ok) ∧
      exec (.pwrReqRetain m k) s = .next (({ s with power := { s.power with target := 2, retainMask := k, state := .entering } }).wrote m .ok) ∧
      exec (.pwrReqOff m k) s = .next (({ s with power := { s.power with target := 3, retainMask := k, state := .entering } }).wrote m .ok)) ∧
    exec (.pwrReqRun m k) s = .next (({ s with power := { s.power with target := 0, retainMask := k } }).wrote m .ok)) ∧
  (∀ (s : State) (m : Msg) (k : BitVec 16), s.serves m → s.locked 0 = false → s.power.state = .doze → s.busyJobs = false →
    Does (.pwrReqRun m k) s fun t => t.power.state = .run ∧ s.sameMem t ∧
      ∀ e < 256, (t.engine e).lock = (if (s.engine e).lock = .locked ∨ (s.engine e).lock = .held ∨ (s.engine e).lock = .calib then .unlocked
        else (s.engine e).lock)) ∧
  (∀ s : State, s.power.state = .entering → s.power.target = 2 → Does .retainEntryComplete s fun t => t.power.state = .retain ∧
    (∀ p, t.runs p = false) ∧ t.power.kept = s.power.retainMask ∧ t.acc = [] ∧
    (∀ a, s.isHbm a = true → t.byte a = s.byte a) ∧
    (∀ a c, s.space a = .sram c → t.byte a = if s.power.retainMask.getLsbD (c / 4) then s.byte a else Config.memDefault) ∧
    (∀ c e, e < 4096 → c < 64 → t.scale c e = if s.power.retainMask.getLsbD (c / 4) then s.scale c e else 0) ∧
    (∀ e < 256, (s.engine e).lock ≠ .mappedOut → (t.engine e).lock = .off)) ∧
  (∀ s : State, (s.power.state = .retain → exec (.wakeEvent true) s =
      .next { s with power := { s.power with state := .resuming, wakeLatched := false, railWait := false } }) ∧
    (s.power.state = .entering → s.power.target = 2 → exec (.wakeEvent true) s =
      .next { s with power := { s.power with wakeLatched := true, railWait := false } }) ∧
    (s.power.state = .retain → exec (.wakeEvent false) s =
      .next { s with power := { s.power with wakeLatched := false, railWait := true } }) ∧
    (s.power.state = .retain → s.power.railWait = true → s.power.wakeLatched = false → exec .retainRailWaitEnd s =
      .next { s with power := { s.power with state := .resuming, wakeLatched := false, railWait := false } }) ∧
    (s.power.state = .retain → (s.window 0).pair = none → exec (.pwrWakeWrite .i3c 1 true) s =
      .next { s with power := { s.power with state := .resuming, wakeLatched := false, railWait := false },
                     side := { s.side with status := 0, data := 0 } })) ∧
  (∀ (s : State) (o : BootObs), s.power.state = .resuming → Does (.retainExitComplete o) s fun t => t.power.state = .run ∧ (∀ p, (t.proc p).up = true) ∧ s.sameMem t ∧
    t.frame.counter = s.frame.counter ∧
    ∀ e < 256, s.engineOut e = false → o.combsBad.contains (combOfEngine e) = false → s.power.laser.getLsbD (combOfEngine e) = true →
      (s.comb (combOfEngine e)).failed = false → o.calib = [] → (s.engine e).invalid = [] →
      25000 ≤ nth o.temps (sectorOfEngine e) 75000 → nth o.temps (sectorOfEngine e) 75000 ≤ 105000 → (t.engine e).lock = .locked) ∧
  (∀ s : State, s.power.state = .entering → s.power.target = 3 → Does .powerdownComplete s fun t => t.power.state = .off ∧ t.mem = [] ∧
    t.cleared ∧ s.keeps t) ∧
  (∀ (s : State) (m : Msg) (v : Word32), s.serves m → s.locked 0 = false → (∀ k < 4, bits v.toNat (8 * k) 7 ≤ 100) →
    (∀ k < 4, bits v.toNat (8 * k) 7 ≤ nth s.power.floors k 0) →
    Does (.issueFloorWrite m v) s fun t => t.power.floors = (List.range 4).map (fun k => bits v.toNat (8 * k) 7) ∧ s.sameMem t ∧
      t.power.cap = s.power.cap ∧ ∃ p, t.power.floorPlan = s.power.floorPlan ++ [(s.frame.counter + 65, p)]) ∧
  (∀ s : State, Does .staleCopyRefresh s fun t => t.refresh = (s.refresh + 1) % 256 ∧ s.sameMem t ∧
    ∀ o v, o ∈ hwOffsets → s.hwValue o = some v → t.copy o = v % 2 ^ 24 + t.refresh * 2 ^ 24) ∧
  (∀ (s : State) (o v : Nat),
    (o ∈ shownOffsets → (s.runs .twilight = true → s.lockValue o = some v → s.refreshShown.shownValue o = v % 2 ^ 32) ∧
      (s.runs .twilight = false → s.refreshShown.shownValue o = s.shownValue o)) ∧
    (o ∈ noonOffsets → (s.runs .noon = true → s.noonValue o = some v → s.refreshShown.shownValue o = v % 2 ^ 32) ∧
      (s.runs .noon = false → s.refreshShown.shownValue o = s.shownValue o)) ∧
    (o ∈ shownOffsets ∨ o ∈ noonOffsets → ∀ n, s.emuValue n o = some (s.shownValue o)))

/-- Firmware: a watchdog's expiry stops its processor, counts it and enters the crash record, the eighth within 60 s asserts
ALERT_N until fewer remain; what its stop suspends resumes with it. STAGE, ACTIVATE and CONFIRM answer and run; processors
switch one a boundary, each notice names its processor, the fourth ends the sequence; a new image that fails goes back; the
latch drops a held ACTIVATE after 5 s and starts it when it clears. -/
def Obligations.FirmwareStopsReturnsAndUpdates : Prop :=
  (∀ (s : State) (p : Proc) (pc : Word32), s.released = true → s.fw.update = .none → Does (.watchdogExpiry p pc) s fun t =>
    (t.proc p).up = false ∧ (t.proc p).expiries = (s.proc p).expiries + 1 ∧ (∀ q, q ≠ p → t.proc q = s.proc q) ∧ s.sameMem t ∧
    (∃ c ∈ t.log.crash, c.kind = 1 ∧ c.unit = procIndex p ∧ c.pc = pc.toNat) ∧
    (7 ≤ (s.proc p).expiries → p ∈ t.power.alertProc ∧ t.power.alert = true) ∧
    (p = .dusk → t.power.forced = true) ∧
    (p = .twilight → t.cal.rotating = false ∧ ∀ e < 256, (s.engine e).lock = .locked → (t.engine e).lock = .held)) ∧
  (∀ (s : State) (p : Proc), (s.proc p).expiries ≤ 8 → Does (.alertWindowExpiry p) s fun t =>
    (t.proc p).expiries = (s.proc p).expiries - 1 ∧ p ∉ t.power.alertProc ∧ s.sameMem t) ∧
  (∀ (s : State) (p : Proc), s.released = true → (s.proc p).up = false → s.fw.update = .none → Does (.processorResumed p) s fun t =>
    (t.proc p).up = true ∧ (p = .dusk → t.power.forced = false) ∧
    (p = .twilight → ∀ e < 256, (s.engine e).lock = .held →
      (t.engine e).lock = if (s.engine e).heldLoss then .unlocked else .locked) ∧
    (p = .noon → t.frame.committed = Nat.max s.frame.committed (s.frame.counter + 63)) ∧ s.sameMem t) ∧
  (∀ (s : State) (m : Msg) (a n : Nat), s.hears m = true → m.session = 0 →
    (s.locked 2 = true → exec (.stage m a n) s = .next (s.send (.session m 0x86 3 0 [])) ∧
      ∀ slot, exec (.activate m slot) s = .next (s.send (.session m 0x87 3 0 []))) ∧
    (s.locked 2 = false → s.runs .dawn = true → s.fw.update = .none →
      exec (.stage m a n) s = .next (({ s with fw := { s.fw with update := .staging 0 a n } }).send (.session m 0x86 0 0 [])) ∧
      (∀ slot, 2 ≤ slot → exec (.activate m slot) s = .next (s.send (.session m 0x87 0 10 []))) ∧
      (∀ slot, slot < 2 → (s.fw.staged.any fun x => x.1 == (slot == 1)) = true → s.fw.svnFuses ≤ (s.manifestOf (slot == 1)).svn →
        (s.power.emergency = true → exec (.activate m slot) s = .next { s with fw := { s.fw with update := .held m (slot == 1) } }) ∧
        (s.power.emergency = false → exec (.activate m slot) s = .next (({ s with fw := { s.fw with
          update := .running 0 (slot == 1) (s.frame.counter + (if s.frame.symbol = 0 then 4 else 5)) [] none } }).send (.session m 0x87 0 0 []))))) ∧
    (s.runs .dawn = true → s.fw.update = .none → s.fw.confirming = none →
      exec (.confirm m) s = .next { s with fw := { s.fw with confirming := some m } })) ∧
  (∀ (s : State) (n a size : Nat), s.fw.update = .staging n a size → s.runs .dawn = true → Does .stageComplete s fun t =>
    t.fw.update = .none ∧ s.sameMem t ∧ (∃ r, t.out = s.out ++ [.notice n 1 0 r s.frame.counter] ∧
      (size = 0 ∨ slotSize < size ∨ s.isHbm a = false → r = 7 ∧ t.fw.flash = s.fw.flash) ∧
      ((∃ x ∈ t.fw.staged, x.1 = !s.bootSlot) ↔ r = 0)) ∧
    (∀ i, i < slotSize → t.fw.flash.get 0 (slotBase s.bootSlot + i) = s.fw.flash.get 0 (slotBase s.bootSlot + i))) ∧
  (∀ (s : State) (m : Msg), s.fw.confirming = some m → s.runs .dawn = true → Does .confirmWriteComplete s fun t =>
    t.fw.confirming = none ∧ t.fw.unconfirmed = false ∧ t.bootSlot = s.fw.dawn.slotB ∧ s.fw.svnFuses ≤ t.fw.svnFuses ∧
    (∀ r, s.fw.running = some r → t.fw.svnFuses = Nat.max s.fw.svnFuses r.svn) ∧ t.out = s.out ++ [.session m 0x88 0 0 []]) ∧
  (∀ (s : State) (n w k : Nat) (b : Bool) (l : List Proc) (p : Proc), s.released = true → s.power.emergency = false →
    s.fw.update = .running n b w l none → w ≤ s.frame.counter → l.length = k → switchOrder[k]? = some p →
    Does (.processorSwitch p) s fun t => (t.proc p).up = false ∧ (t.proc p).slotB = b ∧ (∀ q, q ≠ p → t.proc q = s.proc q) ∧
      t.fw.update = .running n b s.frame.counter l (some p) ∧ s.sameMem t) ∧
  (∀ (s : State) (n w : Nat) (b : Bool) (l : List Proc) (p : Proc), s.fw.update = .running n b w l (some p) → (s.proc p).up = true →
    Does (.processorReady p) s fun t => s.sameMem t ∧
      (l.length < 3 → t.fw.update = .running n b (s.frame.counter + 1) (l ++ [p]) none ∧
        t.out = s.out ++ [.notice n 2 (procIndex p) 0 s.frame.counter]) ∧
      (3 ≤ l.length → t.fw.update = .none ∧ t.fw.unconfirmed = (b != s.bootSlot) ∧
        t.out = s.out ++ [.notice n 2 (procIndex p) 0 s.frame.counter, .notice n 4 0 0 s.frame.counter])) ∧
  (∀ (s : State) (n w : Nat) (b : Bool) (l : List Proc) (p : Proc), s.fw.update = .running n b w l (some p) →
    Does (.updateRollback p) s fun t => t.fw.update = .rollback n l.reverse (some p) 11 w s.frame.counter ∧ (t.proc p).slotB = !b ∧ s.sameMem t) ∧
  (∀ (s : State) (m : Msg) (b : Bool), s.power.emergency = true → s.fw.update = .held m b →
    exec .activateLatchTimeout s = .next (({ s with fw := { s.fw with update := .none } }).send (.session m 0x87 6 0 [])) ∧
    (s.power.thermHold = false → s.power.dipHold = false → s.runs .dusk = true → Does .emergencyLatchClear s fun t =>
      t.power.emergency = false ∧ ∃ w, t.fw.update = .running m.session b w [] none)) ∧
  (∀ (s : State) (ofs : Nat) (l : List Byte), s.fw.recovery = true → 4 ≤ l.length → l.length ≤ 256 → ofs + l.length ≤ slotSize →
    s.fw.blockNext ≤ ofs → Does (.blockWrite (0x10000000 + ofs) l) s fun t => t.side.status = 0 ∧ t.fw.blockNext = ofs + l.length ∧ s.sameMem t ∧
      (∀ i < l.length, t.fw.flash.get 0 (slotBase false + ofs + i) = l.getD i 0) ∧
      (∀ x, x < slotBase false + ofs ∨ slotBase false + ofs + l.length ≤ x → t.fw.flash.get 0 x = s.fw.flash.get 0 x)) ∧
  (∀ (s : State) (n : Nat) (l : List Byte), s.fw.recovery = false →
    exec (.bootSlotA n) s = .next (s.sideAnswer .busy 0) ∧ exec (.blockWrite n l) s = .next (s.sideAnswer .busy 0)) ∧
  (∀ (s : State) (n : Nat), s.fw.recovery = true → n ≤ slotSize → Does (.bootSlotA n) s fun t =>
    t.side.status = (if s.packageValid false then 0 else 5) ∧ t.fw.recovery = !s.packageValid false ∧ s.sameMem t)

/-! ## The whole machine -/

/-- Reset: the field tables' values. No session is open, no command and no free value has been taken, memory lists nothing,
frame 0 begins, and each register below reads the value its field table gives for reset. -/
def Obligations.ResetGivesTheTablesValues : Prop :=
  State.reset.pending = [] ∧ State.reset.memOk = true ∧ State.reset.jobs = [] ∧ State.reset.openSessions = [] ∧
  State.reset.frame.counter = 0 ∧ State.reset.frame.source = .localFrames ∧ State.reset.power.lock = 0 ∧
  (∀ x ∈ [(0x3100, 0), (0x3104, 0), (0x10000, 0x118), (0x10008, 0x73), (0x10010, 0x1FFFF), (0x10018, 0), (0x10028, 0x118000)],
    State.reset.copy x.1 = x.2) ∧
  (∀ x ∈ [(0x1100, 0), (0x2000, 0), (0x2004, 0), (0x300C, 0), (0x310C, 0), (0x4000, 0), (0x5000, 0), (0x5008, 0), (0x500C, 0),
      (0x5408, 0), (0x6000, 0), (0x6018, 0), (0x6400, 0x80000000), (0x10020, 0xFFFF0000), (0x10040, 0x64), (0x10050, 0),
      (0x20004, 0), (0x20008, 0x08000100), (0x2000C, 0x30), (0x20100, 0xFFFF0000), (0x20500, 0), (0x20900, 0),
      (0x21800, 0x3F800000), (0x22900, 0xFFFF0000), (0x30000, 0)], State.reset.emuValue 0 x.1 = some x.2)

/-- Every command takes effect in every state: none ends in a fault or a refusal (the model's choice, log 4: what the spec
refuses is an answer, a record or a register, and what cannot come about leaves the state as it is, log 17). With no command
waiting, one symbol of the device's time passes (the model's choice, log 13): the symbol count moves up by one below
102,399 and rests there; pending carries settle (04 R188), the quads' modulators turn to their next levels (02 R52), checks count
their probe symbols (05 R254), and what the rows hold under light is noted (06 R327); nothing else changes. -/
def Obligations.EveryStepAnswersANextState : Prop :=
  (∀ (c : Instr) (s : State), ∃ t, exec c s = .next t) ∧
  (∀ s : State, s.pending = [] → ∃ t, step s = .next t ∧
    t = { s with frame := { s.frame with symbol := t.frame.symbol }, carries := t.carries, clusters := t.clusters, engines := t.engines } ∧
    (∀ e, { t.engine e with probes := (s.engine e).probes, lit := (s.engine e).lit } = s.engine e) ∧
    (∀ c, { t.cluster c with emit := (s.cluster c).emit, short := (s.cluster c).short, chipT := (s.cluster c).chipT,
                             live := (s.cluster c).live } = s.cluster c) ∧
    (∀ c < 64, (t.cluster c).emit = (s.cluster c).emit.drop 1) ∧
    (∀ k, (s.carries.get [] k).isEmpty = true → (t.carries.get [] k).isEmpty = true) ∧
    (s.frame.symbol < 102399 → t.frame.symbol = s.frame.symbol + 1) ∧
    (102399 ≤ s.frame.symbol → t.frame.symbol = s.frame.symbol))

/-- Over every step, from any state, the bytes of HBM and SRAM stay in their canonical form, so that equal memories are equal
data (the model's choice of data, log 2; the address space is that of 09 R438). -/
def Obligations.StepsKeepMemoryCanonical : Prop :=
  ∀ s t : State, s.memOk = true → step s = .next t → t.memOk = true

/-- No bit of a vector core instruction is lost: for every instruction that an image may hold, in every format and with every
operand, decoding its words gives the instruction back, and its words take the length that bit 31 of the first word names. -/
def Obligations.CoreWordsRoundTrip : Prop :=
  ∀ c : CoreInstr, c.wf = true → decodeCore (encodeCore c) = some c ∧ coreLen ((encodeCore c).extractLsb' 0 32) = c.len ∧
    (c.len = 4 → (encodeCore c).extractLsb' 32 32 = 0)
end

