-- ==== Sys2Proof/Laws/Sparse.lean ====
section
/-! SUPPORT. The laws of sparse stores: a read after a write, and that every operation keeps the canonical form. -/

namespace Sys2Proof.Machine

variable {α : Type}

theorem Sparse.get_put (d : α) (m : Sparse α) (k j : Nat) (v : α) :
    Sparse.get d (Sparse.put m k v) j = if k = j then v else Sparse.get d m j := by
  induction m with
  | nil => simp [Sparse.put, Sparse.get]
  | cons x rest ih =>
    obtain ⟨n, w⟩ := x
    simp only [Sparse.put]
    split
    · simp [Sparse.get]
    · split
      · next h => subst h; simp only [Sparse.get]; split <;> rfl
      · next h1 h2 =>
        by_cases hj : n = j
        · subst hj; simp [Sparse.get, h2]
        · simp [Sparse.get, hj, ih]

theorem Sparse.get_erase (d : α) (m : Sparse α) (k j : Nat) :
    Sparse.get d (m.filter fun kv => kv.1 != k) j = if k = j then d else Sparse.get d m j := by
  induction m with
  | nil => simp [Sparse.get]
  | cons x rest ih =>
    obtain ⟨n, w⟩ := x
    by_cases hn : n = k
    · subst hn; by_cases hj : n = j <;> simp [Sparse.get, hj, ih]
      · subst hj; simpa using ih
    · by_cases hj : n = j
      · subst hj; simp [Sparse.get, hn, Ne.symm hn]
      · simp [Sparse.get, hn, hj, ih]

/-- A read after a write gives the value written at its key and the old value elsewhere. -/
@[simp] theorem Sparse.get_set [DecidableEq α] (d : α) (m : Sparse α) (k j : Nat) (v : α) :
    Sparse.get d (Sparse.set d m k v) j = if k = j then v else Sparse.get d m j := by
  unfold Sparse.set
  split
  · next h => subst h; exact Sparse.get_erase _ m k j
  · exact Sparse.get_put d m k j v

/-- A read after a change. -/
@[simp] theorem Sparse.get_modify [DecidableEq α] (d : α) (m : Sparse α) (k j : Nat) (f : α → α) :
    Sparse.get d (Sparse.modify d m k f) j = if k = j then f (Sparse.get d m k) else Sparse.get d m j := by
  simp [Sparse.modify]

/-- A read after keeping the keys that pass a test. -/
@[simp] theorem Sparse.get_keep (d : α) (m : Sparse α) (p : Nat → Bool) (j : Nat) :
    Sparse.get d (Sparse.keep p m) j = if p j then Sparse.get d m j else d := by
  induction m with
  | nil => simp [Sparse.keep, Sparse.get]
  | cons x rest ih =>
    obtain ⟨n, w⟩ := x
    unfold Sparse.keep at ih ⊢
    by_cases hn : p n <;> by_cases hj : n = j
    · subst hj; simp [Sparse.get, hn]
    · simp [Sparse.get, hn, hj, ih]
    · subst hj; simp [hn]; simpa [hn] using ih
    · simp [Sparse.get, hn, hj, ih]

/-! ## The canonical form -/

theorem Sparse.wfFrom_mono [DecidableEq α] (d : α) (m : Sparse α) {a b : Nat} (h : a ≤ b)
    (w : Sparse.wfFrom d b m = true) : Sparse.wfFrom d a m = true := by
  cases m with
  | nil => rfl
  | cons x rest => simp [Sparse.wfFrom] at w ⊢; exact ⟨⟨by omega, w.1.2⟩, w.2⟩

theorem Sparse.wfFrom_put [DecidableEq α] (d : α) (m : Sparse α) (lo k : Nat) (v : α) (hk : lo ≤ k) (hv : v ≠ d)
    (w : Sparse.wfFrom d lo m = true) : Sparse.wfFrom d lo (Sparse.put m k v) = true := by
  induction m generalizing lo with
  | nil => simp [Sparse.put, Sparse.wfFrom, hk, hv]
  | cons x rest ih =>
    obtain ⟨n, y⟩ := x
    simp [Sparse.wfFrom] at w
    simp only [Sparse.put]
    split
    · simp [Sparse.wfFrom, hk, hv, w.1.2, w.2]; omega
    · split
      · next h => subst h; simp [Sparse.wfFrom, hk, hv, w.2]
      · simp [Sparse.wfFrom, w.1.1, w.1.2]; exact ih (n + 1) (by omega) w.2

theorem Sparse.wfFrom_filter [DecidableEq α] (d : α) (m : Sparse α) (lo : Nat) (p : Nat × α → Bool)
    (w : Sparse.wfFrom d lo m = true) : Sparse.wfFrom d lo (m.filter p) = true := by
  induction m generalizing lo with
  | nil => rfl
  | cons x rest ih =>
    obtain ⟨n, y⟩ := x
    simp [Sparse.wfFrom] at w
    by_cases hp : p (n, y)
    · simp [hp, Sparse.wfFrom, w.1.1, w.1.2]; exact ih _ w.2
    · simp [hp]; exact Sparse.wfFrom_mono d _ (by omega) (ih _ w.2)

/-- A write keeps the canonical form. -/
theorem Sparse.wf_set [DecidableEq α] (d : α) (m : Sparse α) (k : Nat) (v : α) (w : m.wf d = true) :
    (Sparse.set d m k v).wf d = true := by
  unfold Sparse.set Sparse.wf at *
  split
  · exact Sparse.wfFrom_filter d m 0 _ w
  · next h => exact Sparse.wfFrom_put d m 0 k v (by omega) h w

/-- A change keeps the canonical form. -/
theorem Sparse.wf_modify [DecidableEq α] (d : α) (m : Sparse α) (k : Nat) (f : α → α) (w : m.wf d = true) :
    (Sparse.modify d m k f).wf d = true := Sparse.wf_set d m k _ w

/-- Dropping keys keeps the canonical form. -/
theorem Sparse.wf_keep [DecidableEq α] (d : α) (m : Sparse α) (p : Nat → Bool) (w : m.wf d = true) :
    (Sparse.keep p m).wf d = true := Sparse.wfFrom_filter d m 0 _ w

end Sys2Proof.Machine
end

