-- ==== Sys2Proof/Laws/Ops.lean ====
section
/-! SUPPORT. The laws of the shared operations: what sending, logging, flagging, declaring and the message and register wrappers can change, and the rules of inference for loops over lists. -/

namespace Sys2Proof.Machine

/-! ## Sparse stores -/

theorem Sparse.put_put {α : Type} (m : Sparse α) (k : Nat) (v w : α) : Sparse.put (Sparse.put m k v) k w = Sparse.put m k w := by
  induction m with
  | nil => simp [Sparse.put]
  | cons x rest ih =>
    obtain ⟨n, u⟩ := x
    simp only [Sparse.put]
    split
    · simp [Sparse.put]
    · split
      · simp [Sparse.put]
      · next h1 h2 => simp [Sparse.put, h1, h2, ih]

theorem Sparse.filter_put {α : Type} (m : Sparse α) (k : Nat) (v : α) :
    (Sparse.put m k v).filter (fun kv => kv.1 != k) = m.filter fun kv => kv.1 != k := by
  induction m with
  | nil => simp [Sparse.put]
  | cons x rest ih =>
    obtain ⟨n, u⟩ := x
    simp only [Sparse.put]
    split
    · simp
    · split
      · next h => subst h; simp
      · next h1 h2 => by_cases hn : n = k <;> simp [hn, ih]

/-- Of two writes at one key, when the first is no write of the default, the second stands. -/
theorem Sparse.set_set {α : Type} [DecidableEq α] (d : α) (m : Sparse α) (k : Nat) (v w : α) (hv : v ≠ d) :
    Sparse.set d (Sparse.set d m k v) k w = Sparse.set d m k w := by
  simp only [Sparse.set, hv, if_false]
  split
  · exact Sparse.filter_put m k v
  · exact Sparse.put_put m k v w

/-! ## Loops -/

/-- What one turn of a loop keeps, the loop keeps. -/
theorem forEach_keeps {α : Type} (P : State → Prop) (l : List α) (f : State → α → State)
    (h : ∀ s a, a ∈ l → P s → P (f s a)) (s : State) (hs : P s) : P (forEach l f s) := by
  induction l generalizing s with
  | nil => exact hs
  | cons a l ih =>
    exact ih (fun s b hb => h s b (List.mem_cons_of_mem a hb)) (f s a) (h s a List.mem_cons_self hs)

/-- A reading that no turn of a loop changes is unchanged by the loop. -/
theorem forEach_same {α β : Type} (g : State → β) (l : List α) (f : State → α → State)
    (h : ∀ s a, a ∈ l → g (f s a) = g s) (s : State) : g (forEach l f s) = g s :=
  forEach_keeps (fun t => g t = g s) l f (fun t a ha ht => (h t a ha).trans ht) s rfl

/-! ## Sending and logging -/

/-- Sending an item changes what the device has sent, and the sequence number of a Rustra port. -/
theorem State.send_eq (s : State) (o : Out) :
    s.send o = { s with out := s.out ++ [o], link := { s.link with ports := (s.send o).link.ports } } := by
  unfold State.send
  simp only [State.outPort]
  split <;> rfl

/-- An EVENT to every open session changes the same and nothing else. -/
theorem State.event_eq (s : State) (k : Nat) (d : Word32) :
    s.event k d = { s with out := (s.event k d).out, link := { s.link with ports := (s.event k d).link.ports } } := by
  unfold State.event
  generalize s.openSessions = l
  generalize s.frame.counter = n
  induction l generalizing s with
  | nil => rfl
  | cons a l ih =>
    simp only [List.foldl_cons]
    rw [ih, State.send_eq]

/-- A log entry changes the log, and what an EVENT changes. -/
theorem State.logError_eq (s : State) (code cls kind unit aux detail : Nat) :
    s.logError code cls kind unit aux detail =
      { s with log := (s.logError code cls kind unit aux detail).log, out := (s.logError code cls kind unit aux detail).out,
               link := { s.link with ports := (s.logError code cls kind unit aux detail).link.ports } } := by
  unfold State.logError
  simp only
  rw [State.event_eq]

/-- The log after an entry: its number, and the entry as the newest. -/
theorem State.logError_log (s : State) (code cls kind unit aux detail : Nat) :
    (s.logError code cls kind unit aux detail).log.next = s.log.next + 1 ∧
    (s.logError code cls kind unit aux detail).log.entries.getLast? =
      some { index := s.log.next, code := code, cls := cls, kind := kind, frame := s.frame.counter, unit := unit, aux := aux,
             detail := detail } := by
  unfold State.logError
  simp only
  rw [State.event_eq]
  simp

/-- An entry in the crash record changes the log alone. -/
theorem State.logCrash_eq (s : State) (kind unit pc detail : Nat) :
    s.logCrash kind unit pc detail = { s with log := (s.logCrash kind unit pc detail).log } := rfl

/-! ## Commands and units -/

/-- Flags reach exactly the commands that pass the test and have no final record. -/
theorem State.job?_flagJobs (s : State) (p : Job → Bool) (f : Flags → Flags) (id : Nat) :
    (s.flagJobs p f).job? id = (s.job? id).map fun j => if j.open' && p j then { j with flags := f j.flags } else j := by
  unfold State.flagJobs State.job? mapIf
  simp only [List.find?_map]
  congr 1
  congr 1
  funext j
  simp only [Function.comp]
  split <;> rfl

/-- Flagging changes the commands alone. -/
theorem State.flagJobs_eq (s : State) (p : Job → Bool) (f : Flags → Flags) :
    s.flagJobs p f = { s with jobs := (s.flagJobs p f).jobs } := rfl

/-- Declaring a unit failed changes the list of failing units alone, and keeps what it holds. -/
theorem State.declare_eq (s : State) (u : Unit') (c : Nat) :
    s.declare u c = { s with failing := (s.declare u c).failing } ∧ (∀ x ∈ s.failing, x ∈ (s.declare u c).failing) := by
  unfold State.declare
  split
  · exact ⟨rfl, fun _ h => h⟩
  · exact ⟨rfl, fun _ h => List.mem_append_left _ h⟩

/-- A unit that is not mapped out is failing once it has been declared. -/
theorem State.declare_mem (s : State) (u : Unit') (c : Nat) (h : s.mapped.contains u = false) :
    ∃ x, (u, x) ∈ (s.declare u c).failing := by
  unfold State.declare
  simp only [h, Bool.false_or]
  split
  · next g =>
    obtain ⟨⟨v, x⟩, hx, hv⟩ := List.any_eq_true.mp g
    obtain rfl : v = u := by simpa using hv
    exact ⟨x, hx⟩
  · exact ⟨c, by simp⟩

/-! ## Messages and register writes -/

/-- A message of a bound session that the device hears takes its effect. -/
theorem messageOp_takes (m : Msg) (s : State) (r : Out) (f : State → State) (h : s.hears m = true) (b : s.bound m = true) :
    messageOp m s r f = .next (f s) := by
  simp [messageOp, h, b, ok]

/-- A message of a session that is not bound to its port is refused and has no effect. -/
theorem messageOp_refused (m : Msg) (s : State) (r : Out) (f : State → State) (h : s.hears m = true) (b : s.bound m = false) :
    messageOp m s r f = .next (s.send r) := by
  simp [messageOp, h, b, ok]

/-- A message wrapper always answers a next state. -/
theorem messageOp_next (m : Msg) (s : State) (r : Out) (f : State → State) : ∃ t, messageOp m s r f = .next t := by
  unfold messageOp ok
  split
  · exact ⟨_, rfl⟩
  · split <;> exact ⟨_, rfl⟩

/-- A register write always answers a next state. -/
theorem writeOp_next (src : Src) (o len v : Nat) (r : Bool) (s : State) : ∃ t, writeOp src o len v r s = .next t := by
  cases src with
  | rustra m => exact messageOp_next m s (.regResp m 5 0) fun s => s.writeAndAnswer (.rustra m) o len v r
  | i3c => exact ⟨s.writeAndAnswer .i3c o len v r, rfl⟩

/-- A SESSION request always answers a next state. -/
theorem sessionOp_next (m : Msg) (op : Nat) (own : Bool) (s : State) (f : State → State) :
    ∃ t, sessionOp m op own s f = .next t := by
  unfold sessionOp ok
  split
  · exact ⟨_, rfl⟩
  · split <;> exact ⟨_, rfl⟩

/-- A slot frame that is not damaged, on a lane in service, for this device and from a peer context takes its effect. -/
theorem State.arrive_own (s : State) (f : SlotFrame) (own : State → Nat → State) (p : Nat) (h : f.crcOk = true)
    (hr : s.laneHears f.lane = true) (hd : s.link.fabricAddr.toNat = f.dstFa) (hp : s.peerOf f.srcFa = some p) :
    s.arrive f.kind f own = .next (own ((s.tookFrame f).countPeer p false) p) := by
  have hp' : (s.tookFrame f).peerOf f.srcFa = some p := hp
  have hd' : (s.tookFrame f).link.fabricAddr.toNat = f.dstFa := hd
  simp [State.arrive, h, hr, hd', hp', ok]

/-- Idle time changes the symbol, the pending carries, the levels that the modulators show and what the dwells have seen: nothing
else. -/
theorem tick_eq (s : State) : tick s = { s with
    carries := s.settleCarries.carries, frame := { s.frame with symbol := (tick s).frame.symbol }
    clusters := (tick s).clusters, engines := (tick s).engines } := rfl

end Sys2Proof.Machine
end

