-- ==== Sys2Proof/Laws/PerInstr.lean ====
section
/-! SUPPORT. Family Wf, one lemma per command: a well-formed command that is a vector core instruction names an existing thread and an instruction that an image may hold. -/

namespace Sys2Proof.Laws.Wf

/-- What well-formedness gives of a command as syntax. -/
def Statement (i : Instr) : Prop :=
  i.wf = true → ∀ t c, i.core? = some (t, c) → t < 2048 ∧ c.wf = true

theorem core_of_wf (i : Instr) : Statement i := by
  intro h t c hc
  simp only [Instr.wf, hc, Bool.and_eq_true, decide_eq_true_eq] at h
  exact h

theorem xfer : ∀ job, Statement (.xfer job) := fun _ => core_of_wf _
theorem matmul : ∀ job, Statement (.matmul job) := fun _ => core_of_wf _
theorem suite : ∀ job, Statement (.suite job) := fun _ => core_of_wf _
theorem reduce : ∀ job, Statement (.reduce job) := fun _ => core_of_wf _
theorem collect : ∀ job, Statement (.collect job) := fun _ => core_of_wf _
theorem vkernel : ∀ job, Statement (.vkernel job) := fun _ => core_of_wf _
theorem accLoad : ∀ job, Statement (.accLoad job) := fun _ => core_of_wf _
theorem accStore : ∀ job, Statement (.accStore job) := fun _ => core_of_wf _
theorem scaleLoad : ∀ job, Statement (.scaleLoad job) := fun _ => core_of_wf _
theorem scaleRead : ∀ job, Statement (.scaleRead job) := fun _ => core_of_wf _
theorem fence : ∀ job, Statement (.fence job) := fun _ => core_of_wf _
theorem eventSignal : ∀ job, Statement (.eventSignal job) := fun _ => core_of_wf _
theorem waitFrame : ∀ job, Statement (.waitFrame job) := fun _ => core_of_wf _
theorem calibrate : ∀ job, Statement (.calibrate job) := fun _ => core_of_wf _
theorem selftest : ∀ job failed, Statement (.selftest job failed) := fun _ _ => core_of_wf _
theorem restoreFactory : ∀ job, Statement (.restoreFactory job) := fun _ => core_of_wf _
theorem query : ∀ job, Statement (.query job) := fun _ => core_of_wf _
theorem cancel : ∀ job, Statement (.cancel job) := fun _ => core_of_wf _
theorem descriptorTake : Statement .descriptorTake := core_of_wf _
theorem frameBoundary : ∀ obs, Statement (.frameBoundary obs) := fun _ => core_of_wf _
theorem boundaryMarker : ∀ chips e interval, Statement (.boundaryMarker chips e interval) := fun _ _ _ => core_of_wf _
theorem numberedMarker : ∀ number crc e, Statement (.numberedMarker number crc e) := fun _ _ _ => core_of_wf _
theorem markerTimeout : Statement .markerTimeout := core_of_wf _
theorem holdover1s : Statement .holdover1s := core_of_wf _
theorem refclkLoss : Statement .refclkLoss := core_of_wf _
theorem refclkReturn : Statement .refclkReturn := core_of_wf _
theorem groupIssue : ∀ job cluster vec grp slice, Statement (.groupIssue job cluster vec grp slice) := fun _ _ _ _ _ => core_of_wf _
theorem conversionArrival : ∀ engine row noise, Statement (.conversionArrival engine row noise) := fun _ _ _ => core_of_wf _
theorem bankLoad : ∀ job engine ob rb ws patch, Statement (.bankLoad job engine ob rb ws patch) := fun _ _ _ _ _ _ => core_of_wf _
theorem bankSwap : ∀ engine, Statement (.bankSwap engine) := fun _ => core_of_wf _
theorem tileDrain : ∀ job engine, Statement (.tileDrain job engine) := fun _ _ => core_of_wf _
theorem activationFetch : ∀ job cluster, Statement (.activationFetch job cluster) := fun _ _ => core_of_wf _
theorem hbmReadReturn : ∀ read ecc, Statement (.hbmReadReturn read ecc) := fun _ _ => core_of_wf _
theorem farandoleSend : ∀ job head clusters src size dst, Statement (.farandoleSend job head clusters src size dst) := fun _ _ _ _ _ _ => core_of_wf _
theorem farandoleHop : ∀ send, Statement (.farandoleHop send) := fun _ => core_of_wf _
theorem polonaiseHop : ∀ job part ob, Statement (.polonaiseHop job part ob) := fun _ _ _ => core_of_wf _
theorem stepDecision : ∀ job, Statement (.stepDecision job) := fun _ => core_of_wf _
theorem rerunDrain : ∀ job, Statement (.rerunDrain job) := fun _ => core_of_wf _
theorem suiteHandover : ∀ job, Statement (.suiteHandover job) := fun _ => core_of_wf _
theorem completionWrite : ∀ job, Statement (.completionWrite job) := fun _ => core_of_wf _
theorem cancelEffect : ∀ job, Statement (.cancelEffect job) := fun _ => core_of_wf _
theorem cancelCompletion : ∀ job, Statement (.cancelCompletion job) := fun _ => core_of_wf _
theorem kernelStart : ∀ job, Statement (.kernelStart job) := fun _ => core_of_wf _
theorem kernelBudgetStop : ∀ job, Statement (.kernelBudgetStop job) := fun _ => core_of_wf _
theorem loadReturn : ∀ thread, Statement (.loadReturn thread) := fun _ => core_of_wf _
theorem vadd : ∀ thread f, Statement (.vadd thread f) := fun _ _ => core_of_wf _
theorem vsub : ∀ thread f, Statement (.vsub thread f) := fun _ _ => core_of_wf _
theorem vmul : ∀ thread f, Statement (.vmul thread f) := fun _ _ => core_of_wf _
theorem vmin : ∀ thread f, Statement (.vmin thread f) := fun _ _ => core_of_wf _
theorem vmax : ∀ thread f, Statement (.vmax thread f) := fun _ _ => core_of_wf _
theorem vabs : ∀ thread f, Statement (.vabs thread f) := fun _ _ => core_of_wf _
theorem vneg : ∀ thread f, Statement (.vneg thread f) := fun _ _ => core_of_wf _
theorem vcmpeq : ∀ thread f, Statement (.vcmpeq thread f) := fun _ _ => core_of_wf _
theorem vcmplt : ∀ thread f, Statement (.vcmplt thread f) := fun _ _ => core_of_wf _
theorem vcmple : ∀ thread f, Statement (.vcmple thread f) := fun _ _ => core_of_wf _
theorem vsel : ∀ thread f, Statement (.vsel thread f) := fun _ _ => core_of_wf _
theorem vrcpe : ∀ thread f, Statement (.vrcpe thread f) := fun _ _ => core_of_wf _
theorem vrsqe : ∀ thread f, Statement (.vrsqe thread f) := fun _ _ => core_of_wf _
theorem vcvt : ∀ thread f, Statement (.vcvt thread f) := fun _ _ => core_of_wf _
theorem vand : ∀ thread f, Statement (.vand thread f) := fun _ _ => core_of_wf _
theorem vor : ∀ thread f, Statement (.vor thread f) := fun _ _ => core_of_wf _
theorem vxor : ∀ thread f, Statement (.vxor thread f) := fun _ _ => core_of_wf _
theorem vshl : ∀ thread f, Statement (.vshl thread f) := fun _ _ => core_of_wf _
theorem vshr : ∀ thread f, Statement (.vshr thread f) := fun _ _ => core_of_wf _
theorem vperm : ∀ thread f, Statement (.vperm thread f) := fun _ _ => core_of_wf _
theorem vbcast : ∀ thread f, Statement (.vbcast thread f) := fun _ _ => core_of_wf _
theorem vslup : ∀ thread f, Statement (.vslup thread f) := fun _ _ => core_of_wf _
theorem vsldn : ∀ thread f, Statement (.vsldn thread f) := fun _ _ => core_of_wf _
theorem vcomp : ∀ thread f, Statement (.vcomp thread f) := fun _ _ => core_of_wf _
theorem viota : ∀ thread f, Statement (.viota thread f) := fun _ _ => core_of_wf _
theorem vrsum : ∀ thread f, Statement (.vrsum thread f) := fun _ _ => core_of_wf _
theorem vrmax : ∀ thread f, Statement (.vrmax thread f) := fun _ _ => core_of_wf _
theorem vrmin : ∀ thread f, Statement (.vrmin thread f) := fun _ _ => core_of_wf _
theorem pand : ∀ thread f, Statement (.pand thread f) := fun _ _ => core_of_wf _
theorem por : ∀ thread f, Statement (.por thread f) := fun _ _ => core_of_wf _
theorem pxor : ∀ thread f, Statement (.pxor thread f) := fun _ _ => core_of_wf _
theorem pnot : ∀ thread f, Statement (.pnot thread f) := fun _ _ => core_of_wf _
theorem vfma : ∀ thread f, Statement (.vfma thread f) := fun _ _ => core_of_wf _
theorem vfms : ∀ thread f, Statement (.vfms thread f) := fun _ _ => core_of_wf _
theorem vfnma : ∀ thread f, Statement (.vfnma thread f) := fun _ _ => core_of_wf _
theorem vfnms : ∀ thread f, Statement (.vfnms thread f) := fun _ _ => core_of_wf _
theorem vdiv : ∀ thread f, Statement (.vdiv thread f) := fun _ _ => core_of_wf _
theorem vsqrt : ∀ thread f, Statement (.vsqrt thread f) := fun _ _ => core_of_wf _
theorem sadd : ∀ thread f, Statement (.sadd thread f) := fun _ _ => core_of_wf _
theorem ssub : ∀ thread f, Statement (.ssub thread f) := fun _ _ => core_of_wf _
theorem smul : ∀ thread f, Statement (.smul thread f) := fun _ _ => core_of_wf _
theorem sand : ∀ thread f, Statement (.sand thread f) := fun _ _ => core_of_wf _
theorem sor : ∀ thread f, Statement (.sor thread f) := fun _ _ => core_of_wf _
theorem sxor : ∀ thread f, Statement (.sxor thread f) := fun _ _ => core_of_wf _
theorem sshl : ∀ thread f, Statement (.sshl thread f) := fun _ _ => core_of_wf _
theorem sshr : ∀ thread f, Statement (.sshr thread f) := fun _ _ => core_of_wf _
theorem sfadd : ∀ thread f, Statement (.sfadd thread f) := fun _ _ => core_of_wf _
theorem sfmul : ∀ thread f, Statement (.sfmul thread f) := fun _ _ => core_of_wf _
theorem sfdiv : ∀ thread f, Statement (.sfdiv thread f) := fun _ _ => core_of_wf _
theorem sfcmplt : ∀ thread f, Statement (.sfcmplt thread f) := fun _ _ => core_of_wf _
theorem sli : ∀ thread f, Statement (.sli thread f) := fun _ _ => core_of_wf _
theorem slih : ∀ thread f, Statement (.slih thread f) := fun _ _ => core_of_wf _
theorem vld : ∀ thread f, Statement (.vld thread f) := fun _ _ => core_of_wf _
theorem vst : ∀ thread f, Statement (.vst thread f) := fun _ _ => core_of_wf _
theorem vlds : ∀ thread f, Statement (.vlds thread f) := fun _ _ => core_of_wf _
theorem vsts : ∀ thread f, Statement (.vsts thread f) := fun _ _ => core_of_wf _
theorem vgath : ∀ thread f, Statement (.vgath thread f) := fun _ _ => core_of_wf _
theorem vscat : ∀ thread f, Statement (.vscat thread f) := fun _ _ => core_of_wf _
theorem sld : ∀ thread f, Statement (.sld thread f) := fun _ _ => core_of_wf _
theorem sst : ∀ thread f, Statement (.sst thread f) := fun _ _ => core_of_wf _
theorem aaddD : ∀ thread f, Statement (.aaddD thread f) := fun _ _ => core_of_wf _
theorem saaddD : ∀ thread f, Statement (.saaddD thread f) := fun _ _ => core_of_wf _
theorem br : ∀ thread f, Statement (.br thread f) := fun _ _ => core_of_wf _
theorem call : ∀ thread f, Statement (.call thread f) := fun _ _ => core_of_wf _
theorem bany : ∀ thread f, Statement (.bany thread f) := fun _ _ => core_of_wf _
theorem ball : ∀ thread f, Statement (.ball thread f) := fun _ _ => core_of_wf _
theorem bnone : ∀ thread f, Statement (.bnone thread f) := fun _ _ => core_of_wf _
theorem beq : ∀ thread f, Statement (.beq thread f) := fun _ _ => core_of_wf _
theorem bne : ∀ thread f, Statement (.bne thread f) := fun _ _ => core_of_wf _
theorem blt : ∀ thread f, Statement (.blt thread f) := fun _ _ => core_of_wf _
theorem ret : ∀ thread f, Statement (.ret thread f) := fun _ _ => core_of_wf _
theorem endThread : ∀ thread f, Statement (.endThread thread f) := fun _ _ => core_of_wf _
theorem barT : ∀ thread f, Statement (.barT thread f) := fun _ _ => core_of_wf _
theorem barK : ∀ thread f, Statement (.barK thread f) := fun _ _ => core_of_wf _
theorem mfence : ∀ thread f, Statement (.mfence thread f) := fun _ _ => core_of_wf _
theorem setprog : ∀ thread f, Statement (.setprog thread f) := fun _ _ => core_of_wf _
theorem rdcyc : ∀ thread f, Statement (.rdcyc thread f) := fun _ _ => core_of_wf _
theorem rdbud : ∀ thread f, Statement (.rdbud thread f) := fun _ _ => core_of_wf _
theorem epost : ∀ thread f, Statement (.epost thread f) := fun _ _ => core_of_wf _
theorem ewait : ∀ thread f, Statement (.ewait thread f) := fun _ _ => core_of_wf _
theorem evsig : ∀ thread f, Statement (.evsig thread f) := fun _ _ => core_of_wf _
theorem evwait : ∀ thread f, Statement (.evwait thread f) := fun _ _ => core_of_wf _
theorem rdfps : ∀ thread f, Statement (.rdfps thread f) := fun _ _ => core_of_wf _
theorem engineRemoval : ∀ engine, Statement (.engineRemoval engine) := fun _ => core_of_wf _
theorem relockStart : ∀ engine, Statement (.relockStart engine) := fun _ => core_of_wf _
theorem vectorCheckComplete : ∀ engine readings, Statement (.vectorCheckComplete engine readings) := fun _ _ => core_of_wf _
theorem toneCheckComplete : ∀ engine readings modRowOk, Statement (.toneCheckComplete engine readings modRowOk) := fun _ _ _ => core_of_wf _
theorem indexSearchComplete : ∀ engine row isB, Statement (.indexSearchComplete engine row isB) := fun _ _ _ => core_of_wf _
theorem acquisitionComplete : ∀ engine, Statement (.acquisitionComplete engine) := fun _ => core_of_wf _
theorem recoveryRunComplete : ∀ engine codes exact, Statement (.recoveryRunComplete engine codes exact) := fun _ _ _ => core_of_wf _
theorem rateExcursion : ∀ sector, Statement (.rateExcursion sector) := fun _ => core_of_wf _
theorem calibSlotStart : ∀ engine, Statement (.calibSlotStart engine) := fun _ => core_of_wf _
theorem calibSlotEnd : ∀ engine obs, Statement (.calibSlotEnd engine obs) := fun _ _ => core_of_wf _
theorem unitMapOut : ∀ u, Statement (.unitMapOut u) := fun _ => core_of_wf _
theorem combStable : ∀ comb, Statement (.combStable comb) := fun _ => core_of_wf _
theorem combOutputDrop : ∀ comb, Statement (.combOutputDrop comb) := fun _ => core_of_wf _
theorem slewUpdate : ∀ chan w, Statement (.slewUpdate chan w) := fun _ _ => core_of_wf _
theorem monitorOutput : ∀ k o, Statement (.monitorOutput k o) := fun _ _ => core_of_wf _
theorem monitorSelfcalComplete : ∀ k offsetUp gainUp ppmUp, Statement (.monitorSelfcalComplete k offsetUp gainUp ppmUp) :=
  fun _ _ _ _ => core_of_wf _
theorem lossLocatorRun : ∀ hub k, Statement (.lossLocatorRun hub k) := fun _ _ => core_of_wf _
theorem ageingRecordWrite : ∀ hours, Statement (.ageingRecordWrite hours) := fun _ => core_of_wf _
theorem residWindowEnd : Statement .residWindowEnd := core_of_wf _
theorem laneWindowEnd : ∀ figs, Statement (.laneWindowEnd figs) := fun _ => core_of_wf _
theorem scrubRead : ∀ stack granule block ecc, Statement (.scrubRead stack granule block ecc) := fun _ _ _ _ => core_of_wf _
theorem flashSaveComplete : Statement .flashSaveComplete := core_of_wf _
theorem planValidation : Statement .planValidation := core_of_wf _
theorem planActivation : Statement .planActivation := core_of_wf _
theorem laneTrainingStart : ∀ lane, Statement (.laneTrainingStart lane) := fun _ => core_of_wf _
theorem laneTrained : ∀ lane r, Statement (.laneTrained lane r) := fun _ _ => core_of_wf _
theorem lossOfLight : ∀ lane, Statement (.lossOfLight lane) := fun _ => core_of_wf _
theorem probePulse : ∀ lane, Statement (.probePulse lane) := fun _ => core_of_wf _
theorem laneFecFailure : ∀ lane, Statement (.laneFecFailure lane) := fun _ => core_of_wf _
theorem rendezvous : ∀ f, Statement (.rendezvous f) := fun _ => core_of_wf _
theorem collectData : ∀ f, Statement (.collectData f) := fun _ => core_of_wf _
theorem polonaiseValues : ∀ f, Statement (.polonaiseValues f) := fun _ => core_of_wf _
theorem acknowledgement : ∀ f first last, Statement (.acknowledgement f first last) := fun _ _ _ => core_of_wf _
theorem cancelNotice : ∀ f, Statement (.cancelNotice f) := fun _ => core_of_wf _
theorem slotResend : ∀ job, Statement (.slotResend job) := fun _ => core_of_wf _
theorem peerContractLapse : ∀ job peer, Statement (.peerContractLapse job peer) := fun _ _ => core_of_wf _
theorem attnPress : ∀ connector, Statement (.attnPress connector) := fun _ => core_of_wf _
theorem connectorQuiesce : ∀ connector, Statement (.connectorQuiesce connector) := fun _ => core_of_wf _
theorem attentionCycleEnd : ∀ connector, Statement (.attentionCycleEnd connector) := fun _ => core_of_wf _
theorem doorbell : ∀ m sq tail, Statement (.doorbell m sq tail) := fun _ _ _ => core_of_wf _
theorem memRead : ∀ m address len, Statement (.memRead m address len) := fun _ _ _ => core_of_wf _
theorem memWrite : ∀ m address data, Statement (.memWrite m address data) := fun _ _ _ => core_of_wf _
theorem heartbeat : ∀ m, Statement (.heartbeat m) := fun _ => core_of_wf _
theorem haResp : ∀ m data crcOk, Statement (.haResp m data crcOk) := fun _ _ _ => core_of_wf _
theorem credit : ∀ port req data, Statement (.credit port req data) := fun _ _ _ => core_of_wf _
theorem linkNak : ∀ port, Statement (.linkNak port) := fun _ => core_of_wf _
theorem linkReplayTimeout : ∀ port, Statement (.linkReplayTimeout port) := fun _ => core_of_wf _
theorem haRespTimeout : ∀ tag, Statement (.haRespTimeout tag) := fun _ => core_of_wf _
theorem openSession : ∀ m req, Statement (.openSession m req) := fun _ _ => core_of_wf _
theorem close : ∀ m, Statement (.close m) := fun _ => core_of_wf _
theorem claim : ∀ m target key tableAddr, Statement (.claim m target key tableAddr) := fun _ _ _ _ => core_of_wf _
theorem timers : ∀ m graceMs reaperS, Statement (.timers m graceMs reaperS) := fun _ _ _ => core_of_wf _
theorem attest : ∀ m nonce, Statement (.attest m nonce) := fun _ _ => core_of_wf _
theorem stage : ∀ m address size, Statement (.stage m address size) := fun _ _ _ => core_of_wf _
theorem stageComplete : Statement .stageComplete := core_of_wf _
theorem activate : ∀ m slot, Statement (.activate m slot) := fun _ _ => core_of_wf _
theorem confirm : ∀ m, Statement (.confirm m) := fun _ => core_of_wf _
theorem heartbeatLost : ∀ session, Statement (.heartbeatLost session) := fun _ => core_of_wf _
theorem graceEnd : ∀ session, Statement (.graceEnd session) := fun _ => core_of_wf _
theorem reaper : ∀ session, Statement (.reaper session) := fun _ => core_of_wf _
theorem watchdogExpiry : ∀ p pc, Statement (.watchdogExpiry p pc) := fun _ _ => core_of_wf _
theorem processorResumed : ∀ p, Statement (.processorResumed p) := fun _ => core_of_wf _
theorem processorSwitch : ∀ p, Statement (.processorSwitch p) := fun _ => core_of_wf _
theorem processorReady : ∀ p, Statement (.processorReady p) := fun _ => core_of_wf _
theorem updateRollback : ∀ p, Statement (.updateRollback p) := fun _ => core_of_wf _
theorem activateLatchTimeout : Statement .activateLatchTimeout := core_of_wf _
theorem powerLimiter : ∀ measured vec fill issue, Statement (.powerLimiter measured vec fill issue) := fun _ _ _ _ => core_of_wf _
theorem thermalLoop : ∀ temps, Statement (.thermalLoop temps) := fun _ => core_of_wf _
theorem thermalTrip : ∀ die temp, Statement (.thermalTrip die temp) := fun _ _ => core_of_wf _
theorem emergencyLatchClear : Statement .emergencyLatchClear := core_of_wf _
theorem supplyDipStart : ∀ rail sector mv, Statement (.supplyDipStart rail sector mv) := fun _ _ _ => core_of_wf _
theorem supplyDipEnd : ∀ us, Statement (.supplyDipEnd us) := fun _ => core_of_wf _
theorem dipReferenceCheck : ∀ failed, Statement (.dipReferenceCheck failed) := fun _ => core_of_wf _
theorem powerFailWarning : ∀ sector us, Statement (.powerFailWarning sector us) := fun _ _ => core_of_wf _
theorem supplyReset : ∀ rail die mv, Statement (.supplyReset rail die mv) := fun _ _ _ => core_of_wf _
theorem powerOnReset : Statement .powerOnReset := core_of_wf _
theorem coldReset : Statement .coldReset := core_of_wf _
theorem hubRelease : ∀ obs, Statement (.hubRelease obs) := fun _ => core_of_wf _
theorem wakeEvent : ∀ railsOk, Statement (.wakeEvent railsOk) := fun _ => core_of_wf _
theorem retainEntryComplete : Statement .retainEntryComplete := core_of_wf _
theorem retainExitComplete : ∀ obs, Statement (.retainExitComplete obs) := fun _ => core_of_wf _
theorem powerdownComplete : Statement .powerdownComplete := core_of_wf _
theorem sqDoorbellWrite : ∀ m q value, Statement (.sqDoorbellWrite m q value) := fun _ _ _ => core_of_wf _
theorem cqHeadWrite : ∀ m c value, Statement (.cqHeadWrite m c value) := fun _ _ _ => core_of_wf _
theorem sqEnable : ∀ m q value, Statement (.sqEnable m q value) := fun _ _ _ => core_of_wf _
theorem sqDisable : ∀ m q value, Statement (.sqDisable m q value) := fun _ _ _ => core_of_wf _
theorem sqQfullClear : ∀ m q, Statement (.sqQfullClear m q) := fun _ _ => core_of_wf _
theorem cqEnable : ∀ m c value, Statement (.cqEnable m c value) := fun _ _ _ => core_of_wf _
theorem frameStepRequest : ∀ m, Statement (.frameStepRequest m) := fun _ => core_of_wf _
theorem planArm : ∀ m, Statement (.planArm m) := fun _ => core_of_wf _
theorem planDisarm : ∀ m, Statement (.planDisarm m) := fun _ => core_of_wf _
theorem shadowCtrlWrite : ∀ m value, Statement (.shadowCtrlWrite m value) := fun _ _ => core_of_wf _
theorem wideSelWrite : ∀ m value, Statement (.wideSelWrite m value) := fun _ _ => core_of_wf _
theorem wideSnapshotReady : ∀ session, Statement (.wideSnapshotReady session) := fun _ => core_of_wf _
theorem wideData3Read : ∀ m, Statement (.wideData3Read m) := fun _ => core_of_wf _
theorem cfgCommit : ∀ m, Statement (.cfgCommit m) := fun _ => core_of_wf _
theorem cfgSuspend : ∀ m, Statement (.cfgSuspend m) := fun _ => core_of_wf _
theorem lockWrite : ∀ src value, Statement (.lockWrite src value) := fun _ _ => core_of_wf _
theorem assetTagWrite : ∀ m value, Statement (.assetTagWrite m value) := fun _ _ => core_of_wf _
theorem powerCapWrite : ∀ src value, Statement (.powerCapWrite src value) := fun _ _ => core_of_wf _
theorem powerCapCWrite : ∀ src value, Statement (.powerCapCWrite src value) := fun _ _ => core_of_wf _
theorem tripLimitWrite : ∀ src value, Statement (.tripLimitWrite src value) := fun _ _ => core_of_wf _
theorem tripLimitCWrite : ∀ src value, Statement (.tripLimitCWrite src value) := fun _ _ => core_of_wf _
theorem laserEnableWrite : ∀ src value, Statement (.laserEnableWrite src value) := fun _ _ => core_of_wf _
theorem laserEnableCWrite : ∀ src value, Statement (.laserEnableCWrite src value) := fun _ _ => core_of_wf _
theorem guardPendingExpiry : ∀ src, Statement (.guardPendingExpiry src) := fun _ => core_of_wf _
theorem scalePageWrite : ∀ m value, Statement (.scalePageWrite m value) := fun _ _ => core_of_wf _
theorem scalePageRefresh : ∀ m, Statement (.scalePageRefresh m) := fun _ => core_of_wf _
theorem scaleWindowWrite : ∀ m index value, Statement (.scaleWindowWrite m index value) := fun _ _ _ => core_of_wf _
theorem pwrReqRun : ∀ m retainMask, Statement (.pwrReqRun m retainMask) := fun _ _ => core_of_wf _
theorem pwrReqDoze : ∀ m retainMask, Statement (.pwrReqDoze m retainMask) := fun _ _ => core_of_wf _
theorem pwrReqRetain : ∀ m retainMask, Statement (.pwrReqRetain m retainMask) := fun _ _ => core_of_wf _
theorem pwrReqOff : ∀ m retainMask, Statement (.pwrReqOff m retainMask) := fun _ _ => core_of_wf _
theorem pwrWakeWrite : ∀ src value railsOk, Statement (.pwrWakeWrite src value railsOk) := fun _ _ _ => core_of_wf _
theorem resetCtrlWarm : ∀ src, Statement (.resetCtrlWarm src) := fun _ => core_of_wf _
theorem issueFloorWrite : ∀ m value, Statement (.issueFloorWrite m value) := fun _ _ => core_of_wf _
theorem aliasWrite : ∀ m offset bit value, Statement (.aliasWrite m offset bit value) := fun _ _ _ _ => core_of_wf _
theorem registerWrite : ∀ src offset len value, Statement (.registerWrite src offset len value) := fun _ _ _ _ => core_of_wf _
theorem entdaa : ∀ address, Statement (.entdaa address) := fun _ => core_of_wf _
theorem setdasa : ∀ address, Statement (.setdasa address) := fun _ => core_of_wf _
theorem rstdaa : Statement .rstdaa := core_of_wf _
theorem enec : ∀ events, Statement (.enec events) := fun _ => core_of_wf _
theorem disec : ∀ events, Statement (.disec events) := fun _ => core_of_wf _
theorem getpid : Statement .getpid := core_of_wf _
theorem getbcr : Statement .getbcr := core_of_wf _
theorem getdcr : Statement .getdcr := core_of_wf _
theorem getstatus : Statement .getstatus := core_of_wf _
theorem i3cPrivateRead : ∀ op01, Statement (.i3cPrivateRead op01) := fun _ => core_of_wf _
theorem blockWrite : ∀ offset data, Statement (.blockWrite offset data) := fun _ _ => core_of_wf _
theorem bootSlotA : ∀ size, Statement (.bootSlotA size) := fun _ => core_of_wf _
theorem debugHalt : ∀ p, Statement (.debugHalt p) := fun _ => core_of_wf _
theorem debugStep : ∀ p, Statement (.debugStep p) := fun _ => core_of_wf _
theorem debugReadWord : ∀ p address, Statement (.debugReadWord p address) := fun _ _ => core_of_wf _
theorem debugWriteWord : ∀ p address value, Statement (.debugWriteWord p address value) := fun _ _ _ => core_of_wf _
theorem staleCopyRefresh : Statement .staleCopyRefresh := core_of_wf _
theorem toneOscillatorCycle : ∀ currents, Statement (.toneOscillatorCycle currents) := fun _ => core_of_wf _
theorem slotFrameSend : ∀ lane, Statement (.slotFrameSend lane) := fun _ => core_of_wf _
theorem linkLayerAck : ∀ port seq, Statement (.linkLayerAck port seq) := fun _ _ => core_of_wf _
theorem combStartTimeout : ∀ comb, Statement (.combStartTimeout comb) := fun _ => core_of_wf _
theorem hbmStackNoAnswer : ∀ stack, Statement (.hbmStackNoAnswer stack) := fun _ => core_of_wf _
theorem alertWindowExpiry : ∀ p, Statement (.alertWindowExpiry p) := fun _ => core_of_wf _
theorem retainRailWaitEnd : Statement .retainRailWaitEnd := core_of_wf _
theorem retainRailWaitTimeout : Statement .retainRailWaitTimeout := core_of_wf _
theorem restoreFactoryWriteComplete : Statement .restoreFactoryWriteComplete := core_of_wf _
theorem confirmWriteComplete : Statement .confirmWriteComplete := core_of_wf _

end Sys2Proof.Laws.Wf
end

