-- ==== Sys2Proof/Laws/State.lean ====
section
/-! SUPPORT. What each update of the state leaves as it was, field by field, and what the accessors read after it. -/

namespace Sys2Proof.Machine

variable (s : State)

/-! ### State.withPending -/

@[simp] theorem State.withPending_frame (l : List Instr) : (s.withPending l).frame = s.frame := rfl
@[simp] theorem State.withPending_mem (l : List Instr) : (s.withPending l).mem = s.mem := rfl
@[simp] theorem State.withPending_poison (l : List Instr) : (s.withPending l).poison = s.poison := rfl
@[simp] theorem State.withPending_latent (l : List Instr) : (s.withPending l).latent = s.latent := rfl
@[simp] theorem State.withPending_stackBad (l : List Instr) : (s.withPending l).stackBad = s.stackBad := rfl
@[simp] theorem State.withPending_remapped (l : List Instr) : (s.withPending l).remapped = s.remapped := rfl
@[simp] theorem State.withPending_corrected (l : List Instr) : (s.withPending l).corrected = s.corrected := rfl
@[simp] theorem State.withPending_scrubPos (l : List Instr) : (s.withPending l).scrubPos = s.scrubPos := rfl
@[simp] theorem State.withPending_clusters (l : List Instr) : (s.withPending l).clusters = s.clusters := rfl
@[simp] theorem State.withPending_scales (l : List Instr) : (s.withPending l).scales = s.scales := rfl
@[simp] theorem State.withPending_acc (l : List Instr) : (s.withPending l).acc = s.acc := rfl
@[simp] theorem State.withPending_accLost (l : List Instr) : (s.withPending l).accLost = s.accLost := rfl
@[simp] theorem State.withPending_tiles (l : List Instr) : (s.withPending l).tiles = s.tiles := rfl
@[simp] theorem State.withPending_accHolds (l : List Instr) : (s.withPending l).accHolds = s.accHolds := rfl
@[simp] theorem State.withPending_gens (l : List Instr) : (s.withPending l).gens = s.gens := rfl
@[simp] theorem State.withPending_epoch (l : List Instr) : (s.withPending l).epoch = s.epoch := rfl
@[simp] theorem State.withPending_engines (l : List Instr) : (s.withPending l).engines = s.engines := rfl
@[simp] theorem State.withPending_combs (l : List Instr) : (s.withPending l).combs = s.combs := rfl
@[simp] theorem State.withPending_sectors (l : List Instr) : (s.withPending l).sectors = s.sectors := rfl
@[simp] theorem State.withPending_mapped (l : List Instr) : (s.withPending l).mapped = s.mapped := rfl
@[simp] theorem State.withPending_failing (l : List Instr) : (s.withPending l).failing = s.failing := rfl
@[simp] theorem State.withPending_jobs (l : List Instr) : (s.withPending l).jobs = s.jobs := rfl
@[simp] theorem State.withPending_nextJob (l : List Instr) : (s.withPending l).nextJob = s.nextJob := rfl
@[simp] theorem State.withPending_admitted (l : List Instr) : (s.withPending l).admitted = s.admitted := rfl
@[simp] theorem State.withPending_rejected (l : List Instr) : (s.withPending l).rejected = s.rejected := rfl
@[simp] theorem State.withPending_sqs (l : List Instr) : (s.withPending l).sqs = s.sqs := rfl
@[simp] theorem State.withPending_cqs (l : List Instr) : (s.withPending l).cqs = s.cqs := rfl
@[simp] theorem State.withPending_rrNext (l : List Instr) : (s.withPending l).rrNext = s.rrNext := rfl
@[simp] theorem State.withPending_counters (l : List Instr) : (s.withPending l).counters = s.counters := rfl
@[simp] theorem State.withPending_posted (l : List Instr) : (s.withPending l).posted = s.posted := rfl
@[simp] theorem State.withPending_sessions (l : List Instr) : (s.withPending l).sessions = s.sessions := rfl
@[simp] theorem State.withPending_windows (l : List Instr) : (s.withPending l).windows = s.windows := rfl
@[simp] theorem State.withPending_copies (l : List Instr) : (s.withPending l).copies = s.copies := rfl
@[simp] theorem State.withPending_refresh (l : List Instr) : (s.withPending l).refresh = s.refresh := rfl
@[simp] theorem State.withPending_reads (l : List Instr) : (s.withPending l).reads = s.reads := rfl
@[simp] theorem State.withPending_nextRead (l : List Instr) : (s.withPending l).nextRead = s.nextRead := rfl
@[simp] theorem State.withPending_ha (l : List Instr) : (s.withPending l).ha = s.ha := rfl
@[simp] theorem State.withPending_nextTag (l : List Instr) : (s.withPending l).nextTag = s.nextTag := rfl
@[simp] theorem State.withPending_far (l : List Instr) : (s.withPending l).far = s.far := rfl
@[simp] theorem State.withPending_nextFar (l : List Instr) : (s.withPending l).nextFar = s.nextFar := rfl
@[simp] theorem State.withPending_farFree (l : List Instr) : (s.withPending l).farFree = s.farFree := rfl
@[simp] theorem State.withPending_threads (l : List Instr) : (s.withPending l).threads = s.threads := rfl
@[simp] theorem State.withPending_kernels (l : List Instr) : (s.withPending l).kernels = s.kernels := rfl
@[simp] theorem State.withPending_locals (l : List Instr) : (s.withPending l).locals = s.locals := rfl
@[simp] theorem State.withPending_slews (l : List Instr) : (s.withPending l).slews = s.slews := rfl
@[simp] theorem State.withPending_oscCycles (l : List Instr) : (s.withPending l).oscCycles = s.oscCycles := rfl
@[simp] theorem State.withPending_carries (l : List Instr) : (s.withPending l).carries = s.carries := rfl
@[simp] theorem State.withPending_accBad (l : List Instr) : (s.withPending l).accBad = s.accBad := rfl
@[simp] theorem State.withPending_accRuns (l : List Instr) : (s.withPending l).accRuns = s.accRuns := rfl
@[simp] theorem State.withPending_shown (l : List Instr) : (s.withPending l).shown = s.shown := rfl
@[simp] theorem State.withPending_centres (l : List Instr) : (s.withPending l).centres = s.centres := rfl
@[simp] theorem State.withPending_tones (l : List Instr) : (s.withPending l).tones = s.tones := rfl
@[simp] theorem State.withPending_detect (l : List Instr) : (s.withPending l).detect = s.detect := rfl
@[simp] theorem State.withPending_monitors (l : List Instr) : (s.withPending l).monitors = s.monitors := rfl
@[simp] theorem State.withPending_link (l : List Instr) : (s.withPending l).link = s.link := rfl
@[simp] theorem State.withPending_fw (l : List Instr) : (s.withPending l).fw = s.fw := rfl
@[simp] theorem State.withPending_cal (l : List Instr) : (s.withPending l).cal = s.cal := rfl
@[simp] theorem State.withPending_power (l : List Instr) : (s.withPending l).power = s.power := rfl
@[simp] theorem State.withPending_cfg (l : List Instr) : (s.withPending l).cfg = s.cfg := rfl
@[simp] theorem State.withPending_side (l : List Instr) : (s.withPending l).side = s.side := rfl
@[simp] theorem State.withPending_log (l : List Instr) : (s.withPending l).log = s.log := rfl
@[simp] theorem State.withPending_out (l : List Instr) : (s.withPending l).out = s.out := rfl
@[simp] theorem State.withPending_free (l : List Instr) : (s.withPending l).free = s.free := rfl

/-! ### State.modEngine -/

@[simp] theorem State.modEngine_frame (n : Nat) (f : Engine → Engine) : (s.modEngine n f).frame = s.frame := rfl
@[simp] theorem State.modEngine_mem (n : Nat) (f : Engine → Engine) : (s.modEngine n f).mem = s.mem := rfl
@[simp] theorem State.modEngine_poison (n : Nat) (f : Engine → Engine) : (s.modEngine n f).poison = s.poison := rfl
@[simp] theorem State.modEngine_latent (n : Nat) (f : Engine → Engine) : (s.modEngine n f).latent = s.latent := rfl
@[simp] theorem State.modEngine_stackBad (n : Nat) (f : Engine → Engine) : (s.modEngine n f).stackBad = s.stackBad := rfl
@[simp] theorem State.modEngine_remapped (n : Nat) (f : Engine → Engine) : (s.modEngine n f).remapped = s.remapped := rfl
@[simp] theorem State.modEngine_corrected (n : Nat) (f : Engine → Engine) : (s.modEngine n f).corrected = s.corrected := rfl
@[simp] theorem State.modEngine_scrubPos (n : Nat) (f : Engine → Engine) : (s.modEngine n f).scrubPos = s.scrubPos := rfl
@[simp] theorem State.modEngine_clusters (n : Nat) (f : Engine → Engine) : (s.modEngine n f).clusters = s.clusters := rfl
@[simp] theorem State.modEngine_scales (n : Nat) (f : Engine → Engine) : (s.modEngine n f).scales = s.scales := rfl
@[simp] theorem State.modEngine_acc (n : Nat) (f : Engine → Engine) : (s.modEngine n f).acc = s.acc := rfl
@[simp] theorem State.modEngine_accLost (n : Nat) (f : Engine → Engine) : (s.modEngine n f).accLost = s.accLost := rfl
@[simp] theorem State.modEngine_tiles (n : Nat) (f : Engine → Engine) : (s.modEngine n f).tiles = s.tiles := rfl
@[simp] theorem State.modEngine_accHolds (n : Nat) (f : Engine → Engine) : (s.modEngine n f).accHolds = s.accHolds := rfl
@[simp] theorem State.modEngine_gens (n : Nat) (f : Engine → Engine) : (s.modEngine n f).gens = s.gens := rfl
@[simp] theorem State.modEngine_epoch (n : Nat) (f : Engine → Engine) : (s.modEngine n f).epoch = s.epoch := rfl
@[simp] theorem State.modEngine_combs (n : Nat) (f : Engine → Engine) : (s.modEngine n f).combs = s.combs := rfl
@[simp] theorem State.modEngine_sectors (n : Nat) (f : Engine → Engine) : (s.modEngine n f).sectors = s.sectors := rfl
@[simp] theorem State.modEngine_mapped (n : Nat) (f : Engine → Engine) : (s.modEngine n f).mapped = s.mapped := rfl
@[simp] theorem State.modEngine_failing (n : Nat) (f : Engine → Engine) : (s.modEngine n f).failing = s.failing := rfl
@[simp] theorem State.modEngine_jobs (n : Nat) (f : Engine → Engine) : (s.modEngine n f).jobs = s.jobs := rfl
@[simp] theorem State.modEngine_nextJob (n : Nat) (f : Engine → Engine) : (s.modEngine n f).nextJob = s.nextJob := rfl
@[simp] theorem State.modEngine_admitted (n : Nat) (f : Engine → Engine) : (s.modEngine n f).admitted = s.admitted := rfl
@[simp] theorem State.modEngine_rejected (n : Nat) (f : Engine → Engine) : (s.modEngine n f).rejected = s.rejected := rfl
@[simp] theorem State.modEngine_sqs (n : Nat) (f : Engine → Engine) : (s.modEngine n f).sqs = s.sqs := rfl
@[simp] theorem State.modEngine_cqs (n : Nat) (f : Engine → Engine) : (s.modEngine n f).cqs = s.cqs := rfl
@[simp] theorem State.modEngine_rrNext (n : Nat) (f : Engine → Engine) : (s.modEngine n f).rrNext = s.rrNext := rfl
@[simp] theorem State.modEngine_counters (n : Nat) (f : Engine → Engine) : (s.modEngine n f).counters = s.counters := rfl
@[simp] theorem State.modEngine_posted (n : Nat) (f : Engine → Engine) : (s.modEngine n f).posted = s.posted := rfl
@[simp] theorem State.modEngine_sessions (n : Nat) (f : Engine → Engine) : (s.modEngine n f).sessions = s.sessions := rfl
@[simp] theorem State.modEngine_windows (n : Nat) (f : Engine → Engine) : (s.modEngine n f).windows = s.windows := rfl
@[simp] theorem State.modEngine_copies (n : Nat) (f : Engine → Engine) : (s.modEngine n f).copies = s.copies := rfl
@[simp] theorem State.modEngine_refresh (n : Nat) (f : Engine → Engine) : (s.modEngine n f).refresh = s.refresh := rfl
@[simp] theorem State.modEngine_reads (n : Nat) (f : Engine → Engine) : (s.modEngine n f).reads = s.reads := rfl
@[simp] theorem State.modEngine_nextRead (n : Nat) (f : Engine → Engine) : (s.modEngine n f).nextRead = s.nextRead := rfl
@[simp] theorem State.modEngine_ha (n : Nat) (f : Engine → Engine) : (s.modEngine n f).ha = s.ha := rfl
@[simp] theorem State.modEngine_nextTag (n : Nat) (f : Engine → Engine) : (s.modEngine n f).nextTag = s.nextTag := rfl
@[simp] theorem State.modEngine_far (n : Nat) (f : Engine → Engine) : (s.modEngine n f).far = s.far := rfl
@[simp] theorem State.modEngine_nextFar (n : Nat) (f : Engine → Engine) : (s.modEngine n f).nextFar = s.nextFar := rfl
@[simp] theorem State.modEngine_farFree (n : Nat) (f : Engine → Engine) : (s.modEngine n f).farFree = s.farFree := rfl
@[simp] theorem State.modEngine_threads (n : Nat) (f : Engine → Engine) : (s.modEngine n f).threads = s.threads := rfl
@[simp] theorem State.modEngine_kernels (n : Nat) (f : Engine → Engine) : (s.modEngine n f).kernels = s.kernels := rfl
@[simp] theorem State.modEngine_locals (n : Nat) (f : Engine → Engine) : (s.modEngine n f).locals = s.locals := rfl
@[simp] theorem State.modEngine_slews (n : Nat) (f : Engine → Engine) : (s.modEngine n f).slews = s.slews := rfl
@[simp] theorem State.modEngine_oscCycles (n : Nat) (f : Engine → Engine) : (s.modEngine n f).oscCycles = s.oscCycles := rfl
@[simp] theorem State.modEngine_carries (n : Nat) (f : Engine → Engine) : (s.modEngine n f).carries = s.carries := rfl
@[simp] theorem State.modEngine_accBad (n : Nat) (f : Engine → Engine) : (s.modEngine n f).accBad = s.accBad := rfl
@[simp] theorem State.modEngine_accRuns (n : Nat) (f : Engine → Engine) : (s.modEngine n f).accRuns = s.accRuns := rfl
@[simp] theorem State.modEngine_shown (n : Nat) (f : Engine → Engine) : (s.modEngine n f).shown = s.shown := rfl
@[simp] theorem State.modEngine_centres (n : Nat) (f : Engine → Engine) : (s.modEngine n f).centres = s.centres := rfl
@[simp] theorem State.modEngine_tones (n : Nat) (f : Engine → Engine) : (s.modEngine n f).tones = s.tones := rfl
@[simp] theorem State.modEngine_detect (n : Nat) (f : Engine → Engine) : (s.modEngine n f).detect = s.detect := rfl
@[simp] theorem State.modEngine_pending (n : Nat) (f : Engine → Engine) : (s.modEngine n f).pending = s.pending := rfl
@[simp] theorem State.modEngine_monitors (n : Nat) (f : Engine → Engine) : (s.modEngine n f).monitors = s.monitors := rfl
@[simp] theorem State.modEngine_link (n : Nat) (f : Engine → Engine) : (s.modEngine n f).link = s.link := rfl
@[simp] theorem State.modEngine_fw (n : Nat) (f : Engine → Engine) : (s.modEngine n f).fw = s.fw := rfl
@[simp] theorem State.modEngine_cal (n : Nat) (f : Engine → Engine) : (s.modEngine n f).cal = s.cal := rfl
@[simp] theorem State.modEngine_power (n : Nat) (f : Engine → Engine) : (s.modEngine n f).power = s.power := rfl
@[simp] theorem State.modEngine_cfg (n : Nat) (f : Engine → Engine) : (s.modEngine n f).cfg = s.cfg := rfl
@[simp] theorem State.modEngine_side (n : Nat) (f : Engine → Engine) : (s.modEngine n f).side = s.side := rfl
@[simp] theorem State.modEngine_log (n : Nat) (f : Engine → Engine) : (s.modEngine n f).log = s.log := rfl
@[simp] theorem State.modEngine_out (n : Nat) (f : Engine → Engine) : (s.modEngine n f).out = s.out := rfl
@[simp] theorem State.modEngine_free (n : Nat) (f : Engine → Engine) : (s.modEngine n f).free = s.free := rfl

/-! ### State.modCluster -/

@[simp] theorem State.modCluster_frame (n : Nat) (f : Cluster → Cluster) : (s.modCluster n f).frame = s.frame := rfl
@[simp] theorem State.modCluster_mem (n : Nat) (f : Cluster → Cluster) : (s.modCluster n f).mem = s.mem := rfl
@[simp] theorem State.modCluster_poison (n : Nat) (f : Cluster → Cluster) : (s.modCluster n f).poison = s.poison := rfl
@[simp] theorem State.modCluster_latent (n : Nat) (f : Cluster → Cluster) : (s.modCluster n f).latent = s.latent := rfl
@[simp] theorem State.modCluster_stackBad (n : Nat) (f : Cluster → Cluster) : (s.modCluster n f).stackBad = s.stackBad := rfl
@[simp] theorem State.modCluster_remapped (n : Nat) (f : Cluster → Cluster) : (s.modCluster n f).remapped = s.remapped := rfl
@[simp] theorem State.modCluster_corrected (n : Nat) (f : Cluster → Cluster) : (s.modCluster n f).corrected = s.corrected := rfl
@[simp] theorem State.modCluster_scrubPos (n : Nat) (f : Cluster → Cluster) : (s.modCluster n f).scrubPos = s.scrubPos := rfl
@[simp] theorem State.modCluster_scales (n : Nat) (f : Cluster → Cluster) : (s.modCluster n f).scales = s.scales := rfl
@[simp] theorem State.modCluster_acc (n : Nat) (f : Cluster → Cluster) : (s.modCluster n f).acc = s.acc := rfl
@[simp] theorem State.modCluster_accLost (n : Nat) (f : Cluster → Cluster) : (s.modCluster n f).accLost = s.accLost := rfl
@[simp] theorem State.modCluster_tiles (n : Nat) (f : Cluster → Cluster) : (s.modCluster n f).tiles = s.tiles := rfl
@[simp] theorem State.modCluster_accHolds (n : Nat) (f : Cluster → Cluster) : (s.modCluster n f).accHolds = s.accHolds := rfl
@[simp] theorem State.modCluster_gens (n : Nat) (f : Cluster → Cluster) : (s.modCluster n f).gens = s.gens := rfl
@[simp] theorem State.modCluster_epoch (n : Nat) (f : Cluster → Cluster) : (s.modCluster n f).epoch = s.epoch := rfl
@[simp] theorem State.modCluster_engines (n : Nat) (f : Cluster → Cluster) : (s.modCluster n f).engines = s.engines := rfl
@[simp] theorem State.modCluster_combs (n : Nat) (f : Cluster → Cluster) : (s.modCluster n f).combs = s.combs := rfl
@[simp] theorem State.modCluster_sectors (n : Nat) (f : Cluster → Cluster) : (s.modCluster n f).sectors = s.sectors := rfl
@[simp] theorem State.modCluster_mapped (n : Nat) (f : Cluster → Cluster) : (s.modCluster n f).mapped = s.mapped := rfl
@[simp] theorem State.modCluster_failing (n : Nat) (f : Cluster → Cluster) : (s.modCluster n f).failing = s.failing := rfl
@[simp] theorem State.modCluster_jobs (n : Nat) (f : Cluster → Cluster) : (s.modCluster n f).jobs = s.jobs := rfl
@[simp] theorem State.modCluster_nextJob (n : Nat) (f : Cluster → Cluster) : (s.modCluster n f).nextJob = s.nextJob := rfl
@[simp] theorem State.modCluster_admitted (n : Nat) (f : Cluster → Cluster) : (s.modCluster n f).admitted = s.admitted := rfl
@[simp] theorem State.modCluster_rejected (n : Nat) (f : Cluster → Cluster) : (s.modCluster n f).rejected = s.rejected := rfl
@[simp] theorem State.modCluster_sqs (n : Nat) (f : Cluster → Cluster) : (s.modCluster n f).sqs = s.sqs := rfl
@[simp] theorem State.modCluster_cqs (n : Nat) (f : Cluster → Cluster) : (s.modCluster n f).cqs = s.cqs := rfl
@[simp] theorem State.modCluster_rrNext (n : Nat) (f : Cluster → Cluster) : (s.modCluster n f).rrNext = s.rrNext := rfl
@[simp] theorem State.modCluster_counters (n : Nat) (f : Cluster → Cluster) : (s.modCluster n f).counters = s.counters := rfl
@[simp] theorem State.modCluster_posted (n : Nat) (f : Cluster → Cluster) : (s.modCluster n f).posted = s.posted := rfl
@[simp] theorem State.modCluster_sessions (n : Nat) (f : Cluster → Cluster) : (s.modCluster n f).sessions = s.sessions := rfl
@[simp] theorem State.modCluster_windows (n : Nat) (f : Cluster → Cluster) : (s.modCluster n f).windows = s.windows := rfl
@[simp] theorem State.modCluster_copies (n : Nat) (f : Cluster → Cluster) : (s.modCluster n f).copies = s.copies := rfl
@[simp] theorem State.modCluster_refresh (n : Nat) (f : Cluster → Cluster) : (s.modCluster n f).refresh = s.refresh := rfl
@[simp] theorem State.modCluster_reads (n : Nat) (f : Cluster → Cluster) : (s.modCluster n f).reads = s.reads := rfl
@[simp] theorem State.modCluster_nextRead (n : Nat) (f : Cluster → Cluster) : (s.modCluster n f).nextRead = s.nextRead := rfl
@[simp] theorem State.modCluster_ha (n : Nat) (f : Cluster → Cluster) : (s.modCluster n f).ha = s.ha := rfl
@[simp] theorem State.modCluster_nextTag (n : Nat) (f : Cluster → Cluster) : (s.modCluster n f).nextTag = s.nextTag := rfl
@[simp] theorem State.modCluster_far (n : Nat) (f : Cluster → Cluster) : (s.modCluster n f).far = s.far := rfl
@[simp] theorem State.modCluster_nextFar (n : Nat) (f : Cluster → Cluster) : (s.modCluster n f).nextFar = s.nextFar := rfl
@[simp] theorem State.modCluster_farFree (n : Nat) (f : Cluster → Cluster) : (s.modCluster n f).farFree = s.farFree := rfl
@[simp] theorem State.modCluster_threads (n : Nat) (f : Cluster → Cluster) : (s.modCluster n f).threads = s.threads := rfl
@[simp] theorem State.modCluster_kernels (n : Nat) (f : Cluster → Cluster) : (s.modCluster n f).kernels = s.kernels := rfl
@[simp] theorem State.modCluster_locals (n : Nat) (f : Cluster → Cluster) : (s.modCluster n f).locals = s.locals := rfl
@[simp] theorem State.modCluster_slews (n : Nat) (f : Cluster → Cluster) : (s.modCluster n f).slews = s.slews := rfl
@[simp] theorem State.modCluster_oscCycles (n : Nat) (f : Cluster → Cluster) : (s.modCluster n f).oscCycles = s.oscCycles := rfl
@[simp] theorem State.modCluster_carries (n : Nat) (f : Cluster → Cluster) : (s.modCluster n f).carries = s.carries := rfl
@[simp] theorem State.modCluster_accBad (n : Nat) (f : Cluster → Cluster) : (s.modCluster n f).accBad = s.accBad := rfl
@[simp] theorem State.modCluster_accRuns (n : Nat) (f : Cluster → Cluster) : (s.modCluster n f).accRuns = s.accRuns := rfl
@[simp] theorem State.modCluster_shown (n : Nat) (f : Cluster → Cluster) : (s.modCluster n f).shown = s.shown := rfl
@[simp] theorem State.modCluster_centres (n : Nat) (f : Cluster → Cluster) : (s.modCluster n f).centres = s.centres := rfl
@[simp] theorem State.modCluster_tones (n : Nat) (f : Cluster → Cluster) : (s.modCluster n f).tones = s.tones := rfl
@[simp] theorem State.modCluster_detect (n : Nat) (f : Cluster → Cluster) : (s.modCluster n f).detect = s.detect := rfl
@[simp] theorem State.modCluster_pending (n : Nat) (f : Cluster → Cluster) : (s.modCluster n f).pending = s.pending := rfl
@[simp] theorem State.modCluster_monitors (n : Nat) (f : Cluster → Cluster) : (s.modCluster n f).monitors = s.monitors := rfl
@[simp] theorem State.modCluster_link (n : Nat) (f : Cluster → Cluster) : (s.modCluster n f).link = s.link := rfl
@[simp] theorem State.modCluster_fw (n : Nat) (f : Cluster → Cluster) : (s.modCluster n f).fw = s.fw := rfl
@[simp] theorem State.modCluster_cal (n : Nat) (f : Cluster → Cluster) : (s.modCluster n f).cal = s.cal := rfl
@[simp] theorem State.modCluster_power (n : Nat) (f : Cluster → Cluster) : (s.modCluster n f).power = s.power := rfl
@[simp] theorem State.modCluster_cfg (n : Nat) (f : Cluster → Cluster) : (s.modCluster n f).cfg = s.cfg := rfl
@[simp] theorem State.modCluster_side (n : Nat) (f : Cluster → Cluster) : (s.modCluster n f).side = s.side := rfl
@[simp] theorem State.modCluster_log (n : Nat) (f : Cluster → Cluster) : (s.modCluster n f).log = s.log := rfl
@[simp] theorem State.modCluster_out (n : Nat) (f : Cluster → Cluster) : (s.modCluster n f).out = s.out := rfl
@[simp] theorem State.modCluster_free (n : Nat) (f : Cluster → Cluster) : (s.modCluster n f).free = s.free := rfl

/-! ### State.modComb -/

@[simp] theorem State.modComb_frame (n : Nat) (f : Comb → Comb) : (s.modComb n f).frame = s.frame := rfl
@[simp] theorem State.modComb_mem (n : Nat) (f : Comb → Comb) : (s.modComb n f).mem = s.mem := rfl
@[simp] theorem State.modComb_poison (n : Nat) (f : Comb → Comb) : (s.modComb n f).poison = s.poison := rfl
@[simp] theorem State.modComb_latent (n : Nat) (f : Comb → Comb) : (s.modComb n f).latent = s.latent := rfl
@[simp] theorem State.modComb_stackBad (n : Nat) (f : Comb → Comb) : (s.modComb n f).stackBad = s.stackBad := rfl
@[simp] theorem State.modComb_remapped (n : Nat) (f : Comb → Comb) : (s.modComb n f).remapped = s.remapped := rfl
@[simp] theorem State.modComb_corrected (n : Nat) (f : Comb → Comb) : (s.modComb n f).corrected = s.corrected := rfl
@[simp] theorem State.modComb_scrubPos (n : Nat) (f : Comb → Comb) : (s.modComb n f).scrubPos = s.scrubPos := rfl
@[simp] theorem State.modComb_clusters (n : Nat) (f : Comb → Comb) : (s.modComb n f).clusters = s.clusters := rfl
@[simp] theorem State.modComb_scales (n : Nat) (f : Comb → Comb) : (s.modComb n f).scales = s.scales := rfl
@[simp] theorem State.modComb_acc (n : Nat) (f : Comb → Comb) : (s.modComb n f).acc = s.acc := rfl
@[simp] theorem State.modComb_accLost (n : Nat) (f : Comb → Comb) : (s.modComb n f).accLost = s.accLost := rfl
@[simp] theorem State.modComb_tiles (n : Nat) (f : Comb → Comb) : (s.modComb n f).tiles = s.tiles := rfl
@[simp] theorem State.modComb_accHolds (n : Nat) (f : Comb → Comb) : (s.modComb n f).accHolds = s.accHolds := rfl
@[simp] theorem State.modComb_gens (n : Nat) (f : Comb → Comb) : (s.modComb n f).gens = s.gens := rfl
@[simp] theorem State.modComb_epoch (n : Nat) (f : Comb → Comb) : (s.modComb n f).epoch = s.epoch := rfl
@[simp] theorem State.modComb_engines (n : Nat) (f : Comb → Comb) : (s.modComb n f).engines = s.engines := rfl
@[simp] theorem State.modComb_sectors (n : Nat) (f : Comb → Comb) : (s.modComb n f).sectors = s.sectors := rfl
@[simp] theorem State.modComb_mapped (n : Nat) (f : Comb → Comb) : (s.modComb n f).mapped = s.mapped := rfl
@[simp] theorem State.modComb_failing (n : Nat) (f : Comb → Comb) : (s.modComb n f).failing = s.failing := rfl
@[simp] theorem State.modComb_jobs (n : Nat) (f : Comb → Comb) : (s.modComb n f).jobs = s.jobs := rfl
@[simp] theorem State.modComb_nextJob (n : Nat) (f : Comb → Comb) : (s.modComb n f).nextJob = s.nextJob := rfl
@[simp] theorem State.modComb_admitted (n : Nat) (f : Comb → Comb) : (s.modComb n f).admitted = s.admitted := rfl
@[simp] theorem State.modComb_rejected (n : Nat) (f : Comb → Comb) : (s.modComb n f).rejected = s.rejected := rfl
@[simp] theorem State.modComb_sqs (n : Nat) (f : Comb → Comb) : (s.modComb n f).sqs = s.sqs := rfl
@[simp] theorem State.modComb_cqs (n : Nat) (f : Comb → Comb) : (s.modComb n f).cqs = s.cqs := rfl
@[simp] theorem State.modComb_rrNext (n : Nat) (f : Comb → Comb) : (s.modComb n f).rrNext = s.rrNext := rfl
@[simp] theorem State.modComb_counters (n : Nat) (f : Comb → Comb) : (s.modComb n f).counters = s.counters := rfl
@[simp] theorem State.modComb_posted (n : Nat) (f : Comb → Comb) : (s.modComb n f).posted = s.posted := rfl
@[simp] theorem State.modComb_sessions (n : Nat) (f : Comb → Comb) : (s.modComb n f).sessions = s.sessions := rfl
@[simp] theorem State.modComb_windows (n : Nat) (f : Comb → Comb) : (s.modComb n f).windows = s.windows := rfl
@[simp] theorem State.modComb_copies (n : Nat) (f : Comb → Comb) : (s.modComb n f).copies = s.copies := rfl
@[simp] theorem State.modComb_refresh (n : Nat) (f : Comb → Comb) : (s.modComb n f).refresh = s.refresh := rfl
@[simp] theorem State.modComb_reads (n : Nat) (f : Comb → Comb) : (s.modComb n f).reads = s.reads := rfl
@[simp] theorem State.modComb_nextRead (n : Nat) (f : Comb → Comb) : (s.modComb n f).nextRead = s.nextRead := rfl
@[simp] theorem State.modComb_ha (n : Nat) (f : Comb → Comb) : (s.modComb n f).ha = s.ha := rfl
@[simp] theorem State.modComb_nextTag (n : Nat) (f : Comb → Comb) : (s.modComb n f).nextTag = s.nextTag := rfl
@[simp] theorem State.modComb_far (n : Nat) (f : Comb → Comb) : (s.modComb n f).far = s.far := rfl
@[simp] theorem State.modComb_nextFar (n : Nat) (f : Comb → Comb) : (s.modComb n f).nextFar = s.nextFar := rfl
@[simp] theorem State.modComb_farFree (n : Nat) (f : Comb → Comb) : (s.modComb n f).farFree = s.farFree := rfl
@[simp] theorem State.modComb_threads (n : Nat) (f : Comb → Comb) : (s.modComb n f).threads = s.threads := rfl
@[simp] theorem State.modComb_kernels (n : Nat) (f : Comb → Comb) : (s.modComb n f).kernels = s.kernels := rfl
@[simp] theorem State.modComb_locals (n : Nat) (f : Comb → Comb) : (s.modComb n f).locals = s.locals := rfl
@[simp] theorem State.modComb_slews (n : Nat) (f : Comb → Comb) : (s.modComb n f).slews = s.slews := rfl
@[simp] theorem State.modComb_oscCycles (n : Nat) (f : Comb → Comb) : (s.modComb n f).oscCycles = s.oscCycles := rfl
@[simp] theorem State.modComb_carries (n : Nat) (f : Comb → Comb) : (s.modComb n f).carries = s.carries := rfl
@[simp] theorem State.modComb_accBad (n : Nat) (f : Comb → Comb) : (s.modComb n f).accBad = s.accBad := rfl
@[simp] theorem State.modComb_accRuns (n : Nat) (f : Comb → Comb) : (s.modComb n f).accRuns = s.accRuns := rfl
@[simp] theorem State.modComb_shown (n : Nat) (f : Comb → Comb) : (s.modComb n f).shown = s.shown := rfl
@[simp] theorem State.modComb_centres (n : Nat) (f : Comb → Comb) : (s.modComb n f).centres = s.centres := rfl
@[simp] theorem State.modComb_tones (n : Nat) (f : Comb → Comb) : (s.modComb n f).tones = s.tones := rfl
@[simp] theorem State.modComb_detect (n : Nat) (f : Comb → Comb) : (s.modComb n f).detect = s.detect := rfl
@[simp] theorem State.modComb_pending (n : Nat) (f : Comb → Comb) : (s.modComb n f).pending = s.pending := rfl
@[simp] theorem State.modComb_monitors (n : Nat) (f : Comb → Comb) : (s.modComb n f).monitors = s.monitors := rfl
@[simp] theorem State.modComb_link (n : Nat) (f : Comb → Comb) : (s.modComb n f).link = s.link := rfl
@[simp] theorem State.modComb_fw (n : Nat) (f : Comb → Comb) : (s.modComb n f).fw = s.fw := rfl
@[simp] theorem State.modComb_cal (n : Nat) (f : Comb → Comb) : (s.modComb n f).cal = s.cal := rfl
@[simp] theorem State.modComb_power (n : Nat) (f : Comb → Comb) : (s.modComb n f).power = s.power := rfl
@[simp] theorem State.modComb_cfg (n : Nat) (f : Comb → Comb) : (s.modComb n f).cfg = s.cfg := rfl
@[simp] theorem State.modComb_side (n : Nat) (f : Comb → Comb) : (s.modComb n f).side = s.side := rfl
@[simp] theorem State.modComb_log (n : Nat) (f : Comb → Comb) : (s.modComb n f).log = s.log := rfl
@[simp] theorem State.modComb_out (n : Nat) (f : Comb → Comb) : (s.modComb n f).out = s.out := rfl
@[simp] theorem State.modComb_free (n : Nat) (f : Comb → Comb) : (s.modComb n f).free = s.free := rfl

/-! ### State.modSector -/

@[simp] theorem State.modSector_frame (n : Nat) (f : Sector → Sector) : (s.modSector n f).frame = s.frame := rfl
@[simp] theorem State.modSector_mem (n : Nat) (f : Sector → Sector) : (s.modSector n f).mem = s.mem := rfl
@[simp] theorem State.modSector_poison (n : Nat) (f : Sector → Sector) : (s.modSector n f).poison = s.poison := rfl
@[simp] theorem State.modSector_latent (n : Nat) (f : Sector → Sector) : (s.modSector n f).latent = s.latent := rfl
@[simp] theorem State.modSector_stackBad (n : Nat) (f : Sector → Sector) : (s.modSector n f).stackBad = s.stackBad := rfl
@[simp] theorem State.modSector_remapped (n : Nat) (f : Sector → Sector) : (s.modSector n f).remapped = s.remapped := rfl
@[simp] theorem State.modSector_corrected (n : Nat) (f : Sector → Sector) : (s.modSector n f).corrected = s.corrected := rfl
@[simp] theorem State.modSector_scrubPos (n : Nat) (f : Sector → Sector) : (s.modSector n f).scrubPos = s.scrubPos := rfl
@[simp] theorem State.modSector_clusters (n : Nat) (f : Sector → Sector) : (s.modSector n f).clusters = s.clusters := rfl
@[simp] theorem State.modSector_scales (n : Nat) (f : Sector → Sector) : (s.modSector n f).scales = s.scales := rfl
@[simp] theorem State.modSector_acc (n : Nat) (f : Sector → Sector) : (s.modSector n f).acc = s.acc := rfl
@[simp] theorem State.modSector_accLost (n : Nat) (f : Sector → Sector) : (s.modSector n f).accLost = s.accLost := rfl
@[simp] theorem State.modSector_tiles (n : Nat) (f : Sector → Sector) : (s.modSector n f).tiles = s.tiles := rfl
@[simp] theorem State.modSector_accHolds (n : Nat) (f : Sector → Sector) : (s.modSector n f).accHolds = s.accHolds := rfl
@[simp] theorem State.modSector_gens (n : Nat) (f : Sector → Sector) : (s.modSector n f).gens = s.gens := rfl
@[simp] theorem State.modSector_epoch (n : Nat) (f : Sector → Sector) : (s.modSector n f).epoch = s.epoch := rfl
@[simp] theorem State.modSector_engines (n : Nat) (f : Sector → Sector) : (s.modSector n f).engines = s.engines := rfl
@[simp] theorem State.modSector_combs (n : Nat) (f : Sector → Sector) : (s.modSector n f).combs = s.combs := rfl
@[simp] theorem State.modSector_mapped (n : Nat) (f : Sector → Sector) : (s.modSector n f).mapped = s.mapped := rfl
@[simp] theorem State.modSector_failing (n : Nat) (f : Sector → Sector) : (s.modSector n f).failing = s.failing := rfl
@[simp] theorem State.modSector_jobs (n : Nat) (f : Sector → Sector) : (s.modSector n f).jobs = s.jobs := rfl
@[simp] theorem State.modSector_nextJob (n : Nat) (f : Sector → Sector) : (s.modSector n f).nextJob = s.nextJob := rfl
@[simp] theorem State.modSector_admitted (n : Nat) (f : Sector → Sector) : (s.modSector n f).admitted = s.admitted := rfl
@[simp] theorem State.modSector_rejected (n : Nat) (f : Sector → Sector) : (s.modSector n f).rejected = s.rejected := rfl
@[simp] theorem State.modSector_sqs (n : Nat) (f : Sector → Sector) : (s.modSector n f).sqs = s.sqs := rfl
@[simp] theorem State.modSector_cqs (n : Nat) (f : Sector → Sector) : (s.modSector n f).cqs = s.cqs := rfl
@[simp] theorem State.modSector_rrNext (n : Nat) (f : Sector → Sector) : (s.modSector n f).rrNext = s.rrNext := rfl
@[simp] theorem State.modSector_counters (n : Nat) (f : Sector → Sector) : (s.modSector n f).counters = s.counters := rfl
@[simp] theorem State.modSector_posted (n : Nat) (f : Sector → Sector) : (s.modSector n f).posted = s.posted := rfl
@[simp] theorem State.modSector_sessions (n : Nat) (f : Sector → Sector) : (s.modSector n f).sessions = s.sessions := rfl
@[simp] theorem State.modSector_windows (n : Nat) (f : Sector → Sector) : (s.modSector n f).windows = s.windows := rfl
@[simp] theorem State.modSector_copies (n : Nat) (f : Sector → Sector) : (s.modSector n f).copies = s.copies := rfl
@[simp] theorem State.modSector_refresh (n : Nat) (f : Sector → Sector) : (s.modSector n f).refresh = s.refresh := rfl
@[simp] theorem State.modSector_reads (n : Nat) (f : Sector → Sector) : (s.modSector n f).reads = s.reads := rfl
@[simp] theorem State.modSector_nextRead (n : Nat) (f : Sector → Sector) : (s.modSector n f).nextRead = s.nextRead := rfl
@[simp] theorem State.modSector_ha (n : Nat) (f : Sector → Sector) : (s.modSector n f).ha = s.ha := rfl
@[simp] theorem State.modSector_nextTag (n : Nat) (f : Sector → Sector) : (s.modSector n f).nextTag = s.nextTag := rfl
@[simp] theorem State.modSector_far (n : Nat) (f : Sector → Sector) : (s.modSector n f).far = s.far := rfl
@[simp] theorem State.modSector_nextFar (n : Nat) (f : Sector → Sector) : (s.modSector n f).nextFar = s.nextFar := rfl
@[simp] theorem State.modSector_farFree (n : Nat) (f : Sector → Sector) : (s.modSector n f).farFree = s.farFree := rfl
@[simp] theorem State.modSector_threads (n : Nat) (f : Sector → Sector) : (s.modSector n f).threads = s.threads := rfl
@[simp] theorem State.modSector_kernels (n : Nat) (f : Sector → Sector) : (s.modSector n f).kernels = s.kernels := rfl
@[simp] theorem State.modSector_locals (n : Nat) (f : Sector → Sector) : (s.modSector n f).locals = s.locals := rfl
@[simp] theorem State.modSector_slews (n : Nat) (f : Sector → Sector) : (s.modSector n f).slews = s.slews := rfl
@[simp] theorem State.modSector_oscCycles (n : Nat) (f : Sector → Sector) : (s.modSector n f).oscCycles = s.oscCycles := rfl
@[simp] theorem State.modSector_carries (n : Nat) (f : Sector → Sector) : (s.modSector n f).carries = s.carries := rfl
@[simp] theorem State.modSector_accBad (n : Nat) (f : Sector → Sector) : (s.modSector n f).accBad = s.accBad := rfl
@[simp] theorem State.modSector_accRuns (n : Nat) (f : Sector → Sector) : (s.modSector n f).accRuns = s.accRuns := rfl
@[simp] theorem State.modSector_shown (n : Nat) (f : Sector → Sector) : (s.modSector n f).shown = s.shown := rfl
@[simp] theorem State.modSector_centres (n : Nat) (f : Sector → Sector) : (s.modSector n f).centres = s.centres := rfl
@[simp] theorem State.modSector_tones (n : Nat) (f : Sector → Sector) : (s.modSector n f).tones = s.tones := rfl
@[simp] theorem State.modSector_detect (n : Nat) (f : Sector → Sector) : (s.modSector n f).detect = s.detect := rfl
@[simp] theorem State.modSector_pending (n : Nat) (f : Sector → Sector) : (s.modSector n f).pending = s.pending := rfl
@[simp] theorem State.modSector_monitors (n : Nat) (f : Sector → Sector) : (s.modSector n f).monitors = s.monitors := rfl
@[simp] theorem State.modSector_link (n : Nat) (f : Sector → Sector) : (s.modSector n f).link = s.link := rfl
@[simp] theorem State.modSector_fw (n : Nat) (f : Sector → Sector) : (s.modSector n f).fw = s.fw := rfl
@[simp] theorem State.modSector_cal (n : Nat) (f : Sector → Sector) : (s.modSector n f).cal = s.cal := rfl
@[simp] theorem State.modSector_power (n : Nat) (f : Sector → Sector) : (s.modSector n f).power = s.power := rfl
@[simp] theorem State.modSector_cfg (n : Nat) (f : Sector → Sector) : (s.modSector n f).cfg = s.cfg := rfl
@[simp] theorem State.modSector_side (n : Nat) (f : Sector → Sector) : (s.modSector n f).side = s.side := rfl
@[simp] theorem State.modSector_log (n : Nat) (f : Sector → Sector) : (s.modSector n f).log = s.log := rfl
@[simp] theorem State.modSector_out (n : Nat) (f : Sector → Sector) : (s.modSector n f).out = s.out := rfl
@[simp] theorem State.modSector_free (n : Nat) (f : Sector → Sector) : (s.modSector n f).free = s.free := rfl

/-! ### State.modLane -/

@[simp] theorem State.modLane_frame (n : Nat) (f : Lane → Lane) : (s.modLane n f).frame = s.frame := rfl
@[simp] theorem State.modLane_mem (n : Nat) (f : Lane → Lane) : (s.modLane n f).mem = s.mem := rfl
@[simp] theorem State.modLane_poison (n : Nat) (f : Lane → Lane) : (s.modLane n f).poison = s.poison := rfl
@[simp] theorem State.modLane_latent (n : Nat) (f : Lane → Lane) : (s.modLane n f).latent = s.latent := rfl
@[simp] theorem State.modLane_stackBad (n : Nat) (f : Lane → Lane) : (s.modLane n f).stackBad = s.stackBad := rfl
@[simp] theorem State.modLane_remapped (n : Nat) (f : Lane → Lane) : (s.modLane n f).remapped = s.remapped := rfl
@[simp] theorem State.modLane_corrected (n : Nat) (f : Lane → Lane) : (s.modLane n f).corrected = s.corrected := rfl
@[simp] theorem State.modLane_scrubPos (n : Nat) (f : Lane → Lane) : (s.modLane n f).scrubPos = s.scrubPos := rfl
@[simp] theorem State.modLane_clusters (n : Nat) (f : Lane → Lane) : (s.modLane n f).clusters = s.clusters := rfl
@[simp] theorem State.modLane_scales (n : Nat) (f : Lane → Lane) : (s.modLane n f).scales = s.scales := rfl
@[simp] theorem State.modLane_acc (n : Nat) (f : Lane → Lane) : (s.modLane n f).acc = s.acc := rfl
@[simp] theorem State.modLane_accLost (n : Nat) (f : Lane → Lane) : (s.modLane n f).accLost = s.accLost := rfl
@[simp] theorem State.modLane_tiles (n : Nat) (f : Lane → Lane) : (s.modLane n f).tiles = s.tiles := rfl
@[simp] theorem State.modLane_accHolds (n : Nat) (f : Lane → Lane) : (s.modLane n f).accHolds = s.accHolds := rfl
@[simp] theorem State.modLane_gens (n : Nat) (f : Lane → Lane) : (s.modLane n f).gens = s.gens := rfl
@[simp] theorem State.modLane_epoch (n : Nat) (f : Lane → Lane) : (s.modLane n f).epoch = s.epoch := rfl
@[simp] theorem State.modLane_engines (n : Nat) (f : Lane → Lane) : (s.modLane n f).engines = s.engines := rfl
@[simp] theorem State.modLane_combs (n : Nat) (f : Lane → Lane) : (s.modLane n f).combs = s.combs := rfl
@[simp] theorem State.modLane_sectors (n : Nat) (f : Lane → Lane) : (s.modLane n f).sectors = s.sectors := rfl
@[simp] theorem State.modLane_mapped (n : Nat) (f : Lane → Lane) : (s.modLane n f).mapped = s.mapped := rfl
@[simp] theorem State.modLane_failing (n : Nat) (f : Lane → Lane) : (s.modLane n f).failing = s.failing := rfl
@[simp] theorem State.modLane_jobs (n : Nat) (f : Lane → Lane) : (s.modLane n f).jobs = s.jobs := rfl
@[simp] theorem State.modLane_nextJob (n : Nat) (f : Lane → Lane) : (s.modLane n f).nextJob = s.nextJob := rfl
@[simp] theorem State.modLane_admitted (n : Nat) (f : Lane → Lane) : (s.modLane n f).admitted = s.admitted := rfl
@[simp] theorem State.modLane_rejected (n : Nat) (f : Lane → Lane) : (s.modLane n f).rejected = s.rejected := rfl
@[simp] theorem State.modLane_sqs (n : Nat) (f : Lane → Lane) : (s.modLane n f).sqs = s.sqs := rfl
@[simp] theorem State.modLane_cqs (n : Nat) (f : Lane → Lane) : (s.modLane n f).cqs = s.cqs := rfl
@[simp] theorem State.modLane_rrNext (n : Nat) (f : Lane → Lane) : (s.modLane n f).rrNext = s.rrNext := rfl
@[simp] theorem State.modLane_counters (n : Nat) (f : Lane → Lane) : (s.modLane n f).counters = s.counters := rfl
@[simp] theorem State.modLane_posted (n : Nat) (f : Lane → Lane) : (s.modLane n f).posted = s.posted := rfl
@[simp] theorem State.modLane_sessions (n : Nat) (f : Lane → Lane) : (s.modLane n f).sessions = s.sessions := rfl
@[simp] theorem State.modLane_windows (n : Nat) (f : Lane → Lane) : (s.modLane n f).windows = s.windows := rfl
@[simp] theorem State.modLane_copies (n : Nat) (f : Lane → Lane) : (s.modLane n f).copies = s.copies := rfl
@[simp] theorem State.modLane_refresh (n : Nat) (f : Lane → Lane) : (s.modLane n f).refresh = s.refresh := rfl
@[simp] theorem State.modLane_reads (n : Nat) (f : Lane → Lane) : (s.modLane n f).reads = s.reads := rfl
@[simp] theorem State.modLane_nextRead (n : Nat) (f : Lane → Lane) : (s.modLane n f).nextRead = s.nextRead := rfl
@[simp] theorem State.modLane_ha (n : Nat) (f : Lane → Lane) : (s.modLane n f).ha = s.ha := rfl
@[simp] theorem State.modLane_nextTag (n : Nat) (f : Lane → Lane) : (s.modLane n f).nextTag = s.nextTag := rfl
@[simp] theorem State.modLane_far (n : Nat) (f : Lane → Lane) : (s.modLane n f).far = s.far := rfl
@[simp] theorem State.modLane_nextFar (n : Nat) (f : Lane → Lane) : (s.modLane n f).nextFar = s.nextFar := rfl
@[simp] theorem State.modLane_farFree (n : Nat) (f : Lane → Lane) : (s.modLane n f).farFree = s.farFree := rfl
@[simp] theorem State.modLane_threads (n : Nat) (f : Lane → Lane) : (s.modLane n f).threads = s.threads := rfl
@[simp] theorem State.modLane_kernels (n : Nat) (f : Lane → Lane) : (s.modLane n f).kernels = s.kernels := rfl
@[simp] theorem State.modLane_locals (n : Nat) (f : Lane → Lane) : (s.modLane n f).locals = s.locals := rfl
@[simp] theorem State.modLane_slews (n : Nat) (f : Lane → Lane) : (s.modLane n f).slews = s.slews := rfl
@[simp] theorem State.modLane_oscCycles (n : Nat) (f : Lane → Lane) : (s.modLane n f).oscCycles = s.oscCycles := rfl
@[simp] theorem State.modLane_carries (n : Nat) (f : Lane → Lane) : (s.modLane n f).carries = s.carries := rfl
@[simp] theorem State.modLane_accBad (n : Nat) (f : Lane → Lane) : (s.modLane n f).accBad = s.accBad := rfl
@[simp] theorem State.modLane_accRuns (n : Nat) (f : Lane → Lane) : (s.modLane n f).accRuns = s.accRuns := rfl
@[simp] theorem State.modLane_shown (n : Nat) (f : Lane → Lane) : (s.modLane n f).shown = s.shown := rfl
@[simp] theorem State.modLane_centres (n : Nat) (f : Lane → Lane) : (s.modLane n f).centres = s.centres := rfl
@[simp] theorem State.modLane_tones (n : Nat) (f : Lane → Lane) : (s.modLane n f).tones = s.tones := rfl
@[simp] theorem State.modLane_detect (n : Nat) (f : Lane → Lane) : (s.modLane n f).detect = s.detect := rfl
@[simp] theorem State.modLane_pending (n : Nat) (f : Lane → Lane) : (s.modLane n f).pending = s.pending := rfl
@[simp] theorem State.modLane_monitors (n : Nat) (f : Lane → Lane) : (s.modLane n f).monitors = s.monitors := rfl
@[simp] theorem State.modLane_fw (n : Nat) (f : Lane → Lane) : (s.modLane n f).fw = s.fw := rfl
@[simp] theorem State.modLane_cal (n : Nat) (f : Lane → Lane) : (s.modLane n f).cal = s.cal := rfl
@[simp] theorem State.modLane_power (n : Nat) (f : Lane → Lane) : (s.modLane n f).power = s.power := rfl
@[simp] theorem State.modLane_cfg (n : Nat) (f : Lane → Lane) : (s.modLane n f).cfg = s.cfg := rfl
@[simp] theorem State.modLane_side (n : Nat) (f : Lane → Lane) : (s.modLane n f).side = s.side := rfl
@[simp] theorem State.modLane_log (n : Nat) (f : Lane → Lane) : (s.modLane n f).log = s.log := rfl
@[simp] theorem State.modLane_out (n : Nat) (f : Lane → Lane) : (s.modLane n f).out = s.out := rfl
@[simp] theorem State.modLane_free (n : Nat) (f : Lane → Lane) : (s.modLane n f).free = s.free := rfl

/-! ### State.modThread -/

@[simp] theorem State.modThread_frame (n : Nat) (f : Thread → Thread) : (s.modThread n f).frame = s.frame := rfl
@[simp] theorem State.modThread_mem (n : Nat) (f : Thread → Thread) : (s.modThread n f).mem = s.mem := rfl
@[simp] theorem State.modThread_poison (n : Nat) (f : Thread → Thread) : (s.modThread n f).poison = s.poison := rfl
@[simp] theorem State.modThread_latent (n : Nat) (f : Thread → Thread) : (s.modThread n f).latent = s.latent := rfl
@[simp] theorem State.modThread_stackBad (n : Nat) (f : Thread → Thread) : (s.modThread n f).stackBad = s.stackBad := rfl
@[simp] theorem State.modThread_remapped (n : Nat) (f : Thread → Thread) : (s.modThread n f).remapped = s.remapped := rfl
@[simp] theorem State.modThread_corrected (n : Nat) (f : Thread → Thread) : (s.modThread n f).corrected = s.corrected := rfl
@[simp] theorem State.modThread_scrubPos (n : Nat) (f : Thread → Thread) : (s.modThread n f).scrubPos = s.scrubPos := rfl
@[simp] theorem State.modThread_clusters (n : Nat) (f : Thread → Thread) : (s.modThread n f).clusters = s.clusters := rfl
@[simp] theorem State.modThread_scales (n : Nat) (f : Thread → Thread) : (s.modThread n f).scales = s.scales := rfl
@[simp] theorem State.modThread_acc (n : Nat) (f : Thread → Thread) : (s.modThread n f).acc = s.acc := rfl
@[simp] theorem State.modThread_accLost (n : Nat) (f : Thread → Thread) : (s.modThread n f).accLost = s.accLost := rfl
@[simp] theorem State.modThread_tiles (n : Nat) (f : Thread → Thread) : (s.modThread n f).tiles = s.tiles := rfl
@[simp] theorem State.modThread_accHolds (n : Nat) (f : Thread → Thread) : (s.modThread n f).accHolds = s.accHolds := rfl
@[simp] theorem State.modThread_gens (n : Nat) (f : Thread → Thread) : (s.modThread n f).gens = s.gens := rfl
@[simp] theorem State.modThread_epoch (n : Nat) (f : Thread → Thread) : (s.modThread n f).epoch = s.epoch := rfl
@[simp] theorem State.modThread_engines (n : Nat) (f : Thread → Thread) : (s.modThread n f).engines = s.engines := rfl
@[simp] theorem State.modThread_combs (n : Nat) (f : Thread → Thread) : (s.modThread n f).combs = s.combs := rfl
@[simp] theorem State.modThread_sectors (n : Nat) (f : Thread → Thread) : (s.modThread n f).sectors = s.sectors := rfl
@[simp] theorem State.modThread_mapped (n : Nat) (f : Thread → Thread) : (s.modThread n f).mapped = s.mapped := rfl
@[simp] theorem State.modThread_failing (n : Nat) (f : Thread → Thread) : (s.modThread n f).failing = s.failing := rfl
@[simp] theorem State.modThread_jobs (n : Nat) (f : Thread → Thread) : (s.modThread n f).jobs = s.jobs := rfl
@[simp] theorem State.modThread_nextJob (n : Nat) (f : Thread → Thread) : (s.modThread n f).nextJob = s.nextJob := rfl
@[simp] theorem State.modThread_admitted (n : Nat) (f : Thread → Thread) : (s.modThread n f).admitted = s.admitted := rfl
@[simp] theorem State.modThread_rejected (n : Nat) (f : Thread → Thread) : (s.modThread n f).rejected = s.rejected := rfl
@[simp] theorem State.modThread_sqs (n : Nat) (f : Thread → Thread) : (s.modThread n f).sqs = s.sqs := rfl
@[simp] theorem State.modThread_cqs (n : Nat) (f : Thread → Thread) : (s.modThread n f).cqs = s.cqs := rfl
@[simp] theorem State.modThread_rrNext (n : Nat) (f : Thread → Thread) : (s.modThread n f).rrNext = s.rrNext := rfl
@[simp] theorem State.modThread_counters (n : Nat) (f : Thread → Thread) : (s.modThread n f).counters = s.counters := rfl
@[simp] theorem State.modThread_posted (n : Nat) (f : Thread → Thread) : (s.modThread n f).posted = s.posted := rfl
@[simp] theorem State.modThread_sessions (n : Nat) (f : Thread → Thread) : (s.modThread n f).sessions = s.sessions := rfl
@[simp] theorem State.modThread_windows (n : Nat) (f : Thread → Thread) : (s.modThread n f).windows = s.windows := rfl
@[simp] theorem State.modThread_copies (n : Nat) (f : Thread → Thread) : (s.modThread n f).copies = s.copies := rfl
@[simp] theorem State.modThread_refresh (n : Nat) (f : Thread → Thread) : (s.modThread n f).refresh = s.refresh := rfl
@[simp] theorem State.modThread_reads (n : Nat) (f : Thread → Thread) : (s.modThread n f).reads = s.reads := rfl
@[simp] theorem State.modThread_nextRead (n : Nat) (f : Thread → Thread) : (s.modThread n f).nextRead = s.nextRead := rfl
@[simp] theorem State.modThread_ha (n : Nat) (f : Thread → Thread) : (s.modThread n f).ha = s.ha := rfl
@[simp] theorem State.modThread_nextTag (n : Nat) (f : Thread → Thread) : (s.modThread n f).nextTag = s.nextTag := rfl
@[simp] theorem State.modThread_far (n : Nat) (f : Thread → Thread) : (s.modThread n f).far = s.far := rfl
@[simp] theorem State.modThread_nextFar (n : Nat) (f : Thread → Thread) : (s.modThread n f).nextFar = s.nextFar := rfl
@[simp] theorem State.modThread_farFree (n : Nat) (f : Thread → Thread) : (s.modThread n f).farFree = s.farFree := rfl
@[simp] theorem State.modThread_kernels (n : Nat) (f : Thread → Thread) : (s.modThread n f).kernels = s.kernels := rfl
@[simp] theorem State.modThread_locals (n : Nat) (f : Thread → Thread) : (s.modThread n f).locals = s.locals := rfl
@[simp] theorem State.modThread_slews (n : Nat) (f : Thread → Thread) : (s.modThread n f).slews = s.slews := rfl
@[simp] theorem State.modThread_oscCycles (n : Nat) (f : Thread → Thread) : (s.modThread n f).oscCycles = s.oscCycles := rfl
@[simp] theorem State.modThread_carries (n : Nat) (f : Thread → Thread) : (s.modThread n f).carries = s.carries := rfl
@[simp] theorem State.modThread_accBad (n : Nat) (f : Thread → Thread) : (s.modThread n f).accBad = s.accBad := rfl
@[simp] theorem State.modThread_accRuns (n : Nat) (f : Thread → Thread) : (s.modThread n f).accRuns = s.accRuns := rfl
@[simp] theorem State.modThread_shown (n : Nat) (f : Thread → Thread) : (s.modThread n f).shown = s.shown := rfl
@[simp] theorem State.modThread_centres (n : Nat) (f : Thread → Thread) : (s.modThread n f).centres = s.centres := rfl
@[simp] theorem State.modThread_tones (n : Nat) (f : Thread → Thread) : (s.modThread n f).tones = s.tones := rfl
@[simp] theorem State.modThread_detect (n : Nat) (f : Thread → Thread) : (s.modThread n f).detect = s.detect := rfl
@[simp] theorem State.modThread_pending (n : Nat) (f : Thread → Thread) : (s.modThread n f).pending = s.pending := rfl
@[simp] theorem State.modThread_monitors (n : Nat) (f : Thread → Thread) : (s.modThread n f).monitors = s.monitors := rfl
@[simp] theorem State.modThread_link (n : Nat) (f : Thread → Thread) : (s.modThread n f).link = s.link := rfl
@[simp] theorem State.modThread_fw (n : Nat) (f : Thread → Thread) : (s.modThread n f).fw = s.fw := rfl
@[simp] theorem State.modThread_cal (n : Nat) (f : Thread → Thread) : (s.modThread n f).cal = s.cal := rfl
@[simp] theorem State.modThread_power (n : Nat) (f : Thread → Thread) : (s.modThread n f).power = s.power := rfl
@[simp] theorem State.modThread_cfg (n : Nat) (f : Thread → Thread) : (s.modThread n f).cfg = s.cfg := rfl
@[simp] theorem State.modThread_side (n : Nat) (f : Thread → Thread) : (s.modThread n f).side = s.side := rfl
@[simp] theorem State.modThread_log (n : Nat) (f : Thread → Thread) : (s.modThread n f).log = s.log := rfl
@[simp] theorem State.modThread_out (n : Nat) (f : Thread → Thread) : (s.modThread n f).out = s.out := rfl
@[simp] theorem State.modThread_free (n : Nat) (f : Thread → Thread) : (s.modThread n f).free = s.free := rfl

/-! ### State.modSq -/

@[simp] theorem State.modSq_frame (n : Nat) (f : Sq → Sq) : (s.modSq n f).frame = s.frame := rfl
@[simp] theorem State.modSq_mem (n : Nat) (f : Sq → Sq) : (s.modSq n f).mem = s.mem := rfl
@[simp] theorem State.modSq_poison (n : Nat) (f : Sq → Sq) : (s.modSq n f).poison = s.poison := rfl
@[simp] theorem State.modSq_latent (n : Nat) (f : Sq → Sq) : (s.modSq n f).latent = s.latent := rfl
@[simp] theorem State.modSq_stackBad (n : Nat) (f : Sq → Sq) : (s.modSq n f).stackBad = s.stackBad := rfl
@[simp] theorem State.modSq_remapped (n : Nat) (f : Sq → Sq) : (s.modSq n f).remapped = s.remapped := rfl
@[simp] theorem State.modSq_corrected (n : Nat) (f : Sq → Sq) : (s.modSq n f).corrected = s.corrected := rfl
@[simp] theorem State.modSq_scrubPos (n : Nat) (f : Sq → Sq) : (s.modSq n f).scrubPos = s.scrubPos := rfl
@[simp] theorem State.modSq_clusters (n : Nat) (f : Sq → Sq) : (s.modSq n f).clusters = s.clusters := rfl
@[simp] theorem State.modSq_scales (n : Nat) (f : Sq → Sq) : (s.modSq n f).scales = s.scales := rfl
@[simp] theorem State.modSq_acc (n : Nat) (f : Sq → Sq) : (s.modSq n f).acc = s.acc := rfl
@[simp] theorem State.modSq_accLost (n : Nat) (f : Sq → Sq) : (s.modSq n f).accLost = s.accLost := rfl
@[simp] theorem State.modSq_tiles (n : Nat) (f : Sq → Sq) : (s.modSq n f).tiles = s.tiles := rfl
@[simp] theorem State.modSq_accHolds (n : Nat) (f : Sq → Sq) : (s.modSq n f).accHolds = s.accHolds := rfl
@[simp] theorem State.modSq_gens (n : Nat) (f : Sq → Sq) : (s.modSq n f).gens = s.gens := rfl
@[simp] theorem State.modSq_epoch (n : Nat) (f : Sq → Sq) : (s.modSq n f).epoch = s.epoch := rfl
@[simp] theorem State.modSq_engines (n : Nat) (f : Sq → Sq) : (s.modSq n f).engines = s.engines := rfl
@[simp] theorem State.modSq_combs (n : Nat) (f : Sq → Sq) : (s.modSq n f).combs = s.combs := rfl
@[simp] theorem State.modSq_sectors (n : Nat) (f : Sq → Sq) : (s.modSq n f).sectors = s.sectors := rfl
@[simp] theorem State.modSq_mapped (n : Nat) (f : Sq → Sq) : (s.modSq n f).mapped = s.mapped := rfl
@[simp] theorem State.modSq_failing (n : Nat) (f : Sq → Sq) : (s.modSq n f).failing = s.failing := rfl
@[simp] theorem State.modSq_jobs (n : Nat) (f : Sq → Sq) : (s.modSq n f).jobs = s.jobs := rfl
@[simp] theorem State.modSq_nextJob (n : Nat) (f : Sq → Sq) : (s.modSq n f).nextJob = s.nextJob := rfl
@[simp] theorem State.modSq_admitted (n : Nat) (f : Sq → Sq) : (s.modSq n f).admitted = s.admitted := rfl
@[simp] theorem State.modSq_rejected (n : Nat) (f : Sq → Sq) : (s.modSq n f).rejected = s.rejected := rfl
@[simp] theorem State.modSq_cqs (n : Nat) (f : Sq → Sq) : (s.modSq n f).cqs = s.cqs := rfl
@[simp] theorem State.modSq_rrNext (n : Nat) (f : Sq → Sq) : (s.modSq n f).rrNext = s.rrNext := rfl
@[simp] theorem State.modSq_counters (n : Nat) (f : Sq → Sq) : (s.modSq n f).counters = s.counters := rfl
@[simp] theorem State.modSq_posted (n : Nat) (f : Sq → Sq) : (s.modSq n f).posted = s.posted := rfl
@[simp] theorem State.modSq_sessions (n : Nat) (f : Sq → Sq) : (s.modSq n f).sessions = s.sessions := rfl
@[simp] theorem State.modSq_windows (n : Nat) (f : Sq → Sq) : (s.modSq n f).windows = s.windows := rfl
@[simp] theorem State.modSq_copies (n : Nat) (f : Sq → Sq) : (s.modSq n f).copies = s.copies := rfl
@[simp] theorem State.modSq_refresh (n : Nat) (f : Sq → Sq) : (s.modSq n f).refresh = s.refresh := rfl
@[simp] theorem State.modSq_reads (n : Nat) (f : Sq → Sq) : (s.modSq n f).reads = s.reads := rfl
@[simp] theorem State.modSq_nextRead (n : Nat) (f : Sq → Sq) : (s.modSq n f).nextRead = s.nextRead := rfl
@[simp] theorem State.modSq_ha (n : Nat) (f : Sq → Sq) : (s.modSq n f).ha = s.ha := rfl
@[simp] theorem State.modSq_nextTag (n : Nat) (f : Sq → Sq) : (s.modSq n f).nextTag = s.nextTag := rfl
@[simp] theorem State.modSq_far (n : Nat) (f : Sq → Sq) : (s.modSq n f).far = s.far := rfl
@[simp] theorem State.modSq_nextFar (n : Nat) (f : Sq → Sq) : (s.modSq n f).nextFar = s.nextFar := rfl
@[simp] theorem State.modSq_farFree (n : Nat) (f : Sq → Sq) : (s.modSq n f).farFree = s.farFree := rfl
@[simp] theorem State.modSq_threads (n : Nat) (f : Sq → Sq) : (s.modSq n f).threads = s.threads := rfl
@[simp] theorem State.modSq_kernels (n : Nat) (f : Sq → Sq) : (s.modSq n f).kernels = s.kernels := rfl
@[simp] theorem State.modSq_locals (n : Nat) (f : Sq → Sq) : (s.modSq n f).locals = s.locals := rfl
@[simp] theorem State.modSq_slews (n : Nat) (f : Sq → Sq) : (s.modSq n f).slews = s.slews := rfl
@[simp] theorem State.modSq_oscCycles (n : Nat) (f : Sq → Sq) : (s.modSq n f).oscCycles = s.oscCycles := rfl
@[simp] theorem State.modSq_carries (n : Nat) (f : Sq → Sq) : (s.modSq n f).carries = s.carries := rfl
@[simp] theorem State.modSq_accBad (n : Nat) (f : Sq → Sq) : (s.modSq n f).accBad = s.accBad := rfl
@[simp] theorem State.modSq_accRuns (n : Nat) (f : Sq → Sq) : (s.modSq n f).accRuns = s.accRuns := rfl
@[simp] theorem State.modSq_shown (n : Nat) (f : Sq → Sq) : (s.modSq n f).shown = s.shown := rfl
@[simp] theorem State.modSq_centres (n : Nat) (f : Sq → Sq) : (s.modSq n f).centres = s.centres := rfl
@[simp] theorem State.modSq_tones (n : Nat) (f : Sq → Sq) : (s.modSq n f).tones = s.tones := rfl
@[simp] theorem State.modSq_detect (n : Nat) (f : Sq → Sq) : (s.modSq n f).detect = s.detect := rfl
@[simp] theorem State.modSq_pending (n : Nat) (f : Sq → Sq) : (s.modSq n f).pending = s.pending := rfl
@[simp] theorem State.modSq_monitors (n : Nat) (f : Sq → Sq) : (s.modSq n f).monitors = s.monitors := rfl
@[simp] theorem State.modSq_link (n : Nat) (f : Sq → Sq) : (s.modSq n f).link = s.link := rfl
@[simp] theorem State.modSq_fw (n : Nat) (f : Sq → Sq) : (s.modSq n f).fw = s.fw := rfl
@[simp] theorem State.modSq_cal (n : Nat) (f : Sq → Sq) : (s.modSq n f).cal = s.cal := rfl
@[simp] theorem State.modSq_power (n : Nat) (f : Sq → Sq) : (s.modSq n f).power = s.power := rfl
@[simp] theorem State.modSq_cfg (n : Nat) (f : Sq → Sq) : (s.modSq n f).cfg = s.cfg := rfl
@[simp] theorem State.modSq_side (n : Nat) (f : Sq → Sq) : (s.modSq n f).side = s.side := rfl
@[simp] theorem State.modSq_log (n : Nat) (f : Sq → Sq) : (s.modSq n f).log = s.log := rfl
@[simp] theorem State.modSq_out (n : Nat) (f : Sq → Sq) : (s.modSq n f).out = s.out := rfl
@[simp] theorem State.modSq_free (n : Nat) (f : Sq → Sq) : (s.modSq n f).free = s.free := rfl

/-! ### State.modCq -/

@[simp] theorem State.modCq_frame (n : Nat) (f : Cq → Cq) : (s.modCq n f).frame = s.frame := rfl
@[simp] theorem State.modCq_mem (n : Nat) (f : Cq → Cq) : (s.modCq n f).mem = s.mem := rfl
@[simp] theorem State.modCq_poison (n : Nat) (f : Cq → Cq) : (s.modCq n f).poison = s.poison := rfl
@[simp] theorem State.modCq_latent (n : Nat) (f : Cq → Cq) : (s.modCq n f).latent = s.latent := rfl
@[simp] theorem State.modCq_stackBad (n : Nat) (f : Cq → Cq) : (s.modCq n f).stackBad = s.stackBad := rfl
@[simp] theorem State.modCq_remapped (n : Nat) (f : Cq → Cq) : (s.modCq n f).remapped = s.remapped := rfl
@[simp] theorem State.modCq_corrected (n : Nat) (f : Cq → Cq) : (s.modCq n f).corrected = s.corrected := rfl
@[simp] theorem State.modCq_scrubPos (n : Nat) (f : Cq → Cq) : (s.modCq n f).scrubPos = s.scrubPos := rfl
@[simp] theorem State.modCq_clusters (n : Nat) (f : Cq → Cq) : (s.modCq n f).clusters = s.clusters := rfl
@[simp] theorem State.modCq_scales (n : Nat) (f : Cq → Cq) : (s.modCq n f).scales = s.scales := rfl
@[simp] theorem State.modCq_acc (n : Nat) (f : Cq → Cq) : (s.modCq n f).acc = s.acc := rfl
@[simp] theorem State.modCq_accLost (n : Nat) (f : Cq → Cq) : (s.modCq n f).accLost = s.accLost := rfl
@[simp] theorem State.modCq_tiles (n : Nat) (f : Cq → Cq) : (s.modCq n f).tiles = s.tiles := rfl
@[simp] theorem State.modCq_accHolds (n : Nat) (f : Cq → Cq) : (s.modCq n f).accHolds = s.accHolds := rfl
@[simp] theorem State.modCq_gens (n : Nat) (f : Cq → Cq) : (s.modCq n f).gens = s.gens := rfl
@[simp] theorem State.modCq_epoch (n : Nat) (f : Cq → Cq) : (s.modCq n f).epoch = s.epoch := rfl
@[simp] theorem State.modCq_engines (n : Nat) (f : Cq → Cq) : (s.modCq n f).engines = s.engines := rfl
@[simp] theorem State.modCq_combs (n : Nat) (f : Cq → Cq) : (s.modCq n f).combs = s.combs := rfl
@[simp] theorem State.modCq_sectors (n : Nat) (f : Cq → Cq) : (s.modCq n f).sectors = s.sectors := rfl
@[simp] theorem State.modCq_mapped (n : Nat) (f : Cq → Cq) : (s.modCq n f).mapped = s.mapped := rfl
@[simp] theorem State.modCq_failing (n : Nat) (f : Cq → Cq) : (s.modCq n f).failing = s.failing := rfl
@[simp] theorem State.modCq_jobs (n : Nat) (f : Cq → Cq) : (s.modCq n f).jobs = s.jobs := rfl
@[simp] theorem State.modCq_nextJob (n : Nat) (f : Cq → Cq) : (s.modCq n f).nextJob = s.nextJob := rfl
@[simp] theorem State.modCq_admitted (n : Nat) (f : Cq → Cq) : (s.modCq n f).admitted = s.admitted := rfl
@[simp] theorem State.modCq_rejected (n : Nat) (f : Cq → Cq) : (s.modCq n f).rejected = s.rejected := rfl
@[simp] theorem State.modCq_sqs (n : Nat) (f : Cq → Cq) : (s.modCq n f).sqs = s.sqs := rfl
@[simp] theorem State.modCq_rrNext (n : Nat) (f : Cq → Cq) : (s.modCq n f).rrNext = s.rrNext := rfl
@[simp] theorem State.modCq_counters (n : Nat) (f : Cq → Cq) : (s.modCq n f).counters = s.counters := rfl
@[simp] theorem State.modCq_posted (n : Nat) (f : Cq → Cq) : (s.modCq n f).posted = s.posted := rfl
@[simp] theorem State.modCq_sessions (n : Nat) (f : Cq → Cq) : (s.modCq n f).sessions = s.sessions := rfl
@[simp] theorem State.modCq_windows (n : Nat) (f : Cq → Cq) : (s.modCq n f).windows = s.windows := rfl
@[simp] theorem State.modCq_copies (n : Nat) (f : Cq → Cq) : (s.modCq n f).copies = s.copies := rfl
@[simp] theorem State.modCq_refresh (n : Nat) (f : Cq → Cq) : (s.modCq n f).refresh = s.refresh := rfl
@[simp] theorem State.modCq_reads (n : Nat) (f : Cq → Cq) : (s.modCq n f).reads = s.reads := rfl
@[simp] theorem State.modCq_nextRead (n : Nat) (f : Cq → Cq) : (s.modCq n f).nextRead = s.nextRead := rfl
@[simp] theorem State.modCq_ha (n : Nat) (f : Cq → Cq) : (s.modCq n f).ha = s.ha := rfl
@[simp] theorem State.modCq_nextTag (n : Nat) (f : Cq → Cq) : (s.modCq n f).nextTag = s.nextTag := rfl
@[simp] theorem State.modCq_far (n : Nat) (f : Cq → Cq) : (s.modCq n f).far = s.far := rfl
@[simp] theorem State.modCq_nextFar (n : Nat) (f : Cq → Cq) : (s.modCq n f).nextFar = s.nextFar := rfl
@[simp] theorem State.modCq_farFree (n : Nat) (f : Cq → Cq) : (s.modCq n f).farFree = s.farFree := rfl
@[simp] theorem State.modCq_threads (n : Nat) (f : Cq → Cq) : (s.modCq n f).threads = s.threads := rfl
@[simp] theorem State.modCq_kernels (n : Nat) (f : Cq → Cq) : (s.modCq n f).kernels = s.kernels := rfl
@[simp] theorem State.modCq_locals (n : Nat) (f : Cq → Cq) : (s.modCq n f).locals = s.locals := rfl
@[simp] theorem State.modCq_slews (n : Nat) (f : Cq → Cq) : (s.modCq n f).slews = s.slews := rfl
@[simp] theorem State.modCq_oscCycles (n : Nat) (f : Cq → Cq) : (s.modCq n f).oscCycles = s.oscCycles := rfl
@[simp] theorem State.modCq_carries (n : Nat) (f : Cq → Cq) : (s.modCq n f).carries = s.carries := rfl
@[simp] theorem State.modCq_accBad (n : Nat) (f : Cq → Cq) : (s.modCq n f).accBad = s.accBad := rfl
@[simp] theorem State.modCq_accRuns (n : Nat) (f : Cq → Cq) : (s.modCq n f).accRuns = s.accRuns := rfl
@[simp] theorem State.modCq_shown (n : Nat) (f : Cq → Cq) : (s.modCq n f).shown = s.shown := rfl
@[simp] theorem State.modCq_centres (n : Nat) (f : Cq → Cq) : (s.modCq n f).centres = s.centres := rfl
@[simp] theorem State.modCq_tones (n : Nat) (f : Cq → Cq) : (s.modCq n f).tones = s.tones := rfl
@[simp] theorem State.modCq_detect (n : Nat) (f : Cq → Cq) : (s.modCq n f).detect = s.detect := rfl
@[simp] theorem State.modCq_pending (n : Nat) (f : Cq → Cq) : (s.modCq n f).pending = s.pending := rfl
@[simp] theorem State.modCq_monitors (n : Nat) (f : Cq → Cq) : (s.modCq n f).monitors = s.monitors := rfl
@[simp] theorem State.modCq_link (n : Nat) (f : Cq → Cq) : (s.modCq n f).link = s.link := rfl
@[simp] theorem State.modCq_fw (n : Nat) (f : Cq → Cq) : (s.modCq n f).fw = s.fw := rfl
@[simp] theorem State.modCq_cal (n : Nat) (f : Cq → Cq) : (s.modCq n f).cal = s.cal := rfl
@[simp] theorem State.modCq_power (n : Nat) (f : Cq → Cq) : (s.modCq n f).power = s.power := rfl
@[simp] theorem State.modCq_cfg (n : Nat) (f : Cq → Cq) : (s.modCq n f).cfg = s.cfg := rfl
@[simp] theorem State.modCq_side (n : Nat) (f : Cq → Cq) : (s.modCq n f).side = s.side := rfl
@[simp] theorem State.modCq_log (n : Nat) (f : Cq → Cq) : (s.modCq n f).log = s.log := rfl
@[simp] theorem State.modCq_out (n : Nat) (f : Cq → Cq) : (s.modCq n f).out = s.out := rfl
@[simp] theorem State.modCq_free (n : Nat) (f : Cq → Cq) : (s.modCq n f).free = s.free := rfl

/-! ### State.modSession -/

@[simp] theorem State.modSession_frame (n : Nat) (f : Session → Session) : (s.modSession n f).frame = s.frame := rfl
@[simp] theorem State.modSession_mem (n : Nat) (f : Session → Session) : (s.modSession n f).mem = s.mem := rfl
@[simp] theorem State.modSession_poison (n : Nat) (f : Session → Session) : (s.modSession n f).poison = s.poison := rfl
@[simp] theorem State.modSession_latent (n : Nat) (f : Session → Session) : (s.modSession n f).latent = s.latent := rfl
@[simp] theorem State.modSession_stackBad (n : Nat) (f : Session → Session) : (s.modSession n f).stackBad = s.stackBad := rfl
@[simp] theorem State.modSession_remapped (n : Nat) (f : Session → Session) : (s.modSession n f).remapped = s.remapped := rfl
@[simp] theorem State.modSession_corrected (n : Nat) (f : Session → Session) : (s.modSession n f).corrected = s.corrected := rfl
@[simp] theorem State.modSession_scrubPos (n : Nat) (f : Session → Session) : (s.modSession n f).scrubPos = s.scrubPos := rfl
@[simp] theorem State.modSession_clusters (n : Nat) (f : Session → Session) : (s.modSession n f).clusters = s.clusters := rfl
@[simp] theorem State.modSession_scales (n : Nat) (f : Session → Session) : (s.modSession n f).scales = s.scales := rfl
@[simp] theorem State.modSession_acc (n : Nat) (f : Session → Session) : (s.modSession n f).acc = s.acc := rfl
@[simp] theorem State.modSession_accLost (n : Nat) (f : Session → Session) : (s.modSession n f).accLost = s.accLost := rfl
@[simp] theorem State.modSession_tiles (n : Nat) (f : Session → Session) : (s.modSession n f).tiles = s.tiles := rfl
@[simp] theorem State.modSession_accHolds (n : Nat) (f : Session → Session) : (s.modSession n f).accHolds = s.accHolds := rfl
@[simp] theorem State.modSession_gens (n : Nat) (f : Session → Session) : (s.modSession n f).gens = s.gens := rfl
@[simp] theorem State.modSession_epoch (n : Nat) (f : Session → Session) : (s.modSession n f).epoch = s.epoch := rfl
@[simp] theorem State.modSession_engines (n : Nat) (f : Session → Session) : (s.modSession n f).engines = s.engines := rfl
@[simp] theorem State.modSession_combs (n : Nat) (f : Session → Session) : (s.modSession n f).combs = s.combs := rfl
@[simp] theorem State.modSession_sectors (n : Nat) (f : Session → Session) : (s.modSession n f).sectors = s.sectors := rfl
@[simp] theorem State.modSession_mapped (n : Nat) (f : Session → Session) : (s.modSession n f).mapped = s.mapped := rfl
@[simp] theorem State.modSession_failing (n : Nat) (f : Session → Session) : (s.modSession n f).failing = s.failing := rfl
@[simp] theorem State.modSession_jobs (n : Nat) (f : Session → Session) : (s.modSession n f).jobs = s.jobs := rfl
@[simp] theorem State.modSession_nextJob (n : Nat) (f : Session → Session) : (s.modSession n f).nextJob = s.nextJob := rfl
@[simp] theorem State.modSession_admitted (n : Nat) (f : Session → Session) : (s.modSession n f).admitted = s.admitted := rfl
@[simp] theorem State.modSession_rejected (n : Nat) (f : Session → Session) : (s.modSession n f).rejected = s.rejected := rfl
@[simp] theorem State.modSession_sqs (n : Nat) (f : Session → Session) : (s.modSession n f).sqs = s.sqs := rfl
@[simp] theorem State.modSession_cqs (n : Nat) (f : Session → Session) : (s.modSession n f).cqs = s.cqs := rfl
@[simp] theorem State.modSession_rrNext (n : Nat) (f : Session → Session) : (s.modSession n f).rrNext = s.rrNext := rfl
@[simp] theorem State.modSession_counters (n : Nat) (f : Session → Session) : (s.modSession n f).counters = s.counters := rfl
@[simp] theorem State.modSession_posted (n : Nat) (f : Session → Session) : (s.modSession n f).posted = s.posted := rfl
@[simp] theorem State.modSession_windows (n : Nat) (f : Session → Session) : (s.modSession n f).windows = s.windows := rfl
@[simp] theorem State.modSession_copies (n : Nat) (f : Session → Session) : (s.modSession n f).copies = s.copies := rfl
@[simp] theorem State.modSession_refresh (n : Nat) (f : Session → Session) : (s.modSession n f).refresh = s.refresh := rfl
@[simp] theorem State.modSession_reads (n : Nat) (f : Session → Session) : (s.modSession n f).reads = s.reads := rfl
@[simp] theorem State.modSession_nextRead (n : Nat) (f : Session → Session) : (s.modSession n f).nextRead = s.nextRead := rfl
@[simp] theorem State.modSession_ha (n : Nat) (f : Session → Session) : (s.modSession n f).ha = s.ha := rfl
@[simp] theorem State.modSession_nextTag (n : Nat) (f : Session → Session) : (s.modSession n f).nextTag = s.nextTag := rfl
@[simp] theorem State.modSession_far (n : Nat) (f : Session → Session) : (s.modSession n f).far = s.far := rfl
@[simp] theorem State.modSession_nextFar (n : Nat) (f : Session → Session) : (s.modSession n f).nextFar = s.nextFar := rfl
@[simp] theorem State.modSession_farFree (n : Nat) (f : Session → Session) : (s.modSession n f).farFree = s.farFree := rfl
@[simp] theorem State.modSession_threads (n : Nat) (f : Session → Session) : (s.modSession n f).threads = s.threads := rfl
@[simp] theorem State.modSession_kernels (n : Nat) (f : Session → Session) : (s.modSession n f).kernels = s.kernels := rfl
@[simp] theorem State.modSession_locals (n : Nat) (f : Session → Session) : (s.modSession n f).locals = s.locals := rfl
@[simp] theorem State.modSession_slews (n : Nat) (f : Session → Session) : (s.modSession n f).slews = s.slews := rfl
@[simp] theorem State.modSession_oscCycles (n : Nat) (f : Session → Session) : (s.modSession n f).oscCycles = s.oscCycles := rfl
@[simp] theorem State.modSession_carries (n : Nat) (f : Session → Session) : (s.modSession n f).carries = s.carries := rfl
@[simp] theorem State.modSession_accBad (n : Nat) (f : Session → Session) : (s.modSession n f).accBad = s.accBad := rfl
@[simp] theorem State.modSession_accRuns (n : Nat) (f : Session → Session) : (s.modSession n f).accRuns = s.accRuns := rfl
@[simp] theorem State.modSession_shown (n : Nat) (f : Session → Session) : (s.modSession n f).shown = s.shown := rfl
@[simp] theorem State.modSession_centres (n : Nat) (f : Session → Session) : (s.modSession n f).centres = s.centres := rfl
@[simp] theorem State.modSession_tones (n : Nat) (f : Session → Session) : (s.modSession n f).tones = s.tones := rfl
@[simp] theorem State.modSession_detect (n : Nat) (f : Session → Session) : (s.modSession n f).detect = s.detect := rfl
@[simp] theorem State.modSession_pending (n : Nat) (f : Session → Session) : (s.modSession n f).pending = s.pending := rfl
@[simp] theorem State.modSession_monitors (n : Nat) (f : Session → Session) : (s.modSession n f).monitors = s.monitors := rfl
@[simp] theorem State.modSession_link (n : Nat) (f : Session → Session) : (s.modSession n f).link = s.link := rfl
@[simp] theorem State.modSession_fw (n : Nat) (f : Session → Session) : (s.modSession n f).fw = s.fw := rfl
@[simp] theorem State.modSession_cal (n : Nat) (f : Session → Session) : (s.modSession n f).cal = s.cal := rfl
@[simp] theorem State.modSession_power (n : Nat) (f : Session → Session) : (s.modSession n f).power = s.power := rfl
@[simp] theorem State.modSession_cfg (n : Nat) (f : Session → Session) : (s.modSession n f).cfg = s.cfg := rfl
@[simp] theorem State.modSession_side (n : Nat) (f : Session → Session) : (s.modSession n f).side = s.side := rfl
@[simp] theorem State.modSession_log (n : Nat) (f : Session → Session) : (s.modSession n f).log = s.log := rfl
@[simp] theorem State.modSession_out (n : Nat) (f : Session → Session) : (s.modSession n f).out = s.out := rfl
@[simp] theorem State.modSession_free (n : Nat) (f : Session → Session) : (s.modSession n f).free = s.free := rfl

/-! ### State.modWindow -/

@[simp] theorem State.modWindow_frame (n : Nat) (f : Window → Window) : (s.modWindow n f).frame = s.frame := rfl
@[simp] theorem State.modWindow_mem (n : Nat) (f : Window → Window) : (s.modWindow n f).mem = s.mem := rfl
@[simp] theorem State.modWindow_poison (n : Nat) (f : Window → Window) : (s.modWindow n f).poison = s.poison := rfl
@[simp] theorem State.modWindow_latent (n : Nat) (f : Window → Window) : (s.modWindow n f).latent = s.latent := rfl
@[simp] theorem State.modWindow_stackBad (n : Nat) (f : Window → Window) : (s.modWindow n f).stackBad = s.stackBad := rfl
@[simp] theorem State.modWindow_remapped (n : Nat) (f : Window → Window) : (s.modWindow n f).remapped = s.remapped := rfl
@[simp] theorem State.modWindow_corrected (n : Nat) (f : Window → Window) : (s.modWindow n f).corrected = s.corrected := rfl
@[simp] theorem State.modWindow_scrubPos (n : Nat) (f : Window → Window) : (s.modWindow n f).scrubPos = s.scrubPos := rfl
@[simp] theorem State.modWindow_clusters (n : Nat) (f : Window → Window) : (s.modWindow n f).clusters = s.clusters := rfl
@[simp] theorem State.modWindow_scales (n : Nat) (f : Window → Window) : (s.modWindow n f).scales = s.scales := rfl
@[simp] theorem State.modWindow_acc (n : Nat) (f : Window → Window) : (s.modWindow n f).acc = s.acc := rfl
@[simp] theorem State.modWindow_accLost (n : Nat) (f : Window → Window) : (s.modWindow n f).accLost = s.accLost := rfl
@[simp] theorem State.modWindow_tiles (n : Nat) (f : Window → Window) : (s.modWindow n f).tiles = s.tiles := rfl
@[simp] theorem State.modWindow_accHolds (n : Nat) (f : Window → Window) : (s.modWindow n f).accHolds = s.accHolds := rfl
@[simp] theorem State.modWindow_gens (n : Nat) (f : Window → Window) : (s.modWindow n f).gens = s.gens := rfl
@[simp] theorem State.modWindow_epoch (n : Nat) (f : Window → Window) : (s.modWindow n f).epoch = s.epoch := rfl
@[simp] theorem State.modWindow_engines (n : Nat) (f : Window → Window) : (s.modWindow n f).engines = s.engines := rfl
@[simp] theorem State.modWindow_combs (n : Nat) (f : Window → Window) : (s.modWindow n f).combs = s.combs := rfl
@[simp] theorem State.modWindow_sectors (n : Nat) (f : Window → Window) : (s.modWindow n f).sectors = s.sectors := rfl
@[simp] theorem State.modWindow_mapped (n : Nat) (f : Window → Window) : (s.modWindow n f).mapped = s.mapped := rfl
@[simp] theorem State.modWindow_failing (n : Nat) (f : Window → Window) : (s.modWindow n f).failing = s.failing := rfl
@[simp] theorem State.modWindow_jobs (n : Nat) (f : Window → Window) : (s.modWindow n f).jobs = s.jobs := rfl
@[simp] theorem State.modWindow_nextJob (n : Nat) (f : Window → Window) : (s.modWindow n f).nextJob = s.nextJob := rfl
@[simp] theorem State.modWindow_admitted (n : Nat) (f : Window → Window) : (s.modWindow n f).admitted = s.admitted := rfl
@[simp] theorem State.modWindow_rejected (n : Nat) (f : Window → Window) : (s.modWindow n f).rejected = s.rejected := rfl
@[simp] theorem State.modWindow_sqs (n : Nat) (f : Window → Window) : (s.modWindow n f).sqs = s.sqs := rfl
@[simp] theorem State.modWindow_cqs (n : Nat) (f : Window → Window) : (s.modWindow n f).cqs = s.cqs := rfl
@[simp] theorem State.modWindow_rrNext (n : Nat) (f : Window → Window) : (s.modWindow n f).rrNext = s.rrNext := rfl
@[simp] theorem State.modWindow_counters (n : Nat) (f : Window → Window) : (s.modWindow n f).counters = s.counters := rfl
@[simp] theorem State.modWindow_posted (n : Nat) (f : Window → Window) : (s.modWindow n f).posted = s.posted := rfl
@[simp] theorem State.modWindow_sessions (n : Nat) (f : Window → Window) : (s.modWindow n f).sessions = s.sessions := rfl
@[simp] theorem State.modWindow_copies (n : Nat) (f : Window → Window) : (s.modWindow n f).copies = s.copies := rfl
@[simp] theorem State.modWindow_refresh (n : Nat) (f : Window → Window) : (s.modWindow n f).refresh = s.refresh := rfl
@[simp] theorem State.modWindow_reads (n : Nat) (f : Window → Window) : (s.modWindow n f).reads = s.reads := rfl
@[simp] theorem State.modWindow_nextRead (n : Nat) (f : Window → Window) : (s.modWindow n f).nextRead = s.nextRead := rfl
@[simp] theorem State.modWindow_ha (n : Nat) (f : Window → Window) : (s.modWindow n f).ha = s.ha := rfl
@[simp] theorem State.modWindow_nextTag (n : Nat) (f : Window → Window) : (s.modWindow n f).nextTag = s.nextTag := rfl
@[simp] theorem State.modWindow_far (n : Nat) (f : Window → Window) : (s.modWindow n f).far = s.far := rfl
@[simp] theorem State.modWindow_nextFar (n : Nat) (f : Window → Window) : (s.modWindow n f).nextFar = s.nextFar := rfl
@[simp] theorem State.modWindow_farFree (n : Nat) (f : Window → Window) : (s.modWindow n f).farFree = s.farFree := rfl
@[simp] theorem State.modWindow_threads (n : Nat) (f : Window → Window) : (s.modWindow n f).threads = s.threads := rfl
@[simp] theorem State.modWindow_kernels (n : Nat) (f : Window → Window) : (s.modWindow n f).kernels = s.kernels := rfl
@[simp] theorem State.modWindow_locals (n : Nat) (f : Window → Window) : (s.modWindow n f).locals = s.locals := rfl
@[simp] theorem State.modWindow_slews (n : Nat) (f : Window → Window) : (s.modWindow n f).slews = s.slews := rfl
@[simp] theorem State.modWindow_oscCycles (n : Nat) (f : Window → Window) : (s.modWindow n f).oscCycles = s.oscCycles := rfl
@[simp] theorem State.modWindow_carries (n : Nat) (f : Window → Window) : (s.modWindow n f).carries = s.carries := rfl
@[simp] theorem State.modWindow_accBad (n : Nat) (f : Window → Window) : (s.modWindow n f).accBad = s.accBad := rfl
@[simp] theorem State.modWindow_accRuns (n : Nat) (f : Window → Window) : (s.modWindow n f).accRuns = s.accRuns := rfl
@[simp] theorem State.modWindow_shown (n : Nat) (f : Window → Window) : (s.modWindow n f).shown = s.shown := rfl
@[simp] theorem State.modWindow_centres (n : Nat) (f : Window → Window) : (s.modWindow n f).centres = s.centres := rfl
@[simp] theorem State.modWindow_tones (n : Nat) (f : Window → Window) : (s.modWindow n f).tones = s.tones := rfl
@[simp] theorem State.modWindow_detect (n : Nat) (f : Window → Window) : (s.modWindow n f).detect = s.detect := rfl
@[simp] theorem State.modWindow_pending (n : Nat) (f : Window → Window) : (s.modWindow n f).pending = s.pending := rfl
@[simp] theorem State.modWindow_monitors (n : Nat) (f : Window → Window) : (s.modWindow n f).monitors = s.monitors := rfl
@[simp] theorem State.modWindow_link (n : Nat) (f : Window → Window) : (s.modWindow n f).link = s.link := rfl
@[simp] theorem State.modWindow_fw (n : Nat) (f : Window → Window) : (s.modWindow n f).fw = s.fw := rfl
@[simp] theorem State.modWindow_cal (n : Nat) (f : Window → Window) : (s.modWindow n f).cal = s.cal := rfl
@[simp] theorem State.modWindow_power (n : Nat) (f : Window → Window) : (s.modWindow n f).power = s.power := rfl
@[simp] theorem State.modWindow_cfg (n : Nat) (f : Window → Window) : (s.modWindow n f).cfg = s.cfg := rfl
@[simp] theorem State.modWindow_side (n : Nat) (f : Window → Window) : (s.modWindow n f).side = s.side := rfl
@[simp] theorem State.modWindow_log (n : Nat) (f : Window → Window) : (s.modWindow n f).log = s.log := rfl
@[simp] theorem State.modWindow_out (n : Nat) (f : Window → Window) : (s.modWindow n f).out = s.out := rfl
@[simp] theorem State.modWindow_free (n : Nat) (f : Window → Window) : (s.modWindow n f).free = s.free := rfl

/-! ### State.modJob -/

@[simp] theorem State.modJob_frame (n : Nat) (f : Job → Job) : (s.modJob n f).frame = s.frame := rfl
@[simp] theorem State.modJob_mem (n : Nat) (f : Job → Job) : (s.modJob n f).mem = s.mem := rfl
@[simp] theorem State.modJob_poison (n : Nat) (f : Job → Job) : (s.modJob n f).poison = s.poison := rfl
@[simp] theorem State.modJob_latent (n : Nat) (f : Job → Job) : (s.modJob n f).latent = s.latent := rfl
@[simp] theorem State.modJob_stackBad (n : Nat) (f : Job → Job) : (s.modJob n f).stackBad = s.stackBad := rfl
@[simp] theorem State.modJob_remapped (n : Nat) (f : Job → Job) : (s.modJob n f).remapped = s.remapped := rfl
@[simp] theorem State.modJob_corrected (n : Nat) (f : Job → Job) : (s.modJob n f).corrected = s.corrected := rfl
@[simp] theorem State.modJob_scrubPos (n : Nat) (f : Job → Job) : (s.modJob n f).scrubPos = s.scrubPos := rfl
@[simp] theorem State.modJob_clusters (n : Nat) (f : Job → Job) : (s.modJob n f).clusters = s.clusters := rfl
@[simp] theorem State.modJob_scales (n : Nat) (f : Job → Job) : (s.modJob n f).scales = s.scales := rfl
@[simp] theorem State.modJob_acc (n : Nat) (f : Job → Job) : (s.modJob n f).acc = s.acc := rfl
@[simp] theorem State.modJob_accLost (n : Nat) (f : Job → Job) : (s.modJob n f).accLost = s.accLost := rfl
@[simp] theorem State.modJob_tiles (n : Nat) (f : Job → Job) : (s.modJob n f).tiles = s.tiles := rfl
@[simp] theorem State.modJob_accHolds (n : Nat) (f : Job → Job) : (s.modJob n f).accHolds = s.accHolds := rfl
@[simp] theorem State.modJob_gens (n : Nat) (f : Job → Job) : (s.modJob n f).gens = s.gens := rfl
@[simp] theorem State.modJob_epoch (n : Nat) (f : Job → Job) : (s.modJob n f).epoch = s.epoch := rfl
@[simp] theorem State.modJob_engines (n : Nat) (f : Job → Job) : (s.modJob n f).engines = s.engines := rfl
@[simp] theorem State.modJob_combs (n : Nat) (f : Job → Job) : (s.modJob n f).combs = s.combs := rfl
@[simp] theorem State.modJob_sectors (n : Nat) (f : Job → Job) : (s.modJob n f).sectors = s.sectors := rfl
@[simp] theorem State.modJob_mapped (n : Nat) (f : Job → Job) : (s.modJob n f).mapped = s.mapped := rfl
@[simp] theorem State.modJob_failing (n : Nat) (f : Job → Job) : (s.modJob n f).failing = s.failing := rfl
@[simp] theorem State.modJob_nextJob (n : Nat) (f : Job → Job) : (s.modJob n f).nextJob = s.nextJob := rfl
@[simp] theorem State.modJob_admitted (n : Nat) (f : Job → Job) : (s.modJob n f).admitted = s.admitted := rfl
@[simp] theorem State.modJob_rejected (n : Nat) (f : Job → Job) : (s.modJob n f).rejected = s.rejected := rfl
@[simp] theorem State.modJob_sqs (n : Nat) (f : Job → Job) : (s.modJob n f).sqs = s.sqs := rfl
@[simp] theorem State.modJob_cqs (n : Nat) (f : Job → Job) : (s.modJob n f).cqs = s.cqs := rfl
@[simp] theorem State.modJob_rrNext (n : Nat) (f : Job → Job) : (s.modJob n f).rrNext = s.rrNext := rfl
@[simp] theorem State.modJob_counters (n : Nat) (f : Job → Job) : (s.modJob n f).counters = s.counters := rfl
@[simp] theorem State.modJob_posted (n : Nat) (f : Job → Job) : (s.modJob n f).posted = s.posted := rfl
@[simp] theorem State.modJob_sessions (n : Nat) (f : Job → Job) : (s.modJob n f).sessions = s.sessions := rfl
@[simp] theorem State.modJob_windows (n : Nat) (f : Job → Job) : (s.modJob n f).windows = s.windows := rfl
@[simp] theorem State.modJob_copies (n : Nat) (f : Job → Job) : (s.modJob n f).copies = s.copies := rfl
@[simp] theorem State.modJob_refresh (n : Nat) (f : Job → Job) : (s.modJob n f).refresh = s.refresh := rfl
@[simp] theorem State.modJob_reads (n : Nat) (f : Job → Job) : (s.modJob n f).reads = s.reads := rfl
@[simp] theorem State.modJob_nextRead (n : Nat) (f : Job → Job) : (s.modJob n f).nextRead = s.nextRead := rfl
@[simp] theorem State.modJob_ha (n : Nat) (f : Job → Job) : (s.modJob n f).ha = s.ha := rfl
@[simp] theorem State.modJob_nextTag (n : Nat) (f : Job → Job) : (s.modJob n f).nextTag = s.nextTag := rfl
@[simp] theorem State.modJob_far (n : Nat) (f : Job → Job) : (s.modJob n f).far = s.far := rfl
@[simp] theorem State.modJob_nextFar (n : Nat) (f : Job → Job) : (s.modJob n f).nextFar = s.nextFar := rfl
@[simp] theorem State.modJob_farFree (n : Nat) (f : Job → Job) : (s.modJob n f).farFree = s.farFree := rfl
@[simp] theorem State.modJob_threads (n : Nat) (f : Job → Job) : (s.modJob n f).threads = s.threads := rfl
@[simp] theorem State.modJob_kernels (n : Nat) (f : Job → Job) : (s.modJob n f).kernels = s.kernels := rfl
@[simp] theorem State.modJob_locals (n : Nat) (f : Job → Job) : (s.modJob n f).locals = s.locals := rfl
@[simp] theorem State.modJob_slews (n : Nat) (f : Job → Job) : (s.modJob n f).slews = s.slews := rfl
@[simp] theorem State.modJob_oscCycles (n : Nat) (f : Job → Job) : (s.modJob n f).oscCycles = s.oscCycles := rfl
@[simp] theorem State.modJob_carries (n : Nat) (f : Job → Job) : (s.modJob n f).carries = s.carries := rfl
@[simp] theorem State.modJob_accBad (n : Nat) (f : Job → Job) : (s.modJob n f).accBad = s.accBad := rfl
@[simp] theorem State.modJob_accRuns (n : Nat) (f : Job → Job) : (s.modJob n f).accRuns = s.accRuns := rfl
@[simp] theorem State.modJob_shown (n : Nat) (f : Job → Job) : (s.modJob n f).shown = s.shown := rfl
@[simp] theorem State.modJob_centres (n : Nat) (f : Job → Job) : (s.modJob n f).centres = s.centres := rfl
@[simp] theorem State.modJob_tones (n : Nat) (f : Job → Job) : (s.modJob n f).tones = s.tones := rfl
@[simp] theorem State.modJob_detect (n : Nat) (f : Job → Job) : (s.modJob n f).detect = s.detect := rfl
@[simp] theorem State.modJob_pending (n : Nat) (f : Job → Job) : (s.modJob n f).pending = s.pending := rfl
@[simp] theorem State.modJob_monitors (n : Nat) (f : Job → Job) : (s.modJob n f).monitors = s.monitors := rfl
@[simp] theorem State.modJob_link (n : Nat) (f : Job → Job) : (s.modJob n f).link = s.link := rfl
@[simp] theorem State.modJob_fw (n : Nat) (f : Job → Job) : (s.modJob n f).fw = s.fw := rfl
@[simp] theorem State.modJob_cal (n : Nat) (f : Job → Job) : (s.modJob n f).cal = s.cal := rfl
@[simp] theorem State.modJob_power (n : Nat) (f : Job → Job) : (s.modJob n f).power = s.power := rfl
@[simp] theorem State.modJob_cfg (n : Nat) (f : Job → Job) : (s.modJob n f).cfg = s.cfg := rfl
@[simp] theorem State.modJob_side (n : Nat) (f : Job → Job) : (s.modJob n f).side = s.side := rfl
@[simp] theorem State.modJob_log (n : Nat) (f : Job → Job) : (s.modJob n f).log = s.log := rfl
@[simp] theorem State.modJob_out (n : Nat) (f : Job → Job) : (s.modJob n f).out = s.out := rfl
@[simp] theorem State.modJob_free (n : Nat) (f : Job → Job) : (s.modJob n f).free = s.free := rfl

/-! ### State.finishJob -/

@[simp] theorem State.finishJob_frame (n : Nat) (f : Status) : (s.finishJob n f).frame = s.frame := rfl
@[simp] theorem State.finishJob_mem (n : Nat) (f : Status) : (s.finishJob n f).mem = s.mem := rfl
@[simp] theorem State.finishJob_poison (n : Nat) (f : Status) : (s.finishJob n f).poison = s.poison := rfl
@[simp] theorem State.finishJob_latent (n : Nat) (f : Status) : (s.finishJob n f).latent = s.latent := rfl
@[simp] theorem State.finishJob_stackBad (n : Nat) (f : Status) : (s.finishJob n f).stackBad = s.stackBad := rfl
@[simp] theorem State.finishJob_remapped (n : Nat) (f : Status) : (s.finishJob n f).remapped = s.remapped := rfl
@[simp] theorem State.finishJob_corrected (n : Nat) (f : Status) : (s.finishJob n f).corrected = s.corrected := rfl
@[simp] theorem State.finishJob_scrubPos (n : Nat) (f : Status) : (s.finishJob n f).scrubPos = s.scrubPos := rfl
@[simp] theorem State.finishJob_clusters (n : Nat) (f : Status) : (s.finishJob n f).clusters = s.clusters := rfl
@[simp] theorem State.finishJob_scales (n : Nat) (f : Status) : (s.finishJob n f).scales = s.scales := rfl
@[simp] theorem State.finishJob_acc (n : Nat) (f : Status) : (s.finishJob n f).acc = s.acc := rfl
@[simp] theorem State.finishJob_accLost (n : Nat) (f : Status) : (s.finishJob n f).accLost = s.accLost := rfl
@[simp] theorem State.finishJob_tiles (n : Nat) (f : Status) : (s.finishJob n f).tiles = s.tiles := rfl
@[simp] theorem State.finishJob_accHolds (n : Nat) (f : Status) : (s.finishJob n f).accHolds = s.accHolds := rfl
@[simp] theorem State.finishJob_gens (n : Nat) (f : Status) : (s.finishJob n f).gens = s.gens := rfl
@[simp] theorem State.finishJob_epoch (n : Nat) (f : Status) : (s.finishJob n f).epoch = s.epoch := rfl
@[simp] theorem State.finishJob_engines (n : Nat) (f : Status) : (s.finishJob n f).engines = s.engines := rfl
@[simp] theorem State.finishJob_combs (n : Nat) (f : Status) : (s.finishJob n f).combs = s.combs := rfl
@[simp] theorem State.finishJob_sectors (n : Nat) (f : Status) : (s.finishJob n f).sectors = s.sectors := rfl
@[simp] theorem State.finishJob_mapped (n : Nat) (f : Status) : (s.finishJob n f).mapped = s.mapped := rfl
@[simp] theorem State.finishJob_failing (n : Nat) (f : Status) : (s.finishJob n f).failing = s.failing := rfl
@[simp] theorem State.finishJob_nextJob (n : Nat) (f : Status) : (s.finishJob n f).nextJob = s.nextJob := rfl
@[simp] theorem State.finishJob_admitted (n : Nat) (f : Status) : (s.finishJob n f).admitted = s.admitted := rfl
@[simp] theorem State.finishJob_rejected (n : Nat) (f : Status) : (s.finishJob n f).rejected = s.rejected := rfl
@[simp] theorem State.finishJob_sqs (n : Nat) (f : Status) : (s.finishJob n f).sqs = s.sqs := rfl
@[simp] theorem State.finishJob_cqs (n : Nat) (f : Status) : (s.finishJob n f).cqs = s.cqs := rfl
@[simp] theorem State.finishJob_rrNext (n : Nat) (f : Status) : (s.finishJob n f).rrNext = s.rrNext := rfl
@[simp] theorem State.finishJob_counters (n : Nat) (f : Status) : (s.finishJob n f).counters = s.counters := rfl
@[simp] theorem State.finishJob_posted (n : Nat) (f : Status) : (s.finishJob n f).posted = s.posted := rfl
@[simp] theorem State.finishJob_sessions (n : Nat) (f : Status) : (s.finishJob n f).sessions = s.sessions := rfl
@[simp] theorem State.finishJob_windows (n : Nat) (f : Status) : (s.finishJob n f).windows = s.windows := rfl
@[simp] theorem State.finishJob_copies (n : Nat) (f : Status) : (s.finishJob n f).copies = s.copies := rfl
@[simp] theorem State.finishJob_refresh (n : Nat) (f : Status) : (s.finishJob n f).refresh = s.refresh := rfl
@[simp] theorem State.finishJob_reads (n : Nat) (f : Status) : (s.finishJob n f).reads = s.reads := rfl
@[simp] theorem State.finishJob_nextRead (n : Nat) (f : Status) : (s.finishJob n f).nextRead = s.nextRead := rfl
@[simp] theorem State.finishJob_ha (n : Nat) (f : Status) : (s.finishJob n f).ha = s.ha := rfl
@[simp] theorem State.finishJob_nextTag (n : Nat) (f : Status) : (s.finishJob n f).nextTag = s.nextTag := rfl
@[simp] theorem State.finishJob_far (n : Nat) (f : Status) : (s.finishJob n f).far = s.far := rfl
@[simp] theorem State.finishJob_nextFar (n : Nat) (f : Status) : (s.finishJob n f).nextFar = s.nextFar := rfl
@[simp] theorem State.finishJob_farFree (n : Nat) (f : Status) : (s.finishJob n f).farFree = s.farFree := rfl
@[simp] theorem State.finishJob_threads (n : Nat) (f : Status) : (s.finishJob n f).threads = s.threads := rfl
@[simp] theorem State.finishJob_kernels (n : Nat) (f : Status) : (s.finishJob n f).kernels = s.kernels := rfl
@[simp] theorem State.finishJob_locals (n : Nat) (f : Status) : (s.finishJob n f).locals = s.locals := rfl
@[simp] theorem State.finishJob_slews (n : Nat) (f : Status) : (s.finishJob n f).slews = s.slews := rfl
@[simp] theorem State.finishJob_oscCycles (n : Nat) (f : Status) : (s.finishJob n f).oscCycles = s.oscCycles := rfl
@[simp] theorem State.finishJob_carries (n : Nat) (f : Status) : (s.finishJob n f).carries = s.carries := rfl
@[simp] theorem State.finishJob_accBad (n : Nat) (f : Status) : (s.finishJob n f).accBad = s.accBad := rfl
@[simp] theorem State.finishJob_accRuns (n : Nat) (f : Status) : (s.finishJob n f).accRuns = s.accRuns := rfl
@[simp] theorem State.finishJob_shown (n : Nat) (f : Status) : (s.finishJob n f).shown = s.shown := rfl
@[simp] theorem State.finishJob_centres (n : Nat) (f : Status) : (s.finishJob n f).centres = s.centres := rfl
@[simp] theorem State.finishJob_tones (n : Nat) (f : Status) : (s.finishJob n f).tones = s.tones := rfl
@[simp] theorem State.finishJob_detect (n : Nat) (f : Status) : (s.finishJob n f).detect = s.detect := rfl
@[simp] theorem State.finishJob_pending (n : Nat) (f : Status) : (s.finishJob n f).pending = s.pending := rfl
@[simp] theorem State.finishJob_monitors (n : Nat) (f : Status) : (s.finishJob n f).monitors = s.monitors := rfl
@[simp] theorem State.finishJob_link (n : Nat) (f : Status) : (s.finishJob n f).link = s.link := rfl
@[simp] theorem State.finishJob_fw (n : Nat) (f : Status) : (s.finishJob n f).fw = s.fw := rfl
@[simp] theorem State.finishJob_cal (n : Nat) (f : Status) : (s.finishJob n f).cal = s.cal := rfl
@[simp] theorem State.finishJob_power (n : Nat) (f : Status) : (s.finishJob n f).power = s.power := rfl
@[simp] theorem State.finishJob_cfg (n : Nat) (f : Status) : (s.finishJob n f).cfg = s.cfg := rfl
@[simp] theorem State.finishJob_side (n : Nat) (f : Status) : (s.finishJob n f).side = s.side := rfl
@[simp] theorem State.finishJob_log (n : Nat) (f : Status) : (s.finishJob n f).log = s.log := rfl
@[simp] theorem State.finishJob_out (n : Nat) (f : Status) : (s.finishJob n f).out = s.out := rfl
@[simp] theorem State.finishJob_free (n : Nat) (f : Status) : (s.finishJob n f).free = s.free := rfl

/-! ### State.modKernel -/

@[simp] theorem State.modKernel_frame (n : Nat) (f : Kernel → Kernel) : (s.modKernel n f).frame = s.frame := rfl
@[simp] theorem State.modKernel_mem (n : Nat) (f : Kernel → Kernel) : (s.modKernel n f).mem = s.mem := rfl
@[simp] theorem State.modKernel_poison (n : Nat) (f : Kernel → Kernel) : (s.modKernel n f).poison = s.poison := rfl
@[simp] theorem State.modKernel_latent (n : Nat) (f : Kernel → Kernel) : (s.modKernel n f).latent = s.latent := rfl
@[simp] theorem State.modKernel_stackBad (n : Nat) (f : Kernel → Kernel) : (s.modKernel n f).stackBad = s.stackBad := rfl
@[simp] theorem State.modKernel_remapped (n : Nat) (f : Kernel → Kernel) : (s.modKernel n f).remapped = s.remapped := rfl
@[simp] theorem State.modKernel_corrected (n : Nat) (f : Kernel → Kernel) : (s.modKernel n f).corrected = s.corrected := rfl
@[simp] theorem State.modKernel_scrubPos (n : Nat) (f : Kernel → Kernel) : (s.modKernel n f).scrubPos = s.scrubPos := rfl
@[simp] theorem State.modKernel_clusters (n : Nat) (f : Kernel → Kernel) : (s.modKernel n f).clusters = s.clusters := rfl
@[simp] theorem State.modKernel_scales (n : Nat) (f : Kernel → Kernel) : (s.modKernel n f).scales = s.scales := rfl
@[simp] theorem State.modKernel_acc (n : Nat) (f : Kernel → Kernel) : (s.modKernel n f).acc = s.acc := rfl
@[simp] theorem State.modKernel_accLost (n : Nat) (f : Kernel → Kernel) : (s.modKernel n f).accLost = s.accLost := rfl
@[simp] theorem State.modKernel_tiles (n : Nat) (f : Kernel → Kernel) : (s.modKernel n f).tiles = s.tiles := rfl
@[simp] theorem State.modKernel_accHolds (n : Nat) (f : Kernel → Kernel) : (s.modKernel n f).accHolds = s.accHolds := rfl
@[simp] theorem State.modKernel_gens (n : Nat) (f : Kernel → Kernel) : (s.modKernel n f).gens = s.gens := rfl
@[simp] theorem State.modKernel_epoch (n : Nat) (f : Kernel → Kernel) : (s.modKernel n f).epoch = s.epoch := rfl
@[simp] theorem State.modKernel_engines (n : Nat) (f : Kernel → Kernel) : (s.modKernel n f).engines = s.engines := rfl
@[simp] theorem State.modKernel_combs (n : Nat) (f : Kernel → Kernel) : (s.modKernel n f).combs = s.combs := rfl
@[simp] theorem State.modKernel_sectors (n : Nat) (f : Kernel → Kernel) : (s.modKernel n f).sectors = s.sectors := rfl
@[simp] theorem State.modKernel_mapped (n : Nat) (f : Kernel → Kernel) : (s.modKernel n f).mapped = s.mapped := rfl
@[simp] theorem State.modKernel_failing (n : Nat) (f : Kernel → Kernel) : (s.modKernel n f).failing = s.failing := rfl
@[simp] theorem State.modKernel_jobs (n : Nat) (f : Kernel → Kernel) : (s.modKernel n f).jobs = s.jobs := rfl
@[simp] theorem State.modKernel_nextJob (n : Nat) (f : Kernel → Kernel) : (s.modKernel n f).nextJob = s.nextJob := rfl
@[simp] theorem State.modKernel_admitted (n : Nat) (f : Kernel → Kernel) : (s.modKernel n f).admitted = s.admitted := rfl
@[simp] theorem State.modKernel_rejected (n : Nat) (f : Kernel → Kernel) : (s.modKernel n f).rejected = s.rejected := rfl
@[simp] theorem State.modKernel_sqs (n : Nat) (f : Kernel → Kernel) : (s.modKernel n f).sqs = s.sqs := rfl
@[simp] theorem State.modKernel_cqs (n : Nat) (f : Kernel → Kernel) : (s.modKernel n f).cqs = s.cqs := rfl
@[simp] theorem State.modKernel_rrNext (n : Nat) (f : Kernel → Kernel) : (s.modKernel n f).rrNext = s.rrNext := rfl
@[simp] theorem State.modKernel_counters (n : Nat) (f : Kernel → Kernel) : (s.modKernel n f).counters = s.counters := rfl
@[simp] theorem State.modKernel_posted (n : Nat) (f : Kernel → Kernel) : (s.modKernel n f).posted = s.posted := rfl
@[simp] theorem State.modKernel_sessions (n : Nat) (f : Kernel → Kernel) : (s.modKernel n f).sessions = s.sessions := rfl
@[simp] theorem State.modKernel_windows (n : Nat) (f : Kernel → Kernel) : (s.modKernel n f).windows = s.windows := rfl
@[simp] theorem State.modKernel_copies (n : Nat) (f : Kernel → Kernel) : (s.modKernel n f).copies = s.copies := rfl
@[simp] theorem State.modKernel_refresh (n : Nat) (f : Kernel → Kernel) : (s.modKernel n f).refresh = s.refresh := rfl
@[simp] theorem State.modKernel_reads (n : Nat) (f : Kernel → Kernel) : (s.modKernel n f).reads = s.reads := rfl
@[simp] theorem State.modKernel_nextRead (n : Nat) (f : Kernel → Kernel) : (s.modKernel n f).nextRead = s.nextRead := rfl
@[simp] theorem State.modKernel_ha (n : Nat) (f : Kernel → Kernel) : (s.modKernel n f).ha = s.ha := rfl
@[simp] theorem State.modKernel_nextTag (n : Nat) (f : Kernel → Kernel) : (s.modKernel n f).nextTag = s.nextTag := rfl
@[simp] theorem State.modKernel_far (n : Nat) (f : Kernel → Kernel) : (s.modKernel n f).far = s.far := rfl
@[simp] theorem State.modKernel_nextFar (n : Nat) (f : Kernel → Kernel) : (s.modKernel n f).nextFar = s.nextFar := rfl
@[simp] theorem State.modKernel_farFree (n : Nat) (f : Kernel → Kernel) : (s.modKernel n f).farFree = s.farFree := rfl
@[simp] theorem State.modKernel_threads (n : Nat) (f : Kernel → Kernel) : (s.modKernel n f).threads = s.threads := rfl
@[simp] theorem State.modKernel_locals (n : Nat) (f : Kernel → Kernel) : (s.modKernel n f).locals = s.locals := rfl
@[simp] theorem State.modKernel_slews (n : Nat) (f : Kernel → Kernel) : (s.modKernel n f).slews = s.slews := rfl
@[simp] theorem State.modKernel_oscCycles (n : Nat) (f : Kernel → Kernel) : (s.modKernel n f).oscCycles = s.oscCycles := rfl
@[simp] theorem State.modKernel_carries (n : Nat) (f : Kernel → Kernel) : (s.modKernel n f).carries = s.carries := rfl
@[simp] theorem State.modKernel_accBad (n : Nat) (f : Kernel → Kernel) : (s.modKernel n f).accBad = s.accBad := rfl
@[simp] theorem State.modKernel_accRuns (n : Nat) (f : Kernel → Kernel) : (s.modKernel n f).accRuns = s.accRuns := rfl
@[simp] theorem State.modKernel_shown (n : Nat) (f : Kernel → Kernel) : (s.modKernel n f).shown = s.shown := rfl
@[simp] theorem State.modKernel_centres (n : Nat) (f : Kernel → Kernel) : (s.modKernel n f).centres = s.centres := rfl
@[simp] theorem State.modKernel_tones (n : Nat) (f : Kernel → Kernel) : (s.modKernel n f).tones = s.tones := rfl
@[simp] theorem State.modKernel_detect (n : Nat) (f : Kernel → Kernel) : (s.modKernel n f).detect = s.detect := rfl
@[simp] theorem State.modKernel_pending (n : Nat) (f : Kernel → Kernel) : (s.modKernel n f).pending = s.pending := rfl
@[simp] theorem State.modKernel_monitors (n : Nat) (f : Kernel → Kernel) : (s.modKernel n f).monitors = s.monitors := rfl
@[simp] theorem State.modKernel_link (n : Nat) (f : Kernel → Kernel) : (s.modKernel n f).link = s.link := rfl
@[simp] theorem State.modKernel_fw (n : Nat) (f : Kernel → Kernel) : (s.modKernel n f).fw = s.fw := rfl
@[simp] theorem State.modKernel_cal (n : Nat) (f : Kernel → Kernel) : (s.modKernel n f).cal = s.cal := rfl
@[simp] theorem State.modKernel_power (n : Nat) (f : Kernel → Kernel) : (s.modKernel n f).power = s.power := rfl
@[simp] theorem State.modKernel_cfg (n : Nat) (f : Kernel → Kernel) : (s.modKernel n f).cfg = s.cfg := rfl
@[simp] theorem State.modKernel_side (n : Nat) (f : Kernel → Kernel) : (s.modKernel n f).side = s.side := rfl
@[simp] theorem State.modKernel_log (n : Nat) (f : Kernel → Kernel) : (s.modKernel n f).log = s.log := rfl
@[simp] theorem State.modKernel_out (n : Nat) (f : Kernel → Kernel) : (s.modKernel n f).out = s.out := rfl
@[simp] theorem State.modKernel_free (n : Nat) (f : Kernel → Kernel) : (s.modKernel n f).free = s.free := rfl

/-! ### State.raise -/

@[simp] theorem State.raise_frame (n f : Nat) : (s.raise n f).frame = s.frame := rfl
@[simp] theorem State.raise_mem (n f : Nat) : (s.raise n f).mem = s.mem := rfl
@[simp] theorem State.raise_poison (n f : Nat) : (s.raise n f).poison = s.poison := rfl
@[simp] theorem State.raise_latent (n f : Nat) : (s.raise n f).latent = s.latent := rfl
@[simp] theorem State.raise_stackBad (n f : Nat) : (s.raise n f).stackBad = s.stackBad := rfl
@[simp] theorem State.raise_remapped (n f : Nat) : (s.raise n f).remapped = s.remapped := rfl
@[simp] theorem State.raise_corrected (n f : Nat) : (s.raise n f).corrected = s.corrected := rfl
@[simp] theorem State.raise_scrubPos (n f : Nat) : (s.raise n f).scrubPos = s.scrubPos := rfl
@[simp] theorem State.raise_clusters (n f : Nat) : (s.raise n f).clusters = s.clusters := rfl
@[simp] theorem State.raise_scales (n f : Nat) : (s.raise n f).scales = s.scales := rfl
@[simp] theorem State.raise_acc (n f : Nat) : (s.raise n f).acc = s.acc := rfl
@[simp] theorem State.raise_accLost (n f : Nat) : (s.raise n f).accLost = s.accLost := rfl
@[simp] theorem State.raise_tiles (n f : Nat) : (s.raise n f).tiles = s.tiles := rfl
@[simp] theorem State.raise_accHolds (n f : Nat) : (s.raise n f).accHolds = s.accHolds := rfl
@[simp] theorem State.raise_gens (n f : Nat) : (s.raise n f).gens = s.gens := rfl
@[simp] theorem State.raise_epoch (n f : Nat) : (s.raise n f).epoch = s.epoch := rfl
@[simp] theorem State.raise_engines (n f : Nat) : (s.raise n f).engines = s.engines := rfl
@[simp] theorem State.raise_combs (n f : Nat) : (s.raise n f).combs = s.combs := rfl
@[simp] theorem State.raise_sectors (n f : Nat) : (s.raise n f).sectors = s.sectors := rfl
@[simp] theorem State.raise_mapped (n f : Nat) : (s.raise n f).mapped = s.mapped := rfl
@[simp] theorem State.raise_failing (n f : Nat) : (s.raise n f).failing = s.failing := rfl
@[simp] theorem State.raise_jobs (n f : Nat) : (s.raise n f).jobs = s.jobs := rfl
@[simp] theorem State.raise_nextJob (n f : Nat) : (s.raise n f).nextJob = s.nextJob := rfl
@[simp] theorem State.raise_admitted (n f : Nat) : (s.raise n f).admitted = s.admitted := rfl
@[simp] theorem State.raise_rejected (n f : Nat) : (s.raise n f).rejected = s.rejected := rfl
@[simp] theorem State.raise_sqs (n f : Nat) : (s.raise n f).sqs = s.sqs := rfl
@[simp] theorem State.raise_cqs (n f : Nat) : (s.raise n f).cqs = s.cqs := rfl
@[simp] theorem State.raise_rrNext (n f : Nat) : (s.raise n f).rrNext = s.rrNext := rfl
@[simp] theorem State.raise_posted (n f : Nat) : (s.raise n f).posted = s.posted := rfl
@[simp] theorem State.raise_sessions (n f : Nat) : (s.raise n f).sessions = s.sessions := rfl
@[simp] theorem State.raise_windows (n f : Nat) : (s.raise n f).windows = s.windows := rfl
@[simp] theorem State.raise_copies (n f : Nat) : (s.raise n f).copies = s.copies := rfl
@[simp] theorem State.raise_refresh (n f : Nat) : (s.raise n f).refresh = s.refresh := rfl
@[simp] theorem State.raise_reads (n f : Nat) : (s.raise n f).reads = s.reads := rfl
@[simp] theorem State.raise_nextRead (n f : Nat) : (s.raise n f).nextRead = s.nextRead := rfl
@[simp] theorem State.raise_ha (n f : Nat) : (s.raise n f).ha = s.ha := rfl
@[simp] theorem State.raise_nextTag (n f : Nat) : (s.raise n f).nextTag = s.nextTag := rfl
@[simp] theorem State.raise_far (n f : Nat) : (s.raise n f).far = s.far := rfl
@[simp] theorem State.raise_nextFar (n f : Nat) : (s.raise n f).nextFar = s.nextFar := rfl
@[simp] theorem State.raise_farFree (n f : Nat) : (s.raise n f).farFree = s.farFree := rfl
@[simp] theorem State.raise_threads (n f : Nat) : (s.raise n f).threads = s.threads := rfl
@[simp] theorem State.raise_kernels (n f : Nat) : (s.raise n f).kernels = s.kernels := rfl
@[simp] theorem State.raise_locals (n f : Nat) : (s.raise n f).locals = s.locals := rfl
@[simp] theorem State.raise_slews (n f : Nat) : (s.raise n f).slews = s.slews := rfl
@[simp] theorem State.raise_oscCycles (n f : Nat) : (s.raise n f).oscCycles = s.oscCycles := rfl
@[simp] theorem State.raise_carries (n f : Nat) : (s.raise n f).carries = s.carries := rfl
@[simp] theorem State.raise_accBad (n f : Nat) : (s.raise n f).accBad = s.accBad := rfl
@[simp] theorem State.raise_accRuns (n f : Nat) : (s.raise n f).accRuns = s.accRuns := rfl
@[simp] theorem State.raise_shown (n f : Nat) : (s.raise n f).shown = s.shown := rfl
@[simp] theorem State.raise_centres (n f : Nat) : (s.raise n f).centres = s.centres := rfl
@[simp] theorem State.raise_tones (n f : Nat) : (s.raise n f).tones = s.tones := rfl
@[simp] theorem State.raise_detect (n f : Nat) : (s.raise n f).detect = s.detect := rfl
@[simp] theorem State.raise_pending (n f : Nat) : (s.raise n f).pending = s.pending := rfl
@[simp] theorem State.raise_monitors (n f : Nat) : (s.raise n f).monitors = s.monitors := rfl
@[simp] theorem State.raise_link (n f : Nat) : (s.raise n f).link = s.link := rfl
@[simp] theorem State.raise_fw (n f : Nat) : (s.raise n f).fw = s.fw := rfl
@[simp] theorem State.raise_cal (n f : Nat) : (s.raise n f).cal = s.cal := rfl
@[simp] theorem State.raise_power (n f : Nat) : (s.raise n f).power = s.power := rfl
@[simp] theorem State.raise_cfg (n f : Nat) : (s.raise n f).cfg = s.cfg := rfl
@[simp] theorem State.raise_side (n f : Nat) : (s.raise n f).side = s.side := rfl
@[simp] theorem State.raise_log (n f : Nat) : (s.raise n f).log = s.log := rfl
@[simp] theorem State.raise_out (n f : Nat) : (s.raise n f).out = s.out := rfl
@[simp] theorem State.raise_free (n f : Nat) : (s.raise n f).free = s.free := rfl

/-! ### State.poisonAt -/

@[simp] theorem State.poisonAt_frame (a : Nat) : (s.poisonAt a).frame = s.frame := rfl
@[simp] theorem State.poisonAt_mem (a : Nat) : (s.poisonAt a).mem = s.mem := rfl
@[simp] theorem State.poisonAt_latent (a : Nat) : (s.poisonAt a).latent = s.latent := rfl
@[simp] theorem State.poisonAt_stackBad (a : Nat) : (s.poisonAt a).stackBad = s.stackBad := rfl
@[simp] theorem State.poisonAt_remapped (a : Nat) : (s.poisonAt a).remapped = s.remapped := rfl
@[simp] theorem State.poisonAt_corrected (a : Nat) : (s.poisonAt a).corrected = s.corrected := rfl
@[simp] theorem State.poisonAt_scrubPos (a : Nat) : (s.poisonAt a).scrubPos = s.scrubPos := rfl
@[simp] theorem State.poisonAt_clusters (a : Nat) : (s.poisonAt a).clusters = s.clusters := rfl
@[simp] theorem State.poisonAt_scales (a : Nat) : (s.poisonAt a).scales = s.scales := rfl
@[simp] theorem State.poisonAt_acc (a : Nat) : (s.poisonAt a).acc = s.acc := rfl
@[simp] theorem State.poisonAt_accLost (a : Nat) : (s.poisonAt a).accLost = s.accLost := rfl
@[simp] theorem State.poisonAt_tiles (a : Nat) : (s.poisonAt a).tiles = s.tiles := rfl
@[simp] theorem State.poisonAt_accHolds (a : Nat) : (s.poisonAt a).accHolds = s.accHolds := rfl
@[simp] theorem State.poisonAt_gens (a : Nat) : (s.poisonAt a).gens = s.gens := rfl
@[simp] theorem State.poisonAt_epoch (a : Nat) : (s.poisonAt a).epoch = s.epoch := rfl
@[simp] theorem State.poisonAt_engines (a : Nat) : (s.poisonAt a).engines = s.engines := rfl
@[simp] theorem State.poisonAt_combs (a : Nat) : (s.poisonAt a).combs = s.combs := rfl
@[simp] theorem State.poisonAt_sectors (a : Nat) : (s.poisonAt a).sectors = s.sectors := rfl
@[simp] theorem State.poisonAt_mapped (a : Nat) : (s.poisonAt a).mapped = s.mapped := rfl
@[simp] theorem State.poisonAt_failing (a : Nat) : (s.poisonAt a).failing = s.failing := rfl
@[simp] theorem State.poisonAt_jobs (a : Nat) : (s.poisonAt a).jobs = s.jobs := rfl
@[simp] theorem State.poisonAt_nextJob (a : Nat) : (s.poisonAt a).nextJob = s.nextJob := rfl
@[simp] theorem State.poisonAt_admitted (a : Nat) : (s.poisonAt a).admitted = s.admitted := rfl
@[simp] theorem State.poisonAt_rejected (a : Nat) : (s.poisonAt a).rejected = s.rejected := rfl
@[simp] theorem State.poisonAt_sqs (a : Nat) : (s.poisonAt a).sqs = s.sqs := rfl
@[simp] theorem State.poisonAt_cqs (a : Nat) : (s.poisonAt a).cqs = s.cqs := rfl
@[simp] theorem State.poisonAt_rrNext (a : Nat) : (s.poisonAt a).rrNext = s.rrNext := rfl
@[simp] theorem State.poisonAt_counters (a : Nat) : (s.poisonAt a).counters = s.counters := rfl
@[simp] theorem State.poisonAt_posted (a : Nat) : (s.poisonAt a).posted = s.posted := rfl
@[simp] theorem State.poisonAt_sessions (a : Nat) : (s.poisonAt a).sessions = s.sessions := rfl
@[simp] theorem State.poisonAt_windows (a : Nat) : (s.poisonAt a).windows = s.windows := rfl
@[simp] theorem State.poisonAt_copies (a : Nat) : (s.poisonAt a).copies = s.copies := rfl
@[simp] theorem State.poisonAt_refresh (a : Nat) : (s.poisonAt a).refresh = s.refresh := rfl
@[simp] theorem State.poisonAt_reads (a : Nat) : (s.poisonAt a).reads = s.reads := rfl
@[simp] theorem State.poisonAt_nextRead (a : Nat) : (s.poisonAt a).nextRead = s.nextRead := rfl
@[simp] theorem State.poisonAt_ha (a : Nat) : (s.poisonAt a).ha = s.ha := rfl
@[simp] theorem State.poisonAt_nextTag (a : Nat) : (s.poisonAt a).nextTag = s.nextTag := rfl
@[simp] theorem State.poisonAt_far (a : Nat) : (s.poisonAt a).far = s.far := rfl
@[simp] theorem State.poisonAt_nextFar (a : Nat) : (s.poisonAt a).nextFar = s.nextFar := rfl
@[simp] theorem State.poisonAt_farFree (a : Nat) : (s.poisonAt a).farFree = s.farFree := rfl
@[simp] theorem State.poisonAt_threads (a : Nat) : (s.poisonAt a).threads = s.threads := rfl
@[simp] theorem State.poisonAt_kernels (a : Nat) : (s.poisonAt a).kernels = s.kernels := rfl
@[simp] theorem State.poisonAt_locals (a : Nat) : (s.poisonAt a).locals = s.locals := rfl
@[simp] theorem State.poisonAt_slews (a : Nat) : (s.poisonAt a).slews = s.slews := rfl
@[simp] theorem State.poisonAt_oscCycles (a : Nat) : (s.poisonAt a).oscCycles = s.oscCycles := rfl
@[simp] theorem State.poisonAt_carries (a : Nat) : (s.poisonAt a).carries = s.carries := rfl
@[simp] theorem State.poisonAt_accBad (a : Nat) : (s.poisonAt a).accBad = s.accBad := rfl
@[simp] theorem State.poisonAt_accRuns (a : Nat) : (s.poisonAt a).accRuns = s.accRuns := rfl
@[simp] theorem State.poisonAt_shown (a : Nat) : (s.poisonAt a).shown = s.shown := rfl
@[simp] theorem State.poisonAt_centres (a : Nat) : (s.poisonAt a).centres = s.centres := rfl
@[simp] theorem State.poisonAt_tones (a : Nat) : (s.poisonAt a).tones = s.tones := rfl
@[simp] theorem State.poisonAt_detect (a : Nat) : (s.poisonAt a).detect = s.detect := rfl
@[simp] theorem State.poisonAt_pending (a : Nat) : (s.poisonAt a).pending = s.pending := rfl
@[simp] theorem State.poisonAt_monitors (a : Nat) : (s.poisonAt a).monitors = s.monitors := rfl
@[simp] theorem State.poisonAt_link (a : Nat) : (s.poisonAt a).link = s.link := rfl
@[simp] theorem State.poisonAt_fw (a : Nat) : (s.poisonAt a).fw = s.fw := rfl
@[simp] theorem State.poisonAt_cal (a : Nat) : (s.poisonAt a).cal = s.cal := rfl
@[simp] theorem State.poisonAt_power (a : Nat) : (s.poisonAt a).power = s.power := rfl
@[simp] theorem State.poisonAt_cfg (a : Nat) : (s.poisonAt a).cfg = s.cfg := rfl
@[simp] theorem State.poisonAt_side (a : Nat) : (s.poisonAt a).side = s.side := rfl
@[simp] theorem State.poisonAt_log (a : Nat) : (s.poisonAt a).log = s.log := rfl
@[simp] theorem State.poisonAt_out (a : Nat) : (s.poisonAt a).out = s.out := rfl
@[simp] theorem State.poisonAt_free (a : Nat) : (s.poisonAt a).free = s.free := rfl

/-! ### State.writeLocal -/

@[simp] theorem State.writeLocal_frame (j c a : Nat) (bs : List Byte) : (s.writeLocal j c a bs).frame = s.frame := rfl
@[simp] theorem State.writeLocal_mem (j c a : Nat) (bs : List Byte) : (s.writeLocal j c a bs).mem = s.mem := rfl
@[simp] theorem State.writeLocal_poison (j c a : Nat) (bs : List Byte) : (s.writeLocal j c a bs).poison = s.poison := rfl
@[simp] theorem State.writeLocal_latent (j c a : Nat) (bs : List Byte) : (s.writeLocal j c a bs).latent = s.latent := rfl
@[simp] theorem State.writeLocal_stackBad (j c a : Nat) (bs : List Byte) : (s.writeLocal j c a bs).stackBad = s.stackBad := rfl
@[simp] theorem State.writeLocal_remapped (j c a : Nat) (bs : List Byte) : (s.writeLocal j c a bs).remapped = s.remapped := rfl
@[simp] theorem State.writeLocal_corrected (j c a : Nat) (bs : List Byte) : (s.writeLocal j c a bs).corrected = s.corrected := rfl
@[simp] theorem State.writeLocal_scrubPos (j c a : Nat) (bs : List Byte) : (s.writeLocal j c a bs).scrubPos = s.scrubPos := rfl
@[simp] theorem State.writeLocal_clusters (j c a : Nat) (bs : List Byte) : (s.writeLocal j c a bs).clusters = s.clusters := rfl
@[simp] theorem State.writeLocal_scales (j c a : Nat) (bs : List Byte) : (s.writeLocal j c a bs).scales = s.scales := rfl
@[simp] theorem State.writeLocal_acc (j c a : Nat) (bs : List Byte) : (s.writeLocal j c a bs).acc = s.acc := rfl
@[simp] theorem State.writeLocal_accLost (j c a : Nat) (bs : List Byte) : (s.writeLocal j c a bs).accLost = s.accLost := rfl
@[simp] theorem State.writeLocal_tiles (j c a : Nat) (bs : List Byte) : (s.writeLocal j c a bs).tiles = s.tiles := rfl
@[simp] theorem State.writeLocal_accHolds (j c a : Nat) (bs : List Byte) : (s.writeLocal j c a bs).accHolds = s.accHolds := rfl
@[simp] theorem State.writeLocal_gens (j c a : Nat) (bs : List Byte) : (s.writeLocal j c a bs).gens = s.gens := rfl
@[simp] theorem State.writeLocal_epoch (j c a : Nat) (bs : List Byte) : (s.writeLocal j c a bs).epoch = s.epoch := rfl
@[simp] theorem State.writeLocal_engines (j c a : Nat) (bs : List Byte) : (s.writeLocal j c a bs).engines = s.engines := rfl
@[simp] theorem State.writeLocal_combs (j c a : Nat) (bs : List Byte) : (s.writeLocal j c a bs).combs = s.combs := rfl
@[simp] theorem State.writeLocal_sectors (j c a : Nat) (bs : List Byte) : (s.writeLocal j c a bs).sectors = s.sectors := rfl
@[simp] theorem State.writeLocal_mapped (j c a : Nat) (bs : List Byte) : (s.writeLocal j c a bs).mapped = s.mapped := rfl
@[simp] theorem State.writeLocal_failing (j c a : Nat) (bs : List Byte) : (s.writeLocal j c a bs).failing = s.failing := rfl
@[simp] theorem State.writeLocal_jobs (j c a : Nat) (bs : List Byte) : (s.writeLocal j c a bs).jobs = s.jobs := rfl
@[simp] theorem State.writeLocal_nextJob (j c a : Nat) (bs : List Byte) : (s.writeLocal j c a bs).nextJob = s.nextJob := rfl
@[simp] theorem State.writeLocal_admitted (j c a : Nat) (bs : List Byte) : (s.writeLocal j c a bs).admitted = s.admitted := rfl
@[simp] theorem State.writeLocal_rejected (j c a : Nat) (bs : List Byte) : (s.writeLocal j c a bs).rejected = s.rejected := rfl
@[simp] theorem State.writeLocal_sqs (j c a : Nat) (bs : List Byte) : (s.writeLocal j c a bs).sqs = s.sqs := rfl
@[simp] theorem State.writeLocal_cqs (j c a : Nat) (bs : List Byte) : (s.writeLocal j c a bs).cqs = s.cqs := rfl
@[simp] theorem State.writeLocal_rrNext (j c a : Nat) (bs : List Byte) : (s.writeLocal j c a bs).rrNext = s.rrNext := rfl
@[simp] theorem State.writeLocal_counters (j c a : Nat) (bs : List Byte) : (s.writeLocal j c a bs).counters = s.counters := rfl
@[simp] theorem State.writeLocal_posted (j c a : Nat) (bs : List Byte) : (s.writeLocal j c a bs).posted = s.posted := rfl
@[simp] theorem State.writeLocal_sessions (j c a : Nat) (bs : List Byte) : (s.writeLocal j c a bs).sessions = s.sessions := rfl
@[simp] theorem State.writeLocal_windows (j c a : Nat) (bs : List Byte) : (s.writeLocal j c a bs).windows = s.windows := rfl
@[simp] theorem State.writeLocal_copies (j c a : Nat) (bs : List Byte) : (s.writeLocal j c a bs).copies = s.copies := rfl
@[simp] theorem State.writeLocal_refresh (j c a : Nat) (bs : List Byte) : (s.writeLocal j c a bs).refresh = s.refresh := rfl
@[simp] theorem State.writeLocal_reads (j c a : Nat) (bs : List Byte) : (s.writeLocal j c a bs).reads = s.reads := rfl
@[simp] theorem State.writeLocal_nextRead (j c a : Nat) (bs : List Byte) : (s.writeLocal j c a bs).nextRead = s.nextRead := rfl
@[simp] theorem State.writeLocal_ha (j c a : Nat) (bs : List Byte) : (s.writeLocal j c a bs).ha = s.ha := rfl
@[simp] theorem State.writeLocal_nextTag (j c a : Nat) (bs : List Byte) : (s.writeLocal j c a bs).nextTag = s.nextTag := rfl
@[simp] theorem State.writeLocal_far (j c a : Nat) (bs : List Byte) : (s.writeLocal j c a bs).far = s.far := rfl
@[simp] theorem State.writeLocal_nextFar (j c a : Nat) (bs : List Byte) : (s.writeLocal j c a bs).nextFar = s.nextFar := rfl
@[simp] theorem State.writeLocal_farFree (j c a : Nat) (bs : List Byte) : (s.writeLocal j c a bs).farFree = s.farFree := rfl
@[simp] theorem State.writeLocal_threads (j c a : Nat) (bs : List Byte) : (s.writeLocal j c a bs).threads = s.threads := rfl
@[simp] theorem State.writeLocal_kernels (j c a : Nat) (bs : List Byte) : (s.writeLocal j c a bs).kernels = s.kernels := rfl
@[simp] theorem State.writeLocal_slews (j c a : Nat) (bs : List Byte) : (s.writeLocal j c a bs).slews = s.slews := rfl
@[simp] theorem State.writeLocal_oscCycles (j c a : Nat) (bs : List Byte) : (s.writeLocal j c a bs).oscCycles = s.oscCycles := rfl
@[simp] theorem State.writeLocal_carries (j c a : Nat) (bs : List Byte) : (s.writeLocal j c a bs).carries = s.carries := rfl
@[simp] theorem State.writeLocal_accBad (j c a : Nat) (bs : List Byte) : (s.writeLocal j c a bs).accBad = s.accBad := rfl
@[simp] theorem State.writeLocal_accRuns (j c a : Nat) (bs : List Byte) : (s.writeLocal j c a bs).accRuns = s.accRuns := rfl
@[simp] theorem State.writeLocal_shown (j c a : Nat) (bs : List Byte) : (s.writeLocal j c a bs).shown = s.shown := rfl
@[simp] theorem State.writeLocal_centres (j c a : Nat) (bs : List Byte) : (s.writeLocal j c a bs).centres = s.centres := rfl
@[simp] theorem State.writeLocal_tones (j c a : Nat) (bs : List Byte) : (s.writeLocal j c a bs).tones = s.tones := rfl
@[simp] theorem State.writeLocal_detect (j c a : Nat) (bs : List Byte) : (s.writeLocal j c a bs).detect = s.detect := rfl
@[simp] theorem State.writeLocal_pending (j c a : Nat) (bs : List Byte) : (s.writeLocal j c a bs).pending = s.pending := rfl
@[simp] theorem State.writeLocal_monitors (j c a : Nat) (bs : List Byte) : (s.writeLocal j c a bs).monitors = s.monitors := rfl
@[simp] theorem State.writeLocal_link (j c a : Nat) (bs : List Byte) : (s.writeLocal j c a bs).link = s.link := rfl
@[simp] theorem State.writeLocal_fw (j c a : Nat) (bs : List Byte) : (s.writeLocal j c a bs).fw = s.fw := rfl
@[simp] theorem State.writeLocal_cal (j c a : Nat) (bs : List Byte) : (s.writeLocal j c a bs).cal = s.cal := rfl
@[simp] theorem State.writeLocal_power (j c a : Nat) (bs : List Byte) : (s.writeLocal j c a bs).power = s.power := rfl
@[simp] theorem State.writeLocal_cfg (j c a : Nat) (bs : List Byte) : (s.writeLocal j c a bs).cfg = s.cfg := rfl
@[simp] theorem State.writeLocal_side (j c a : Nat) (bs : List Byte) : (s.writeLocal j c a bs).side = s.side := rfl
@[simp] theorem State.writeLocal_log (j c a : Nat) (bs : List Byte) : (s.writeLocal j c a bs).log = s.log := rfl
@[simp] theorem State.writeLocal_out (j c a : Nat) (bs : List Byte) : (s.writeLocal j c a bs).out = s.out := rfl
@[simp] theorem State.writeLocal_free (j c a : Nat) (bs : List Byte) : (s.writeLocal j c a bs).free = s.free := rfl

/-! ### State.send -/

@[simp] theorem State.send_frame (o : Out) : (s.send o).frame = s.frame := by
  unfold State.send; dsimp only; split <;> rfl
@[simp] theorem State.send_mem (o : Out) : (s.send o).mem = s.mem := by
  unfold State.send; dsimp only; split <;> rfl
@[simp] theorem State.send_poison (o : Out) : (s.send o).poison = s.poison := by
  unfold State.send; dsimp only; split <;> rfl
@[simp] theorem State.send_latent (o : Out) : (s.send o).latent = s.latent := by
  unfold State.send; dsimp only; split <;> rfl
@[simp] theorem State.send_stackBad (o : Out) : (s.send o).stackBad = s.stackBad := by
  unfold State.send; dsimp only; split <;> rfl
@[simp] theorem State.send_remapped (o : Out) : (s.send o).remapped = s.remapped := by
  unfold State.send; dsimp only; split <;> rfl
@[simp] theorem State.send_corrected (o : Out) : (s.send o).corrected = s.corrected := by
  unfold State.send; dsimp only; split <;> rfl
@[simp] theorem State.send_scrubPos (o : Out) : (s.send o).scrubPos = s.scrubPos := by
  unfold State.send; dsimp only; split <;> rfl
@[simp] theorem State.send_clusters (o : Out) : (s.send o).clusters = s.clusters := by
  unfold State.send; dsimp only; split <;> rfl
@[simp] theorem State.send_scales (o : Out) : (s.send o).scales = s.scales := by
  unfold State.send; dsimp only; split <;> rfl
@[simp] theorem State.send_acc (o : Out) : (s.send o).acc = s.acc := by
  unfold State.send; dsimp only; split <;> rfl
@[simp] theorem State.send_accLost (o : Out) : (s.send o).accLost = s.accLost := by
  unfold State.send; dsimp only; split <;> rfl
@[simp] theorem State.send_tiles (o : Out) : (s.send o).tiles = s.tiles := by
  unfold State.send; dsimp only; split <;> rfl
@[simp] theorem State.send_accHolds (o : Out) : (s.send o).accHolds = s.accHolds := by
  unfold State.send; dsimp only; split <;> rfl
@[simp] theorem State.send_gens (o : Out) : (s.send o).gens = s.gens := by
  unfold State.send; dsimp only; split <;> rfl
@[simp] theorem State.send_epoch (o : Out) : (s.send o).epoch = s.epoch := by
  unfold State.send; dsimp only; split <;> rfl
@[simp] theorem State.send_engines (o : Out) : (s.send o).engines = s.engines := by
  unfold State.send; dsimp only; split <;> rfl
@[simp] theorem State.send_combs (o : Out) : (s.send o).combs = s.combs := by
  unfold State.send; dsimp only; split <;> rfl
@[simp] theorem State.send_sectors (o : Out) : (s.send o).sectors = s.sectors := by
  unfold State.send; dsimp only; split <;> rfl
@[simp] theorem State.send_mapped (o : Out) : (s.send o).mapped = s.mapped := by
  unfold State.send; dsimp only; split <;> rfl
@[simp] theorem State.send_failing (o : Out) : (s.send o).failing = s.failing := by
  unfold State.send; dsimp only; split <;> rfl
@[simp] theorem State.send_jobs (o : Out) : (s.send o).jobs = s.jobs := by
  unfold State.send; dsimp only; split <;> rfl
@[simp] theorem State.send_nextJob (o : Out) : (s.send o).nextJob = s.nextJob := by
  unfold State.send; dsimp only; split <;> rfl
@[simp] theorem State.send_admitted (o : Out) : (s.send o).admitted = s.admitted := by
  unfold State.send; dsimp only; split <;> rfl
@[simp] theorem State.send_rejected (o : Out) : (s.send o).rejected = s.rejected := by
  unfold State.send; dsimp only; split <;> rfl
@[simp] theorem State.send_sqs (o : Out) : (s.send o).sqs = s.sqs := by
  unfold State.send; dsimp only; split <;> rfl
@[simp] theorem State.send_cqs (o : Out) : (s.send o).cqs = s.cqs := by
  unfold State.send; dsimp only; split <;> rfl
@[simp] theorem State.send_rrNext (o : Out) : (s.send o).rrNext = s.rrNext := by
  unfold State.send; dsimp only; split <;> rfl
@[simp] theorem State.send_counters (o : Out) : (s.send o).counters = s.counters := by
  unfold State.send; dsimp only; split <;> rfl
@[simp] theorem State.send_posted (o : Out) : (s.send o).posted = s.posted := by
  unfold State.send; dsimp only; split <;> rfl
@[simp] theorem State.send_sessions (o : Out) : (s.send o).sessions = s.sessions := by
  unfold State.send; dsimp only; split <;> rfl
@[simp] theorem State.send_windows (o : Out) : (s.send o).windows = s.windows := by
  unfold State.send; dsimp only; split <;> rfl
@[simp] theorem State.send_copies (o : Out) : (s.send o).copies = s.copies := by
  unfold State.send; dsimp only; split <;> rfl
@[simp] theorem State.send_refresh (o : Out) : (s.send o).refresh = s.refresh := by
  unfold State.send; dsimp only; split <;> rfl
@[simp] theorem State.send_reads (o : Out) : (s.send o).reads = s.reads := by
  unfold State.send; dsimp only; split <;> rfl
@[simp] theorem State.send_nextRead (o : Out) : (s.send o).nextRead = s.nextRead := by
  unfold State.send; dsimp only; split <;> rfl
@[simp] theorem State.send_ha (o : Out) : (s.send o).ha = s.ha := by
  unfold State.send; dsimp only; split <;> rfl
@[simp] theorem State.send_nextTag (o : Out) : (s.send o).nextTag = s.nextTag := by
  unfold State.send; dsimp only; split <;> rfl
@[simp] theorem State.send_far (o : Out) : (s.send o).far = s.far := by
  unfold State.send; dsimp only; split <;> rfl
@[simp] theorem State.send_nextFar (o : Out) : (s.send o).nextFar = s.nextFar := by
  unfold State.send; dsimp only; split <;> rfl
@[simp] theorem State.send_farFree (o : Out) : (s.send o).farFree = s.farFree := by
  unfold State.send; dsimp only; split <;> rfl
@[simp] theorem State.send_threads (o : Out) : (s.send o).threads = s.threads := by
  unfold State.send; dsimp only; split <;> rfl
@[simp] theorem State.send_kernels (o : Out) : (s.send o).kernels = s.kernels := by
  unfold State.send; dsimp only; split <;> rfl
@[simp] theorem State.send_locals (o : Out) : (s.send o).locals = s.locals := by
  unfold State.send; dsimp only; split <;> rfl
@[simp] theorem State.send_slews (o : Out) : (s.send o).slews = s.slews := by
  unfold State.send; dsimp only; split <;> rfl
@[simp] theorem State.send_oscCycles (o : Out) : (s.send o).oscCycles = s.oscCycles := by
  unfold State.send; dsimp only; split <;> rfl
@[simp] theorem State.send_carries (o : Out) : (s.send o).carries = s.carries := by
  unfold State.send; dsimp only; split <;> rfl
@[simp] theorem State.send_accBad (o : Out) : (s.send o).accBad = s.accBad := by
  unfold State.send; dsimp only; split <;> rfl
@[simp] theorem State.send_accRuns (o : Out) : (s.send o).accRuns = s.accRuns := by
  unfold State.send; dsimp only; split <;> rfl
@[simp] theorem State.send_shown (o : Out) : (s.send o).shown = s.shown := by
  unfold State.send; dsimp only; split <;> rfl
@[simp] theorem State.send_centres (o : Out) : (s.send o).centres = s.centres := by
  unfold State.send; dsimp only; split <;> rfl
@[simp] theorem State.send_tones (o : Out) : (s.send o).tones = s.tones := by
  unfold State.send; dsimp only; split <;> rfl
@[simp] theorem State.send_detect (o : Out) : (s.send o).detect = s.detect := by
  unfold State.send; dsimp only; split <;> rfl
@[simp] theorem State.send_pending (o : Out) : (s.send o).pending = s.pending := by
  unfold State.send; dsimp only; split <;> rfl
@[simp] theorem State.send_monitors (o : Out) : (s.send o).monitors = s.monitors := by
  unfold State.send; dsimp only; split <;> rfl
@[simp] theorem State.send_fw (o : Out) : (s.send o).fw = s.fw := by
  unfold State.send; dsimp only; split <;> rfl
@[simp] theorem State.send_cal (o : Out) : (s.send o).cal = s.cal := by
  unfold State.send; dsimp only; split <;> rfl
@[simp] theorem State.send_power (o : Out) : (s.send o).power = s.power := by
  unfold State.send; dsimp only; split <;> rfl
@[simp] theorem State.send_cfg (o : Out) : (s.send o).cfg = s.cfg := by
  unfold State.send; dsimp only; split <;> rfl
@[simp] theorem State.send_side (o : Out) : (s.send o).side = s.side := by
  unfold State.send; dsimp only; split <;> rfl
@[simp] theorem State.send_log (o : Out) : (s.send o).log = s.log := by
  unfold State.send; dsimp only; split <;> rfl
@[simp] theorem State.send_free (o : Out) : (s.send o).free = s.free := by
  unfold State.send; dsimp only; split <;> rfl
@[simp] theorem State.send_out (o : Out) : (s.send o).out = s.out ++ [o] := by
  unfold State.send; dsimp only; split <;> rfl

/-! ### State.write -/

@[simp] theorem State.write_frame (a : Nat) (bs : List Byte) : (s.write a bs).frame = s.frame := by
  unfold State.write; split <;> rfl
@[simp] theorem State.write_stackBad (a : Nat) (bs : List Byte) : (s.write a bs).stackBad = s.stackBad := by
  unfold State.write; split <;> rfl
@[simp] theorem State.write_remapped (a : Nat) (bs : List Byte) : (s.write a bs).remapped = s.remapped := by
  unfold State.write; split <;> rfl
@[simp] theorem State.write_corrected (a : Nat) (bs : List Byte) : (s.write a bs).corrected = s.corrected := by
  unfold State.write; split <;> rfl
@[simp] theorem State.write_scrubPos (a : Nat) (bs : List Byte) : (s.write a bs).scrubPos = s.scrubPos := by
  unfold State.write; split <;> rfl
@[simp] theorem State.write_clusters (a : Nat) (bs : List Byte) : (s.write a bs).clusters = s.clusters := by
  unfold State.write; split <;> rfl
@[simp] theorem State.write_scales (a : Nat) (bs : List Byte) : (s.write a bs).scales = s.scales := by
  unfold State.write; split <;> rfl
@[simp] theorem State.write_acc (a : Nat) (bs : List Byte) : (s.write a bs).acc = s.acc := by
  unfold State.write; split <;> rfl
@[simp] theorem State.write_accLost (a : Nat) (bs : List Byte) : (s.write a bs).accLost = s.accLost := by
  unfold State.write; split <;> rfl
@[simp] theorem State.write_tiles (a : Nat) (bs : List Byte) : (s.write a bs).tiles = s.tiles := by
  unfold State.write; split <;> rfl
@[simp] theorem State.write_accHolds (a : Nat) (bs : List Byte) : (s.write a bs).accHolds = s.accHolds := by
  unfold State.write; split <;> rfl
@[simp] theorem State.write_gens (a : Nat) (bs : List Byte) : (s.write a bs).gens = s.gens := by
  unfold State.write; split <;> rfl
@[simp] theorem State.write_epoch (a : Nat) (bs : List Byte) : (s.write a bs).epoch = s.epoch := by
  unfold State.write; split <;> rfl
@[simp] theorem State.write_engines (a : Nat) (bs : List Byte) : (s.write a bs).engines = s.engines := by
  unfold State.write; split <;> rfl
@[simp] theorem State.write_combs (a : Nat) (bs : List Byte) : (s.write a bs).combs = s.combs := by
  unfold State.write; split <;> rfl
@[simp] theorem State.write_sectors (a : Nat) (bs : List Byte) : (s.write a bs).sectors = s.sectors := by
  unfold State.write; split <;> rfl
@[simp] theorem State.write_mapped (a : Nat) (bs : List Byte) : (s.write a bs).mapped = s.mapped := by
  unfold State.write; split <;> rfl
@[simp] theorem State.write_failing (a : Nat) (bs : List Byte) : (s.write a bs).failing = s.failing := by
  unfold State.write; split <;> rfl
@[simp] theorem State.write_jobs (a : Nat) (bs : List Byte) : (s.write a bs).jobs = s.jobs := by
  unfold State.write; split <;> rfl
@[simp] theorem State.write_nextJob (a : Nat) (bs : List Byte) : (s.write a bs).nextJob = s.nextJob := by
  unfold State.write; split <;> rfl
@[simp] theorem State.write_admitted (a : Nat) (bs : List Byte) : (s.write a bs).admitted = s.admitted := by
  unfold State.write; split <;> rfl
@[simp] theorem State.write_rejected (a : Nat) (bs : List Byte) : (s.write a bs).rejected = s.rejected := by
  unfold State.write; split <;> rfl
@[simp] theorem State.write_sqs (a : Nat) (bs : List Byte) : (s.write a bs).sqs = s.sqs := by
  unfold State.write; split <;> rfl
@[simp] theorem State.write_cqs (a : Nat) (bs : List Byte) : (s.write a bs).cqs = s.cqs := by
  unfold State.write; split <;> rfl
@[simp] theorem State.write_rrNext (a : Nat) (bs : List Byte) : (s.write a bs).rrNext = s.rrNext := by
  unfold State.write; split <;> rfl
@[simp] theorem State.write_counters (a : Nat) (bs : List Byte) : (s.write a bs).counters = s.counters := by
  unfold State.write; split <;> rfl
@[simp] theorem State.write_posted (a : Nat) (bs : List Byte) : (s.write a bs).posted = s.posted := by
  unfold State.write; split <;> rfl
@[simp] theorem State.write_sessions (a : Nat) (bs : List Byte) : (s.write a bs).sessions = s.sessions := by
  unfold State.write; split <;> rfl
@[simp] theorem State.write_windows (a : Nat) (bs : List Byte) : (s.write a bs).windows = s.windows := by
  unfold State.write; split <;> rfl
@[simp] theorem State.write_copies (a : Nat) (bs : List Byte) : (s.write a bs).copies = s.copies := by
  unfold State.write; split <;> rfl
@[simp] theorem State.write_refresh (a : Nat) (bs : List Byte) : (s.write a bs).refresh = s.refresh := by
  unfold State.write; split <;> rfl
@[simp] theorem State.write_reads (a : Nat) (bs : List Byte) : (s.write a bs).reads = s.reads := by
  unfold State.write; split <;> rfl
@[simp] theorem State.write_nextRead (a : Nat) (bs : List Byte) : (s.write a bs).nextRead = s.nextRead := by
  unfold State.write; split <;> rfl
@[simp] theorem State.write_ha (a : Nat) (bs : List Byte) : (s.write a bs).ha = s.ha := by
  unfold State.write; split <;> rfl
@[simp] theorem State.write_nextTag (a : Nat) (bs : List Byte) : (s.write a bs).nextTag = s.nextTag := by
  unfold State.write; split <;> rfl
@[simp] theorem State.write_far (a : Nat) (bs : List Byte) : (s.write a bs).far = s.far := by
  unfold State.write; split <;> rfl
@[simp] theorem State.write_nextFar (a : Nat) (bs : List Byte) : (s.write a bs).nextFar = s.nextFar := by
  unfold State.write; split <;> rfl
@[simp] theorem State.write_farFree (a : Nat) (bs : List Byte) : (s.write a bs).farFree = s.farFree := by
  unfold State.write; split <;> rfl
@[simp] theorem State.write_threads (a : Nat) (bs : List Byte) : (s.write a bs).threads = s.threads := by
  unfold State.write; split <;> rfl
@[simp] theorem State.write_kernels (a : Nat) (bs : List Byte) : (s.write a bs).kernels = s.kernels := by
  unfold State.write; split <;> rfl
@[simp] theorem State.write_locals (a : Nat) (bs : List Byte) : (s.write a bs).locals = s.locals := by
  unfold State.write; split <;> rfl
@[simp] theorem State.write_slews (a : Nat) (bs : List Byte) : (s.write a bs).slews = s.slews := by
  unfold State.write; split <;> rfl
@[simp] theorem State.write_oscCycles (a : Nat) (bs : List Byte) : (s.write a bs).oscCycles = s.oscCycles := by
  unfold State.write; split <;> rfl
@[simp] theorem State.write_carries (a : Nat) (bs : List Byte) : (s.write a bs).carries = s.carries := by
  unfold State.write; split <;> rfl
@[simp] theorem State.write_accBad (a : Nat) (bs : List Byte) : (s.write a bs).accBad = s.accBad := by
  unfold State.write; split <;> rfl
@[simp] theorem State.write_accRuns (a : Nat) (bs : List Byte) : (s.write a bs).accRuns = s.accRuns := by
  unfold State.write; split <;> rfl
@[simp] theorem State.write_shown (a : Nat) (bs : List Byte) : (s.write a bs).shown = s.shown := by
  unfold State.write; split <;> rfl
@[simp] theorem State.write_centres (a : Nat) (bs : List Byte) : (s.write a bs).centres = s.centres := by
  unfold State.write; split <;> rfl
@[simp] theorem State.write_tones (a : Nat) (bs : List Byte) : (s.write a bs).tones = s.tones := by
  unfold State.write; split <;> rfl
@[simp] theorem State.write_detect (a : Nat) (bs : List Byte) : (s.write a bs).detect = s.detect := by
  unfold State.write; split <;> rfl
@[simp] theorem State.write_pending (a : Nat) (bs : List Byte) : (s.write a bs).pending = s.pending := by
  unfold State.write; split <;> rfl
@[simp] theorem State.write_monitors (a : Nat) (bs : List Byte) : (s.write a bs).monitors = s.monitors := by
  unfold State.write; split <;> rfl
@[simp] theorem State.write_link (a : Nat) (bs : List Byte) : (s.write a bs).link = s.link := by
  unfold State.write; split <;> rfl
@[simp] theorem State.write_fw (a : Nat) (bs : List Byte) : (s.write a bs).fw = s.fw := by
  unfold State.write; split <;> rfl
@[simp] theorem State.write_cal (a : Nat) (bs : List Byte) : (s.write a bs).cal = s.cal := by
  unfold State.write; split <;> rfl
@[simp] theorem State.write_power (a : Nat) (bs : List Byte) : (s.write a bs).power = s.power := by
  unfold State.write; split <;> rfl
@[simp] theorem State.write_cfg (a : Nat) (bs : List Byte) : (s.write a bs).cfg = s.cfg := by
  unfold State.write; split <;> rfl
@[simp] theorem State.write_side (a : Nat) (bs : List Byte) : (s.write a bs).side = s.side := by
  unfold State.write; split <;> rfl
@[simp] theorem State.write_log (a : Nat) (bs : List Byte) : (s.write a bs).log = s.log := by
  unfold State.write; split <;> rfl
@[simp] theorem State.write_out (a : Nat) (bs : List Byte) : (s.write a bs).out = s.out := by
  unfold State.write; split <;> rfl
@[simp] theorem State.write_free (a : Nat) (bs : List Byte) : (s.write a bs).free = s.free := by
  unfold State.write; split <;> rfl

/-! ### Reading back what was changed -/

@[simp] theorem State.engine_modEngine (n m : Nat) (f : Engine → Engine) :
    (s.modEngine n f).engine m = if n = m then f (s.engine n) else s.engine m := by
  simp [State.engine, State.modEngine]
@[simp] theorem State.cluster_modCluster (n m : Nat) (f : Cluster → Cluster) :
    (s.modCluster n f).cluster m = if n = m then f (s.cluster n) else s.cluster m := by
  simp [State.cluster, State.modCluster]
@[simp] theorem State.comb_modComb (n m : Nat) (f : Comb → Comb) :
    (s.modComb n f).comb m = if n = m then f (s.comb n) else s.comb m := by
  simp [State.comb, State.modComb]
@[simp] theorem State.sector_modSector (n m : Nat) (f : Sector → Sector) :
    (s.modSector n f).sector m = if n = m then f (s.sector n) else s.sector m := by
  simp [State.sector, State.modSector]
@[simp] theorem State.thread_modThread (n m : Nat) (f : Thread → Thread) :
    (s.modThread n f).thread m = if n = m then f (s.thread n) else s.thread m := by
  simp [State.thread, State.modThread]
@[simp] theorem State.sq_modSq (n m : Nat) (f : Sq → Sq) :
    (s.modSq n f).sq m = if n = m then f (s.sq n) else s.sq m := by
  simp [State.sq, State.modSq]
@[simp] theorem State.cq_modCq (n m : Nat) (f : Cq → Cq) :
    (s.modCq n f).cq m = if n = m then f (s.cq n) else s.cq m := by
  simp [State.cq, State.modCq]
@[simp] theorem State.window_modWindow (n m : Nat) (f : Window → Window) :
    (s.modWindow n f).window m = if n = m then f (s.window n) else s.window m := by
  simp [State.window, State.modWindow]
@[simp] theorem State.lane_modLane (n m : Nat) (f : Lane → Lane) :
    (s.modLane n f).lane m = if n = m then f (s.lane n) else s.lane m := by
  simp [State.lane, State.modLane]

/-- A change of a thread by two functions that agree on it. -/
theorem State.modThread_congr (n : Nat) (f g : Thread → Thread) (h : f (s.thread n) = g (s.thread n)) :
    s.modThread n f = s.modThread n g := by
  simp only [State.modThread, Sparse.modify]
  unfold State.thread at h
  rw [h]

/-- Of the accepted commands, a change by number that keeps the number. -/
theorem State.job?_modJob (n m : Nat) (f : Job → Job) (h : ∀ j, (f j).id = j.id) :
    (s.modJob n f).job? m = if n = m then (s.job? m).map f else s.job? m := by
  have aux : ∀ l : List Job, (mapIf (fun j => j.id == n) f l).find? (fun j => j.id == m) =
      if n = m then (l.find? fun j => j.id == m).map f else l.find? fun j => j.id == m := by
    intro l
    induction l with
    | nil => by_cases hnm : n = m <;> simp [mapIf, hnm]
    | cons x rest ih =>
      have ih' : ∀ p, (mapIf (fun j : Job => j.id == n) f (x :: rest)).find? p =
        ((if x.id == n then f x else x) :: mapIf (fun j : Job => j.id == n) f rest).find? p := fun _ => rfl
      rw [ih']
      by_cases hx : x.id = n <;> by_cases hm : x.id = m
      · subst hx; subst hm; simp [h]
      · subst hx; simp [h, hm, ih]
      · subst hm; have : ¬ n = x.id := fun e => hx e.symm
        simp [hx, this]
      · simp [hx, hm, ih]
  exact aux s.jobs

/-- Of the kernels, a change by job that keeps the job. -/
theorem State.kernel?_modKernel (n m : Nat) (f : Kernel → Kernel) (h : ∀ k, (f k).job = k.job) :
    (s.modKernel n f).kernel? m = if n = m then (s.kernel? m).map f else s.kernel? m := by
  have aux : ∀ l : List Kernel, (mapIf (fun j => j.job == n) f l).find? (fun j => j.job == m) =
      if n = m then (l.find? fun j => j.job == m).map f else l.find? fun j => j.job == m := by
    intro l
    induction l with
    | nil => by_cases hnm : n = m <;> simp [mapIf, hnm]
    | cons x rest ih =>
      have ih' : ∀ p, (mapIf (fun j : Kernel => j.job == n) f (x :: rest)).find? p =
        ((if x.job == n then f x else x) :: mapIf (fun j : Kernel => j.job == n) f rest).find? p := fun _ => rfl
      rw [ih']
      by_cases hx : x.job = n <;> by_cases hm : x.job = m
      · subst hx; subst hm; simp [h]
      · subst hx; simp [h, hm, ih]
      · subst hm; have : ¬ n = x.job := fun e => hx e.symm
        simp [hx, this]
      · simp [hx, hm, ih]
  exact aux s.kernels

@[simp] theorem Job.finish_id (j : Job) (st : Status) : (j.finish st).id = j.id := by
  unfold Job.finish; split <;> rfl
@[simp] theorem Job.execute_id (j : Job) (f : FrameSt) : (j.execute f).id = j.id := rfl

/-! ## Memory keeps its canonical form (09 R438) -/

theorem writeMem_wf (m : Sparse Byte) (a : Nat) (bs : List Byte) (w : Memory.wf m = true) :
    Memory.wf (writeMem m a bs) = true := by
  induction bs generalizing m a with
  | nil => exact w
  | cons b bs ih => exact ih _ _ (Sparse.wf_set _ _ _ _ w)

theorem State.write_wf (a : Nat) (bs : List Byte) (w : Memory.wf s.mem = true) : Memory.wf (s.write a bs).mem = true := by
  unfold State.write
  split
  · exact w
  · exact writeMem_wf _ _ _ w

theorem State.writeLong_wf (fuel a : Nat) (bs : List Byte) (w : Memory.wf s.mem = true) :
    Memory.wf (s.writeLong a bs fuel).mem = true := by
  induction fuel generalizing s a bs with
  | zero => exact w
  | succ n ih =>
    unfold State.writeLong
    split
    · exact w
    · exact ih _ _ _ (State.write_wf s _ _ w)

theorem State.writeAll_wf (a : Nat) (bs : List Byte) (w : Memory.wf s.mem = true) :
    Memory.wf (s.writeAll a bs).mem = true := State.writeLong_wf s _ _ _ w

theorem State.keepMem_wf (p : Nat → Bool) (w : Memory.wf s.mem = true) : Memory.wf (s.keepMem p).mem = true :=
  Sparse.wf_keep _ _ _ w

/-- Reset memory has the canonical form. -/
theorem State.reset_mem_wf : Memory.wf State.reset.mem = true := rfl

/-- One byte after a write: inside the written range the byte written, outside the byte before. -/
theorem writeMem_get (m : Sparse Byte) (a x : Nat) (bs : List Byte) :
    Sparse.get Config.memDefault (writeMem m a bs) x =
      if a ≤ x ∧ x < a + bs.length then bs.getD (x - a) 0 else Sparse.get Config.memDefault m x := by
  induction bs generalizing m a with
  | nil => simp [writeMem]
  | cons b bs ih =>
    simp only [writeMem, ih, Sparse.get_set, List.length_cons]
    by_cases h : a = x
    · subst h; simp
    · by_cases h2 : a + 1 ≤ x ∧ x < a + 1 + bs.length
      · have h3 : a ≤ x ∧ x < a + (bs.length + 1) := by omega
        rw [if_pos h2, if_pos h3, show x - a = (x - (a + 1)) + 1 by omega]; simp
      · have h3 : ¬ (a ≤ x ∧ x < a + (bs.length + 1)) := by omega
        rw [if_neg h2, if_neg h3, if_neg h]

end Sys2Proof.Machine
end

