-- ==== Sys2Proof/Tests/Slice0.lean ====
section
/-! SUPPORT. The model's own tests: what the well-formedness check refuses, instruction words written out from the spec's formats, single steps with results worked by hand, and for every statement with hypotheses concrete states and operands that meet them. -/

namespace Sys2Proof.Tests

open Sys2Proof Sys2Proof.Machine

set_option Elab.async false

/-! ## Well-formedness: one ill-formed term for each check (07 R353, R354) -/

/-- Fields of format V with registers 1, 2 and 3, under p0, in type `t`. -/
def fv (t : BitVec 3) : FV := { vd := 1, va := 2, vb := 3, p := 0, t := t }
/-- The same in format VX. -/
def fx (t : BitVec 3) : FV := { fv t with x := true }
/-- Fields of format S or E: s1 from s2 and s3 + `imm`. -/
def fs (imm : BitVec 9) : FS := { sd := 1, sa := 2, sb := 3, imm := imm }
/-- Fields of format M: v1 or s1, the base in s2, no offset, p0, device space. -/
def fm (w : BitVec 2) : FM := { vd := 1, sa := 2, vi := 3, p := 0, sp := true, w := w, ofs := 0, sb := 3 }

theorem test_wf_accepts : CoreInstr.wf ⟨0x01, .v (fv 1)⟩ = true := by decide
theorem test_wf_refuses_unassigned : CoreInstr.wf ⟨0x00, .v (fv 1)⟩ = false := by decide
theorem test_wf_refuses_other_format : CoreInstr.wf ⟨0x01, .s (fs 0)⟩ = false := by decide
theorem test_wf_refuses_x_in_v : CoreInstr.wf ⟨0x01, .v (fx 1)⟩ = false := by decide
theorem test_wf_refuses_vc_in_v : CoreInstr.wf ⟨0x01, .v { fv 1 with vc := 1 }⟩ = false := by decide
theorem test_wf_refuses_rnd_in_v : CoreInstr.wf ⟨0x01, .v { fv 1 with rnd := 1 }⟩ = false := by decide
theorem test_wf_refuses_sat_in_v : CoreInstr.wf ⟨0x01, .v { fv 1 with sat := true }⟩ = false := by decide
theorem test_wf_refuses_v_in_vx : CoreInstr.wf ⟨0x90, .v (fv 1)⟩ = false := by decide
theorem test_wf_refuses_reserved_type : CoreInstr.wf ⟨0x01, .v (fv 6)⟩ = false := by decide
theorem test_wf_refuses_type_of_vfma : CoreInstr.wf ⟨0x90, .v (fx 3)⟩ = false := by decide
theorem test_wf_refuses_source_type : CoreInstr.wf ⟨0x18, .v { fv 1 with vb := 7 }⟩ = false := by decide
theorem test_wf_refuses_width : CoreInstr.wf ⟨0xA0, .m (fm 3)⟩ = false := by decide
theorem test_wf_refuses_thread : (Instr.vadd 2048 (fv 1)).wf = false := by decide
theorem test_wf_refuses_word : (Instr.vadd 0 (fv 7)).wf = false := by decide
theorem test_wf_takes_last_thread : (Instr.vadd 2047 (fv 1)).wf = true := by decide

/-! ## Instruction words, bit by bit from the formats (07 R353, R355) -/

/-- V: OP 0x01, VD 1, VA 2, VB 3, P 0, T 1: VADD v1, v2, v3 in FP32. -/
theorem test_word_vadd :
    decodeCore (0#32 ++ 0b00000001_000001_000010_000011_000_001#32) = some ⟨0x01, .v (fv 1)⟩ := by decide
/-- VX: OP 0x90, and VC 4, RND 1, SAT 0 in the second word: VFMA. -/
theorem test_word_vfma :
    decodeCore (0b00000000000000000000000_0_01_000100#32 ++ 0b10010000_000001_000010_000011_101_010#32) =
      some ⟨0x90, .v { vd := 1, va := 2, vb := 3, p := 5, t := 2, x := true, vc := 4, rnd := 1 }⟩ := by decide
/-- V: OP 0x3C, PAND p1, p2, p3. -/
theorem test_word_pand :
    decodeCore (0#32 ++ 0b00111100_000001_000010_000011_000_000#32) = some ⟨0x3C, .v (fv 0)⟩ := by decide
/-- S: OP 0x40, SD 1, SA 2, SB 3, IMM9 −1: SADD. -/
theorem test_word_sadd :
    decodeCore (0#32 ++ 0b01000000_00001_00010_00011_111111111#32) = some ⟨0x40, .s (fs 0x1FF)⟩ := by decide
/-- SI: OP 0xC0, SD 31, IMM32 in the second word: SLI. -/
theorem test_word_sli :
    decodeCore (0x80000001#32 ++ 0b11000000_11111_0000000000000000000#32) = some ⟨0xC0, .si ⟨31, 0x80000001⟩⟩ := by decide
/-- M: OP 0xA4, VD 1, SA 2, VI 3, P 6, SP 1, W 2, reserved 0; OFS24 −2, SB 5 in the second word: VGATH. -/
theorem test_word_vgath :
    decodeCore (0b000_00101_111111111111111111111110#32 ++ 0b10100100_000001_00010_000011_110_1_10_0#32) =
      some ⟨0xA4, .m { vd := 1, sa := 2, vi := 3, p := 6, sp := true, w := 2, ofs := 0xFFFFFE, sb := 5 }⟩ := by decide
/-- B: OP 0x61, P 7, OFS21 −1: BANY. -/
theorem test_word_bany :
    decodeCore (0#32 ++ 0b01100001_111_111111111111111111111#32) = some ⟨0x61, .b ⟨7, 0x1FFFFF⟩⟩ := by decide
/-- BC: OP 0x66, SA 1, SB 2, OFS14 −8192: BLT. -/
theorem test_word_blt :
    decodeCore (0#32 ++ 0b01100110_00001_00010_10000000000000#32) = some ⟨0x66, .bc ⟨1, 2, 0x2000⟩⟩ := by decide
/-- E: OP 0x7B, SD 1, IMM9[0] 1: RDFPS that clears. -/
theorem test_word_rdfps :
    decodeCore (0#32 ++ 0b01111011_00001_00000_00000_000000001#32) = some ⟨0x7B, .e ⟨1, 0, 0, 1⟩⟩ := by decide
theorem test_word_unassigned : decodeCore (0#32 ++ 0b01111010_00001_00000_00000_000000000#32) = none := by decide
theorem test_word_reserved_vx :
    decodeCore (0b00000000000000000000001_0_00_000000#32 ++ 0b10010000_000001_000010_000011_000_000#32) = none := by decide
theorem test_word_reserved_m :
    decodeCore (0#32 ++ 0b10100000_000001_00010_000011_000_1_00_1#32) = none := by decide
/-- The longest encodings of the round trip: a well-formed word of each format comes back. -/
theorem test_words_round_trip :
    ∀ c ∈ ([⟨0x05, .v (fv 5)⟩, ⟨0x98, .v { fx 5 with vb := 2, rnd := 3, sat := true, vc := 63 }⟩, ⟨0x4B, .s (fs 0x100)⟩,
      ⟨0xC1, .si ⟨31, 0xFFFFFFFF⟩⟩, ⟨0xA9, .m { fm 2 with ofs := 0x800000, sb := 31 }⟩, ⟨0x67, .b ⟨7, 0x100000⟩⟩,
      ⟨0x64, .bc ⟨31, 31, 0x3FFF⟩⟩, ⟨0x79, .e (fs 0x1FF)⟩] : List CoreInstr),
      c.wf = true ∧ decodeCore (encodeCore c) = some c := by decide

/-! ## The vector cores -/

/-- The command that the kernel of the tests runs for. -/
def kjob : Job :=
  { id := 0, session := 1, sq := 0, posted := false, seq := 0,
    hdr := { opcode := 0x06, cls := 0, relaxed := false, add := false, rerun := false, dlRel := false, notify := false,
             ctx := 0, waits := [], deadline := 0, costPtr := 0, sigEn := false, sigCtr := 0 },
    body := .vkernel 0 8 0 0 1 false 1, cost := none, decided := 0, deadline := 0, placed := [], first := 0, last := 0,
    guardEnd := 0, phase := .running }
/-- A kernel of one thread on core 0, with a 4 KiB local store window. -/
def kern : Kernel :=
  { job := 0, session := 1, cores := [0], threads := 1, ids := [0], image := 0, size := 8, entry := 0, arg := 0,
    lsBytes := 4096, start := 0, cycles := 1000, budget := 100000, rate := 100000, started := true }
/-- Thread 0 of the kernel `k` stands, with registers `th`, at the instruction `c`. -/
def issues (k : Kernel) (c : CoreInstr) (th : Thread) : State :=
  { jobs := [kjob], kernels := [k], threads := [(0, th)],
    locals := (List.range 8).map fun n => (n, some (BitVec.ofNat 8 ((encodeCore c).toNat / 2 ^ (8 * n)))) }
/-- Ready, with nothing in its registers. -/
def fresh : Thread := { st := .ready }
/-- The state after a command. -/
def after (c : Instr) (s : State) : State :=
  match exec c s with
  | .next t => t
  | _ => s

/-- Every lane-wise, permuting and predicate instruction of the statements can issue: `VectorArithmeticWorksLaneByLane`,
`VectorMovesPlaceTheLanes`, `ComparesAndPredicateLogic`. -/
theorem meets_vector_instructions :
    ∀ c ∈ (([0x01, 0x02, 0x03, 0x04, 0x05, 0x06, 0x07, 0x08, 0x09, 0x0A, 0x0B, 0x0C, 0x0D, 0x18, 0x30, 0x31, 0x32, 0x33, 0x34,
        0x3C, 0x3D, 0x3E, 0x3F].map fun op => (⟨op, .v (fv 1)⟩ : CoreInstr)) ++
      ([0x20, 0x21, 0x22, 0x23, 0x24, 0x35].map fun op => ⟨op, .v (fv 3)⟩) ++
      [0x81, 0x82, 0x83, 0x84, 0x85, 0x86, 0x87, 0x90, 0x91, 0x92, 0x93, 0x94, 0x95, 0x98].map fun op => ⟨op, .v (fx 1)⟩),
      (issues kern c fresh).issuing 0 c = some kern := by decide +kernel
/-- Every lane-wise instruction can issue in the last thread of the device as well. -/
theorem meets_last_thread :
    ({ issues kern ⟨0x01, .v (fv 1)⟩ fresh with
         threads := [(2047, fresh)]
         locals := (List.range 8).map fun n => (localKey 0 255 n, some (BitVec.ofNat 8 ((encodeCore ⟨0x01, .v (fv 1)⟩).toNat / 2 ^ (8 * n)))) }).issuing
      2047 ⟨0x01, .v (fv 1)⟩ = some kern := by decide +kernel

/-- Registers for the tests: v2 and v3 hold these words in lane 0, s2 and s3 these values. -/
def regs (a b : Word64) : Thread := { st := .ready, v := [(64, a), (96, b)], s := [(2, a), (3, b)] }

/-- 1.0 + 2.0 and −0.5 + 0.5, two FP32 elements of one lane: 3.0 and +0 (nearest; IEEE 754). -/
theorem test_vadd_fp32 :
    ((after (.vadd 0 (fv 1)) (issues kern ⟨0x01, .v (fv 1)⟩ (regs 0x3F800000_BF000000 0x40000000_3F000000))).thread 0).lane 1 0 =
      0x40400000_00000000 := by decide +kernel
/-- INT16 lanes hold four elements: 3 × −2, 1 × 1, 0 and −1 × −1. -/
theorem test_vmul_int16 :
    ((after (.vmul 0 (fv 5)) (issues kern ⟨0x03, .v (fv 5)⟩ (regs 0x0003_0001_0000_FFFF 0xFFFE_0001_0005_FFFF))).thread 0).lane 1 0 =
      0xFFFA_0001_0000_0001 := by decide +kernel
/-- R358: VMIN of a NaN and 1.0 is 1.0; of two NaNs the canonical quiet NaN. -/
theorem test_vmin_nan :
    ((after (.vmin 0 (fv 1)) (issues kern ⟨0x04, .v (fv 1)⟩ (regs 0x7FC00001_7F800001 0x3F800000_FFC00000))).thread 0).lane 1 0 =
      0x3F800000_7FC00000 := by decide +kernel
/-- An inactive lane keeps its value, whatever the operands. -/
theorem test_vsub_inactive :
    ((after (.vsub 0 { fv 1 with p := 1 }) (issues kern ⟨0x02, .v { fv 1 with p := 1 }⟩
      { regs 1 1 with v := [(32, 7), (64, 1), (96, 1)] })).thread 0).lane 1 0 = 7 := by decide +kernel
/-- VSLUP by 1 leaves 0 in lane 0 and moves lane 0 of v2 to lane 1. -/
theorem test_vslup :
    (let th := (after (.vslup 0 (fv 1)) (issues kern ⟨0x32, .v (fv 1)⟩ (regs 9 1))).thread 0; (th.lane 1 0, th.lane 1 1)) =
      (0, 9) := by decide +kernel
/-- VCOMP packs the one active lane, lane 5, to lane 0 and clears the others. -/
theorem test_vcomp :
    (let th := (after (.vcomp 0 { fv 1 with p := 1 }) (issues kern ⟨0x34, .v { fv 1 with p := 1 }⟩
      { st := .ready, p := [(1, 0x20)], v := [(32, 8), (64, 4), (69, 6)] })).thread 0; (th.lane 1 0, th.lane 1 1)) = (6, 0) := by
  decide +kernel
/-- VCMPLT compares −1 < 1 in INT64: the bit of lane 0 alone, where the other lanes hold 0 and 0. -/
theorem test_vcmplt :
    ((after (.vcmplt 0 (fv 3)) (issues kern ⟨0x09, .v (fv 3)⟩ (regs (-1) 1))).thread 0).preg 1 = 1 := by decide +kernel
/-- p0 keeps reading as all ones. -/
theorem test_pnot_p0 :
    ((after (.pnot 0 { fv 0 with vd := 0 }) (issues kern ⟨0x3F, .v { fv 0 with vd := 0 }⟩ fresh)).thread 0).preg 0 =
      0xFFFFFFFF := by decide +kernel
/-- SADD adds s2, s3 and the immediate: 5 + (2 + 511 − 512) = 6; s0 ignores writes. -/
theorem test_sadd :
    ((after (.sadd 0 (fs 0x1FF)) (issues kern ⟨0x40, .s (fs 0x1FF)⟩ (regs 5 2))).thread 0).sreg 1 = 6 ∧
    ((after (.sadd 0 { fs 1 with sd := 0 }) (issues kern ⟨0x40, .s { fs 1 with sd := 0 }⟩ (regs 5 2))).thread 0).sreg 0 = 0 := by
  decide +kernel
/-- 1.0 / 4.0 = 0.25 in FP64. -/
theorem test_sfdiv :
    ((after (.sfdiv 0 (fs 0)) (issues kern ⟨0x4A, .s (fs 0)⟩ (regs 0x3FF0000000000000 0x4010000000000000))).thread 0).sreg 1 =
      0x3FD0000000000000 := by decide +kernel
/-- SLI sign-extends; SLIH replaces the upper half; both take two words. -/
theorem test_sli_slih :
    (let th := (after (.sli 0 ⟨1, 0x80000000⟩) (issues kern ⟨0xC0, .si ⟨1, 0x80000000⟩⟩ fresh)).thread 0; (th.sreg 1, th.pc)) =
      (0xFFFFFFFF80000000, 8) ∧
    ((after (.slih 0 ⟨2, 7⟩) (issues kern ⟨0xC1, .si ⟨2, 7⟩⟩ (regs 0x100000003 0))).thread 0).sreg 2 = 0x700000003 := by
  decide +kernel
/-- A branch by −1 word from 4 goes to 0; BLT is signed; CALL leaves the next address in s31. -/
theorem test_branches :
    ((after (.blt 0 ⟨2, 3, 0x10⟩) (issues kern ⟨0x66, .bc ⟨2, 3, 0x10⟩⟩ (regs (-1) 0))).thread 0).pc = 64 ∧
    ((after (.bne 0 ⟨2, 3, 0x10⟩) (issues kern ⟨0x65, .bc ⟨2, 3, 0x10⟩⟩ (regs 4 4))).thread 0).pc = 4 ∧
    (let th := (after (.call 0 ⟨0, 2⟩) (issues kern ⟨0x67, .b ⟨0, 2⟩⟩ fresh)).thread 0; (th.pc, th.sreg 31)) = (8, 4) := by
  decide +kernel

/-- All scalar instructions, and every branch, barrier and wait, can issue: `ScalarInstructionsWriteOneRegister`,
`BranchesSetTheProgramCounter`, and the hypotheses `issuing` of `BarriersEndsAndBudgets` and `KernelsPostAndSignal`. -/
theorem meets_scalar_instructions :
    ∀ c ∈ (([0x40, 0x41, 0x42, 0x43, 0x44, 0x45, 0x46, 0x47, 0x48, 0x49, 0x4A, 0x4B].map fun op => (⟨op, .s (fs 0)⟩ : CoreInstr)) ++
      [⟨0xC0, .si ⟨1, 0⟩⟩, ⟨0xC1, .si ⟨1, 0⟩⟩] ++
      ([0x60, 0x67, 0x61, 0x62, 0x63].map fun op => ⟨op, .b ⟨1, 2⟩⟩) ++ ([0x64, 0x65, 0x66].map fun op => ⟨op, .bc ⟨1, 2, 2⟩⟩) ++
      [0x68, 0x69, 0x70, 0x71, 0x72, 0x73, 0x74, 0x75, 0x76, 0x77, 0x78, 0x79, 0x7B].map fun op => ⟨op, .e (fs 0)⟩),
      (issues kern c fresh).issuing 0 c = some kern := by decide +kernel

/-- `ReductionsWriteTheirScalars`: thread 0 can issue each; VRSUM of lanes 2 to 31 that hold 0, with 3 and 4 in lanes 0 and 1,
has a sum; the larger is lane 1's, the smallest is lane 2's; VD and VB name two scalars. -/
theorem meets_reductions :
    (let th : Thread := { st := .ready, v := [(64, 3), (65, 4)] }
     (∀ op ∈ ([0x38, 0x39, 0x3A] : List (BitVec 8)), (issues kern ⟨op, .v (fv 3)⟩ th).issuing 0 ⟨op, .v (fv 3)⟩ = some kern) ∧
     treeFold (sumPair .i64) (lanes.map fun l => if th.active 0 l then some (laneSum .i64 (th.lane 2 l)) else none) = some (7, 0) ∧
     winner true .i64 (candidates th (fv 3)) = some (4, 1) ∧ winner false .i64 (candidates th (fv 3)) = some (0, 2)) ∧
    lowS (fv 3).vd ≠ lowS (fv 3).vb := by decide +kernel

/-- `NanResultsAreCanonical`: NaNs and numbers in each floating-point type, and operations that produce NaN: the difference of
two infinities, the absolute value of a NaN, and a conversion. -/
theorem meets_nan :
    VTy.isFp .f32 = true ∧ (VTy.fp .f32 0x7F800001).isNan = true ∧ (VTy.fp .f32 0x7F800000).isNan = false ∧
    (VTy.fp .f64 0x7FF8000000000000).isNan = true ∧ (VTy.fp .bf 0x7F81).isNan = true ∧ (VTy.fp .bf 0x3F80).isNan = false ∧
    (VTy.fp .f32 (subEl .ne .f32 0x7F800000 0x7F800000).1).isNan = true ∧ (VTy.fp .bf (absEl .bf 0xFF81).1).isNan = true ∧
    (VTy.fp .f64 (cvtEl 0x18 .f32 .f64 .ne false 0x7F800001).1).isNan = true ∧
    (VTy.fp .f64 (VTy.canonNan .f64 0x7FF0000000000001)).isNan = true := by
  decide +kernel

/-- Addresses for the memory tests: s2 holds `a`, v3 nothing (every index 0), s3 the stride 8. -/
def pointing (a : Word64) : Thread := { st := .ready, s := [(1, 5), (2, a), (3, 8)], p := [(1, 1), (2, 0x80000000)] }
/-- Format M with predicate `p` and local or device space. -/
def fmp (p : BitVec 3) (sp : Bool) (w : BitVec 2) : FM := { fm w with p := p, sp := sp }

/-- Every form of load at the address `a` in device space is unthrottled and has elements that can all be accessed. -/
def loadable (a : Word64) (w : BitVec 2) : Bool :=
  let th := pointing a
  let s := issues kern ⟨0xA0, .m (fm w)⟩ th
  [contiguous th (fm w) (widthOf w), strided th (fm w), indexed th (fm w) (widthOf w),
    [{ lane := 0, addr := baseAddr th (fm w) }]].all fun es =>
      kern.throttled (s.trafficOf kern true false (widthOf w) es) == false &&
      es.all fun e => s.access kern (s.target kern true false e.addr (widthOf w)) e.addr.toNat true == .fine
/-- `LoadsBringTheirElements`: an unthrottled load with every lane in HBM, in SRAM at its last bytes, and in the local store up
to its last byte: all its elements can be accessed. -/
theorem meets_loads :
    (∀ op ∈ ([0xA0, 0xA2, 0xA4, 0xA6] : List (BitVec 8)),
      (issues kern ⟨op, .m (fm 0)⟩ (pointing 0)).issuing 0 ⟨op, .m (fm 0)⟩ = some kern) ∧
    loadable 0 0 = true ∧ loadable 0 2 = true ∧ loadable 0x10003FFFFF00 0 = true ∧
    (let th := pointing 3840
     let s := issues kern ⟨0xA0, .m (fmp 0 false 0)⟩ th
     ∀ e ∈ contiguous th (fmp 0 false 0) 8, s.target kern false false e.addr 8 = .local' ∧
       s.access kern .local' e.addr.toNat true = .fine) ∧
    (let s := issues kern ⟨0x40, .s (fs 0)⟩ { fresh with loads := [⟨0, .scalar 2 5, 1⟩] }
     ⟨0, .scalar 2 5, 1⟩ ∈ (s.thread 0).loads ∧ s.issuing 0 ⟨0x40, .s (fs 0)⟩ = none) := by decide +kernel

/-- `StoresWriteTheirElements`: the same for stores, none of whose elements lies in the host aperture. -/
theorem meets_stores :
    (∀ op ∈ ([0xA1, 0xA3, 0xA5, 0xA7] : List (BitVec 8)),
      (issues kern ⟨op, .m (fm 0)⟩ (pointing 0)).issuing 0 ⟨op, .m (fm 0)⟩ = some kern) ∧
    (let th := pointing 0x10003FFFFF00
     let s := issues kern ⟨0xA1, .m (fm 0)⟩ th
     ∀ es ∈ ([contiguous th (fm 0) 8, strided th (fm 0), indexed th (fm 0) 8, [{ lane := 0, addr := baseAddr th (fm 0) }]] : List (List Elem)),
       kern.throttled (s.trafficOf kern true true 8 es) = false ∧
       ∀ e ∈ es, s.access kern (s.target kern true true e.addr 8) e.addr.toNat false = .fine ∧ s.target kern true true e.addr 8 ≠ .host) ∧
    (let s := issues kern ⟨0xA7, .m (fmp 0 false 0)⟩ (pointing 8)
     s.target kern false true 8 8 = .local' ∧ s.target kern false true 0 8 = .refused) := by decide +kernel

/-- SST stores s1 at the address in s2; the bytes below it keep their contents. -/
theorem test_sst :
    (let s := after (.sst 0 (fm 0)) (issues kern ⟨0xA7, .m (fm 0)⟩ (pointing 0x100000000008)); (s.word 0x100000000008 8, s.mem)) =
      (5, [(0x100000000008, 5)]) := by decide +kernel
/-- VSCAT with equal addresses: the highest lane's value remains (07 R349). -/
theorem test_vscat_same_address :
    ((after (.vscat 0 (fm 0)) (issues kern ⟨0xA5, .m (fm 0)⟩ { pointing 0x100000000000 with v := [(32, 1), (63, 2)] })).word
      0x100000000000 8) = 2 := by decide +kernel

/-- A page of the host aperture. -/
def hostPage : Word64 := 0x800000001000
/-- `RefusedAccessesAreDiscardedOrStop`: an odd address is refused to SLD, SST and SAADD.D; a page that no session has mapped is a
target in the host aperture that may be neither read nor written. -/
theorem meets_refusals :
    (∀ op ∈ ([0xA6, 0xA7, 0xA9] : List (BitVec 8)),
      (issues kern ⟨op, .m (fm 0)⟩ (pointing 3)).issuing 0 ⟨op, .m (fm 0)⟩ = some kern) ∧
    (∀ op ∈ ([0xA6, 0xA7] : List (BitVec 8)),
      (issues kern ⟨op, .m (fm 0)⟩ (pointing hostPage)).issuing 0 ⟨op, .m (fm 0)⟩ = some kern) ∧
    (let s := issues kern ⟨0xA6, .m (fm 0)⟩ (pointing 3)
     s.target kern true false (baseAddr (s.thread 0) (fm 0)) 8 = .refused ∧ s.target kern true true (baseAddr (s.thread 0) (fm 0)) 8 = .refused) ∧
    (let s := issues kern ⟨0xA6, .m (fm 0)⟩ (pointing hostPage)
     let a := baseAddr (s.thread 0) (fm 0)
     s.target kern true false a 8 = .host ∧ s.target kern true true a 8 = .host ∧ s.canRead 1 a.toNat = false ∧
     s.canWrite 1 a.toNat = false ∧ kern.throttled (s.trafficOf kern true false 8 [{ lane := 0, addr := a }]) = false ∧
     kern.throttled (s.trafficOf kern true true 8 [{ lane := 0, addr := a }]) = false ∧ s.job? 0 = some kjob) := by decide +kernel

/-- `AtomicAddsUpdateClusterSram`: each lane's word, and the word of SAADD.D, lies in the SRAM of the last cluster. -/
theorem meets_atomic_adds :
    let th := pointing 0x10003FFFFFF8
    (∀ op ∈ ([0xA8, 0xA9] : List (BitVec 8)), (issues kern ⟨op, .m (fm 0)⟩ th).issuing 0 ⟨op, .m (fm 0)⟩ = some kern) ∧
    let s := issues kern ⟨0xA8, .m (fm 0)⟩ th
    (∀ e ∈ indexed th (fm 0) 8, s.target kern true true e.addr 8 = .sram 63 ∧ s.onBadCluster e.addr.toNat = false ∧
      s.poisoned e.addr.toNat = false) ∧
    s.target kern true true (baseAddr th (fm 0)) 8 = .sram 63 ∧ sramBank 0x10003FFFFFF8 = 63 := by decide +kernel
/-- AADD.D of 32 lanes that each add 0.5 to one word of 1.0 leaves 17.0. -/
theorem test_aadd :
    ((after (.aaddD 0 (fm 0)) { issues kern ⟨0xA8, .m (fm 0)⟩ { pointing 0x100000000000 with
        v := (List.range 32).map fun l => (32 + l, 0x3FE0000000000000) } with
      mem := [(0x100000000006, 0xF0), (0x100000000007, 0x3F)] }).word 0x100000000000 8) = 0x4031000000000000 := by decide +kernel
/-- Two threads of one kernel on core 0, the second in state `st`. -/
def pair : Kernel := { kern with threads := 2, ids := [0, 1] }
/-- The kernel of two threads, whose thread 1 is in state `st`, with thread 0 at the instruction `c`. -/
def issues2 (c : CoreInstr) (st : ThreadState) : State :=
  { issues pair c fresh with threads := [(0, fresh), (1, { st := st })] }

/-- `BarriersEndsAndBudgets`: the last thread of the core or kernel to come, and one that must wait; a thread that is not the
last to end, and one that is. -/
theorem meets_barriers_and_ends :
    0 ∈ pair.ids ∧ coreOf 0 ∈ pair.cores ∧ coreOf 1 = coreOf 0 ∧ (issues2 ⟨0x70, .e (fs 0)⟩ .ready).accessesDone pair 0 = true ∧
    (∀ c ∈ ([(0x70, .barT), (0x71, .barK), (0x69, .ended)] : List (BitVec 8 × ThreadState)),
      (issues2 ⟨c.1, .e (fs 0)⟩ c.2).issuing 0 ⟨c.1, .e (fs 0)⟩ = some pair ∧ ((issues2 ⟨c.1, .e (fs 0)⟩ c.2).thread 1).st = c.2 ∧
      (issues2 ⟨c.1, .e (fs 0)⟩ .ready).issuing 0 ⟨c.1, .e (fs 0)⟩ = some pair) ∧
    (issues2 ⟨0x69, .e (fs 0)⟩ .ended).job? pair.job = some kjob ∧ kjob.phase = .running := by decide +kernel
/-- BAR.T releases both threads when the second one comes, and holds the first. -/
theorem test_barT :
    (let s := after (.barT 0 (fs 0)) (issues2 ⟨0x70, .e (fs 0)⟩ .barT); ((s.thread 0).st, (s.thread 1).st)) = (.ready, .ready) ∧
    ((after (.barT 0 (fs 0)) (issues2 ⟨0x70, .e (fs 0)⟩ .ready)).thread 0).st = .barT := by decide +kernel
/-- The last END completes the kernel. -/
theorem test_end :
    (let s := after (.endThread 0 (fs 0)) (issues2 ⟨0x69, .e (fs 0)⟩ .ended); ((s.job? 0).map (·.phase), s.kernels.length)) =
      (some (.finished .done), 0) := by decide +kernel
/-- RDCYC at symbol 100,000 of the second frame of a kernel: 16,384 + 16,000 budget cycles (07 R368). -/
theorem test_rdcyc :
    ((after (.rdcyc 0 (fs 0)) { issues { kern with cycles := 40000 } ⟨0x74, .e (fs 0)⟩ fresh with
        frame := { counter := 1, symbol := 100000 } }).thread 0).sreg 1 = 32384 := by decide +kernel

/-- A handle whose command is accepted and complete with status DONE. -/
def handle (n : Nat) : Handle := { handle := n, result := some .accepted, job := some 5, done := some (.done, {}) }
/-- The kernel holds `n` handles. -/
def holding (n : Nat) : Kernel := { kern with handles := (List.range n).map handle, nextHandle := n }
/-- EWAIT's operands: handle in s2 and IMM9 in the instruction. -/
def ewait (imm : BitVec 9) : CoreInstr := ⟨0x77, .e (fs imm)⟩

/-- `KernelsPostAndSignal`: EPOST with 15 handles and with 16, of a readable descriptor; EWAIT whose handle has its result and
its completion, and one that has neither, blocking and not; EVWAIT at a counter that has reached its value and one short. -/
theorem meets_kernel_posts :
    ((issues (holding 15) ⟨0x76, .e (fs 0)⟩ (pointing 0x100000000000)).issuing 0 ⟨0x76, .e (fs 0)⟩ = some (holding 15) ∧
      (holding 15).handles.length < 16 ∧ 16 ≤ (holding 16).handles.length ∧
      (issues (holding 16) ⟨0x76, .e (fs 0)⟩ fresh).issuing 0 ⟨0x76, .e (fs 0)⟩ = some (holding 16) ∧
      (let s := issues (holding 15) ⟨0x76, .e (fs 0)⟩ (pointing 0x100000000000)
       s.isSram 0x100000000000 && s.isSram 0x10000000007F && !s.onBadCluster 0x100000000000 &&
         !(s.poisoned 0x100000000000 || s.poisoned 0x100000000040 || s.poisoned 0x10000000007F)) = true) ∧
    (∀ imm ∈ ([0, 1, 2, 3] : List (BitVec 9)), (issues (holding 1) (ewait imm) fresh).issuing 0 (ewait imm) = some (holding 1) ∧
      (issues kern (ewait imm) fresh).issuing 0 (ewait imm) = some kern ∧ ewaitResult kern 0 (imm.getLsbD 0) = none) ∧
    ewaitResult (holding 1) 0 true = some 0x10 ∧
    (∀ b ∈ ([0, 1] : List Nat), (issues kern ⟨0x79, .e (fs 0)⟩ (regs 4095 1)).issuing 0 ⟨0x79, .e (fs 0)⟩ = some kern ∧
      (({ issues kern ⟨0x79, .e (fs 0)⟩ (regs 4095 1) with counters := if b = 0 then [] else [(4095, 1)] } : State).counter 4095 = b)) := by
  decide +kernel
/-- EVSIG adds s3 to the counter that s2 names modulo 4,096, and the counter sticks at its top. -/
theorem test_evsig :
    ((after (.evsig 0 (fs 0)) { issues kern ⟨0x78, .e (fs 0)⟩ (regs 4099 2) with counters := [(3, 0xFFFFFFFE)] }).counter 3) =
      0xFFFFFFFF := by decide +kernel

/-- A cost descriptor with nothing but a kernel's budgets. -/
def kcost : Cost :=
  { version := 1, cls := 0, flags := 0, main := [], rerun := [], alt := [], slew := 0, edge := 0, mask := 0, lsBytes := 4096,
    cycles := 100, traffic := 4096, rate := 4096, badRes := false }
/-- A kernel whose image stands in SRAM and which may start. -/
def unstarted : Kernel := { kern with started := false, image := 0x100000000000, cores := [0, 1], ids := [0, 8] }

/-- `KernelsStartReturnAndStop`. -/
theorem meets_kernel_starts :
    (let s : State := { jobs := [{ kjob with phase := .planned, cost := some kcost }] }
     s.job? 0 = some { kjob with phase := .planned, cost := some kcost } ∧ s.kernel? 0 = none ∧ kjob.stopped = false) ∧
    (let s : State := { kernels := [unstarted], jobs := [{ kjob with phase := .planned }] }
     s.kernel? unstarted.job = some unstarted ∧ s.kernelMayStart unstarted = true ∧
     (∀ x ∈ s.kernels, x.job = unstarted.job ∨ x.started = false ∨ ∀ i ∈ x.ids, i ∉ unstarted.ids) ∧
     (∀ n ∈ unstarted.cores, s.mapped.contains (.core n) = false ∧ n < 256) ∧ s.imageStop unstarted = none ∧ unstarted.ids.Nodup ∧
     unstarted.cores.Nodup ∧ unstarted.size ≤ 65536) ∧
    (let k := { unstarted with image := 0 }
     let s : State := { kernels := [k], jobs := [{ kjob with phase := .planned }] }
     s.kernel? k.job = some k ∧ s.kernelMayStart k = true ∧ s.isHbm k.image = true ∧ k.cores ≠ [] ∧ s.imageStop k = none ∧ k.late = []) ∧
    (let k := { unstarted with copying := true }
     let s : State := { kernels := [k] }
     s.kernel? k.job = some k ∧ k.started = false ∧ s.imageIn k = true ∧ s.imageStop k = none) ∧
    (let k' : Kernel := { kern with job := 1 }
     let j := { kjob with id := 1 }
     let s : State := { kernels := [unstarted, k'], jobs := [{ kjob with phase := .planned }, j] }
     s.kernel? unstarted.job = some unstarted ∧ s.kernelMayStart unstarted = true ∧ (∀ x ∈ s.kernels, x.job = k'.job → x = k') ∧ k' ∈ s.kernels ∧ k'.job ≠ unstarted.job ∧
     k'.started = true ∧ 0 ∈ k'.ids ∧ 0 ∈ unstarted.ids ∧ s.job? k'.job = some j ∧ j.phase = .running) ∧
    ((({ threads := [(0, { st := .ready, loads := [⟨4, .scalar 2 6, 1⟩, ⟨5, .scalar 1 5, 0⟩] })] } : State).thread 0).loads.find?
      fun x => x.waits == 0) = some ⟨5, .scalar 1 5, 0⟩ ∧
    (let k := { kern with cycles := 0 }
     let s : State := { kernels := [k], jobs := [kjob] }
     s.kernel? k.job = some k ∧ k.cycles ≤ s.cyclesUsed k ∧ s.job? k.job = some kjob) ∧
    (let k := { kern with traffic := 100000 }
     ({ kernels := [k], jobs := [kjob] } : State).kernel? k.job = some k ∧ k.budget ≤ k.traffic) := by decide +kernel
/-- KERNEL_START copies the image and gives thread 1 its index in s1, the count in s2 and its core in s4 (07 R342). -/
theorem test_kernel_start :
    (let s := after (.kernelStart 0) { kernels := [unstarted], jobs := [{ kjob with phase := .planned }], mem := [(0x100000000003, 7)] }
     (s.localByte 0 1 3, (s.thread 8).sreg 1, (s.thread 8).sreg 2, (s.thread 8).sreg 4, (s.thread 8).st)) = (7, 1, 2, 1, .ready) := by
  decide +kernel
/-- A kernel whose image lies in HBM asks for its granules, at TRAFFIC_RATE; when they have come its threads start (07 R344, R369). -/
def copied : State := after (.kernelStart 0) { kernels := [{ unstarted with image := 0, rate := 2048 }], jobs := [{ kjob with phase := .planned }], mem := [(3, 7)] }
theorem test_image_from_hbm :
    (copied.reads.map (·.address), copied.kernels.map fun k => (k.copying, k.started, k.traffic, k.late.length)) = ([0], [(true, false, 2048, 1)]) ∧
    (let s := copied.refillKernels
     (s.reads.map (·.address), s.kernels.map fun k => (k.traffic, k.late.length, s.imageIn k))) = ([0, 0], [(4096, 0, false)]) ∧
    (let s := after (.kernelStart 0) (after (.hbmReadReturn 1 .clean) (after (.hbmReadReturn 0 .clean) copied.refillKernels))
     (s.localByte 0 1 3, (s.thread 8).st, s.kernels.map (·.started))) = (7, .ready, [true]) := by decide +kernel
/-- A gather of two granules at a rate of one: the second request waits for the next frame (07 R369); a store there waits as well. -/
theorem test_gather_past_the_rate :
    (let k := { kern with rate := 2048 }
     let th := { pointing 0 with v := [(96, 0), (97, 512)], p := [(1, 3)] }
     let s := after (.vgath 0 { fm 0 with p := 1 }) (issues k ⟨0xA4, .m { fm 0 with p := 1 }⟩ th)
     (s.reads.map (·.address), s.kernels.map fun k => (k.inFrame, k.late.length), (s.thread 0).loads.map (·.waits))) = ([0], [(2048, 1)], [2]) ∧
    (let k := { kern with rate := 2048, inFrame := 2040 }
     let th := { pointing 0 with v := [(32, 1), (33, 2), (97, 512)], p := [(1, 3)] }
     let s := after (.vscat 0 { fm 0 with p := 1 }) (issues k ⟨0xA5, .m { fm 0 with p := 1 }⟩ th)
     (s.byte 0, s.byte 4096, s.refillKernels.byte 4096)) = (1, 0, 2) := by decide +kernel
/-- A later instruction that writes a register keeps its value when an earlier load of it returns (07 R339). -/
theorem test_overwritten_load :
    (let s := after (.sadd 0 (fs 0)) (issues kern ⟨0x40, .s (fs 0)⟩ { fresh with s := [(2, 4), (3, 5)], loads := [⟨0, .scalar 1 7, 0⟩] })
     ((s.thread 0).sreg 1, ((after (.loadReturn 0) s).thread 0).sreg 1)) = (9, 9) := by decide +kernel
/-- MFENCE waits for a load that is outstanding and for a write that is not answered (07 R350). -/
theorem test_mfence :
    ((after (.mfence 0 (fs 0)) (issues kern ⟨0x72, .e (fs 0)⟩ { fresh with loads := [⟨0, .scalar 1 7, 1⟩] })).thread 0).st = .waiting ∧
    ((after (.mfence 0 (fs 0)) { issues kern ⟨0x72, .e (fs 0)⟩ fresh with
        ha := [{ tag := 0, session := 1, page := 0, use := .write 0 (some 0), host := 0, data := [1], size := 0 }] }).thread 0).st = .waiting ∧
    ((after (.mfence 0 (fs 0)) (issues kern ⟨0x72, .e (fs 0)⟩ fresh)).thread 0).pc = 4 := by decide +kernel
/-- SST into a session's host aperture table is refused (09 R458; 07 R347). -/
theorem test_store_into_table :
    (let s := after (.sst 0 (fm 0)) { issues kern ⟨0xA7, .m (fm 0)⟩ (pointing 0x1000) with
        sessions := [(1, some { port := 0, iface := 0, features := 0, sqs := [], cqs := [], ctrBase := 0, ctrCount := 0, table := 0, key := 0, graceMs := 0, reaperS := 0 })] }
     (s.byte 0x1000, s.kernels.map (·.refused))) = (0, [1]) := by decide +kernel
/-- LOAD_RETURN writes the register of the oldest load that has its data; the others stay outstanding (07 R339). -/
theorem test_load_return :
    (let th := (after (.loadReturn 0) { threads := [(0, { st := .ready, loads := [⟨4, .scalar 2 6, 1⟩, ⟨5, .scalar 1 5, 0⟩] })] }).thread 0
     (th.sreg 1, th.sreg 2, th.loads.map (·.n))) = (5, 0, [4]) := by decide +kernel
/-- A second kernel that starts on a thread ends the one that still stands there (07 R367, R368). -/
theorem test_kernel_replaced :
    (let s := after (.kernelStart 0) { kernels := [unstarted, { kern with job := 1 }], jobs := [{ kjob with phase := .planned }, { kjob with id := 1 }] }
     (s.kernels.map (·.job), (s.job? 1).map (·.phase))) = ([0], some (.finished .budgetExhausted)) := by decide +kernel

/-! ## Commands -/

/-- A command of opcode `op` with body `b`, accepted and due at once. -/
def job (op : Nat) (b : Body) : Job :=
  { kjob with hdr := { kjob.hdr with opcode := op }, body := b, phase := .planned, last := 10 }
/-- The sequencers hold every command's entries of frame 0. -/
def entered (s : State) : State :=
  s.jobs.foldl (fun s j => (s.seqWork j).foldl (fun s x => s.enqueue x.1 ⟨j.id, 0, x.2⟩) s) s
/-- One command under way, in frame 1. -/
def under (j : Job) : State := entered { jobs := [j], frame := { counter := 1 } }
/-- A descriptor of `n` elements of the size code `e`, one after the other from `base` on. -/
def desc (base n e : Nat) (stride : Int) : TDesc :=
  { base := base, resume := 0, esize := e, ndim := 1, mcast := false, counts := [n, 0, 0, 0, 0], strides := [stride, 0, 0, 0, 0],
    mask := 0, badRes := false }
/-- Bytes of HBM, from address 0 on, which the command has been given by its granule reads. -/
def fed (j : Job) (bs : List Byte) : Job := { j with staged := ((List.range bs.length).zip bs).map fun x => (x.1, some x.2) }
/-- The command holds those bytes. -/
def hbm (j : Job) (bs : List Byte) : State := { under (fed j bs) with mem := writeMem [] 0 bs }
/-- The elements of a source as the tests' HBM has them. -/
def gotten (s : State) (d : TDesc) (n : Nat) (i : Nat) : List Byte := s.bytes (d.addr i) n

/-- A phase that reserves nothing. -/
def phase0 : Phase :=
  { minFrames := 1, stage := 0, kind := 0, arrayRow := 0, engSlots := 0, sramBytes := 0, accSlots := 0, readGran := [], writeGran := [],
    mesh := [], linkMask := 0, linkSlots := 0, farSymbols := 0, rustraBytes := 0, badRes := false }
/-- XFER of two 16-bit elements from HBM to the SRAM of clusters 0 and 1. -/
def xferJob : Job :=
  job 0x01 (.xfer (desc 0 2 1 2) { desc 0x100000000010 2 1 4 with mcast := true, mask := 3 })
/-- `s.storable d l`, element by element. -/
def storableB (s : State) (d : TDesc) (l : List (Nat × List Byte)) : Bool :=
  l.all fun x => !x.2.isEmpty && (d.addr x.1 :: copiesOf d (d.addr x.1)).all fun a => (List.range x.2.length).all fun i =>
    (s.isHbm (a + i) || s.isSram (a + i)) && !s.onBadStack (a + i)
/-- The Boolean test says what `storable` says. -/
theorem storable_of (s : State) (d : TDesc) (l : List (Nat × List Byte)) (h : storableB s d l = true) : s.storable d l := by
  intro x hx
  simp only [storableB, List.all_eq_true, Bool.and_eq_true, Bool.not_eq_true', List.mem_range] at h
  obtain ⟨h1, h2⟩ := h x hx
  refine ⟨by intro e; simp [e] at h1, fun a ha y hy hl => ?_⟩
  have := h2 a ha (y - a) (by omega)
  rw [Nat.add_sub_cancel' hy] at this
  exact this

/-- `TransfersCopyAndStop`: a transfer whose Leader has its segment, which can read and store all of it; one of two frames, whose
segments are half of it; one whose first element lies in a poisoned block, and one whose first element lies on a page of the host
aperture that is not resident. -/
theorem meets_transfers :
    (let s := hbm xferJob [1, 2, 3, 4]
     let j := fed xferJob [1, 2, 3, 4]
     s.works 0 0x01 j ∧ s.segment? j (s.xferLeader (desc 0 2 1 2) { desc 0x100000000010 2 1 4 with mcast := true, mask := 3 }) =
       some ⟨0, 0, .xferSegment⟩ ∧ j.segmentOf (desc 0 2 1 2) = [0, 1] ∧
     s.holds j (desc 0 2 1 2) ((desc 0 2 1 2).size 0) [0, 1] (gotten s (desc 0 2 1 2) 2) ∧
     storableB s { desc 0x100000000010 2 1 4 with mcast := true, mask := 3 } ([0, 1].map fun i => (i, gotten s (desc 0 2 1 2) 2 i)) = true) ∧
    (let s := under xferJob
     s.works 0 0x01 xferJob ∧ (s.segment? xferJob 0).isSome = true ∧ (xferJob.segmentOf (desc 0 2 1 2)).head? = some 0) ∧
    ({ xferJob with placed := [{ first := 0, n := 2, phase := phase0 }] } : Job).segmentOf (desc 0 2 1 2) = [0] ∧
    ({ under xferJob with poison := [0] } : State).readFor xferJob ((desc 0 2 1 2).addr 0) 2 = .stop .dataUncorrectable 0 ∧
    (under xferJob).readFor xferJob 0x800000001002 2 = .stop .translationFault 0x800000001000 := by
  unfold State.works State.holds; decide +kernel
/-- The elements arrive in both clusters, at the destination's own stride. -/
theorem test_xfer :
    (after (.xfer 0) (hbm xferJob [1, 2, 3, 4])).mem.drop 4 =
      [(0x100000000010, 1), (0x100000000011, 2), (0x100000000014, 3), (0x100000000015, 4),
       (0x100001000010, 1), (0x100001000011, 2), (0x100001000014, 3), (0x100001000015, 4)] := by decide +kernel
/-- ACC_STORE or ACC_LOAD of the 64 exact records of one vector of engine 0, at base 0, in form 0. -/
def accBody : Body := .acc (desc 0x100000000000 64 6 40) 0 1 0 true false (-148) 1
/-- `AccumulatorRecordsAreStoredAndLoaded`: no file is lost; the destination can be stored, the source read. -/
theorem meets_acc_records :
    RecForm.ofCode 0 = some .exact ∧
    (∀ k ∈ (desc 0x100000000000 64 6 40).covered, (under (job 0x08 accBody)).fileLost ((under (job 0x08 accBody)).recordAt 1 1 false k).1 = false) ∧
    (∀ k ∈ (desc 0x100000000000 64 6 40).covered, (under (job 0x08 accBody)).recordBad 0 true ((under (job 0x08 accBody)).recordAt 1 1 false k) = false) ∧
    (under (job 0x08 accBody)).works 0 0x08 (job 0x08 accBody) ∧ (under (job 0x07 accBody)).works 0 0x07 (job 0x07 accBody) ∧
    storableB (under (job 0x08 accBody)) (desc 0x100000000000 2 6 40)
      ((under (job 0x08 accBody)).exportAll .exact 1 0 1 true false (-148) (desc 0x100000000000 2 6 40).covered).2.1 = true ∧
    (under (job 0x07 accBody)).holds (job 0x07 accBody) (desc 0x100000000000 64 6 40) RecForm.exact.size
      (desc 0x100000000000 64 6 40).covered (gotten (under (job 0x07 accBody)) (desc 0x100000000000 64 6 40) 40) := by
  unfold State.works State.holds; decide +kernel
/-- A boundary of the range of exact values: −2³¹⁹ comes back from its record. -/
theorem test_exact_record :
    importExact (importRecord .exact (leBytes 40 (toBits (-(2 ^ 319)) 320))) = (-(2 ^ 319), false) := by decide +kernel

/-- Where the images stand: the SRAM of cluster 0. -/
def sram0 : Nat := 0x100000000000
/-- Bytes of that SRAM, from its start on. -/
def sram (j : Job) (bs : List Byte) : State := { under j with mem := writeMem [] sram0 bs }
/-- SCALE_LOAD of one 64 B entry image to entry 4,095 of clusters 0 and 63. -/
def scaleJob : Job := job 0x09 (.scaleLoad 0 0 4095 1 0xFFFF (desc sram0 1 7 64) (1 + 2 ^ 63))
/-- SCALE_LOAD of a codebook of two entries, or a table of two entries. -/
def slotJob (target e : Nat) (stride : Int) : Job := job 0x09 (.scaleLoad target 1 0 2 0 (desc sram0 2 e stride) 1)
/-- SCALE_READ with CLEAR of two entries of one cluster to HBM. -/
def scaleReadJob : Job := job 0x0A (.scaleRead 0 2 true (desc 0 2 7 64) 1)
/-- Codebook images that rise strictly, and that do not; a table that begins at −∞, and one that does not. -/
def rising : List Byte := [1, 0, 2, 0]
def level : List Byte := [1, 0, 1, 0]
def table (top : Byte) : List Byte := [0, 0, 0x80, top] ++ List.replicate 12 0 ++ List.replicate 16 0
/-- What the descriptor reads of an image. -/
def image (j : Job) (bs : List Byte) (d : TDesc) (n : Nat) : List (List Byte) := d.covered.map (gotten (sram j bs) d n)

/-- `ScaleEntriesAndSlotsLoadAndRead`. -/
theorem meets_scales :
    (let d := desc sram0 1 7 64
     let s := sram scaleJob [0, 0, 0x80, 0x3F]
     s.works 0 0x09 scaleJob ∧ s.holds scaleJob d 64 d.covered (gotten s d 64) ∧ (∀ i ∈ d.covered, 4095 + i < 4096)) ∧
    (let d := desc sram0 2 1 2
     let s := sram (slotJob 1 1 2) rising
     s.works 0 0x09 (slotJob 1 1 2) ∧ s.holds (slotJob 1 1 2) d 2 d.covered (gotten s d 2) ∧
     firstNotRising 0 ((image (slotJob 1 1 2) rising d 2).map fun x => sext (ofLe x) 16) = none ∧
     firstNotRising 0 ((image (slotJob 1 1 2) level d 2).map fun x => sext (ofLe x) 16) = some 1) ∧
    (let d := desc sram0 2 4 16
     let s := sram (slotJob 2 4 16) (table 0xFF)
     s.works 0 0x09 (slotJob 2 4 16) ∧ s.holds (slotJob 2 4 16) d 16 d.covered (gotten s d 16) ∧
     firstBadTable 0 ((image (slotJob 2 4 16) (table 0xFF) d 16).map parseActEntry) = none ∧
     firstBadTable 0 ((image (slotJob 2 4 16) (table 0) d 16).map parseActEntry) = some 0) ∧
    ((under scaleReadJob).works 0 0x0A scaleReadJob ∧
      (∀ k ∈ (desc 0 2 7 64).covered, (under scaleReadJob).clusterOut (nth (bitList 64 1) (k / 2) 0) = false) ∧
      storableB (under scaleReadJob) (desc 0 2 7 64) ((desc 0 2 7 64).covered.map fun k =>
        (k, leBytes 64 ((under scaleReadJob).scale (nth (bitList 64 1) (k / 2) 0) (k % 2)).toNat)) = true) := by
  unfold State.works State.holds; decide +kernel
/-- The scale 1.0 reaches entry 4,095 of cluster 63. -/
theorem test_scale_load :
    (after (.scaleLoad 0) (sram scaleJob [0, 0, 0x80, 0x3F])).scale 63 4095 = 0x3F800000 := by decide +kernel
/-- A scale of −1.0 is refused: the entry stays, and RANGE is set (03 R143). -/
theorem test_scale_load_negative :
    (let s := after (.scaleLoad 0) (sram scaleJob [0, 0, 0x80, 0xBF]); (s.scale 63 4095, (s.job? 0).map (·.flags.range))) =
      (0, some true) := by decide +kernel

/-- `ControlCommandsComplete`: a fence with an earlier command that has its record, a signal, a reset, and a wait for the
present frame. -/
theorem meets_controls :
    (let f := { job 0x0B (.fence 3) with id := 1 }
     let s : State := { jobs := [{ job 0x01 .none with phase := .written .done 0 }, f], frame := { counter := 1 } }
     s.works 1 0x0B f ∧ s.fenceMet f 3 = true) ∧
    (under (job 0x0C (.signal 4095 false 1))).works 0 0x0C (job 0x0C (.signal 4095 false 1)) ∧
    (under (job 0x0C (.signal 0 true 0))).works 0 0x0C (job 0x0C (.signal 0 true 0)) ∧
    (under (job 0x0D (.waitFrame 1))).works 0 0x0D (job 0x0D (.waitFrame 1)) := by
  unfold State.works; decide +kernel
/-- EVENT_SIGNAL with RESET leaves 0; without it the counter sticks at its top. -/
theorem test_event_signal :
    (after (.eventSignal 0) { under (job 0x0C (.signal 7 true 0)) with counters := [(7, 3)] }).counter 7 = 0 ∧
    (after (.eventSignal 0) { under (job 0x0C (.signal 7 false 5)) with counters := [(7, 0xFFFFFFFD)] }).counter 7 = 0xFFFFFFFF := by
  decide +kernel

/-- A running processor. -/
def up : ProcSt := { up := true }
/-- All four processors run. -/
def fwUp : FwSt := { dawn := up, noon := up, dusk := up, twilight := up, booted := true }
/-- A command of a service kind that runs. -/
def running (op : Nat) (b : Body) : Job := { job op b with phase := .running, last := 1 }

/-- `ServiceCommandsComplete`. -/
theorem meets_services :
    (let j := { job 0x0E (.calibrate false 1) with calSlots := [0] }
     (under j).works 0 0x0E j ∧ (under j).slotsDone j 1 false = true) ∧
    (let j := { job 0x0E (.calibrate true 1) with calSlots := [0] }
     let s : State := { under j with fw := fwUp }
     s.works 0 0x0E j ∧ s.slotsDone j 1 true = true ∧ s.cal.saveJob ≠ some 0 ∧ s.cal.saveBusy = false ∧ s.runs .dawn = true) ∧
    (let j := running 0x0E (.calibrate true 1)
     let j := { j with saveSet := some {} }
     let s : State := { under j with fw := fwUp, cal := { saveJob := some 0, saveBusy := true, areas := [none, some (CoefSet.image {})], newest := 1 } }
     s.cal.saveJob = some 0 ∧ s.runs .dawn = true ∧ s.job? 0 = some j ∧ j.phase = .running ∧ j.saveSet = some {} ∧ s.cal.areas.length = 2 ∧
       s.cal.newest < 2) ∧
    (let j := job 0x0F (.selftest true 1 1)
     (under j).job? 0 = some j ∧ (under j).mayStart j = true) ∧
    (let j := running 0x0F (.selftest false 1 1)
     let x := running 0x0F (.selftest true 0x0A 1)
     (under j).job? 0 = some j ∧ j.phase = .running ∧ (under j).testOver j false 1 1 = false ∧ (under x).testOver x true 0x0A 1 = true ∧
       (under x).mayStart x = false ∧ x.stopped = false) ∧
    (let j := job 0x10 .none
     (under j).job? 0 = some j ∧ j.hdr.opcode = 0x10 ∧ (under j).mayStart j = true) ∧
    (let j := running 0x10 .none
     let s : State := { under j with cal := { restoreJob := some 0 } }
     s.cal.restoreJob = some 0 ∧ s.job? 0 = some j ∧ j.phase = .running) ∧
    (let d := { desc 0x100000000000 512 0 1 with resume := 511 }
     let j := { job 0x11 (.query 2 d) with session := 1 }
     let k := { j with snapshot := some (List.replicate 512 0) }
     (under k).works 0 0x11 k ∧ storableB (under k) d (((List.range 512).zip (List.replicate 512 0)).filter (fun x => decide (d.resume ≤ x.1)) |>.map
       fun x => (x.1, [x.2])) = true ∧
     (under j).job? 0 = some j ∧ j.live = true ∧ j.snapshot = none ∧ j.decided + 1 ≤ (under j).frame.counter) := by
  unfold State.works; decide +kernel
/-- The image that `ServiceCommandsComplete` finds in the newest area is valid (05 R291). -/
theorem meets_user_image (x : CoefSet) : x.image.valid = true := by
  have h : Config.devId < 4294967296 := by
    have := Config.stepping.isLt
    unfold Config.devId
    omega
  simp [UserImage.valid, CoefSet.image, CoefSet.crc, h]

/-- CANCEL of command 3 of queue 0, as job 1. -/
def canceller : Job := { job 0x12 (.cancel 0 false 3) with id := 1 }
/-- A target in phase `p` that CANCEL 1 is cancelling or not. -/
def target (p : Phase') (by' : Option Nat) (stopped : Bool) : Job :=
  { job 0x01 .none with seq := 3, phase := p, cancelBy := by', stopped := stopped }

/-- `CancellationStopsItsTarget`: a target that is not there, one that can be cancelled, one that cannot; the boundary E of a
cancelled command; and its completion. -/
theorem meets_cancellation :
    ((under canceller).job? 1 = some canceller ∧ canceller.hdr.opcode = 0x12 ∧ canceller.phase = .planned ∧
      (under canceller).cancelTarget canceller = none ∧ canceller.hdr.waits = []) ∧
    (let c := { canceller with hdr := { canceller.hdr with waits := [⟨5, 1⟩] } }
     (under c).job? 1 = some c ∧ c.hdr.waits ≠ [] ∧ (under c).mayStart c = false) ∧
    (let x := target .running none false
     let s : State := { jobs := [x, canceller], frame := { counter := 1 } }
     s.cancelTarget canceller = some x ∧ s.job? x.id = some x ∧ x.open' = true ∧ x.cancelBy = none ∧
       x.uncancellable (s.frame.counter + 1) = false) ∧
    (let x := { target .running none false with hdr := { kjob.hdr with opcode := 0x10 } }
     let s : State := { jobs := [x, canceller], frame := { counter := 1 } }
     s.cancelTarget canceller = some x ∧ x.uncancellable (s.frame.counter + 1) = true) ∧
    (let x := target .running (some 1) false
     let s : State := { jobs := [x, canceller], frame := { counter := 1 } }
     s.job? 0 = some x ∧ x.cancelBy = some canceller.id ∧ s.job? canceller.id = some canceller ∧
       canceller.decided + 1 ≤ s.frame.counter ∧ x.live = true ∧ x.stopped = false ∧ s.kernel? 0 = none) ∧
    (let x := target .running (some 1) true
     let c := { canceller with phase := .running }
     let s : State := { jobs := [x, c], frame := { counter := 2 } }
     s.job? 0 = some x ∧ x.cancelBy = some c.id ∧ s.job? c.id = some c ∧ c.id ≠ 0 ∧ c.phase = .running ∧ x.stopped = true ∧
       x.live = true ∧ c.decided + 2 ≤ s.frame.counter ∧ ∀ r ∈ s.reads, r.job ≠ 0) := by decide +kernel
/-- Both the target and the CANCEL end. -/
theorem test_cancel_completion :
    (let s := after (.cancelCompletion 0)
       { jobs := [target .running (some 1) true, { canceller with phase := .running }], frame := { counter := 2 } }
     ((s.job? 0).map (·.phase), (s.job? 1).map (·.phase))) = (some (.finished .cancelled), some (.finished .done)) := by decide +kernel
/-! ## Queues, records and stages -/

/-- A session on port 0 with submission and completion queue 0. -/
def session : Session :=
  { port := 0, iface := 1, features := 0xFFFFFFFF, sqs := [0], cqs := [0], ctrBase := 0, ctrCount := 16, table := 0x200000, key := 5,
    graceMs := 0, reaperS := 30 }
/-- Submission queue 0 holds one descriptor, at address 0x10000; completion queue 0, at address 0, has 16 entries. -/
def queued (bs : List Byte) : State :=
  { frame := { counter := 1 }, fw := fwUp, sessions := [(1, some session)], mem := writeMem [] 0x10000 bs,
    sqs := [(0, { base := 0x10000, enable := true, log2 := 4, tail := 1 })], cqs := [(0, { enable := true, log2 := 4 })] }
/-- A FENCE of kind ORDER, due within 1,000 frames of its decision, with NOTIFY_ADMIT or without. -/
def fenceBytes (notify : Bool) : List Byte :=
  [0x0B, 0, if notify then 0x18 else 0x08] ++ List.replicate 13 0 ++ [0xE8, 3] ++ List.replicate 14 0 ++ [1] ++ List.replicate 95 0
/-- The states of `DescriptorsAreTakenInTurn`: with the turn and sequence moved on, and with `want` entries reserved. -/
def turned (s : State) : State := ({ s with rrNext := 1 }.modSq 0 fun x => { x with seq := (x.seq + 1) % 2 ^ 32 }).findSoft 0x10000 128
def reserved (s : State) (want : Nat) : State :=
  ((turned s).modCq 0 fun x => { x with reserved := x.reserved + want }).findInStructs 1 ((turned s).bytes 0x10000 128)
/-- The descriptor is admitted. -/
def admitted (s : State) (want : Nat) (bs : List Byte) : Bool :=
  match (reserved s want).verdict 1 0 0 false bs with
  | .ok _ => true
  | .error _ => false
/-- The descriptor is refused, for another cause than a block that cannot be read. -/
def refused (s : State) (want : Nat) (bs : List Byte) : Bool :=
  match (reserved s want).verdict 1 0 0 false bs with
  | .ok _ => false
  | .error r => r.bad.isNone

/-- `DescriptorsAreTakenInTurn`: a FENCE that is admitted, with and without NOTIFY_ADMIT; an opcode that is not in the table; and a
completion queue without room. -/
theorem meets_descriptor_take :
    (∀ b ∈ [true, false],
      let s := queued (fenceBytes b)
      s.runs .noon = true ∧ s.power.state ≠ .entering ∧ (∀ p ∈ s.posted, s.ownsSq p.session p.sq = true) ∧ s.turn = some 0 ∧
      s.postedWork 0 = none ∧ s.sqOwner 0 = some 1 ∧ (s.sq 0).cq = 0 ∧ (turned s).unreadableBlock 0x10000 128 = none ∧
      fbit ((turned s).bytes 0x10000 128) 2 1 4 = b ∧ (if b then 2 else 1) ≤ (s.cq 0).free) ∧
    admitted (queued (fenceBytes false)) 1 (fenceBytes false) = true ∧ admitted (queued (fenceBytes true)) 2 (fenceBytes true) = true ∧
    refused (queued [0x13]) 1 (List.replicate 128 0) = true ∧ (queued [0x13]).turn = some 0 ∧
    (let s : State := { queued (fenceBytes false) with cqs := [] }
     s.turn = some 0 ∧ (s.cq 0).free < 1) := by decide +kernel
/-- The admitted FENCE is command 0 of queue 0, with SEQ 0, and the queue's next is 1. -/
theorem test_descriptor_take :
    (let s := after .descriptorTake (queued (fenceBytes false))
     (s.jobs.map fun j => (j.id, j.seq, j.hdr.opcode, j.deadline), (s.sq 0).seq, s.admitted, s.rejected)) =
      ([(0, 0, 0x0B, 1001)], 1, 1, 0) := by decide +kernel

/-- A command whose work ended in phase `finished st`. -/
def ended (st : Status) : Job :=
  { job 0x01 .none with phase := .finished st, hdr := { kjob.hdr with opcode := 0x01, sigEn := true, sigCtr := 5 }, guardEnd := 10, deadline := 20 }
/-- `CompletionsWriteTheFinalRecord`: work that ended well within its plan; work that failed, at its boundary and before it; and a
completion queue in HBM. -/
theorem meets_completions :
    (∀ st ∈ [Status.done, .unitFailed],
      let j := { ended st with endDue := st.waitsBoundary }
      let s : State := { under j with sessions := [(1, some session)], cqs := [(0, { enable := true, log2 := 4, reserved := 1 })] }
      s.job? 0 = some j ∧ j.phase = .finished st ∧ j.doneFrame ≤ s.frame.counter ∧ (st.waitsBoundary = true → j.endDue = true) ∧
      (∀ x ∈ j.resid, s.residualHigh x = false) ∧ s.session j.session = some session ∧ session.closing = none) ∧
    ((under (ended .unitFailed)).job? 0 = some (ended .unitFailed) ∧ Status.waitsBoundary .unitFailed = true ∧ (ended .unitFailed).endDue = false ∧
      (under (ended .unitFailed)).inFlight 0 = false) ∧
    (∀ y < 512, ((queued []).isHbm y || (queued []).isSram y) = true ∧ (queued []).onBadStack y = false) := by decide +kernel
/-- The record's status byte is DONE's code and the signal counter rises (11 R508, R509, R541). -/
theorem test_completion :
    (let s := after (.completionWrite 0) { under (ended .done) with sessions := [(1, some session)], cqs := [(0, { enable := true, log2 := 4, reserved := 1 })] }
     ((s.cq 0).t, (s.cq 0).reserved, s.counter 5, (s.job? 0).map (·.phase))) = (1, 0, 1, some (.written .done 1)) := by decide +kernel

/-- A failed unit's record waits for its boundary (10 R500). -/
theorem test_completion_waits :
    (let s := after (.completionWrite 0) (under (ended .unitFailed)); (s.job? 0).map (·.phase)) = some (.finished .unitFailed) ∧
    ((under (ended .unitFailed)).settleEnded.job? 0).map (·.endDue) = some true := by decide +kernel

/-- A stage of one vector of 32 INT4 inputs and one weight tile of 64 channels, on cluster 0, accumulated exactly. -/
def stg : Stage :=
  { redLen := 32, vecB := 1, accBase := 0, compactExp := 0, inForm := 0, wForm := 0, inStore := 2, g := 0, h := 0, rotate := false,
    exact := true, add := false, drain := true, inCb := 0, wCb := 0, inScale := 0, outScale := 0, outType := 7, histDepth := 1,
    margin := 0, satLim := 0, uflLim := 0, mseLim := 0, biasEn := false, eltOp := 0, eltType := 0, act := 0, arg := 0, argAxis := 0,
    rescaleEn := false, seed := 0, chainId := 0, parts := [], rescaleOfs := 0, inDesc := some (desc 0 32 0 1),
    wDesc := some (desc 0x1000 1 10 0), outDesc := some (desc 0x100000100000 64 1 2), inMx := none, outMx := none, eltDesc := none,
    rerunW := none, rerunBuf := none, argDesc := none }
/-- A MATMUL of stages `l` whose run is `r`, on cluster 0. -/
def staged (l : List Stage) (r : StageRun) : Job :=
  { running 0x02 (.stages l) with cost := some { kcost with mask := 1 }, run := { r with started := true } }

/-- `StagesBegin`: each of the three commands may start; a stage with a successor has reached its hand-over. -/
theorem meets_stages_begin :
    (∀ op ∈ ([2, 3, 4] : List Nat),
      let j := { job op (.stages [stg]) with cost := some { kcost with mask := 3 } }
      (under j).job? 0 = some j ∧ j.hdr.opcode = op ∧ (under j).mayStart j = true ∧ (under j).seqWork j ≠ [] ∧
      ({ under j with clusters := [] } : State).mayStart j = false) ∧
    (let j := { staged [stg, stg] {} with handover := some 1 }
     (under j).job? 0 = some j ∧ j.handover = some 1 ∧ 1 ≤ (under j).frame.counter ∧ j.phase = .running ∧ j.stopped = false ∧
     j.run.rerun = false ∧ j.run.stage + 1 < j.body.stageList.length) := by decide +kernel

/-- A granule read that waits for its data, of two bytes at address 0. -/
def read1 (use : ReadUse) : ReadReq := { id := 0, stack := 0, address := 0, job := 0, use := use }
/-- A Farandole tile on its way to cluster 1. -/
def far1 : Far := { id := 0, job := 0, at' := 0, left := [1], bytes := [1, 2], dst := 16 }
/-- The stage under way on clusters 0 and 17, of two sectors. -/
def twin : Job := { staged [stg] {} with cost := some { kcost with mask := 1 + 2 ^ 17 } }
/-- `StreamsReachTheClusters`. -/
theorem meets_streams :
    (let s := under twin
     s.job? 0 = some twin ∧ twin.stage? = some stg ∧ s.committedNow = true ∧ 0 = Nat.max stg.firstTile (twin.run.nextFetch.get 0 0) ∧
     s.fetchSet twin stg 0 = [0, 17] ∧ sectorCopies [0, 17] = [(0, [0]), (1, [17])] ∧ (∀ n ∈ s.fetchSet twin stg 0, s.roomFor twin stg 0 n = true) ∧
     0 < stg.redLen ∧ 0 < stg.tileCount ∧ twin.run.drainFrame = none ∧ stg.inDesc = some (desc 0 32 0 1) ∧ stg.inMx = none ∧
     ∀ i ∈ stg.tileElems 0 0, s.isHbm ((desc 0 32 0 1).addr i) = true) ∧
    (∀ u ∈ [ReadUse.tile [(0, [0])], .weight 0, .feed [(0, 2)]],
      let s : State := { under twin with reads := [read1 u] }
      s.reads.find? (fun x => x.id == (read1 u).id) = some (read1 u) ∧ s.holdsTag (read1 u) = true ∧ s.onBadStack (read1 u).address = false ∧
      s.job? (read1 u).job = some twin ∧ twin.live = true ∧ ∀ i < 2, s.unitBad (0 + i) 1 = false ∧ s.anyPoison (0 + i) 1 = false) ∧
    (let j := staged [stg] {}
     let s := under { j with cost := some { kcost with mask := 3 } }
     s.space 0x100000000000 = .sram 0 ∧ s.space (0x100000000000 + 16 - 1) = s.space 0x100000000000 ∧
     (∀ c ∈ bitList 64 2, bit 3 c = true) ∧ bitList 64 (2 : Word64).toNat ≠ [] ∧ 0x10 + 16 ≤ 0x1000000 ∧
     s.readFor j 0x100000000000 16 = .bytes (List.replicate 16 0) ∧ (∃ c ∈ bitList 64 (2 : Word64).toNat, c ≠ 0)) ∧
    (let s : State := { far := [far1] }
     s.far.find? (fun x => x.id == far1.id) = some far1 ∧ far1.dst + far1.bytes.length ≤ 0x1000000 ∧ ringNext far1.at' < 64 ∧
     far1.left = [ringNext far1.at'] ∧ s.hopFree far1.at' = true ∧ ({ s with farFree := [(0, 1)] } : State).hopFree far1.at' = false) := by
  decide +kernel
/-- ACTIVATION_FETCH of 32 bytes within one granule asks for that granule alone, once for both clusters, with a copy to each sector
(08 R409). -/
theorem test_activation_fetch :
    (let s := after (.activationFetch 0 0) (under twin)
     (s.reads.map fun r => (r.address, r.stack, r.use), (s.cluster 0).bufs.length, (s.cluster 17).bufs.length)) =
      ([(0, 0, .tile [(0, [0]), (1, [17])])], 1, 1) := by decide +kernel
/-- The last cluster of a Farandole tile writes it and the send is gone. -/
theorem test_farandole_hop :
    (let s := after (.farandoleHop 0) { far := [far1] }; (s.mem, s.far, s.farFree)) =
      ([(0x100001000010, 1), (0x100001000011, 2)], [], [(0, 1)]) := by
  decide +kernel
/-- One bank row of channel 0 with 32 weights of 1.0, and the bank of the stage's tile. -/
def row0 : BankRow := { chan := some 0, w := List.replicate 32 (Dy.ofInt 1), sumW := Dy.ofInt 32 }
def bank0 : Bank := { rows := [row0] }
/-- The tile that the row's channel belongs to, with `issued` passes issued and `terms` terms arrived of one. -/
def tile0 (issued terms : Nat) : TileRun := { engine := 0, chans := [some 0], u := 0, issued := issued, terms := terms, need := 1 }
/-- The stage's tile buffer on cluster 0, complete. -/
def buf0 : TileBuf := { job := 0, stage := 0, rerun := false, u := 0, reads := [], hostReads := [], cells := [] }
/-- The stage under way with the tiles `l`. -/
def worked (l : List TileRun) : Job := staged [stg] { tiles := l }
/-- Engine 0 locked, its bank A under light with the tile, its next weight tile in a buffer; the rotation runs. -/
def lit (j : Job) : State :=
  { under j with engines := [(0, { lock := .locked, bankA := bank0, wbufs := [{ job := 0, stage := 0, rerun := false, els := [0], reads := [] }] })],
                 clusters := [(0, { bufs := [buf0] })], cal := { rotating := true } }
/-- A group issued on engine 0 whose one row has yet to convert: light sum 2¹², so that it clips. -/
def issue0 : Issue :=
  { job := 0, stage := 0, rerun := false, vec := 0, grp := 0, ws := 0, slice := 0, ex := 0, colsum := Dy.zero, c := Dy.zero, a := 0,
    narrow := false, rows := [some (0, Dy.ofInt 4096, Dy.zero, row0)] }
/-- The weight tiles of these elements are at hand. -/
def weightsDone (s : State) (j : Job) (st : Stage) (d : TDesc) (e : Nat) (l : List Nat) : Bool :=
  match s.weightTile j st d e l with
  | .done _ none => true
  | _ => false

/-- `LightPathLoadsIssuesAndConverts`: a load, with a bank under light. -/
theorem meets_bank_load :
    let j := worked []
    let s := lit j
    s.job? 0 = some j ∧ j.stage? = some stg ∧ stg.partOf 0 = some (0, 0, 1) ∧ s.committedNow = true ∧ bit j.mask 0 = true ∧ 0 < stg.ws ∧
    0 < stg.blocks ∧ s.inService 0 = true ∧ s.slotIdle 0 = false ∧ j.aheadOn stg 0 = false ∧ stg.wDesc = some (desc 0x1000 1 10 0) ∧
    weightsDone s j stg (desc 0x1000 1 10 0) 0 (stg.tilesOf (s.bankChans stg 0 0 []) 0 0) = true := by
  decide +kernel
/-- `LightPathLoadsIssuesAndConverts`: a swap to a loaded bank with a further tile due on the outgoing one, and one to a parked bank. -/
theorem meets_bank_swap :
    (let s := lit (worked [])
     let s : State := { s with engines := s.engines.map fun x => (x.1, { x.2 with bankB := bank0 }) }
     s.bankReady 0 ((s.engine 0).bank (s.engine 0).loadB) = true ∧ (s.engine 0).activeB ≠ (s.engine 0).loadB ∧ s.bankDue 0 (s.engine 0).active = true) ∧
    (({} : State).engine 0).activeB ≠ (({} : State).engine 0).loadB ∧ ({} : State).bankDue 0 (({} : State).engine 0).active = false ∧
    ({} : State).bankReady 0 {} = false ∧ ({} : State).bankDue 0 {} = false := by
  decide +kernel
/-- `LightPathLoadsIssuesAndConverts`: the first pass of a tile. -/
theorem meets_group_issue :
    let j := worked [tile0 0 0]
    let s := lit j
    s.job? 0 = some j ∧ j.stage? = some stg ∧ stg.partOf 0 = some (0, 0, 1) ∧ bit j.mask 0 = true ∧ 0 < stg.vecs ∧
    stg.firstTile ≤ 0 / stg.vecB ∧ 0 < stg.inSlices ∧ j.run.drainFrame = none ∧ s.issueHeld 0 = false ∧ s.hasRoom j = true ∧ j.run.cur.get 0 0 ≤ 0 ∧
    j.run.doneBefore 0 0 = true ∧ s.buf? j 0 0 = some buf0 ∧ buf0.reads = [] ∧ buf0.hostReads = [] ∧ buf0.bad = none ∧
    s.clusterOut 0 = false ∧ s.inService 0 = true ∧ s.slotIdle 0 = false ∧ bank0 = (s.engine 0).active ∧ bank0.job = 0 ∧
    bank0.stage = j.run.stage ∧ bank0.rerun = j.run.rerun ∧ bank0.rb = 0 ∧ bank0.rows ≠ [] ∧
    j.run.tileFor 0 (0 / stg.vecB) 0 (stg.tileChans (bank0.rows.map (·.chan))) = some (tile0 0 0) ∧
    (tile0 0 0).issued = ((0 - 0) * stg.ws + bank0.ws) * (stg.vecsIn 0 * stg.inSlices) + (0 - 0 * stg.vecB) * stg.inSlices + 0 := by
  decide +kernel
/-- `LightPathLoadsIssuesAndConverts`: a conversion. -/
theorem meets_conversion :
    let j := worked [tile0 1 0]
    let s : State := { under j with engines := [(0, { lock := .locked, issues := [issue0] })] }
    (s.engine 0).waiting 0 = some issue0 ∧
    nth issue0.rows 0 none = some (0, Dy.ofInt 4096, Dy.zero, row0) ∧ s.job? issue0.job = some j ∧ j.open' = true ∧
    j.run.stage = issue0.stage ∧ j.run.rerun = issue0.rerun ∧ j.body.stageList[issue0.stage]? = some stg ∧
    j.run.tileOf (stg.eff issue0.rerun) 0 (issue0.vec / stg.vecB) 0 = some (tile0 1 0) ∧ (tile0 1 0).inFile = true ∧
    ({ tile0 1 0 with inFile := false }).inFile = false ∧ nth (tile0 1 0).chans ((tile0 1 0).place 0) none = some 0 := by
  decide +kernel
/-- A conversion above the range is clamped to 511 of 10 bits and counts as a clip (02 R65, R70). -/
theorem test_conversion_clips :
    (let s := after (.conversionArrival 0 0 0) { under (worked [tile0 1 0]) with engines := [(0, { lock := .locked, issues := [issue0], runPos := some 0 })] }
     ((s.engine 0).convs, (s.engine 0).clips, (s.engine 0).issues.length, (s.job? 0).map (·.flags.saturation))) =
      (1, 1, 0, some true) := by decide +kernel
/-- A conversion that arrives after its command has ended counts as a clip all the same (02 R70). -/
theorem test_conversion_after_end :
    (let s := after (.conversionArrival 0 0 0)
       { under { worked [tile0 1 0] with phase := .finished .cancelled } with engines := [(0, { lock := .unlocked, issues := [issue0], runPos := some 0 })] }
     ((s.engine 0).clips, (s.job? 0).map (·.flags.saturation))) = (1, some true) := by decide +kernel
/-- BANK_SWAP waits while the tile that is next to stream is not loaded (02 R78). -/
theorem test_bank_swap_waits :
    (let s := lit (worked [])
     ((after (.bankSwap 0) s).engine 0).activeB) = false := by
  decide +kernel
/-- BANK_SWAP parks both banks when nothing is due on the engine (02 R92). -/
theorem test_bank_swap :
    (let x := (after (.bankSwap 0) { engines := [(0, { bankA := bank0, bankB := { bank0 with h := 2 } })] }).engine 0
     (x.activeB, x.h, x.bankA.rows, x.bankB.rows)) = (true, 0, [], []) := by decide +kernel

/-- `CompactRoundingPicksANeighbour`: a value finer than the window, one that is not, and sums on both sides of each end. -/
theorem meets_compact_rounding :
    (⟨5, -1⟩ : Dy).e < 0 ∧ (0 : Int) ≤ (⟨5, 0⟩ : Dy).e ∧ (-(2 ^ 63) : Int) ≤ -(2 ^ 63) ∧ (2 ^ 63 - 1 : Int) < 2 ^ 63 ∧
    (6 : Int) % (2 ^ ((0 : Int) - (-1)).toNat : Nat) = 0 ∧ (1 : BitVec 128) ≠ 0 := by decide +kernel
theorem test_window : toWindow (2 ^ 63) = (2 ^ 63 - 1, true) ∧ toWindow (2 ^ 63 - 1) = (2 ^ 63 - 1, false) ∧
    toWindow (-(2 ^ 63) - 1) = (-(2 ^ 63), true) := by decide +kernel

/-- `TilesDrainThroughTheEpilogue`: a tile that has its terms, with no element-wise operand, and its output in SRAM. -/
theorem meets_tile_drains :
    (let j := worked [tile0 1 1]
     let s := under j
     s.job? 0 = some j ∧ j.phase = .running ∧ j.stage? = some stg ∧ j.run.drainOn stg 0 = some (tile0 1 1) ∧ stg.drain = true ∧
     tile0 1 1 ∈ j.run.tiles ∧ (tile0 1 1).closed = false ∧ stg.rescaleEn = false ∧ stg.eltDesc = none ∧ stg.arg = 0 ∧ j.run.rerun = false ∧
     stg.out.isMx = false ∧ stg.outDesc = some (desc 0x100000100000 64 1 2) ∧
     storableB s (desc 0x100000100000 64 1 2) ((s.drainYs j stg (tile0 1 1) ((tile0 1 1).elems stg) []).map fun y =>
       (y.elem, leBytes (2 ^ stg.out.esize) (s.convElem stg .ne 0 y).code)) = true ∧ s.drainBad j stg (tile0 1 1) = none) ∧
    (let st := { stg with biasEn := true }
     let j := staged [st] { tiles := [tile0 1 1] }
     let s : State := { under j with poison := [scaleAddr 0 st.outScale / 64] }
     j.stage? = some st ∧ j.run.drainOn st 0 = some (tile0 1 1) ∧ s.drainBad j st (tile0 1 1) = some (4, 0, scaleAddr 0 st.outScale)) := by
  decide +kernel

/-- A stage with INT8 outputs and a limit on saturation, whose drain has come, with saturated elements or none, and a re-run reserved. -/
def stg8 : Stage := { stg with outType := 2, satLim := 1, outDesc := some (desc 0x100000100000 64 0 1) }
def drained (sat : Nat) (rerun : Bool) : Job :=
  let j := staged [stg8] { drainFrame := some 0, rerun := rerun, stats := [(0, { sat := sat, n := 1 })] }
  { j with hdr := { j.hdr with rerun := true } }
/-- `StepsAreDecidedAndRerun`: a step within its limits, one beyond, with and without a re-run reserved; and a re-run's end
with one element to rewrite. -/
theorem meets_step_decisions :
    (∀ n ∈ ([0, 1] : List Nat),
      let j := drained n false
      let s := under j
      s.job? 0 = some j ∧ j.stage? = some stg8 ∧ j.run.drainFrame = some 0 ∧ j.run.rerun = false ∧ j.handover = none ∧ stg8.drain = true ∧
      0 + 1 ≤ s.frame.counter ∧ stg8.finalPart = stg8.lastPart ∧ stg8.rerunReserved j.hdr = true ∧ stg.rerunReserved j.hdr = false ∧
      overCounts stg8 j.run.stats = (n, 0, 0)) := by decide +kernel
/-- A kept result of 1.0 for element 3, from cluster 0. -/
def kept : KeptY := { elem := 3, y := 0x3F800000, big := false, cluster := 0 }
/-- The re-run of the INT8 stage with that one result. -/
def rerunning : Job := let j := drained 0 true; { j with run := { j.run with ys := [kept] } }
theorem meets_rerun_ends :
    (let st := { stg8 with inForm := 7 }
     let s := under rerunning
     s.job? 0 = some rerunning ∧ rerunning.stage? = some st ∧ rerunning.run.drainFrame = some 0 ∧ rerunning.run.rerun = true ∧ st.arg = 0 ∧
     st.rerunBuf = none ∧ st.outDesc = some (desc 0x100000100000 64 0 1) ∧
     storableB s (desc 0x100000100000 64 0 1) [(3, leBytes 1
       ((s.updateEntries rerunning.mask st rerunning.run.stats (stepEntry st true)).1.convElem st .na 0 (kept.drainY st)).code)] = true) := by
  decide +kernel
/-- The re-run's one element needs no sorting. -/
theorem meets_rerun_elements : rerunElems rerunning = [kept] := by
  simp [rerunElems, rerunning]
/-! ## Locking, combs, converters, records -/

/-- All four processors run in frame `n`, with the engine `x` as engine 0 and comb 0 in service. -/
def engined (n : Nat) (x : Engine) : State :=
  { fw := fwUp, frame := { counter := n }, engines := [(0, x)], combs := [(0, { state := 2 })] }

/-- `LockLossAndExcursionsRemoveEngines`: a lock-loss event of the frame before, of an engine LOCKED or in its slot; the 38th
estimate in succession. -/
theorem meets_lock_loss :
    (∀ l ∈ [LockState.locked, .calib],
      let s := engined 1 { lock := l, lossEvent := some 0 }
      (s.engine 0).lossEvent = some 0 ∧ 0 < s.frame.counter ∧ s.runs .twilight = true ∧ (s.engine 0).lock = l) ∧
    (∀ x ∈ [false, true],
      let s : State := { fw := fwUp, sectors := [(3, { fastCount := 38, excursion := x, affected := if x then [200] else [] })] }
      38 ≤ (s.sector 3).fastCount ∧ (s.sector 3).excursion = x ∧ s.runs .twilight = true ∧ s.engineOut 255 = false ∧ 255 ∉ (s.sector 3).affected) ∧
    ((engined 1 { lock := .calib, lossEvent := some 0, checkDue := true }).engine 0).checkDue = true := by decide +kernel
/-- An engine in its slot leaves with its result abandoned and entry 0x0003, AUX 1 (05 R261, R280). -/
theorem test_engine_removal :
    (let s := after (.engineRemoval 0) (engined 1 { lock := .calib, lossEvent := some 0, residRms := 3 })
     ((s.engine 0).lock, s.log.entries.map fun e => (e.code, e.unit, e.aux, e.detail))) = (.unlocked, [(3, 0, 1, 196608)]) := by
  decide +kernel

/-- An engine in state `l` at step `n` of its relock, with bank A of row 0 alone to check, in tone form or not. -/
def relocking (l : LockState) (n : Nat) (search : List (Nat × Bool × Int)) (tone : Bool) : State :=
  engined 1 { lock := l, relock := { step := n, search := search }, recovFails := 2, toneRelock := tone, bankBFailed := true, probes := 2000,
              masked := (List.range 63).map (· + 1) }
/-- What a bank's row converts in the 64 tone symbols, by chip index, when its rings sit one line off: by hand from the identity
pattern and the rows of H_64, each ring's sign times its line's chip, summed (05 R253, R254). -/
def offByOne : List Int :=
  [-1, -1, -1, -1, 15, -1, -1, -1, -5, -5, -5, -5, 11, -5, 11, -21, 7, 7, 7, 7, 7, -9, -9, -9, 3, 3, 3, 3, 19, 3, -13, 19] ++
  [-1, -1, -1, -1, -1, 15, -17, -17, 3, 3, 3, 3, 3, -13, 3, 3, -1, -1, -1, -1, -17, -1, -1, -1, 3, 3, 3, 3, 3, -13, 3, 3]
/-- The same with every ring on its line. -/
def onLine : List Int :=
  [0, 0, 0, 0, 8, 8, 8, -8, 0, 0, 0, 0, 8, 8, 24, 8, 0, 0, 0, 0, 24, -8, -8, 8, 0, 0, 0, 0, 8, 8, -8, -24] ++
  [0, 0, 0, 0, 8, -24, 8, -8, 0, 0, 0, 0, 8, 8, -8, 8, 0, 0, 0, 0, -8, -8, -8, 8, 0, 0, 0, 0, 8, 8, -8, 8]
/-- 512 tone symbols of bank A of row 0: eight of each chip index. -/
def tones (codes : List Int) : List CheckReading :=
  [{ row := 0, isB := false, syms := (List.replicate 8 (((List.range 64).zip codes).map fun x => { tone := true, k := x.1, code := x.2 })).flatten }]
/-- 1,024 symbols of a vector check, all of them tone symbols. -/
def vectors : List CheckReading := [{ row := 0, isB := false, syms := List.replicate 1024 { tone := true, k := 0, code := 0 } }]
/-- A tone check finds a bank on its line, and one that sits on the next (05 R253, R254). -/
theorem test_tone_on_line : (relocking .verify 0 [] true).checkShifts 0 true (tones onLine) = some [⟨0, false, some 0⟩] := by decide +kernel
theorem test_tone_off_by_one : (relocking .verify 0 [] true).checkShifts 0 true (tones offByOne) = some [⟨0, false, some 1⟩] := by decide +kernel
/-- 511 symbols are no whole check (05 R254). -/
theorem test_short_check :
    (relocking .verify 0 [] true).checkShifts 0 true ((tones onLine).map fun r => { r with syms := r.syms.take 511 }) = none := by decide +kernel
/-- `RelocksCheckAndReportEachBank`: each step of a relock, with every bank on its line and with one on another (`test_tone_on_line`, `test_tone_off_by_one`);
recovery runs at the limits and beyond; banks reported on their line, on another after an index search, and undecided a second
time; an index search that has moved its heater, and one to come. -/
theorem meets_relocks :
    (let s := relocking .unlocked 0 [] false
     s.runs .twilight = true ∧ s.slowRate (sectorOfEngine 0) = true ∧ (s.engine 0).beyond = [] ∧ s.combOn 0 = true ∧ (s.engine 0).lock = .unlocked) ∧
    (∀ n ∈ ([0, 2, 3] : List Nat), ∀ b ∈ [false, true],
      let s := relocking .verify n [] b
      (s.engine 0).lock = .verify ∧ (s.engine 0).relock.step = n ∧ (s.engine 0).toneRelock = b ∧ s.runs .twilight = true ∧
      s.tempOk (sectorOfEngine 0) = true) ∧
    ((relocking .verify 0 [] false).checkShifts 0 false vectors).isSome = true ∧
    (let s := relocking .search 1 [(63, true, 1)] false
     (s.engine 0).relock.step = 1 ∧ (63, true, 1) ∈ (s.engine 0).relock.search ∧
     (s.slew (heaterChan 0 63 true)).present = (s.slew (heaterChan 0 63 true)).target ∧ (s.engine 0).lock = .search ∧
     ((relocking .search 1 [] false).engine 0).relock.search = []) ∧
    (let s : State := { relocking .search 1 [] false with slews := [(heaterChan 0 63 true, { target := 30000, present := 30000 })] }
     ((s.tones.get {} (heaterChan 0 63 true)).amp : Int) ≤ (30000 : Int) + 1 * lineBits ∧
     (30000 : Int) + 1 * lineBits ≤ 65535 - ((s.tones.get {} (heaterChan 0 63 true)).amp : Int)) ∧
    ((relocking .verify 3 [] false).residOver (runResid [] []) = false ∧ (relocking .verify 3 [] false).residOver (runResid [4] [24]) = true ∧
      2 ≤ ((relocking .verify 3 [] false).engine 0).recovFails ∧ (relocking .verify 3 [] false).mapped.contains (.engine 0) = false) ∧
    (let s := engined 1 { searched := [(5, true)], undecided := [(6, true)] }
     (s.engine 0).bankBFailed = false ∧ s.mapped.contains (.bank 0 true) = false ∧ (5, true) ∈ (s.engine 0).searched ∧
     (6, true) ∈ (s.engine 0).undecided) := by decide +kernel
/-- A third recovery run outside the limits declares the engine failed (05 R775; 16 R724). -/
theorem test_recovery_fails :
    (let s := after (.recoveryRunComplete 0 [4] [24]) (relocking .verify 3 [] false); ((s.engine 0).relock.step, s.failing.map (·.1))) =
      (5, [Unit'.engine 0]) := by decide +kernel
/-- A bank one line off sends its heater one line spacing on (05 R257). -/
theorem test_index_search :
    (let s := { relocking .verify 0 [] true with slews := [(heaterChan 0 0 false, { target := 30000, present := 30000 })] }.checkDone 0
       [⟨0, false, some 1⟩]
     ((s.engine 0).lock, (s.engine 0).relock.search, (s.slew (heaterChan 0 0 false)).target)) = (.search, [(0, false, 1)], 41705) := by
  decide +kernel

/-- `CalibrationSlotsTakeAndReturnTheEngine`: frame 16 is the slot of engine 1, and frame 0 that of engine 0; a tone check that fails
twice; the slot's end, with a CALIBRATE that named the engine before the slot began, with Twilight and without. -/
theorem meets_calibration :
    (let s : State := { engined 0 { lock := .locked } with cal := { rotating := true } }
     s.frame.counter % 16 = 0 ∧ s.cal.rotating = true ∧ s.runs .twilight = true ∧ (s.engine 0).lock = .locked ∧
     (s.engine 0).lossEvent = none ∧ s.slotEngine (sectorOfEngine 0) s.frame.counter = some 0 ∧ s.slotEngine 0 16 = some 1 ∧
     s.slotTested 0 s.frame.counter = false) ∧
    (let s : State := { relocking .calib 0 [] false with jobs := [running 0x02 .none], clusters := [(0, { modFails := 1 })] }
     let s := s.modEngine 0 fun x => { x with usedBy := [0] }
     (s.engine 0).lock = .calib ∧ s.runs .twilight = true ∧ (s.checkShifts 0 true (tones offByOne)).isSome = true ∧
     wrongBanks [⟨0, false, some 1⟩] ≠ [] ∧ (s.engine 0).lossSince = false ∧ 0 ∈ (s.engine 0).usedBy ∧
     s.job? 0 = some (running 0x02 .none) ∧ (running 0x02 .none).open' = true ∧ (s.cluster 0).modFails = 1 ∧
     s.mapped.contains (.modulator 0 0) = false) ∧
    (let j := running 0x0E (.calibrate false 1)
     let s : State := { engined 32 { lock := .calib, staged := [(.tiaGain 0, 5)] } with jobs := [j] }
     (s.engine 0).lock = .calib ∧ s.frame.counter % 16 = 0 ∧ s.runs .twilight = true ∧ s.slotTested 0 (s.frame.counter - 16) = false ∧
     s.checkShifts 0 true [] = none ∧ (s.engine 0).calibAbandoned = false ∧ s.job? 0 = some j ∧ j.takesCalib 0 (s.frame.counter - 16) = true ∧
     (s.engine 0).invalid = [] ∧ s.tempOk (sectorOfEngine 0) = true ∧ s.residOver [] = false ∧ s.residOver [1000] = true ∧
     ((s.engine 0).staged.map (·.1)).Nodup ∧ coefIsTrim (.tiaGain 0) = false) ∧
    ({ sectors := [(0, { means := [24999] })] } : State).tempOk (sectorOfEngine 0) = false ∧
    ((engined 0 { trimsStale := true }).engine 0).trimsStale = true ∧
    ((engined 32 { lock := .calib, invalid := [(0, true)] }).engine 0).invalid ≠ [] ∧
    (({ engined 32 { lock := .calib } with fw := {} } : State).runs .twilight = false) := by decide +kernel
/-- An engine that its tone check found on another line returns to SEARCH, one below 25 °C UNLOCKED, any other LOCKED (05 R244, R267,
R279). -/
theorem test_calib_slot_end :
    ((after (.calibSlotEnd 0 {}) (engined 32 { lock := .calib, invalid := [(0, true)] })).engine 0).lock = .search ∧
    ((after (.calibSlotEnd 0 {}) { engined 32 { lock := .calib } with sectors := [(0, { means := [24999] })] }).engine 0).lock = .unlocked ∧
    ((after (.calibSlotEnd 0 {}) (engined 32 { lock := .calib })).engine 0).lock = .locked := by
  decide +kernel
/-- The staged coefficients take effect with the slot's end, and not when its verification exceeds the limits (05 R278, R279). -/
theorem test_coefficients :
    (after (.calibSlotEnd 0 {}) (engined 32 { lock := .calib, staged := [(.tiaGain 3, 5)] })).cal.active.vals = [(.tiaGain 3, 5)] ∧
    (after (.calibSlotEnd 0 { after := [{ raw := 4, exact := 24 }] }) (engined 32 { lock := .calib, staged := [(.tiaGain 3, 5)] })).cal.active.vals = [] := by
  decide +kernel

/-- `CombsStartAndDrop`: a starting comb, permitted; one that has failed a start; and a drop with a command under way on its engine. -/
theorem meets_combs :
    (let s : State := { combs := [(7, { state := 1 })] }
     (s.comb 7).state = 1 ∧ s.power.laser.getLsbD 7 = true ∧ (s.comb 7).failed = false ∧ (s.comb 7).startFails = 0) ∧
    (let s : State := { combs := [(7, { state := 1, startFails := 1 })] }
     1 ≤ (s.comb 7).startFails ∧ s.mapped.contains (.comb 7) = false) ∧
    (let j := worked [tile0 1 0]
     let s : State := { under j with combs := [(0, { state := 2 })], engines := [(31, { lock := .locked, issues := [issue0] })] }
     2 ≤ (s.comb 0).state ∧ combOfEngine 31 = 0 ∧ issue0 ∈ (s.engine 31).issues ∧ s.job? issue0.job = some j ∧ j.open' = true ∧
     s.power.laser.getLsbD 0 = true ∧ (s.comb 0).bias < 1000 ∧ s.mapped.contains (.comb 0) = false) := by decide +kernel
/-- A drop stops the last engine of the comb and not the first of the next (16 R728). -/
theorem test_comb_drop :
    (let s := after (.combOutputDrop 0) { combs := [(0, { state := 2 })] }
     ((s.engine 31).combStopped, (s.engine 32).combStopped, s.failing.map (·.1))) = (true, false, [Unit'.comb 0]) := by decide +kernel

/-- One unit declared failed. -/
def failing (u : Unit') : State := { failing := [(u, 3)] }
/-- `FailedUnitsAreMappedOut`: an engine, a stack, both directions of a lane, and a bank whose engine has its other bank or not. -/
theorem meets_map_out :
    (∀ u ∈ [Unit'.engine 255, .stack 11, .lane 257 true, .lane 0 false, .bank 0 true],
      (failing u).failing.find? (fun x => x.1 == u) = some (u, 3)) ∧
    ((failing (.engine 255)).engine 255).lock ≠ .mappedOut ∧ ((failing (.bank 0 true)).engine 0).bankAFailed = false ∧
    (({ failing (.bank 0 true) with engines := [(0, { bankAFailed := true })] } : State).engine 0).bankAFailed = true := by decide +kernel
/-- An engine that loses its second bank is mapped out with it (16 R726). -/
theorem test_second_bank :
    (let s := after (.unitMapOut (.bank 0 true)) { failing (.bank 0 true) with engines := [(0, { lock := .locked, bankAFailed := true })] }
     ((s.engine 0).lock, s.mapped.contains (.engine 0))) = (.mappedOut, true) := by decide +kernel

/-- A modulator row heater's channel, and a ring trim's. -/
def modHeater : Nat := 32768
def trimChan : Nat := 32832
/-- `SlewsTonesAndMonitors`: a channel below its target, at it and above, and one whose comb is out of service; targets for a modulator
row heater, a bank heater above its range and a ring trim outside its slot; the idle bank's heater; a tone that runs; a
monitor that discards, dwells, scans, and calibrates itself, with factors that fit and not. -/
theorem meets_converters :
    (let s : State := { engined 0 {} with slews := [(0, { target := 100, present := 90 }), (1, { target := 5, present := 5 }), (2, { present := 9 })] }
     (s.slew 0).present ≤ (s.slew 0).target ∧ (s.slew 1).present = (s.slew 1).target ∧ (s.slew 2).target ≤ (s.slew 2).present ∧
     s.heaterHeld 0 = false ∧ s.heaterHeld 4096 = true ∧ s.runs .twilight = true) ∧
    (let s : State := { engined 0 {} with centres := [(0, 20000), (1, 21000), (modHeater, 30000)], tones := [(0, { amp := 164 })] }
     (s.tones.get {} 0).amp = 164 ∧ 164 ≤ 32767 ∧ 65535 - 164 < 65535 ∧ s.heaterHeld 0 = false ∧ (s.tones.get {} modHeater).amp ≤ s.centres.get 0 modHeater ∧
     s.centres.get 0 modHeater ≤ 65535 ∧ s.centres.get 0 (modHeater + 1) = 0 ∧ (s.engine ((trimChan - 32832) / 8192)).lock ≠ .calib ∧
     heaterChan 0 0 false = 0 ∧ heaterChan 0 0 true = 1 ∧ (s.engine 0).activeB = false ∧ (s.engine 0).lock ≠ .search ∧ (s.engine 0).lock ≠ .verify ∧
     0 < s.centres.get 0 0 ∧ 0 < s.centres.get 0 1 ∧ s.centres.get 0 0 ≤ 20500 + s.centres.get 0 1 ∧
     (s.tones.get {} 1).amp ≤ 20500 + s.centres.get 0 1 - s.centres.get 0 0 ∧
     20500 + s.centres.get 0 1 - s.centres.get 0 0 + (s.tones.get {} 1).amp ≤ 65535) ∧
    (let s : State := { oscCycles := 5, tones := [(0, { inc := 2 ^ 20, since := 5 })] }
     (s.tone 0).since ≤ s.oscCycles ∧ 0 < 16448 ∧ s.detecting = true ∧ ({ s with power := { state := .doze } } : State).detecting = false) ∧
    (let fits : Monitor := { selfcal := true, calStep := 3, calZero := 0, calRef := 2 ^ 25 }
     let s : State := { fw := fwUp, monitors := [(67, fits), (1, { skip := 1 }), (2, { dwell := true }), (4, { selfcal := true, calN := 3 }),
                                                 (5, { fits with calRef := 0 }), (64, { input := 149 })] }
     (s.monitor 67).selfcal = true ∧ (s.monitor 67).calStep = 3 ∧ fits.newOffset false = 0 ∧ fits.newGain 0 false = 0 ∧ 0 < fits.refSum 0 ∧
     (s.monitor 5).calStep = 3 ∧ ¬ 0 < (s.monitor 5).refSum 0 ∧ 0 < (s.monitor 1).skip ∧
     (s.monitor 1).selfcal = false ∧ inputDefined 1 148 = true ∧ s.runs .twilight = true ∧
     (s.monitor 2).skip = 0 ∧ (s.monitor 2).dwell = true ∧ (s.monitor 2).input ≠ centreInput 2 ∧ (s.monitor 3).dwell = false ∧ (s.monitor 3).selfcal = false ∧
     (s.monitor 4).selfcal = true ∧ (s.monitor 4).skip = 0 ∧ (s.monitor 4).calStep = 0 ∧ (s.monitor 4).calN = 3 ∧
     (s.monitor 64).skip = 0 ∧ (s.monitor 64).selfcal = false ∧ laneOfInput (64 - 64) (s.monitor 64).input = some 258) ∧
    (∀ f ∈ ([32, 45, 47] : List Nat),
      let s := engined f { lock := .calib }
      s.runs .twilight = true ∧ 32832 ≤ trimChan ∧ (s.engine ((trimChan - 32832) / 8192)).lock = .calib ∧
      s.slotTested ((trimChan - 32832) / 8192) (s.frame.counter - s.frame.counter % 16) = false) ∧
    45 % 16 < 14 ∧ 47 % 16 = 15 ∧ (engined 0 { relock := { held := true } }).heaterHeld 0 = true := by decide +kernel
/-- The idle bank's heater follows the active bank's, with the difference of their centres (05 R250). -/
theorem test_idle_heater :
    ((after (.slewUpdate 0 (some { target := some 20500 })) { engined 0 {} with centres := [(0, 20000), (1, 21000)] }).slew 1).target = 21500 := by decide +kernel
/-- A modulator row heater stays within 8.0 °C of its centre, 13,114 settings (05 R240, R245). -/
theorem test_mod_heater :
    ((after (.slewUpdate modHeater (some { target := some 50000 })) { engined 0 {} with centres := [(modHeater, 30000)] }).slew modHeater).target = 43114 := by decide +kernel
/-- The fourth output of internal zero turns the converter to the VREF_EXT copy, three outputs of which are discarded (06 R314, R321). -/
theorem test_selfcal :
    (let m := (after (.monitorOutput 0 { raw := 10 }) { monitors := [(0, { selfcal := true, order := 3, calN := 3, calSum := 30 })] }).monitor 0
     (m.calZero, m.calStep, m.input, m.skip)) = (40, 1, 146, 3) := by decide +kernel
/-- A step of at most 64, and never past the target (06 R301). -/
theorem test_slew :
    ((after (.slewUpdate 0 none) { engined 0 {} with slews := [(0, { target := 1000 })] }).slews.get {} 0).present = 64 ∧
    ((after (.slewUpdate 0 none) { engined 0 {} with slews := [(0, { target := 1000, present := 1010 })] }).slews.get {} 0).present = 1000 := by decide +kernel

/-- `RecordsFiguresAndScrub`: a converter of a cluster and one of a link comb whose scan cycle has ended, with a comb in service and one
out; 24 h of powered time; a window with samples, one without, and one that was cut; a stack in service. -/
theorem meets_records :
    (let s : State := { engined 0 {} with monitors := [(0, { cycled := true }), (67, { cycled := true })], cal := { sinceRecord := frames24h } }
     s.runs .twilight = true ∧ s.runs .dawn = true ∧ (s.monitor 0).cycled = true ∧ (s.monitor 0).failed = false ∧ (s.monitor (64 + 3)).cycled = true ∧
     (s.monitor (64 + 3)).failed = false ∧ s.combOn (4 * 0 + 3) = true ∧ s.combOn 32 = false ∧ frames24h ≤ s.cal.sinceRecord) ∧
    (let s := engined 128 { samples := 1 }
     s.frame.counter % 128 = 0 ∧ s.cal.windowCut = false ∧ s.runs .twilight = true ∧
     s.released = true ∧ 0 < (s.engine 0).samples ∧ (s.engine 1).samples = 0 ∧ s.power.state = .run ∧ s.stackBad.contains 11 = false ∧
     s.mapped.contains (.stack 11) = false ∧ s.stackOut 11 = false) ∧
    (let s : State := { poison := [96], latent := [(64, true)] }
     s.granuleAddr 0 1 = 6144 ∧ s.poisoned (s.granuleAddr 0 1 + 64 * 0) = true ∧ s.poisoned (s.granuleAddr 0 1 + 64 * 31) = false ∧
     s.quietAt (s.granuleAddr 0 1 + 64 * 31) 64 = true ∧ s.quietAt 4096 64 = false ∧ s.onBadStack 6144 = false) := by decide +kernel
/-- A residual window that SAMPLE_EN has cut leaves the figures of the last complete one (07 R379). -/
theorem test_cut_window :
    (let s := after .residWindowEnd { engined 128 { samples := 1, residRms := 7 } with cal := { windowCut := true } }
     ((s.engine 0).samples, (s.engine 0).residRms, s.cal.windowCut)) = (0, 7, false) := by decide +kernel
/-! ## Frame time and Fawell links -/

/-- The frame source `f` of a released device with running processors. -/
def framed (f : FrameSt) : State := { fw := fwUp, frame := f }
/-- `MarkersSteerTheFrameSource`: each source at a boundary marker and at its limits; a full run of intervals outside tolerance;
numbered markers with commands open or none; missing markers; and a holdover of more than 1 s. -/
theorem meets_markers :
    (chipErrors 0xF3A50C6A ≤ 2 ∧ 2 < chipErrors 0xF3A50C6E ∧ markerValid 1024 0x29C8775B = true ∧ markerValid 1024 0 = false ∧
      (framed {}).frame.hadMarker = false ∧ (framed {}).frame.source = .localFrames) ∧
    (∀ f ∈ ([{ source := .locked, hadMarker := true }, { source := .holdover, markerInHold := true, hadMarker := true },
        { source := .realigning, over1s := true, hadMarker := true }] : List FrameSt),
      (framed f).released = true ∧ (framed f).frame.anchorFreq = false ∧ (framed f).frame.hadMarker = true ∧
      intervalBad ((1280 :: (framed f).frame.intervals).take 4096) = false) ∧
    intervalBad ((1281 :: List.replicate 5000 1281).take 4096) = true ∧ intervalBad ((1280 :: List.replicate 5000 1280).take 4096) = false ∧
    ((64 : Int).natAbs ≤ 64 ∧ (-1 : Int).natAbs ≤ 1 ∧ 64 < (-65 : Int).natAbs ∧ (51200 : Int).natAbs ≤ 51200 ∧ 51200 < (51201 : Int).natAbs) ∧
    (({ framed { stepRequested := true } with jobs := [running 0x01 .none] } : State).busyJobs = true ∧ (framed { stepRequested := true }).busyJobs = false) ∧
    ((framed { source := .locked, missed := 4 }).frame.source = .locked ∧ 4 ≤ (framed { source := .realigning, missed := 4 }).frame.missed) ∧
    (let s : State := { framed { source := .holdover, holdFrames := frames1s + 1 } with jobs := [running 0x01 .none] }
     s.frame.source = .holdover ∧ frames1s < s.frame.holdFrames ∧ s.frame.holdLogged = false ∧ s.job? 0 = some (running 0x01 .none) ∧
     (running 0x01 .none).phase = .running) := by decide +kernel
/-- The first acquisition steps the counter to the marker's number (10 R474). -/
theorem test_first_acquisition :
    (let f := (after (.numberedMarker 1024 0x29C8775B 0) (framed {})).frame; (f.counter, f.source, f.acquired)) = (1024, .locked, true) := by
  decide +kernel
/-- After a holdover, a phase of half a frame still realigns; one symbol more leaves a step pending (10 R472, R473). -/
theorem test_realigning :
    ((after (.numberedMarker 1024 0x29C8775B 51200) (framed { source := .holdover, markerInHold := true, counter := 1024 })).frame.source = .realigning) ∧
    ((after (.numberedMarker 1024 0x29C8775B 51201) (framed { source := .holdover, markerInHold := true, counter := 1024 })).frame.stepPending = true) := by
  decide +kernel

/-- `BoundariesBeginTheNextFrame`. -/
theorem meets_boundaries :
    (let s : State := { framed {} with cal := { shadowNext := some (3, false) }, cfg := { commitDue := true } }
     s.power.refclkLost = false ∧ s.runs .noon = true ∧ s.cal.shadowNext = some (3, false) ∧ s.cfg.commitDue = true) ∧
    ({ power := { refclkLost := true } } : State).power.refclkLost = true := by decide +kernel
/-- A boundary commits frames up to 63 past the new one (10 R479). -/
theorem test_boundary :
    (let f := (after (.frameBoundary {}) (framed { symbol := 102399 })).frame; (f.counter, f.symbol, f.committed)) = (1, 0, 64) := by
  decide +kernel

/-- The counter is a 64-bit number (00 R15). -/
theorem test_counter_wraps :
    (after (.frameBoundary {}) (framed { counter := 2 ^ 64 - 1 })).frame.counter = 0 := by decide +kernel

/-- A plan in which lane 0 of device lane index 0 serves peer 0, with relay slots or none. -/
def lane0 (relay : Nat) : PlanLane := { txLine := 5, txEn := true, txPeer := 0, rxLine := 6, rxEn := true, rxPeer := 0, relay := relay }
def plan (relay : Nat) : Plan := { lanes := [lane0 relay], peers := [{ fa := 9, relay := none, valid := true, uid := 77 }] }
/-- A device of fabric address 8 with that plan in force, whose lane 0 is `l`. -/
def linked (relay : Nat) (l : Lane) : State :=
  { fw := fwUp, link := { fabricAddr := 8, active := some (plan relay), lanes := [(0, l)] } }
/-- A lane in service. -/
def serving : Lane := { tx := 3, rx := 3 }

/-- The bytes of a plan with one invalid peer and no lane enabled. -/
def planBytes : List Byte := [1, 0, 1, 0] ++ List.replicate 2124 0
/-- `PlansAreValidatedAndActivated`: a plan without errors; an armed plan at its frame, that keeps the peer. -/
theorem meets_plans :
    (let s : State := { fw := fwUp, link := { fabricAddr := 8, planAt := 66, armed := 1 } }
     s.link.armed = 1 ∧ s.runs .noon = true ∧ s.planError planBytes true = 0 ∧ s.planError planBytes false = 1) ∧
    (let s : State := { frame := { counter := 66 }, link := { armed := 2, armedAt := 66, armedPlan := some (plan 0), active := some (plan 1) } }
     s.link.armedPlan = some (plan 0) ∧ s.link.armed = 2 ∧ s.link.armedAt ≤ s.frame.counter ∧
     keepsPeer s.link.active (some (plan 0)) 0 = true ∧ (plan 0).lanes[0]? = some (lane0 0)) := by decide +kernel
/-- Activation gives lane 0 its lines (12 R570). -/
theorem test_plan_activation :
    (let s := after .planActivation { frame := { counter := 66 }, link := { armed := 2, armedAt := 66, armedPlan := some (plan 0) } }
     ((s.lane 0).txLine, (s.lane 0).rxLine, s.link.activations, s.link.armed)) = (5, 6, 1, 0) := by decide +kernel

/-- `LanesTrainServeAndFail`: a planned Fawell lane and a Rustra lane at probe power; first and third failures; the peer's identity
and another; a window above the BER limit. -/
theorem meets_lanes :
    ((linked 0 { tx := 1 }).laneLit 0 = true ∧ ((linked 0 { tx := 1 }).lane 0).tx = 1 ∧ (linked 0 { tx := 1 }).planLane 0 = some (lane0 0) ∧
      (linked 0 {}).laneLit 257 = true ∧ (linked 0 { tx := 1 }).txHeard 0 = true ∧
      (({ link := { lanes := [(256, { tx := 2 })] } } : State).lane 256).tx = 2 ∧ ({} : State).ha = []) ∧
    (∀ n ∈ ([0, 1, 2] : List Nat), ((linked 0 { tx := 2, fails := n }).lane 0).tx = 2 ∧ ((linked 0 { tx := 2, fails := n }).lane 0).fails = n) ∧
    ((linked 0 { tx := 2 }).identityOk 0 ⟨77, 9⟩ = true ∧ (linked 0 { tx := 2 }).identityOk 0 ⟨78, 9⟩ = false) ∧
    (0 ∈ (linked 0 serving).pairedTx 0 ∧ 1 ∉ (linked 0 serving).pairedTx 0 ∧ ((linked 0 serving).lane 0).rx = 3) ∧
    ((linked 0 serving).frame.counter % 128 = 0 ∧ fp32.decode 0x39803A89 = .fin false 0x803A89 (-35) ∧
      (Dy.ofInt 2).lt ((⟨0x803A89, -35⟩ : Dy).mul (Dy.ofInt 10000)) = true) ∧
    (let j := running 0x05 (.collect 4 [{ peer := 0, recv := true, desc := desc 0 4 1 2 }])
     let s : State := { linked 0 serving with jobs := [j] }
     s.planLane 0 = some (lane0 0) ∧ s.job? 0 = some j ∧ j.phase = .running ∧ (lane0 0).txPeer ∈ j.peersNamed ∧
     s.goesBy (lane0 0).txPeer (lane0 0).txPeer = true) := by decide +kernel
/-- The third failure in succession fails the lane and starts the count again (12 R590). -/
theorem test_lane_failed :
    (let s := after (.laneTrained 0 .failed) (linked 0 { tx := 2, fails := 2 }); ((s.lane 0).tx, (s.lane 0).fails, s.log.entries.map (·.code))) =
      (5, 0, [0x0103]) := by decide +kernel

/-- A COLLECT that sends four 16-bit elements to peer 0 and receives as many from it. -/
def collEntries : List CollEntry := [{ peer := 0, recv := false, desc := desc 0 4 1 2 }, { peer := 0, recv := true, desc := desc 64 4 1 4 }]
def collJob (p : Phase') : Job := { job 0x05 (.collect 4 collEntries) with phase := p }
/-- A data frame from peer 0 for this device, for the first receive entry: its bytes 6 and 7. -/
def dataFrame : SlotFrame := slotFrame 0 2 0 9 8 4 6 [1, 2]
/-- The COLLECT's data frame that waits to go out. -/
def waiting : TxFrame := { peer := 0, kind := 2, job := 0, entry := 0, ident := 4, offset := 0, data := [0] }
/-- The frames of a COLLECT can all be formed. -/
def framesOk (s : State) (j : Job) : Bool :=
  match (s.begin' j).sendFrames j 4 collEntries ((List.range collEntries.length).zip collEntries) with
  | .ok (_, none) => true
  | _ => false

/-- `SlotFramesMoveOrRelayBytes`: a COLLECT that may start; a lane that carries the waiting frame; data up to the last byte of its
entry; an acknowledgement; damaged frames, a lane out of service, a frame for another device. -/
theorem meets_slot_frames :
    (let j := fed (collJob .planned) (List.replicate 8 1)
     let s := entered { linked 0 serving with jobs := [j], frame := { counter := 1 } }
     s.job? 0 = some j ∧ j.hdr.opcode = 0x05 ∧ s.mayStart j = true ∧ framesOk s j = true) ∧
    (let s : State := { linked 0 serving with link := { (linked 0 serving).link with tx := [waiting], relays := [⟨0, 0, dataFrame⟩] }, frame := { symbol := 6401 } }
     s.laneCarries 0 = true ∧ (∀ r ∈ s.link.relays, r.lane = 0 → r.at' + 6400 < s.now) ∧ s.ownRoom 0 = true ∧
     s.nextFrame? 0 = some waiting) ∧
    (let s : State := { linked 1 serving with link := { (linked 1 serving).link with relays := [⟨0, 0, dataFrame⟩] }, frame := { symbol := 6400 } }
     s.laneCarries 0 = true ∧ s.relayRoom 0 = true ∧ (s.link.relays.find? fun r => r.lane == 0 && decide (s.now ≤ r.at' + 6400)) = some ⟨0, 0, dataFrame⟩) ∧
    (let j := collJob .running
     let s : State := { linked 0 serving with jobs := [j] }
     dataFrame.kind = 2 ∧ dataFrame.crcOk = true ∧ s.laneHears dataFrame.lane = true ∧ s.link.fabricAddr.toNat = dataFrame.dstFa ∧ s.peerOf dataFrame.srcFa = some 0 ∧
     s.collectFor dataFrame.ident 0 = some j ∧ s.job? j.id = some j ∧
     entryFor collEntries 0 dataFrame.entry true = some (1, { peer := 0, recv := true, desc := desc 64 4 1 4 }) ∧
     entryFor collEntries 0 dataFrame.entry false = some (0, { peer := 0, recv := false, desc := desc 0 4 1 2 }) ∧ dataFrame.data ≠ [] ∧
     dataFrame.offset + dataFrame.data.length ≤ ({ peer := 0, recv := true, desc := desc 64 4 1 4 } : CollEntry).bytes ∧
     0 < (desc 64 4 1 4).size 0 ∧
     (∀ k < dataFrame.data.length, s.isHbm ((desc 64 4 1 4).addr (0 + (6 + k) / 2) + (6 + k) % 2) = true ∧
       s.onBadStack ((desc 64 4 1 4).addr (0 + (6 + k) / 2) + (6 + k) % 2) = false)) ∧
    ((linked 0 serving).link.fabricAddr.toNat ≠ 9 ∧ (linked 0 {}).laneHears 0 = false) := by decide +kernel
/-- The two bytes land at the fourth element, and an acknowledgement is queued (12 R582, R583). -/
theorem test_collect_data :
    (let s := after (.collectData dataFrame) { linked 0 serving with jobs := [collJob .running] }
     (s.mem, s.link.tx.map fun x => (x.kind, x.offset))) = ([(76, 1), (77, 2)], [(4, 6)]) := by decide +kernel
/-- The data frame goes out once, with the header of 12 R579; an acknowledgement waits for the width guard, slots 121 to 127. -/
theorem test_slot_frame_send :
    (let s : State := { linked 0 serving with link := { (linked 0 serving).link with tx := [waiting] } }
     let t := after (.slotFrameSend 0) s
     (t.out == [.slotFrame (slotFrame 0 2 0 8 9 4 0 [0])], (t.lane 0).bytesSent, (after (.slotFrameSend 0) t).out.length)) = (true, 1, 1) ∧
    (let s : State := { linked 0 serving with link := { (linked 0 serving).link with tx := [{ waiting with kind := 4 }] } }
     ((after (.slotFrameSend 0) s).link.tx.length, (after (.slotFrameSend 0) { s with frame := { symbol := 96800 } }).link.tx.length)) = (1, 0) := by
  decide +kernel
/-- A relayed frame keeps every byte but FLAGS, and its CRC still holds; RELAY_SLOTS frames a frame go out (12 R576, R577). -/
theorem test_relayed_frame :
    ((dataFrame.relay 0).crcOk, (dataFrame.relay 0).flags, (dataFrame.relay 0).header.drop 2) = (true, 1, dataFrame.header.drop 2) ∧
    (let s : State := { linked 1 { serving with relayUsed := 1 } with link := { (linked 1 { serving with relayUsed := 1 }).link with relays := [⟨0, 0, dataFrame⟩] } }
     (after (.slotFrameSend 0) s).link.relays.length) = 1 := by decide +kernel
/-- A transmit lane whose line changes trains, when it has not trained on the new line, and carries no slot up to PLAN_AT + 244; the
receive lane, which has, retunes (12 R571). -/
theorem test_lane_at_activation :
    (let p : PlanLane := { (lane0 0) with txLine := 5, rxLine := 6 }
     let l := ({ serving with txLines := [0], rxLines := [0, 6] } : Lane)
     let l := (l.activateTx p 100 true).activateRx p 100
     (l.tx, l.rx, l.noSlotsUntil, l.noRxUntil, l.retune, l.rxRetune)) = (2, 3, 345, 0, none, some 100) := by decide +kernel
/-- A frame for peer 0 that arrived on lane 0 is relayed on lane 0, which has relay slots; without relay slots it is dropped. -/
theorem test_relay :
    ((linked 1 serving).relayFrame (slotFrame 0 2 0 9 9 4 6 [])).link.relays.length = 1 ∧
    ((linked 0 serving).relayFrame (slotFrame 0 2 0 9 9 4 6 [])).link.relays.length = 0 := by decide +kernel

/-- A chain of two parts on this device, on clusters 0 and 1, and one whose first part is on peer 0. -/
def chained (first : Nat) : Stage :=
  { stg with redLen := 64, chainId := 3, inDesc := some (desc 0 64 0 1), wDesc := some (desc 0x1000 2 10 1152),
             parts := [{ mask := 1, start := 0, len := 32, peer := first }, { mask := 2, start := 32, len := 32, peer := 0xFFFF }] }
/-- Tiles of the first and of the second part, both with their terms. -/
def part0 : TileRun := { tile0 1 1 with part := 0 }
def part1 : TileRun := { tile0 1 1 with engine := 4, part := 1 }
/-- A frame of one running sum of the chain for this device. -/
def sumFrame : SlotFrame := slotFrame 0 3 0 9 8 3 0 (List.replicate 10 0)

/-- `PeerContractsAndRunningSums`. -/
theorem meets_contracts :
    (let j := collJob .running
     let s : State := { linked 0 serving with jobs := [j], link := { (linked 0 serving).link with peers := [(0, { unreachable := 8 })] } }
     s.job? 0 = some j ∧ j.phase = .running ∧ j.stopped = false ∧ 0 ∈ j.peersNamed ∧ 8 ≤ (s.link.peers.get {} 0).unreachable ∧
     (s.jobs.find? fun x => x.live && !x.stopped && x.peersNamed.contains 0 && x.identWith 0 == dataFrame.ident) = some j) ∧
    (let j := staged [chained 0xFFFF] { tiles := [part0, part1] }
     let s := under j
     s.job? 0 = some j ∧ j.stage? = some (chained 0xFFFF) ∧ (chained 0xFFFF).parts[1]? = some { mask := 2, start := 32, len := 32, peer := 0xFFFF } ∧
     j.run.partTiles (chained 0xFFFF) 0 0 = [part0] ∧ part0.sent = false ∧ part0.need ≤ part0.terms ∧ part0.rowsOf ≠ [] ∧
     (∀ x ∈ part0.rowsOf, j.run.holds 1 part0.u x.2 = some part1) ∧ part1.need ≤ part1.terms ∧
     0 = (part1.chans.findIdx? (· == some 0)).getD 0 ∧ (chained 0xFFFF).exact = true ∧ part1.inFile = true) ∧
    (let j := staged [chained 0] { tiles := [part1] }
     let s : State := { linked 0 serving with jobs := [j] }
     sumFrame.kind = 3 ∧ sumFrame.crcOk = true ∧ s.laneHears 0 = true ∧ s.link.fabricAddr.toNat = sumFrame.dstFa ∧ s.peerOf sumFrame.srcFa = some 0 ∧
     s.chainFor sumFrame.ident 0 = some (j, chained 0) ∧ s.job? j.id = some j ∧ 0 < sumFrame.data.length / 10 ∧ sumFrame.offset % 10 = 0 ∧
     j.run.holds (sumFrame.entry + 1) ((sumFrame.offset / 10 + 0) / (chained 0).chans / (chained 0).vecB)
       ((sumFrame.offset / 10 + 0) % (chained 0).chans) = some part1 ∧ part1.need ≤ part1.terms) := by decide +kernel

/-- `AttentionCyclesQuietTheConnector`: an idle connector, one that has blinked for two frames, and one that has gone dark. -/
theorem meets_attention :
    (({} : State).conn 4).attn = false ∧
    (let s : State := { frame := { counter := 12208 }, link := { conns := [(0, { attn := true, ind := 1, dark := true })] } }
     (s.conn 0).attn = true ∧ (s.conn 0).ind = 1 ∧ (s.conn 0).frameP + 2 ≤ s.frame.counter ∧ (s.conn 0).dark = true ∧
     (s.conn 0).darkAt + symbols100ms ≤ s.now) := by decide +kernel
/-- A second press ends the cycle and brings quiet lanes back to probe power (12 R599, R600). -/
theorem test_second_press :
    (let s := after (.attnPress 0) { link := { conns := [(0, { attn := true, ind := 2 })], lanes := [(63, { tx := 4, rx := 4 }), (64, { tx := 4 })] } }
     ((s.conn 0).attn, (s.lane 63).tx, (s.lane 63).rx, (s.lane 64).tx)) = (false, 1, 1, 4) := by decide +kernel
/-! ## The Rustra port, sessions and registers -/

/-- A message of session 1, or of none, on port 0. -/
def msg : Msg := ⟨0, 1, 7⟩
def msg0 : Msg := ⟨0, 0, 7⟩
/-- Session 1 is open on port 0 in the state `ss`; its lane is in service and the processors run. -/
def host (ss : Session) : State := { fw := { fwUp with ready := true }, link := { lanes := [(256, serving)] }, sessions := [(1, some ss)] }
/-- The session of the tests, with queue 0, ended grace or not. -/
def lost : Session := { session with lost := true, grace := true }

/-- `RustraMessagesReachTheDevice`: a doorbell of a running and of a stopped Noon, and in the grace; reads and writes at the edges of
a page; an odd address; a message of a session that is not open. -/
theorem meets_rustra :
    (((host session).hears msg = true ∧ (host session).bound msg = true) ∧ (host session).ownsSq msg.session 0 = true ∧
      (host session).session msg.session = some session ∧ (host session).runs .noon = true ∧ session.grace = false ∧ lost.grace = true ∧
      (({ host session with fw := {} } : State).runs .noon = false)) ∧
    ((host session).memStatus 4092 4 = .ok ∧ (host session).memStatus 0x10003FFFF000 4096 = .ok ∧ (host session).memStatus 4092 8 ≠ .ok ∧
      (host session).memStatus 2 4 ≠ .ok ∧ (host session).anyPoison 4092 4 = false) ∧
    (let s : State := { host session with poison := [63], latent := [(64, true)] }
     s.memStatus 4092 4 = .ok ∧ s.anyPoison 4092 4 = true ∧ s.memStatus 4096 4 = .ok ∧ s.onBadStack (64 * 64) = false) ∧
    ((host session).hears { msg with session := 2 } = true ∧ (host session).bound { msg with session := 2 } = false) := by decide +kernel
/-- A doorbell may name one whole queue of descriptors and no more (11 R514). -/
theorem test_doorbell :
    (let s : State := { host session with sqs := [(0, { log2 := 4, enable := true })] }
     (((after (.doorbell msg 0 16) s).sq 0).tail, ((after (.doorbell msg 0 17) s).sq 0).tail, ((after (.doorbell msg 0 17) s).sq 0).dbErr)) =
      (16, 0, true) := by decide +kernel
/-- A word written over Rustra is read back by the answer of a read (12 R605). -/
theorem test_mem_write_read :
    (after (.memRead msg 4092 4) (after (.memWrite msg 4092 [1, 0, 0, 2]) (host session))).out =
      [.memResp msg 0 [], .memResp msg 0 [1, 0, 0, 2]] := by decide +kernel

/-- A host-aperture read of three bytes for command 0, its answer's first byte apart. -/
def haReq : HaReq := { tag := 7, session := 1, page := 0x800000001000, lead := 1, use := .feed 0 0x800000001001 3 }
/-- `AnswersCreditsAndReplays`: an answer that is awaited; a session that has lost its heartbeat; an acknowledgement of a message that
is out; and messages kept for replay. -/
theorem meets_answers :
    (let s : State := { host lost with ha := [haReq], jobs := [running 0x01 .none] }
     (s.hears msg = true ∧ s.bound msg = true) ∧ (s.ha.find? fun x => x.tag == msg.tag.toNat && x.session == msg.session && !x.held) = some haReq ∧
     (s.job? 0).isSome = true ∧ ([0, 1, 2, 3] : List Byte).length = (haReq.lead + 3 + 3) / 4 * 4 ∧ s.session haReq.session = some lost ∧
     lost.lost = true ∧ (s.ha.find? fun x => x.tag == haReq.tag) = some haReq) ∧
    (let r : HaReq := { haReq with held := true, data := List.replicate 64 0 }
     let s : State := { host session with ha := [r] }
     s.hears ⟨0, 0, 0⟩ = true ∧ r.held = true ∧ s.requestPort r.session = 0 ∧ (s.link.ports.get {} 0).hostReq = 0 ∧
     r.data.length ≤ 64 * ((s.link.ports.get {} 0).hostData + 1) ∧ 64 * (s.link.ports.get {} 0).hostData < r.data.length) ∧
    (let s : State := { host session with link := { (host session).link with ports := [(0, { nextSeq := 2, firstUnacked := 4095 })] } }
     s.hears ⟨0, 0, 0⟩ = true ∧ (1 + 4096 - 4095) % 4096 < ((s.link.ports.get {} 0).nextSeq + 4096 - (s.link.ports.get {} 0).firstUnacked) % 4096 ∧
     (s.link.ports.get {} 0).nextSeq ≠ (s.link.ports.get {} 0).firstUnacked) := by decide +kernel
/-- The bytes after the lead reach the command (12 R605). -/
theorem test_ha_resp :
    (let s := after (.haResp msg [9, 1, 2, 3] true) { host session with ha := [haReq], jobs := [running 0x01 .none] }
     (s.ha, (s.job? 0).map (·.staged))) =
      ([], some [(0x800000001001, some 1), (0x800000001002, some 2), (0x800000001003, some 3)]) := by decide +kernel

/-- A package that supports interface versions 0 to 1. -/
def man : Manifest :=
  { keyIndex := 0, svn := 0, fwVersion := 0x01000000, ifaceLow := 0, intercore := 0, hoRead := 0, hoWrite := 0, features := 0xFF,
    hash := [], cores := [] }
/-- A request for two submission queues, one completion queue and 16 counters with the default times. -/
def openReq : OpenReq :=
  { ifaceMin := 0, ifaceMax := 1, features := 0xFF, sqs := 2, cqs := 1, ctrs := 16, tableAddr := 0x200000, claimKey := 5, graceMs := 0,
    reaperS := 0 }
/-- `SessionsOpenCloseAndPass`: an OPEN that is granted; a CLOSE with a command open and without; a CLAIM with its key, another key, and
of a session in heartbeat; TIMERS at both ends of the grace; an ATTEST; and the three expiries. -/
theorem meets_sessions :
    (let s : State := { host session with fw := { fwUp with ready := true, running := some man } }
     s.hears msg0 = true ∧ s.runs .noon = true ∧ s.fw.running = some man ∧ s.fw.ready = true ∧ openReq.ifaceMin ≤ ifaceFor openReq man ∧
     man.ifaceLow ≤ ifaceFor openReq man ∧ s.session 2 = none ∧ s.ctrRange openReq.ctrs = some 16 ∧ openReq.sqs ≤ s.freeSqs.length ∧
     openReq.cqs ≤ s.freeCqs.length) ∧
    (((host session).jobs.any fun j => j.session == 1 && j.open') = false ∧
      (({ host session with jobs := [running 0x01 .none] } : State).jobs.any fun j => j.session == 1 && j.open') = true) ∧
    ((host lost).claimable lost 0 = true ∧ lost.key = 5 ∧ lost.key ≠ 6 ∧ (host session).claimable session 0 = false) ∧
    ((host session).runs .dawn = true ∧ (host lost).session 1 = some lost ∧ (host lost).power.state = .run ∧ lost.lost = true ∧
      lost.grace = true) := by decide +kernel
/-- A CLAIM with another key answers KEY (14 R668). -/
theorem test_claim_key :
    ((after (.claim msg0 1 6 0) (host lost)).out, ((after (.claim msg0 1 5 0) (host lost)).session 1).map (·.lost)) =
      ([.session msg0 0x83 0 4 []], some false) := by decide +kernel

/-- `QueueRegistersTakeTheirValues`: a message served, a stopped and empty queue, both ends of the sizes, a queue with a descriptor
waiting, and a completion queue that nothing uses. -/
theorem meets_queue_registers :
    (((host session).hears msg = true ∧ (host session).bound msg = true) ∧ (host session).runs .noon = true ∧
      ((host session).window msg.session).pair = none ∧ (host session).ownsSq msg.session 0 = true ∧ ((host session).sq 0).enable = false ∧
      ((host session).sq 0).tail = ((host session).sq 0).seq % 65536 ∧ 0 ∈ session.cqs ∧ (host session).isHbm ((host session).sq 0).base = true ∧
      (host session).isHbm (((host session).sq 0).base + 128 * 2 ^ 10 - 1) = true ∧ ((host session).sq 0).log2 < 16 ∧ ((host session).sq 0).cq < 16) ∧
    (let s : State := { host session with sqs := [(0, { enable := true, log2 := 4, tail := 1 })] }
     (s.sq 0).tail < 65536 ∧ (s.sq 0).tail ≠ (s.sq 0).seq % 65536) ∧
    (((host session).cq 0).enable = false ∧ ((host session).cq 0).reserved = 0 ∧ (∀ q < 64, ((host session).sq q).enable = true → ((host session).sq q).cq ≠ 0) ∧
      (host session).isHbm (((host session).cq 0).base + (0x20000 + 0x2000 * 2 ^ 12) - 1) = true) := by decide +kernel
/-- CQ_HEAD never passes the tail (11 R515). -/
theorem test_cq_head :
    ((after (.cqHeadWrite msg 0 3) { host session with cqs := [(0, { enable := true, log2 := 4, t := 3 })] }).cq 0).head = 3 ∧
    ((after (.cqHeadWrite msg 0 4) { host session with cqs := [(0, { enable := true, log2 := 4, t := 3 })] }).cq 0).head = 0 := by decide +kernel

/-- `ControlRegistersTakeTheirValues`: a plan armed and none; SHADOW_CTRL unlocked; ASSET_TAG unset and set; a snapshot under way and
one ready; the paged view's last entry; a bit's alias; accesses of a wrong size, off a word, and at no register. -/
theorem meets_control_registers :
    ((host session).link.armed ≠ 1 ∧ (host session).link.armed ≠ 2 ∧ (({ host session with link := { (host session).link with armed := 2 } } : State).link.armed = 2) ∧
      (host session).locked 4 = false ∧ (host session).power.assetSet = false ∧
      (({ host session with power := { assetSet := true } } : State).power.assetSet = true)) ∧
    (let s : State := { host session with windows := [(1, { busySel := some 1, page := 63, pageCluster := 63 }), (2, { valid := true })] }
     (s.window 1).busySel = some 1 ∧ (s.wideValue 1).isSome = true ∧ (s.window 2).valid = true ∧ (s.window 1).valid = false ∧
     (s.window 1).pageCluster < 64 ∧ (s.window 1).page < 64 ∧ s.entryNamed 63 (64 * 63 + 1023 / 16) = false ∧ scaleValid 0x3F800000 = true) ∧
    (host session).aliasValue (.rustra msg) 0x3100 4 1 = some 16 ∧
    (aliasOf 0xFFFC = none ∧ (host session).regKind 0xFFFC = none) ∧ srcSession .i3c ≠ 1 ∧
    (∀ x ∈ [(Src.rustra msg, 0x20008), (.i3c, 0x3100)], aliasOf x.2 = none ∧ (host session).writeStatus x.1 x.2 4 2 = .ok ∧
      ((host session).writeEffect x.1 x.2 2 false).2 = false) := by decide +kernel
/-- REGISTER_WRITE of SHADOW_LIMITS by a session, and of LOCK from the sideband: whole, of 8 bytes, and off a word (13 R616, R635). -/
theorem test_register_write :
    (let s := after (.registerWrite (.rustra msg) 0x20008 4 0x00030002) (host session); (s.cal.rmsLim, s.cal.peakLim)) = (2, 3) ∧
    (let s := after (.registerWrite .i3c 0x3100 4 2) {}; (s.power.lock, s.side.status)) = (2, 0) ∧
    (after (.registerWrite .i3c 0x3100 8 2) {}).side.status = 1 ∧ (after (.registerWrite .i3c 0x3101 4 2) {}).side.status = 2 := by
  decide +kernel

/-- `GuardedRegistersChangeThroughPairs`: nothing pending, and each register's value pending at both ends of its range. -/
theorem meets_guarded_registers :
    ((({} : State).window 0).pair = none ∧ ({} : State).locked 0 = false ∧ ({} : State).locked 1 = false) ∧
    (∀ g ∈ ([(1, 100), (1, 280), (2, 90), (2, 115), (3, 0), (3, 0x1FFFF)] : List (Nat × Word32)),
      (({ windows := [(0, { pair := some g })] } : State).window (srcSession .i3c)).pair = some g) ∧
    ((0 : Word32).getLsbD (combOfEngine 255) = false ∧ ({} : State).power.laser.getLsbD (combOfEngine 255) = true ∧ combOfEngine 255 < 8 ∧
      (({} : State).engine 255).lock ≠ .mappedOut) := by decide +kernel
/-- A completed pair changes POWER_CAP; another partner value counts a guard failure (13 R629). -/
theorem test_pair :
    (let s := after (.powerCapCWrite .i3c (~~~200)) (after (.powerCapWrite .i3c 200) {}); (s.power.cap, s.power.guardFail)) = (200, 0) ∧
    (let s := after (.powerCapCWrite .i3c 200) (after (.powerCapWrite .i3c 200) {}); (s.power.cap, s.power.guardFail, s.side.status)) =
      (0x118, 1, 4) := by decide +kernel

/-- `OnlyColdResetUndoesLocksAndMapping`: a step that is no cold reset, a supply reset of another rail among them, in a state with
a LOCK bit set, an engine mapped out and a unit in the list, and nothing pending at the sideband; `meets_queue_registers` has a session
that Noon serves. -/
theorem meets_locks :
    (let s : State := { power := { lock := 1 }, engines := [(0, { lock := .mappedOut })], mapped := [.engine 0],
                        pending := [.supplyReset .vcore 0 700] }
     (match step s with
      | .next _ => true
      | _ => false) = true ∧ s.pending.head? ≠ some .coldReset ∧ s.pending.head? ≠ some .powerOnReset ∧
     Rail.always .vcore = false ∧ s.power.lock.getLsbD 0 = true ∧ (s.engine 0).lock = .mappedOut ∧ .engine 0 ∈ s.mapped ∧
     (s.window 0).pair = none) := by
  decide +kernel
/-- LOCK bits are set and never cleared (13 R635). -/
theorem test_lock :
    (after (.lockWrite .i3c 2) (after (.lockWrite .i3c 4) {})).power.lock = 6 := by decide +kernel

/-- `TheSidebandAnswers`: debug access with LK_DEBUG clear, with it set, and a halted processor. -/
theorem meets_sideband :
    ({} : State).locked 3 = false ∧ ({ power := { lock := 8 } } : State).locked 3 = true ∧
    (({ fw := { noon := { halted := true } } } : State).proc .noon).halted = true := by decide +kernel
/-- An address once taken stays (17 R754). -/
theorem test_entdaa : (after (.setdasa 9) (after (.entdaa 8) {})).side.dynAddr = some 8 := by decide +kernel
/-! ## Power, supply, resets and firmware -/

/-- `PowerAndHeatAreLimited`: a reading above the cap and one at it; diodes above, below and between the thresholds; the latch set with
nothing that holds it; a trip diode at the limit and one below. -/
theorem meets_power :
    (let s : State := { fw := fwUp, power := { emergency := true } }
     5 * s.power.capInForce < 1401 ∧ 1400 ≤ 5 * s.power.capInForce ∧ s.runs .dusk = true ∧ 8 * s.power.throttleC < 801 ∧
     (∀ k < 4, (s.sector k).thermMw ≤ (s.sector k).throttle) ∧ 784 ≤ 8 * s.power.throttleC - 16 ∧ 8 * s.power.throttleC - 16 < 785 ∧ s.power.emergency = true ∧ s.power.thermHold = false ∧
     s.power.dipHold = false ∧ s.fw.update = .none ∧ s.power.state ≠ .tripped ∧ s.power.state ≠ .off ∧ 8 * s.power.tripC ≤ 920 ∧
     919 < 8 * s.power.tripC) := by decide +kernel
/-- 0.2 W above the cap comes off vector issue (15 R698). -/
theorem test_power_limiter :
    ((after (.powerLimiter 1401 [1000, 0, 0, 0] [0, 0, 0, 0] [0, 0, 0, 0]) {}).sector 0).thrVec = 1000 := by decide +kernel
/-- At 115.0 °C on a trip diode the device shuts down with cause 4 (15 R708, R720). -/
theorem test_trip :
    (let p := (after (.thermalTrip 2 920) { fw := fwUp }).power; (p.state, p.cause, p.causeDie, p.alert)) = (.tripped, 4, 2, true) := by
  decide +kernel

/-- `SupplyDipsHoldAndMark`: a rail that is watched, with a command that converted 512 symbols ago; a long dip and a short one; the
reference check after it, with a row that has failed before. -/
theorem meets_dips :
    (let j := { running 0x02 .none with lastConv := some 100 }
     let s : State := { fw := fwUp, frame := { symbol := 612 }, jobs := [j] }
     s.watches .vcore = true ∧ s.power.dip = false ∧ s.power.lastDip = none ∧ s.job? 0 = some j ∧ j.open' = true ∧ j.lastConv = some 100 ∧
     s.frame.counter * Config.symbolsPerFrame + s.frame.symbol ≤ 100 + 512) ∧
    (let s : State := { power := { dip := true, dipEnded := true }, engines := [(255, { lock := .locked, refFailed := [63] })] }
     s.power.dip = true ∧ 20 < 21 ∧ s.power.dipHold = false ∧ s.power.dipEnded = true ∧ (255, 63) ∈ [(255, 63)] ∧
     63 ∈ (s.engine 255).refFailed ∧ s.mapped.contains (.rowAdc 255 63) = false ∧ (s.engine 255).lock = .locked) := by decide +kernel
/-- A failed row takes the engine out of service until it relocks (15 R712). -/
theorem test_reference_check :
    (let s := after (.dipReferenceCheck [(255, 63)]) { power := { dipEnded := true, issueHeld := true }, engines := [(255, { lock := .locked })] }
     ((s.engine 255).lock, (s.engine 255).refFailed, s.power.issueHeld)) = (.unlocked, [63], false) := by decide +kernel

/-- What boot meets with everything in order. -/
def bootOk : BootObs := {}
/-- `ResetsKeepWhatTheySay`: nothing locked or pending; REFCLK present; a rail that is not always on, outside Retain, and one that is;
the wait for the rails in Retain; the release after reset. -/
theorem meets_resets :
    (({} : State).locked 0 = false ∧ (({} : State).window 0).pair = none ∧ ({} : State).power.state ≠ .tripped ∧ ({} : State).power.refclkLost = false ∧
      Rail.always .vcore = false ∧ Rail.always .vaon = true ∧ ({} : State).power.state ≠ .retain) ∧
    (let s : State := { power := { state := .retain, railWait := true } }
     s.power.state = .retain ∧ s.power.railWait = true ∧ s.power.wakeLatched = false) ∧
    (({} : State).fw.booted = false ∧ ({} : State).power.state = .run ∧ bootOk.vrefOk = true ∧ bootOk.railsOk = true ∧ bootOk.fits = [] ∧
      ({ bootOk with vrefOk := false } : BootObs).vrefOk = false) := by decide +kernel
/-- A warm reset keeps HBM and loses cluster SRAM (15 R718; 09 R460). -/
theorem test_warm_reset :
    (let s := after (.resetCtrlWarm .i3c) { fw := fwUp, mem := [(5, 1), (0x100000000000, 2)], power := { lock := 2 }, frame := { counter := 9 } }
     (s.mem, s.power.lock, s.frame.counter, s.power.cause)) = ([(5, 1)], 2, 9, 2) := by decide +kernel

/-- `PowerStatesComeAndGo`: Run with a command open and with none; Doze; the entries of Retain and Off; a wake in each; floors at the
present ones; and a hardware register. -/
theorem meets_power_states :
    ((host session).locked 0 = false ∧ (host session).power.state = .run ∧ (host session).busyJobs = false ∧
      ({ host session with jobs := [running 0x01 .none] } : State).busyJobs = true) ∧
    (let s : State := { host session with power := { state := .doze }, engines := [(0, { lock := .locked })] }
     s.power.state = .doze ∧ s.busyJobs = false ∧ s.locked 0 = false ∧ (s.engine 0).lock = .locked) ∧
    (let s : State := { power := { state := .entering, target := 2, retainMask := 0x8000 } }
     s.power.state = .entering ∧ s.power.target = 2 ∧ s.isHbm 0 = true ∧ s.space 0x10003C000000 = .sram 60 ∧ s.power.retainMask.getLsbD (60 / 4) = true) ∧
    (({ power := { state := .retain, railWait := true } } : State).power.wakeLatched = false ∧ ({ power := { state := .resuming } } : State).power.state = .resuming ∧
      (({} : State).engineOut 0 = false ∧ bootOk.combsBad.contains (combOfEngine 0) = false ∧ ({} : State).power.laser.getLsbD (combOfEngine 0) = true ∧
        (({} : State).comb (combOfEngine 0)).failed = false ∧ bootOk.calib = [] ∧ (({} : State).engine 0).invalid = [] ∧
        25000 ≤ nth bootOk.temps (sectorOfEngine 0) 75000 ∧ nth bootOk.temps (sectorOfEngine 0) 75000 ≤ 105000) ∧
      ({ power := { state := .entering, target := 3 } } : State).power.target = 3) ∧
    ((∀ k < 4, bits 0 (8 * k) 7 ≤ 100 ∧ bits 0 (8 * k) 7 ≤ nth (host session).power.floors k 0) ∧ (0x10000 ∈ hwOffsets ∧ ({} : State).hwValue 0x10000 = some 0x118)) ∧
    (0x20000 ∈ shownOffsets ∧ (host session).runs .twilight = true ∧ (({} : State).lockValue 0x20000).isSome = true ∧
      ({} : State).runs .twilight = false ∧ (host session).runs .noon = true ∧ ({} : State).runs .noon = false ∧
      noonOffsets.all (fun o => (({} : State).noonValue o).isSome) = true) := by
  decide +kernel
/-- Retain keeps the SRAM of a retained domain alone (09 R461; 15 R690). -/
theorem test_retain_entry :
    (after .retainEntryComplete { power := { state := .entering, target := 2, retainMask := 1 }, mem := [(0x100000000000, 1), (0x100004000000, 2)] }).mem =
      [(0x100000000000, 1)] := by decide +kernel
/-- A stale copy carries the refresh number above its value (13 R647). -/
theorem test_stale_copy : (after .staleCopyRefresh {}).copy 0x10000 = 0x01000118 := by decide +kernel

/-- A device in its release with an update in the state `u`. -/
def updating (u : Update) : State := { host session with fw := { fwUp with ready := true, update := u, staged := [(true, man)] } }
/-- `FirmwareStopsReturnsAndUpdates`: a processor that stops for the eighth time; one that has stopped; STAGE and ACTIVATE with LK_FW clear
and set, the latch set and clear; a staged package, a confirmation, each point of a switch sequence, a roll-back, a held
ACTIVATE; and recovery mode. -/
theorem meets_firmware :
    (let s : State := { host session with fw := { fwUp with noon := { up := true, expiries := 7 } }, engines := [(0, { lock := .locked })] }
     s.released = true ∧ s.fw.update = .none ∧ 7 ≤ (s.proc .noon).expiries ∧ (s.proc .noon).expiries ≤ 8 ∧ (s.engine 0).lock = .locked) ∧
    (let s : State := { host session with fw := { fwUp with twilight := {} }, engines := [(0, { lock := .held, heldLoss := true })] }
     s.released = true ∧ (s.proc .twilight).up = false ∧ (s.engine 0).lock = .held ∧ (s.engine 0).heldLoss = true) ∧
    (((updating .none).hears msg0 = true ∧ (updating .none).locked 2 = false ∧ (updating .none).runs .dawn = true ∧ (updating .none).fw.update = .none ∧
      ((updating .none).fw.staged.any fun x => x.1 == (1 == 1)) = true ∧ (updating .none).fw.svnFuses ≤ ((updating .none).manifestOf (1 == 1)).svn ∧
      (updating .none).power.emergency = false ∧ (updating .none).fw.confirming = none) ∧
      ({ power := { lock := 4 } } : State).locked 2 = true) ∧
    ((updating (.staging 0 0 100)).fw.update = .staging 0 0 100 ∧ (updating (.staging 0 0 100)).runs .dawn = true) ∧
    (let s : State := { updating (.running 0 true 0 [] none) with frame := { counter := 1 } }
     s.released = true ∧ s.power.emergency = false ∧ s.fw.update = .running 0 true 0 [] none ∧ 0 ≤ s.frame.counter ∧ switchOrder[0]? = some .twilight) ∧
    (let s := updating (.running 0 true 0 [.twilight, .dusk, .noon] (some .dawn))
     s.fw.update = .running 0 true 0 [.twilight, .dusk, .noon] (some .dawn) ∧ (s.proc .dawn).up = true ∧ 3 ≤ [Proc.twilight, .dusk, .noon].length) ∧
    (let s : State := { updating (.held msg0 true) with power := { emergency := true } }
     s.power.emergency = true ∧ s.fw.update = .held msg0 true ∧ s.power.thermHold = false ∧ s.power.dipHold = false ∧ s.runs .dusk = true) ∧
    (let s : State := { fw := { recovery := true, blockNext := 8 } }
     s.fw.recovery = true ∧ s.fw.blockNext ≤ 8 ∧ 8 + 256 ≤ slotSize ∧ 5 ≤ slotSize) := by decide +kernel
/-- The confirmation that `FirmwareStopsReturnsAndUpdates` speaks of. -/
theorem meets_confirmation :
    (let s : State := { updating .none with fw := { fwUp with confirming := some msg0, running := some man } }
     s.fw.confirming = some msg0 ∧ s.runs .dawn = true ∧ s.fw.running = some man) := by decide +kernel
/-- The fourth processor's switch ends the sequence with notices of stages 2 and 4 (14 R679). -/
theorem test_last_switch :
    (let s := after (.processorReady .dawn) (updating (.running 0 true 0 [.twilight, .dusk, .noon] (some .dawn)))
     (s.fw.update, s.fw.unconfirmed, s.out)) = (.none, true, [.notice 0 2 0 0 0, .notice 0 4 0 0 0]) := by decide +kernel
/-- Without a valid package the released device stays in recovery mode (14 R660). -/
theorem test_recovery : (after (.hubRelease bootOk) {}).fw.recovery = true := by decide +kernel

/-! ## The whole machine -/

/-- The manual's example of an HBM address: stack 4, channel 19, granule 24,855 of it (09 R441). -/
theorem test_hbm_address :
    (stackAt [] 0x003123456800, channelAt [] 0x003123456800) = (4, (19, 24855)) := by decide +kernel

/-- `StepRunsTheFrontCommand` and `EveryStepAnswersANextState` need no more than a queue; `StepsKeepMemoryCanonical` a memory in its form and
a step. -/
theorem meets_steps :
    (let s : State := { mem := [(0, 1), (9, 2)], pending := [.rstdaa] }
     s.memOk = true ∧ (match step s with
       | .next t => t.memOk
       | _ => false) = true ∧ ({} : State).pending = [] ∧ ({} : State).frame.symbol < 102399 ∧
     102399 ≤ ({ frame := { symbol := 102399 } } : State).frame.symbol) := by decide +kernel
/-- Writing what an unlisted address reads as removes the entry (log 2). -/
theorem test_memory_form : (writeMem [(0, 1), (9, 2)] 9 [0]) = [(0, 1)] := by decide +kernel
/-- With no command waiting one symbol passes, and the count rests at the last (log 13). -/
theorem test_idle :
    (match step { frame := { symbol := 102398 } } with
      | .next t => t.frame.symbol
      | _ => 0) = 102399 ∧
    (match step { frame := { symbol := 102399 } } with
      | .next t => t.frame.symbol
      | _ => 0) = 102399 := by decide +kernel
/-- `CoreWordsRoundTrip` speaks of every well-formed instruction: a short and a long one. -/
theorem meets_core_words : CoreInstr.wf ⟨0x01, .v (fv 1)⟩ = true ∧ CoreInstr.len ⟨0x01, .v (fv 1)⟩ = 4 ∧ CoreInstr.len ⟨0x90, .v (fx 1)⟩ = 8 := by
  decide

end Sys2Proof.Tests
end

section
/-! PROOFS. Loops, reading of commands and engines, and what work of the light path leaves as it was: the state beside commands, engines,
clusters and accumulator files. -/

namespace Sys2Proof.Machine

/-! ## Loops -/

theorem forEach_append {α : Type} (l m : List α) (f : State → α → State) (s : State) :
    forEach (l ++ m) f s = forEach m f (forEach l f s) := List.foldl_append

/-- What every turn of a loop keeps, and the turn at one element of its list makes of it, stands at the end when every turn keeps that
too. -/
theorem forEach_reaches {α : Type} (P Q : State → Prop) (l : List α) (f : State → α → State) (a : α) (ha : a ∈ l)
    (hP : ∀ s b, P s → P (f s b)) (hPQ : ∀ s, P s → Q (f s a)) (hQ : ∀ s b, Q s → Q (f s b)) (s : State) (hs : P s) :
    Q (forEach l f s) := by
  obtain ⟨l₁, l₂, rfl⟩ := List.append_of_mem ha
  have h₁ : P (forEach l₁ f s) := forEach_keeps P l₁ f (fun t b _ => hP t b) s hs
  rw [forEach_append]
  exact forEach_keeps Q l₂ f (fun t b _ => hQ t b) (f (forEach l₁ f s) a) (hPQ _ h₁)

/-- A loop whose turn at `n` changes engine `n` by `g`, and no other engine, changes by `g` exactly the engines of its list. -/
theorem engine_forEach (g : Engine → Engine) (f : State → Nat → State)
    (hf : ∀ s n m, (f s n).engine m = if n = m then g (s.engine n) else s.engine m)
    (l : List Nat) (hl : l.Nodup) (s : State) (e : Nat) :
    (forEach l f s).engine e = if e ∈ l then g (s.engine e) else s.engine e := by
  induction l generalizing s with
  | nil => simp [forEach]
  | cons n l ih =>
    obtain ⟨hn, hl⟩ := List.nodup_cons.mp hl
    have hstep : (forEach (n :: l) f s).engine e = if e ∈ l then g ((f s n).engine e) else (f s n).engine e := ih hl (f s n)
    by_cases he : n = e
    · subst he
      simp [hstep, hn, hf]
    · simp [hstep, hf, he, Ne.symm he]

/-! ## Reading commands and engines -/

/-- The command that a number finds has that number. -/
theorem State.job?_id {s : State} {id : Nat} {j : Job} (h : s.job? id = some j) : j.id = id := by
  simpa using List.find?_some h

@[simp] theorem State.engine_flagJobs (s : State) (p : Job → Bool) (f : Flags → Flags) (e : Nat) :
    (s.flagJobs p f).engine e = s.engine e := rfl

@[simp] theorem State.job?_modEngine (s : State) (n : Nat) (f : Engine → Engine) (id : Nat) :
    (s.modEngine n f).job? id = s.job? id := rfl

/-! ## The state off the light path -/

/-- The state without what the light path works on: commands, engines, clusters, the accumulator files with their generators, and the
counter of free values. What two states agree on here no work of the light path has told apart. -/
def State.offPath (s : State) : State :=
  { s with jobs := [], engines := [], clusters := [], acc := [], carries := [], tiles := [], accHolds := [], accBad := [],
           gens := [], free := 0 }

theorem State.frame_of_offPath {s t : State} (h : t.offPath = s.offPath) : t.frame = s.frame := by
  have := congrArg State.frame h
  exact this
theorem State.cal_of_offPath {s t : State} (h : t.offPath = s.offPath) : t.cal = s.cal := by
  have := congrArg State.cal h
  exact this
theorem State.mapped_of_offPath {s t : State} (h : t.offPath = s.offPath) : t.mapped = s.mapped := by
  have := congrArg State.mapped h
  exact this
theorem State.power_of_offPath {s t : State} (h : t.offPath = s.offPath) : t.power = s.power := by
  have := congrArg State.power h
  exact this
theorem State.sameMem_of_offPath {s t : State} (h : t.offPath = s.offPath) : s.sameMem t := by
  have hmem := congrArg State.mem h
  have hpoison := congrArg State.poison h
  exact ⟨hmem, hpoison⟩

@[simp] theorem State.modJob_offPath (s : State) (n : Nat) (f : Job → Job) : (s.modJob n f).offPath = s.offPath := rfl
@[simp] theorem takeNat_offPath (s : State) : (takeNat s).2.offPath = s.offPath := rfl

/-! ## The accumulator files -/

@[simp] theorem State.setAccSlot_offPath (s : State) (e row slot : Nat) (v : Word64) :
    (s.setAccSlot e row slot v).offPath = s.offPath := rfl
@[simp] theorem State.openTile_offPath (s : State) (t : AccTile) : (s.openTile t).offPath = s.offPath := rfl
@[simp] theorem State.noteHeld_offPath (s : State) (e base u : Nat) (chans : List (Option Nat)) :
    (s.noteHeld e base u chans).offPath = s.offPath := rfl
@[simp] theorem State.clearSlots_offPath (s : State) (e row slot n : Nat) : (s.clearSlots e row slot n).offPath = s.offPath := rfl

@[simp] theorem State.moveBad_offPath (s : State) (e row r dst slot : Nat) : (s.moveBad e row r dst slot).offPath = s.offPath := by
  unfold State.moveBad
  dsimp only
  split
  · exact s.clearSlots_offPath r dst slot 1
  · exact s.clearSlots_offPath r dst slot 1

@[simp] theorem State.setExact_offPath (s : State) (e row slot : Nat) (v : Int) : (s.setExact e row slot v).offPath = s.offPath :=
  forEach_same State.offPath (List.range 5) _ (fun t _ _ => t.setAccSlot_offPath ..) s

@[simp] theorem State.addExact_offPath (s : State) (e row slot : Nat) (v : Int) : (s.addExact e row slot v).offPath = s.offPath :=
  s.setExact_offPath e row slot (s.exactAt e row slot + v)

@[simp] theorem State.addToTile_offPath (s : State) (e row base vec : Nat) (exact : Bool) (b v : Int) :
    (s.addToTile e row base vec exact b v).1.offPath = s.offPath := by
  unfold State.addToTile
  split
  · exact s.addExact_offPath ..
  · rfl

@[simp] theorem State.stickRange_offPath (s : State) (t : AccTile) : (s.stickRange t).offPath = s.offPath := by
  unfold State.stickRange
  split <;> rfl

/-! ## Displaced work -/

@[simp] theorem State.splitRows_offPath (is : List Nat) (s : State) (id : Nat) (t : TileRun) (lost : Nat → Nat) :
    (s.splitRows id t lost is).1.offPath = s.offPath := by
  induction is generalizing s t with
  | nil => rfl
  | cons i is ih =>
    unfold State.splitRows
    split
    · exact ih s t
    · exact ih _ _

@[simp] theorem State.moveTile_offPath (s : State) (j : Job) (st : Stage) (t : TileRun) (r : Nat) :
    (s.moveTile j st t r).offPath = s.offPath := by
  unfold State.moveTile
  dsimp only
  have h := s.splitRows_offPath (if st.g = 2 ∨ (t.rowsOf.length == 1) = true then [] else (s.engine r).masked) j.id t fun _ => 0
  generalize s.splitRows j.id t (fun _ => 0) _ = x at h ⊢
  obtain ⟨u, t'⟩ := x
  dsimp only at h ⊢
  rw [State.modJob_offPath, ← h]
  split
  · rfl
  · rw [State.noteHeld_offPath, State.openTile_offPath]
    refine forEach_same State.offPath _ _ (fun v x _ => forEach_same State.offPath _ _ (fun w m _ => ?_) v) u
    rw [State.setAccSlot_offPath, State.moveBad_offPath]

@[simp] theorem State.displaceTile_offPath (s : State) (id : Nat) (t : TileRun) : (s.displaceTile id t).offPath = s.offPath := by
  unfold State.displaceTile
  split
  · rfl
  · split
    · rfl
    · split
      · rfl
      · split
        · rfl
        · exact (State.moveTile_offPath ..).trans (takeNat_offPath s)

@[simp] theorem State.displace_offPath (s : State) : s.displace.offPath = s.offPath := by
  unfold State.displace
  split
  · rfl
  · refine forEach_same State.offPath _ _ (fun t j _ => ?_) s
    split
    · exact forEach_same State.offPath _ _ (fun u x _ => u.displaceTile_offPath j.id x) t
    · rfl

end Sys2Proof.Machine
end

section
/-! PROOFS. Compute combs (02 R48, R95; 05 R259; 16 R724, R728): their engines as a loop reads and changes them, the comparator's stop,
and the statement `CombsStartAndDrop`. -/

namespace Sys2Proof.Machine

/-! ## The engines of a comb -/

@[simp] theorem mem_enginesOfComb (c e : Nat) : e ∈ enginesOfComb c ↔ combOfEngine e = c := by
  simp only [enginesOfComb, combOfEngine, List.mem_map, List.mem_range]
  constructor
  · rintro ⟨i, hi, rfl⟩
    omega
  · intro h
    exact ⟨e % 32, by omega, by omega⟩

theorem nodup_enginesOfComb (c : Nat) : (enginesOfComb c).Nodup :=
  List.nodup_range.map fun a b (h : 32 * c + a = 32 * c + b) => by omega

/-! ## Combs after a declaration -/

theorem State.declare_comb (s : State) (u : Unit') (c n : Nat) : (s.declare u c).comb n = s.comb n := by
  rw [(s.declare_eq u c).1]; rfl

/-! ## COMB_STABLE -/

/-- An OFF engine whose comb has stable lines may be locked, and holds its heaters until it relocks (02 R48, R95; 05 R259). -/
def Engine.permit (x : Engine) : Engine :=
  if x.lock = .off then { x with lock := .search, relock := { step := 4, held := true } } else x

/-- The turn of COMB_STABLE's loop at one engine. -/
def State.permitEngine (s : State) (e : Nat) : State :=
  if (s.engine e).lock = .off then
    s.modEngine e fun x => { x with lock := .search, relock := { step := 4, held := true } } else s

theorem State.permitEngine_eq (s : State) (e : Nat) : s.permitEngine e = { s with engines := (s.permitEngine e).engines } := by
  unfold State.permitEngine
  split <;> rfl

theorem State.permitEngine_engine (s : State) (n m : Nat) :
    (s.permitEngine n).engine m = if n = m then (s.engine n).permit else s.engine m := by
  unfold State.permitEngine Engine.permit
  by_cases h : n = m
  · subst h; split <;> simp
  · split <;> simp [h]

/-- A permitted comb that starts: its lines are stable, and its engines are permitted. -/
theorem execCombStable_starts (s : State) (c : Nat) (hc : c < 8) (hstate : (s.comb c).state = 1)
    (hlaser : s.power.laser.getLsbD c = true) (hfailed : (s.comb c).failed = false) :
    exec (.combStable c) s =
      .next (forEach (enginesOfComb c) State.permitEngine (s.modComb c fun x => { x with state := 2, startFails := 0 })) := by
  change execCombStable c s = _
  unfold execCombStable
  rw [if_neg (by simp [hc, hstate, hlaser, hfailed])]
  rfl

theorem forEach_permitEngine_eq (l : List Nat) (s : State) :
    forEach l State.permitEngine s = { s with engines := (forEach l State.permitEngine s).engines } :=
  forEach_keeps (fun t => t = { s with engines := t.engines }) l State.permitEngine
    (fun t e _ ht => by rw [t.permitEngine_eq e, ht]) s rfl

/-- Stable lines: the comb tracks, its OFF engines may be locked, and nothing else changes. -/
theorem does_combStable (s : State) (c : Nat) (hc : c < 8) (hstate : (s.comb c).state = 1)
    (hlaser : s.power.laser.getLsbD c = true) (hfailed : (s.comb c).failed = false) :
    Does (.combStable c) s fun t => t = { s with combs := t.combs, engines := t.engines } ∧
      t.comb c = { s.comb c with state := 2, startFails := 0 } ∧ (∀ x, x ≠ c → t.comb x = s.comb x) ∧
      ∀ e, t.engine e = if combOfEngine e = c then (s.engine e).permit else s.engine e := by
  refine ⟨_, execCombStable_starts s c hc hstate hlaser hfailed, ?_⟩
  have hframe := forEach_permitEngine_eq (enginesOfComb c) (s.modComb c fun x => { x with state := 2, startFails := 0 })
  have hengine := engine_forEach Engine.permit _ State.permitEngine_engine _ (nodup_enginesOfComb c)
    (s.modComb c fun x => { x with state := 2, startFails := 0 })
  simp only [mem_enginesOfComb] at hengine
  generalize forEach (enginesOfComb c) State.permitEngine _ = t at hframe hengine ⊢
  have hcomb (n : Nat) : t.comb n = (s.modComb c fun x => { x with state := 2, startFails := 0 }).comb n := by
    rw [hframe]; rfl
  refine ⟨by rw [hframe]; rfl, by rw [hcomb]; simp, fun x hx => by rw [hcomb]; simp [Ne.symm hx], hengine⟩

/-! ## COMB_START_TIMEOUT -/

/-- The state with one more failed start of a starting comb. -/
def State.startFailed (s : State) (c : Nat) : State :=
  s.modComb c fun x => { x with startFails := (s.comb c).startFails + 1, state := if (s.comb c).startFails + 1 < 2 then 1 else 0 }

theorem execCombStartTimeout_counts (s : State) (c : Nat) (hc : c < 8) (hstate : (s.comb c).state = 1) :
    exec (.combStartTimeout c) s =
      .next (if 2 ≤ (s.comb c).startFails + 1 then (s.startFailed c).declare (.comb c) 4 else s.startFailed c) := by
  change execCombStartTimeout c s = _
  unfold execCombStartTimeout
  rw [if_neg (by simp [hc, hstate])]
  rfl

theorem does_combStartTimeout (s : State) (c : Nat) (hc : c < 8) (hstate : (s.comb c).state = 1) :
    Does (.combStartTimeout c) s fun t => (t.comb c).startFails = (s.comb c).startFails + 1 ∧
      ((s.comb c).startFails = 0 → (t.comb c).state = 1 ∧ t.failing = s.failing) ∧
      (1 ≤ (s.comb c).startFails → (t.comb c).state = 0 ∧
        (s.mapped.contains (.comb c) = false → ∃ x, (Unit'.comb c, x) ∈ t.failing)) ∧
      (∀ x, x ≠ c → t.comb x = s.comb x) := by
  refine ⟨_, execCombStartTimeout_counts s c hc hstate, ?_⟩
  by_cases hn : (s.comb c).startFails = 0
  · rw [if_neg (by omega)]
    simp +contextual [State.startFailed, hn, eq_comm]
  · rw [if_pos (by omega)]
    have hmapped (h : s.mapped.contains (.comb c) = false) := (s.startFailed c).declare_mem (.comb c) 4 h
    simp only [State.declare_comb]
    refine ⟨by simp [State.startFailed], fun h => absurd h hn, fun _ => ⟨?_, hmapped⟩, fun x hx => ?_⟩
    · simp [State.startFailed]; omega
    · simp [State.startFailed, Ne.symm hx]

/-! ## COMB_OUTPUT_DROP -/

/-- The comparator stops group issue on one engine: what it has under way carries LOCK_EXCURSION (16 R728). -/
def State.stopEngine (s : State) (e : Nat) : State :=
  (s.flagJobs (fun j => (s.engine e).issues.any fun (i : Issue) => i.job == j.id) fun f => { f with lockExcursion := true }).modEngine e
    fun x => { x with combStopped := true }

/-- Stopping engines changes the commands and the engines alone. -/
theorem forEach_stopEngine_eq (l : List Nat) (s : State) :
    forEach l State.stopEngine s =
      { s with jobs := (forEach l State.stopEngine s).jobs, engines := (forEach l State.stopEngine s).engines } :=
  forEach_keeps (fun t => t = { s with jobs := t.jobs, engines := t.engines }) l State.stopEngine
    (fun t e _ ht => by rw [ht]; rfl) s rfl

theorem State.stopEngine_engine (s : State) (n m : Nat) :
    (s.stopEngine n).engine m = if n = m then { s.engine n with combStopped := true } else s.engine m := by
  simp [State.stopEngine]

theorem State.stopEngine_issues (s : State) (n m : Nat) : ((s.stopEngine n).engine m).issues = (s.engine m).issues := by
  rw [s.stopEngine_engine]
  split
  · next h => rw [h]
  · rfl

theorem State.stopEngine_job? (s : State) (e id : Nat) {j : Job} (hj : s.job? id = some j) :
    (s.stopEngine e).job? id = some (if j.open' && (s.engine e).issues.any (fun i => i.job == j.id) then
      { j with flags := { j.flags with lockExcursion := true } } else j) := by
  unfold State.stopEngine
  rw [State.job?_modEngine, State.job?_flagJobs, hj]
  rfl

/-- The accepted command `id` has no final record yet. -/
def State.opened (s : State) (id : Nat) : Prop := ∃ j, s.job? id = some j ∧ j.open' = true
/-- The accepted command `id` has no final record yet and carries LOCK_EXCURSION. -/
def State.excursed (s : State) (id : Nat) : Prop := ∃ j, s.job? id = some j ∧ j.open' = true ∧ j.flags.lockExcursion = true

theorem State.stopEngine_opened (s : State) (e id : Nat) (h : s.opened id) : (s.stopEngine e).opened id := by
  obtain ⟨j, hj, ho⟩ := h
  refine ⟨_, s.stopEngine_job? e _ hj, ?_⟩
  split <;> exact ho

theorem State.stopEngine_excursed (s : State) (e id : Nat) (h : s.excursed id) : (s.stopEngine e).excursed id := by
  obtain ⟨j, hj, ho, hx⟩ := h
  refine ⟨_, s.stopEngine_job? e _ hj, ?_⟩
  split
  · exact ⟨ho, rfl⟩
  · exact ⟨ho, hx⟩

/-- Stopping an engine flags the open commands of what it has under way. -/
theorem State.stopEngine_flags (s : State) (e : Nat) (i : Issue) (hi : i ∈ (s.engine e).issues) (h : s.opened i.job) :
    (s.stopEngine e).excursed i.job := by
  obtain ⟨j, hj, ho⟩ := h
  have hany : (s.engine e).issues.any (fun i => i.job == j.id) = true :=
    List.any_eq_true.mpr ⟨i, hi, by simp [State.job?_id hj]⟩
  refine ⟨_, s.stopEngine_job? e _ hj, ?_⟩
  rw [if_pos (by simp [ho, hany])]
  exact ⟨ho, rfl⟩

/-- Stopping several engines flags the open commands of what any of them has under way. -/
theorem forEach_stopEngine_flags (l : List Nat) (s : State) (e : Nat) (he : e ∈ l) (i : Issue) (hi : i ∈ (s.engine e).issues)
    (h : s.opened i.job) : (forEach l State.stopEngine s).excursed i.job :=
  forEach_reaches (fun t => i ∈ (t.engine e).issues ∧ t.opened i.job) (fun t => t.excursed i.job) l State.stopEngine e he
    (fun t n ⟨hi, h⟩ => ⟨by rw [t.stopEngine_issues]; exact hi, t.stopEngine_opened n _ h⟩) (fun t ⟨hi, h⟩ => t.stopEngine_flags e i hi h)
    (fun t n => t.stopEngine_excursed n _) s ⟨hi, h⟩

/-- A drop of a comb that tracks: its engines stop, and one that is permitted and below full bias is declared failed. -/
theorem execCombOutputDrop_stops (s : State) (c : Nat) (hc : c < 8) (hstate : 2 ≤ (s.comb c).state) :
    exec (.combOutputDrop c) s = .next
      (if s.power.laser.getLsbD c && decide ((s.comb c).bias < 1000) then (forEach (enginesOfComb c) State.stopEngine s).declare (.comb c) 4
       else forEach (enginesOfComb c) State.stopEngine s) := by
  have hpower := forEach_same State.power (enginesOfComb c) State.stopEngine (fun _ _ _ => rfl) s
  have hcomb := forEach_same (·.comb c) (enginesOfComb c) State.stopEngine (fun _ _ _ => rfl) s
  rw [← hpower, ← hcomb]
  change execCombOutputDrop c s = _
  unfold execCombOutputDrop
  rw [if_neg (by simp [hc, hstate])]
  rfl

theorem does_combOutputDrop (s : State) (c : Nat) (hc : c < 8) (hstate : 2 ≤ (s.comb c).state) :
    Does (.combOutputDrop c) s fun t => s.sameMem t ∧ t.combs = s.combs ∧
      (∀ e, combOfEngine e = c → t.engine e = { s.engine e with combStopped := true }) ∧
      (∀ e, combOfEngine e ≠ c → t.engine e = s.engine e) ∧
      (∀ e i j, combOfEngine e = c → i ∈ (s.engine e).issues → s.job? i.job = some j → j.open' = true →
        ∃ j', t.job? i.job = some j' ∧ j'.flags.lockExcursion = true) ∧
      (s.power.laser.getLsbD c = false ∨ 1000 ≤ (s.comb c).bias → t.failing = s.failing) ∧
      (s.power.laser.getLsbD c = true → (s.comb c).bias < 1000 → s.mapped.contains (.comb c) = false →
        ∃ x, (Unit'.comb c, x) ∈ t.failing) := by
  refine ⟨_, execCombOutputDrop_stops s c hc hstate, ?_⟩
  have hframe := forEach_stopEngine_eq (enginesOfComb c) s
  have hengine := engine_forEach (fun x => { x with combStopped := true }) _ State.stopEngine_engine _ (nodup_enginesOfComb c) s
  have hflags := forEach_stopEngine_flags (enginesOfComb c) s
  simp only [mem_enginesOfComb] at hengine hflags
  generalize forEach (enginesOfComb c) State.stopEngine s = u at hframe hengine hflags ⊢
  have hdeclare := (u.declare_eq (.comb c) 4).1
  have hfails := u.declare_mem (.comb c) 4
  have hmapped : u.mapped = s.mapped := by rw [hframe]
  rw [hmapped] at hfails
  by_cases hd : s.power.laser.getLsbD c = true ∧ (s.comb c).bias < 1000
  · obtain ⟨hlaser, hbias⟩ := hd
    rw [if_pos (by simp [hlaser, hbias]), hdeclare]
    refine ⟨?_, ?_, fun e he => (hengine e).trans (if_pos he), fun e he => (hengine e).trans (if_neg he),
      fun e i j he hi hj ho => ?_, fun h => ?_, fun _ _ h => hfails h⟩
    · rw [hframe]; exact ⟨rfl, rfl⟩
    · rw [hframe]
    · obtain ⟨j', hj', -, hx⟩ := hflags e he i hi ⟨j, hj, ho⟩
      exact ⟨j', hj', hx⟩
    · rw [hlaser] at h
      simp at h
      omega
  · rw [if_neg (by simpa using hd)]
    refine ⟨?_, ?_, fun e he => (hengine e).trans (if_pos he), fun e he => (hengine e).trans (if_neg he),
      fun e i j he hi hj ho => ?_, fun _ => ?_, fun h₁ h₂ => absurd ⟨h₁, h₂⟩ hd⟩
    · rw [hframe]; exact ⟨rfl, rfl⟩
    · rw [hframe]
    · obtain ⟨j', hj', -, hx⟩ := hflags e he i hi ⟨j, hj, ho⟩
      exact ⟨j', hj', hx⟩
    · rw [hframe]

/-- Settles O33: the loops of the three commands over a comb's engines change each engine once, and a flag that a turn of the
comparator's loop sets stays set in the turns after it. -/
theorem combsStartAndDrop : Obligations.CombsStartAndDrop := by
  unfold Obligations.CombsStartAndDrop
  refine ⟨fun s c hc hstate hlaser hfailed => ?_, does_combStartTimeout, does_combOutputDrop⟩
  obtain ⟨t, ht, hframe, hcomb, hcombs, hengine⟩ := does_combStable s c hc hstate hlaser hfailed
  refine ⟨t, ht, hframe, hcomb, hcombs, fun e => ?_⟩
  rw [hengine]
  by_cases he : combOfEngine e = c <;> simp [he, Engine.permit]

end Sys2Proof.Machine
end

section
/-! PROOFS. Guarded registers (13 R629 to R632): what register writes leave as it was, complement pairs, what a register does when it takes
its value, and the statement `GuardedRegistersChangeThroughPairs`. -/

namespace Sys2Proof.Machine

/-! ## What leaves Midnight's registers as they are -/

@[simp] theorem State.event_power (s : State) (k : Nat) (d : Word32) : (s.event k d).power = s.power := by
  rw [s.event_eq]

@[simp] theorem State.logError_power (s : State) (code cls kind unit aux detail : Nat) :
    (s.logError code cls kind unit aux detail).power = s.power := by
  rw [s.logError_eq]

@[simp] theorem State.modProc_power (s : State) (p : Proc) (f : ProcSt → ProcSt) : (s.modProc p f).power = s.power := by
  cases p <;> rfl

@[simp] theorem State.applyDoorbell_power (s : State) (q : Nat) : (s.applyDoorbell q).power = s.power := by
  unfold State.applyDoorbell
  split <;> rfl

@[simp] theorem State.ring_power (s : State) (n q tail : Nat) : (s.ring n q tail).power = s.power := by
  unfold State.ring
  extract_lets u grace
  have hu : u.power = s.power := State.modSq_power ..
  split
  · exact (u.applyDoorbell_power q).trans hu
  · exact hu

@[simp] theorem State.applyLatched_power (s : State) (n : Nat) : (s.applyLatched n).power = s.power := by
  unfold State.applyLatched
  split
  · split
    · rfl
    · exact forEach_same State.power _ _ (fun t q _ => t.applyDoorbell_power q) s
  · rfl

/-! ### Committed frames and displaced work -/

@[simp] theorem State.enter_power (s : State) (j : Job) (lo hi : Nat) : (s.enter j lo hi).power = s.power := by
  refine forEach_same State.power _ _ (fun t f _ => ?_) s
  split
  · exact forEach_same State.power _ _ (fun u x _ => State.modCluster_power ..) t
  · rfl

@[simp] theorem State.commitFrames_power (s : State) : s.commitFrames.power = s.power := by
  refine forEach_same State.power s.jobs _ (fun t j _ => ?_) s
  split <;> simp

@[simp] theorem State.displace_power (s : State) : s.displace.power = s.power := State.power_of_offPath s.displace_offPath

@[simp] theorem State.noonReturns_power (s : State) : s.noonReturns.power = s.power := by
  unfold State.noonReturns
  dsimp only
  rw [State.displace_power, forEach_same State.power _ _ (fun t n _ => t.applyLatched_power n), State.commitFrames_power]
  split <;> rfl

/-! ### Queues, plans and pages -/

@[simp] theorem State.writeSq_power (s : State) (n q r v : Nat) : (s.writeSq n q r v).1.power = s.power := by
  unfold State.writeSq
  dsimp only
  split
  · rfl
  · split
    · exact State.modSq_power ..
    · exact State.modSq_power ..
    · split
      · exact State.modSq_power ..
      · split
        · rfl
        · exact State.modSq_power ..

@[simp] theorem State.writeCq_power (s : State) (c r v : Nat) : (s.writeCq c r v).1.power = s.power := by
  unfold State.writeCq
  dsimp only
  split
  · exact State.modCq_power ..
  · split
    · rfl
    · split
      · exact State.modCq_power ..
      · exact State.modCq_power ..
      · split
        · exact State.modCq_power ..
        · split
          · rfl
          · split <;> exact State.modCq_power ..

@[simp] theorem State.writePlanCtrl_power (s : State) (v : Nat) : (s.writePlanCtrl v).1.power = s.power := by
  unfold State.writePlanCtrl
  dsimp only
  split_ifs <;> rfl

@[simp] theorem State.writePage_power (s : State) (n v : Nat) : (s.writePage n v).power = s.power := rfl

@[simp] theorem State.writeEntryWord_power (s : State) (n o v : Nat) : (s.writeEntryWord n o v).1.power = s.power := by
  unfold State.writeEntryWord
  dsimp only
  split <;> rfl

/-! ## The guarded registers -/

/-- The values of the guarded registers: POWER_CAP, TRIP_LIMIT and LASER_ENABLE (13 R629). -/
def PowerSt.guards (p : PowerSt) : Nat × Nat × BitVec 17 := (p.cap, p.tripC, p.laser)

@[simp] theorem State.guardFailed_guards (s : State) (g : Nat) : (s.guardFailed g).power.guards = s.power.guards := rfl
@[simp] theorem State.dropPair_power (s : State) (n : Nat) : (s.dropPair n).power = s.power := rfl

@[simp] theorem State.violation_guards (s : State) (o n : Nat) : (s.violation o n).power.guards = s.power.guards := by
  unfold State.violation
  rw [State.logError_power]
  rfl

@[simp] theorem State.breakPair_guards (s : State) (n o : Nat) (st : RegStatus) :
    (s.breakPair n o st).power.guards = s.power.guards := by
  unfold State.breakPair
  dsimp only
  split
  · split <;> rfl
  · split
    · split <;> rfl
    · rfl

@[simp] theorem State.setLocks_guards (s : State) (v : Nat) : (s.setLocks v).power.guards = s.power.guards := by
  unfold State.setLocks
  extract_lets p u back w
  have hu : u.power.guards = s.power.guards := rfl
  have hw : w.power = u.power := forEach_same State.power _ _ (fun t p _ => t.modProc_power p _) u
  split
  · exact hu
  · split
    · rw [State.noonReturns_power, hw, hu]
    · rw [hw, hu]

theorem State.wake_guards (s : State) (b : Bool) : (s.wake b).power.guards = s.power.guards := by
  cases b <;> rfl

@[simp] theorem State.wakeEvent_guards (s : State) (b : Bool) : (s.wakeEvent b).power.guards = s.power.guards := by
  unfold State.wakeEvent
  split
  · exact s.wake_guards b
  · split <;> rfl

theorem State.leaveDoze_guards (s : State) : s.leaveDoze.power.guards = s.power.guards := by
  unfold State.leaveDoze
  extract_lets p u
  have hu : u.power.guards = s.power.guards := rfl
  rw [← hu]
  refine forEach_same (·.power.guards) _ _ (fun t e _ => ?_) u
  split <;> simp only [State.modEngine_power]

@[simp] theorem State.requestPower_guards (s : State) (target : Nat) (mask : BitVec 16) :
    (s.requestPower target mask).1.power.guards = s.power.guards := by
  unfold State.requestPower
  extract_lets differs p u q
  have hu : u.power.guards = s.power.guards := rfl
  split
  · rfl
  · split
    · exact hu
    · split
      · exact u.leaveDoze_guards.trans hu
      · exact hu
      · exact hu

@[simp] theorem State.writeFloors_guards (s : State) (v : Nat) : (s.writeFloors v).1.power.guards = s.power.guards := by
  unfold State.writeFloors
  dsimp only
  split
  · split <;> rfl
  · rfl

/-- Both branches of an effect leave the guarded registers as they are. -/
theorem guards_ite {c : Prop} [Decidable c] {a b : State × Bool} {p : Nat × Nat × BitVec 17}
    (ha : c → a.1.power.guards = p) (hb : ¬ c → b.1.power.guards = p) : (if c then a else b).1.power.guards = p := by
  split
  · next h => exact ha h
  · next h => exact hb h

/-- Of the effects of writes on registers, those of the partners' alone change a guarded register (R629). -/
theorem State.writeEffect_guards (s : State) (src : Src) (o v : Nat) (rails : Bool) (h₁ : o ≠ 0x10004) (h₂ : o ≠ 0x1000C)
    (h₃ : o ≠ 0x10014) : (s.writeEffect src o v rails).1.power.guards = s.power.guards := by
  unfold State.writeEffect
  refine guards_ite (fun _ => congrArg PowerSt.guards (State.ring_power ..)) fun _ => ?_
  refine guards_ite (fun _ => congrArg PowerSt.guards (State.modCq_power ..)) fun _ => ?_
  refine guards_ite (fun _ => congrArg PowerSt.guards (State.modWindow_power ..)) fun _ => ?_
  refine guards_ite (fun _ => guards_ite (fun _ => rfl) fun _ => guards_ite (fun _ => rfl) fun _ => rfl) fun _ => ?_
  refine guards_ite (fun _ => congrArg PowerSt.guards (by dsimp only; split <;> rfl)) fun _ => ?_
  refine guards_ite (fun _ => s.setLocks_guards v) fun _ => ?_
  refine guards_ite (fun _ => rfl) fun _ => ?_
  refine guards_ite (fun _ => guards_ite (fun _ => rfl) fun _ => guards_ite (fun _ => rfl) fun _ => rfl) fun _ => ?_
  refine guards_ite (fun _ => guards_ite (fun _ => congrArg PowerSt.guards (State.modSq_power ..))
    fun _ => congrArg PowerSt.guards (State.writeSq_power ..)) fun _ => ?_
  refine guards_ite (fun _ => congrArg PowerSt.guards (State.writeCq_power ..)) fun _ => ?_
  refine guards_ite (fun _ => guards_ite (fun _ => rfl) fun _ => rfl) fun _ => ?_
  refine guards_ite (fun _ => rfl) fun _ => ?_
  refine guards_ite (fun _ => rfl) fun _ => ?_
  refine guards_ite (fun _ => rfl) fun _ => ?_
  refine guards_ite (fun _ => rfl) fun _ => ?_
  refine guards_ite (fun _ => congrArg PowerSt.guards (State.writePlanCtrl_power ..)) fun _ => ?_
  refine guards_ite (fun _ => congrArg PowerSt.guards (State.modWindow_power ..)) fun _ => ?_
  refine guards_ite (fun h => ?_) fun _ => ?_
  · rcases h with h | h | h
    exacts [absurd h h₁, absurd h h₂, absurd h h₃]
  refine guards_ite (fun _ => s.requestPower_guards _ _) fun _ => ?_
  refine guards_ite (fun _ => ?_) fun _ => ?_
  · dsimp only
    split
    · exact s.wakeEvent_guards rails
    · rfl
  refine guards_ite (fun _ => rfl) fun _ => ?_
  refine guards_ite (fun _ => s.writeFloors_guards v) fun _ => ?_
  refine guards_ite (fun _ => rfl) fun _ => ?_
  refine guards_ite (fun _ => rfl) fun _ => ?_
  refine guards_ite (fun _ => rfl) fun _ => ?_
  exact guards_ite (fun _ => congrArg PowerSt.guards (State.writeEntryWord_power ..)) fun _ => rfl

/-- A write that is neither to the partner of a guarded register nor to another address of one leaves the guarded registers as they are (R629). -/
theorem State.regWrite_guards (s : State) (src : Src) (o len v : Nat) (rails : Bool) (h₁ : o ≠ 0x10004) (h₂ : o ≠ 0x1000C)
    (h₃ : o ≠ 0x10014) (halias : aliasOf o = none) : (s.regWrite src o len v rails).1.power.guards = s.power.guards := by
  have hplain : s.regWrite src o len v rails = s.plainWrite src o len v rails := by
    unfold State.regWrite
    rw [halias]
    simp
  have heffect := s.writeEffect_guards src o v rails h₁ h₂ h₃
  rw [hplain]
  unfold State.plainWrite
  dsimp only
  split
  · split
    · rfl
    · next h => rw [h] at heffect; exact heffect
  · rw [State.breakPair_guards]
    split
    · exact s.violation_guards o _
    · rfl

/-! ## A write to a guarded register or to its partner -/

/-- The codes of the guarded registers in GUARD_STATUS.LAST (13 R629). -/
def isGuardCode (g : Nat) : Prop := g = 1 ∨ g = 2 ∨ g = 3

theorem State.regKind_guarded (s : State) {g : Nat} (hg : isGuardCode g) : s.regKind (guardedOffset g) = some .stale := by
  rcases hg with rfl | rfl | rfl <;> rfl

theorem State.regKind_partner (s : State) {g : Nat} (hg : isGuardCode g) :
    s.regKind (guardedOffset g + 4) = some (.partner (guardedOffset g)) := by
  rcases hg with rfl | rfl | rfl <;> rfl

theorem State.governed_guarded (s : State) {g : Nat} (hg : isGuardCode g) (h₀ : s.locked 0 = false) (h₁ : s.locked 1 = false) :
    s.governed (guardedOffset g) = false := by
  rcases hg with rfl | rfl | rfl
  exacts [h₀, h₁, h₁]

theorem State.governed_partner (s : State) {g : Nat} (hg : isGuardCode g) : s.governed (guardedOffset g + 4) = false := by
  rcases hg with rfl | rfl | rfl <;> rfl

theorem writable_guarded {g : Nat} (hg : isGuardCode g) : (writable (guardedOffset g)).any = true := by
  rcases hg with rfl | rfl | rfl <;> rfl

theorem writable_partner {g : Nat} (hg : isGuardCode g) : (writable (guardedOffset g + 4)).any = true := by
  rcases hg with rfl | rfl | rfl <;> rfl

theorem State.foreignQueue_guarded (s : State) (n : Nat) {g : Nat} (hg : isGuardCode g) : s.foreignQueue n (guardedOffset g) = false := by
  rcases hg with rfl | rfl | rfl <;> rfl

theorem State.foreignQueue_partner (s : State) (n : Nat) {g : Nat} (hg : isGuardCode g) :
    s.foreignQueue n (guardedOffset g + 4) = false := by
  rcases hg with rfl | rfl | rfl <;> rfl

theorem valueRefused_guarded (v : Nat) {g : Nat} (hg : isGuardCode g) : valueRefused (guardedOffset g) v = false := by
  rcases hg with rfl | rfl | rfl <;> rfl

theorem valueRefused_partner (v : Nat) {g : Nat} (hg : isGuardCode g) : valueRefused (guardedOffset g + 4) v = false := by
  rcases hg with rfl | rfl | rfl <;> rfl

section
variable {s : State} {src : Src} {g : Nat} {w : Word32}

/-- With nothing pending, a write to a guarded register that is not locked is accepted (R616, R629). -/
theorem State.writeStatus_guarded (v : Nat) (hg : isGuardCode g) (hpair : (s.window (srcSession src)).pair = none)
    (h₀ : s.locked 0 = false) (h₁ : s.locked 1 = false) : s.writeStatus src (guardedOffset g) 4 v = .ok := by
  have hpartner : (guardedOffset g == 0x10004 || guardedOffset g == 0x1000C || guardedOffset g == 0x10014) = false := by
    rcases hg with rfl | rfl | rfl <;> rfl
  have htag : (guardedOffset g == 0x310C) = false := by rcases hg with rfl | rfl | rfl <;> rfl
  have halign : guardedOffset g % 4 = 0 := by rcases hg with rfl | rfl | rfl <;> rfl
  have hreserved : s.reservedWrite src (guardedOffset g) v = false := by
    simp [State.reservedWrite, s.regKind_guarded hg, writable_guarded hg, s.foreignQueue_guarded _ hg, valueRefused_guarded v hg,
      State.completes, hpair]
  have hlocked : s.lockedWrite (srcSession src) (guardedOffset g) = false := by
    simp [State.lockedWrite, s.governed_guarded hg h₀ h₁, htag, State.partnerOf, hpair]
  have hguard : s.guardWrite (srcSession src) (guardedOffset g) v = false := by
    simp only [State.guardWrite, hpair, hpartner]
  simp [State.writeStatus, halign, hreserved, s.regKind_guarded hg, hlocked, hguard]

/-- While a value is pending, its partner's write completes the pair with the value's complement alone. -/
theorem State.completes_partner (n v : Nat) (hpair : (s.window n).pair = some (g, w)) :
    s.completes n (guardedOffset g + 4) v = if v = 2 ^ 32 - 1 - w.toNat then some (g, w) else none := by
  simp [State.completes, hpair]

theorem State.lockedWrite_partner (n : Nat) (hg : isGuardCode g) (hpair : (s.window n).pair = some (g, w))
    (h₀ : s.locked 0 = false) (h₁ : s.locked 1 = false) : s.lockedWrite n (guardedOffset g + 4) = false := by
  have htag : (guardedOffset g + 4 == 0x310C) = false := by rcases hg with rfl | rfl | rfl <;> rfl
  simp [State.lockedWrite, s.governed_partner hg, htag, State.partnerOf, hpair, s.governed_guarded hg h₀ h₁]

/-- What the partner's write answers while its register's value is pending: a complement out of range is RESERVED (R631), one in
range completes the pair, and anything else is a guard failure (R629, R630). -/
theorem State.writeStatus_partner (v : Nat) (hg : isGuardCode g) (hpair : (s.window (srcSession src)).pair = some (g, w))
    (h₀ : s.locked 0 = false) (h₁ : s.locked 1 = false) :
    s.writeStatus src (guardedOffset g + 4) 4 v =
      if v = 2 ^ 32 - 1 - w.toNat then (if guardedInRange g w.toNat then .ok else .reserved) else .guard := by
  have halign : (guardedOffset g + 4) % 4 = 0 := by rcases hg with rfl | rfl | rfl <;> rfl
  have hlocked := State.lockedWrite_partner (srcSession src) hg hpair h₀ h₁
  have hcompletes := State.completes_partner (srcSession src) v hpair
  by_cases hv : v = 2 ^ 32 - 1 - w.toNat
  · rw [if_pos hv] at hcompletes ⊢
    have hreserved : s.reservedWrite src (guardedOffset g + 4) v = !guardedInRange g w.toNat := by
      simp [State.reservedWrite, s.regKind_partner hg, writable_partner hg, s.foreignQueue_partner _ hg, valueRefused_partner v hg,
        hcompletes]
    have hguard : s.guardWrite (srcSession src) (guardedOffset g + 4) v = false := by
      simp [State.guardWrite, hpair, hcompletes]
    by_cases hr : guardedInRange g w.toNat = true <;>
      simp [State.writeStatus, halign, hreserved, s.regKind_partner hg, hlocked, hguard, hr]
  · rw [if_neg hv] at hcompletes ⊢
    have hreserved : s.reservedWrite src (guardedOffset g + 4) v = false := by
      simp [State.reservedWrite, s.regKind_partner hg, writable_partner hg, s.foreignQueue_partner _ hg, valueRefused_partner v hg,
        hcompletes]
    have hguard : s.guardWrite (srcSession src) (guardedOffset g + 4) v = true := by
      simp [State.guardWrite, hpair, hcompletes]
    simp [State.writeStatus, halign, hreserved, s.regKind_partner hg, hlocked, hguard]

theorem aliasOf_guarded (hg : isGuardCode g) : aliasOf (guardedOffset g) = none := by
  rcases hg with rfl | rfl | rfl <;> rfl

theorem aliasOf_partner (hg : isGuardCode g) : aliasOf (guardedOffset g + 4) = none := by
  rcases hg with rfl | rfl | rfl <;> rfl

theorem State.regWrite_plain (o len v : Nat) (rails : Bool) (h : aliasOf o = none) :
    s.regWrite src o len v rails = s.plainWrite src o len v rails := by
  simp [State.regWrite, h]

/-- The first write of a pair makes its value pending and does nothing else (R629). -/
theorem State.regWrite_guarded (v : Word32) (rails : Bool) (hg : isGuardCode g) (hpair : (s.window (srcSession src)).pair = none)
    (h₀ : s.locked 0 = false) (h₁ : s.locked 1 = false) :
    s.regWrite src (guardedOffset g) 4 v.toNat rails = (s.modWindow (srcSession src) fun x => { x with pair := some (g, v) }, .ok) := by
  rw [State.regWrite_plain _ _ _ _ (aliasOf_guarded hg)]
  have heffect : s.writeEffect src (guardedOffset g) v.toNat rails =
      (s.modWindow (srcSession src) fun x => { x with pair := some (g, BitVec.ofNat 32 v.toNat) }, false) := by
    rcases hg with rfl | rfl | rfl <;> rfl
  simp only [State.plainWrite, State.writeStatus_guarded _ hg hpair h₀ h₁, heffect, BitVec.ofNat_toNat, BitVec.setWidth_eq]

/-- The partner's write of the complement of a value in range gives the register its value (R629). -/
theorem State.regWrite_partner_completes (rails : Bool) (hg : isGuardCode g) (hpair : (s.window (srcSession src)).pair = some (g, w))
    (h₀ : s.locked 0 = false) (h₁ : s.locked 1 = false) (hrange : guardedInRange g w.toNat = true) :
    s.regWrite src (guardedOffset g + 4) 4 (~~~w).toNat rails = ((s.dropPair (srcSession src)).setGuarded src g w.toNat, .ok) := by
  have hnot : (~~~w).toNat = 2 ^ 32 - 1 - w.toNat := by rw [BitVec.toNat_not]
  rw [State.regWrite_plain _ _ _ _ (aliasOf_partner hg), hnot]
  have hstatus := State.writeStatus_partner (2 ^ 32 - 1 - w.toNat) hg hpair h₀ h₁
  rw [if_pos rfl, if_pos hrange] at hstatus
  have hcompletes := State.completes_partner (srcSession src) (2 ^ 32 - 1 - w.toNat) hpair
  rw [if_pos rfl] at hcompletes
  have heffect : s.writeEffect src (guardedOffset g + 4) (2 ^ 32 - 1 - w.toNat) rails =
      match s.completes (srcSession src) (guardedOffset g + 4) (2 ^ 32 - 1 - w.toNat) with
      | some (g, w) => ((s.dropPair (srcSession src)).setGuarded src g w.toNat, false)
      | none => (s, false) := by
    rcases hg with rfl | rfl | rfl <;> rfl
  simp only [State.plainWrite, hstatus, heffect, hcompletes]

/-- The partner's write of anything else drops the pending value and counts a guard failure (R630). -/
theorem State.regWrite_partner_breaks (v : Word32) (rails : Bool) (hg : isGuardCode g)
    (hpair : (s.window (srcSession src)).pair = some (g, w)) (h₀ : s.locked 0 = false) (h₁ : s.locked 1 = false) (hv : v ≠ ~~~w) :
    s.regWrite src (guardedOffset g + 4) 4 v.toNat rails = ((s.dropPair (srcSession src)).guardFailed g, .guard) := by
  have hnot : v.toNat ≠ 2 ^ 32 - 1 - w.toNat := fun h => hv (BitVec.eq_of_toNat_eq (by rw [BitVec.toNat_not, h]))
  have hstatus := State.writeStatus_partner v.toNat hg hpair h₀ h₁
  rw [if_neg hnot] at hstatus
  rw [State.regWrite_plain _ _ _ _ (aliasOf_partner hg)]
  simp [State.plainWrite, hstatus, State.breakPair, hpair]

end

/-! ## A guarded register takes its value -/

theorem State.replanFloors_eq (s : State) :
    s.replanFloors = { s with power := { s.power with floorPlan := s.replanFloors.power.floorPlan } } := by
  unfold State.replanFloors
  extract_lets t now
  split_ifs <;> rfl

/-- POWER_CAP takes its value; the other guarded registers, the windows and the sideband stay. -/
theorem State.setCap_guards (s : State) (v : Nat) :
    (s.setCap v).power.guards = (v, s.power.tripC, s.power.laser) ∧ (s.setCap v).windows = s.windows ∧ (s.setCap v).side = s.side := by
  unfold State.setCap
  rw [State.replanFloors_eq]
  exact ⟨rfl, rfl, rfl⟩

/-- An engine whose comb leaves service (02 R95; 05 R259). -/
def Engine.unlit (x : Engine) : Engine :=
  if x.lock == .mappedOut then x else
    { x.parked with
      lock := .off, relock := {}, lossEvent := none, heldLoss := false, combStopped := false, discards := false, checkDue := false
      toneRelock := false, staged := [] }

theorem Engine.unlit_lock (x : Engine) : x.unlit.lock = if x.lock = .mappedOut then x.lock else .off := by
  unfold Engine.unlit
  by_cases h : x.lock = .mappedOut <;> simp [h]

/-- The registers of Midnight, the windows and the sideband. -/
def State.sideView (s : State) : PowerSt × Sparse Window × SideSt := (s.power, s.windows, s.side)

/-- The turn at one engine of the loop by which a comb leaves service. -/
def State.unlitEngine (s : State) (e : Nat) : State :=
  if s.engineOut e then s else s.modEngine e fun x => { x.parked with
    lock := .off, relock := {}, lossEvent := none, heldLoss := false, combStopped := false, discards := false, checkDue := false
    toneRelock := false, staged := [] }

theorem State.unlitEngine_engine (s : State) (n m : Nat) :
    (s.unlitEngine n).engine m = if n = m then (s.engine n).unlit else s.engine m := by
  unfold State.unlitEngine State.engineOut Engine.unlit
  by_cases h : n = m
  · subst h; split <;> simp
  · split <;> simp [h]

theorem State.unlitEngine_view (s : State) (e : Nat) : (s.unlitEngine e).sideView = s.sideView := by
  unfold State.unlitEngine
  split <;> rfl

theorem State.holdHeaters_view (s : State) (c : Nat) : (s.holdHeaters c).sideView = s.sideView := by
  unfold State.holdHeaters
  split <;> rfl

theorem State.holdHeaters_engine (s : State) (c e : Nat) : (s.holdHeaters c).engine e = s.engine e := by
  unfold State.holdHeaters
  split <;> rfl

theorem State.combLeaves_view (s : State) (c : Nat) : (s.combLeaves c).sideView = s.sideView := by
  have hloop := forEach_same State.sideView (enginesOfComb c) State.unlitEngine (fun t e _ => t.unlitEngine_view e)
  exact (hloop _).trans (State.holdHeaters_view ..)

/-- A comb that leaves service turns its engines OFF, and no other engine. -/
theorem State.combLeaves_engine (s : State) (c e : Nat) :
    (s.combLeaves c).engine e = if combOfEngine e = c then (s.engine e).unlit else s.engine e := by
  have hloop := engine_forEach Engine.unlit _ State.unlitEngine_engine _ (nodup_enginesOfComb c)
    ((s.modComb c fun x => { x with state := 0, dimmed := false }).holdHeaters c) e
  simp only [mem_enginesOfComb, State.holdHeaters_engine] at hloop
  exact hloop

theorem State.setLane_view (s : State) (i : Nat) (f : Lane → Lane) : (s.setLane i f).sideView = s.sideView := by
  unfold State.setLane
  extract_lets old u
  split
  · rfl
  · unfold State.laneEvent
    rw [State.event_eq]
    rfl

theorem State.setLane_engine (s : State) (i : Nat) (f : Lane → Lane) (e : Nat) : (s.setLane i f).engine e = s.engine e := by
  unfold State.setLane
  extract_lets old u
  split
  · rfl
  · unfold State.laneEvent
    rw [State.event_eq]
    rfl

/-- The turn at one compute comb when LASER_ENABLE changes from `old` to `v` (02 R48, R95). -/
def State.laserTurn (old v : BitVec 17) (live : Bool) (s : State) (c : Nat) : State :=
  if old.getLsbD c && !v.getLsbD c then s.combLeaves c
  else if !old.getLsbD c && v.getLsbD c && live && s.fw.booted && !(s.comb c).failed then s.modComb c fun x => { x with state := 1 }
  else s

theorem State.laserTurn_view (old v : BitVec 17) (live : Bool) (s : State) (c : Nat) : (s.laserTurn old v live c).sideView = s.sideView := by
  unfold State.laserTurn
  split
  · exact s.combLeaves_view c
  · split <;> rfl

/-- Only the turn at a comb whose bit is cleared changes engines: those of the comb. -/
theorem State.laserTurn_engine (old v : BitVec 17) (live : Bool) (s : State) (c e : Nat) :
    (s.laserTurn old v live c).engine e =
      if (old.getLsbD c && !v.getLsbD c) = true ∧ combOfEngine e = c then (s.engine e).unlit else s.engine e := by
  unfold State.laserTurn
  by_cases h : (old.getLsbD c && !v.getLsbD c) = true
  · rw [if_pos h, State.combLeaves_engine]
    simp only [h, true_and]
  · rw [if_neg h]
    refine Eq.trans ?_ (if_neg fun hc => h hc.1).symm
    split <;> rfl

/-- LASER_ENABLE takes its value; the windows and the sideband stay. -/
theorem State.setLaser_view (s : State) (v : BitVec 17) :
    (s.setLaser v).sideView = ({ s.power with laser := v }, s.windows, s.side) := by
  unfold State.setLaser
  extract_lets old p u live u₁ u₂
  have h₁ : u₁.sideView = u.sideView :=
     forEach_same State.sideView _ _ (fun t c _ => t.laserTurn_view old v live c) u
  have h₂ : u₂.sideView = u₁.sideView := by
    refine forEach_same State.sideView _ _ (fun t d _ => ?_) u₁
    rfl
  refine (forEach_same State.sideView _ _ (fun t i _ => ?_) u₂).trans (h₂.trans h₁)
  dsimp only
  split
  · exact t.setLane_view i _
  · split
    · exact t.setLane_view i _
    · rfl

/-- Clearing its bit turns the engines of a comb OFF, but for those that are mapped out (02 R95). -/
theorem State.setLaser_off (s : State) (v : BitVec 17) (e : Nat) (hc : combOfEngine e < 8) (hv : v.getLsbD (combOfEngine e) = false)
    (hold : s.power.laser.getLsbD (combOfEngine e) = true) (hlock : (s.engine e).lock ≠ .mappedOut) :
    ((s.setLaser v).engine e).lock = .off := by
  unfold State.setLaser
  extract_lets old p u live u₁ u₂
  have h₁ : (u₁.engine e).lock = .off := by
    refine forEach_reaches (fun t => (t.engine e).lock ≠ .mappedOut) (fun t => (t.engine e).lock = .off) _ (State.laserTurn old v live)
      (combOfEngine e) (List.mem_range.mpr hc) (fun t c ht => ?_) (fun t ht => ?_) (fun t c ht => ?_) u hlock
    · rw [State.laserTurn_engine]
      split
      · simp [Engine.unlit_lock, ht]
      · exact ht
    · rw [State.laserTurn_engine, if_pos ⟨by simp [old, hold, hv], rfl⟩, Engine.unlit_lock, if_neg ht]
    · rw [State.laserTurn_engine]
      split
      · simp [Engine.unlit_lock, ht]
      · exact ht
  have h₂ : u₂.engine e = u₁.engine e := by
    refine forEach_same (·.engine e) _ _ (fun t d _ => ?_) u₁
    rfl
  rw [← h₂] at h₁
  refine (forEach_same (fun t => (t.engine e).lock) _ _ (fun t i _ => ?_) u₂).trans h₁
  dsimp only
  split
  · rw [State.setLane_engine]
  · split
    · rw [State.setLane_engine]
    · rfl

/-! ## The commands on the sideband -/

/-- A write on the sideband, but of RESET_CTRL, leaves what it makes of the registers, and its status in the answer. -/
theorem writeOp_i3c {s t : State} {o v : Nat} {rails : Bool} {st : RegStatus} (ho : o ≠ 0x1004C)
    (h : s.regWrite .i3c o 4 v rails = (t, st)) :
    writeOp .i3c o 4 v rails s = .next { t with side := { t.side with status := st.code, data := 0 } } := by
  simp [writeOp, State.writeAndAnswer, h, ho, State.answerWrite, ok]

theorem guardedOffset_ne_reset {g : Nat} (hg : isGuardCode g) : guardedOffset g ≠ 0x1004C ∧ guardedOffset g + 4 ≠ 0x1004C := by
  rcases hg with rfl | rfl | rfl <;> decide

section
variable {s : State} {g : Nat} {w : Word32}

theorem writeOp_guarded (v : Word32) (hg : isGuardCode g) (hpair : (s.window 0).pair = none) (h₀ : s.locked 0 = false)
    (h₁ : s.locked 1 = false) : writeOp .i3c (guardedOffset g) 4 v.toNat false s =
      .next { (s.modWindow 0 fun x => { x with pair := some (g, v) }) with side := { s.side with status := 0, data := 0 } } :=
  writeOp_i3c (guardedOffset_ne_reset hg).1 (State.regWrite_guarded v false hg hpair h₀ h₁)

theorem writeOp_completes (hg : isGuardCode g) (hpair : (s.window 0).pair = some (g, w)) (h₀ : s.locked 0 = false)
    (h₁ : s.locked 1 = false) (hrange : guardedInRange g w.toNat = true) :
    writeOp .i3c (guardedOffset g + 4) 4 (~~~w).toNat false s =
      .next { (s.dropPair 0).setGuarded .i3c g w.toNat with
              side := { ((s.dropPair 0).setGuarded .i3c g w.toNat).side with status := 0, data := 0 } } :=
  writeOp_i3c (guardedOffset_ne_reset hg).2 (State.regWrite_partner_completes false hg hpair h₀ h₁ hrange)

theorem writeOp_breaks (v : Word32) (hg : isGuardCode g) (hpair : (s.window 0).pair = some (g, w)) (h₀ : s.locked 0 = false)
    (h₁ : s.locked 1 = false) (hv : v ≠ ~~~w) : writeOp .i3c (guardedOffset g + 4) 4 v.toNat false s =
      .next { (s.dropPair 0).guardFailed g with side := { s.side with status := 4, data := 0 } } :=
  writeOp_i3c (guardedOffset_ne_reset hg).2 (State.regWrite_partner_breaks v false hg hpair h₀ h₁ hv)

end

theorem State.dropPair_pair (s : State) (n : Nat) : ((s.dropPair n).window n).pair = none := by
  simp [State.dropPair]

/-- A completed pair gives POWER_CAP its value (15 R695). -/
theorem does_powerCapC (s : State) (v : Word32) (h₀ : s.locked 0 = false) (h₁ : s.locked 1 = false)
    (hpair : (s.window 0).pair = some (1, v)) (hlo : 100 ≤ v.toNat) (hhi : v.toNat ≤ 280) :
    Does (.powerCapCWrite .i3c (~~~v)) s fun t => t.power.cap = v.toNat ∧ (t.window 0).pair = none ∧ t.side.status = 0 ∧
      t.power.tripC = s.power.tripC ∧ t.power.laser = s.power.laser := by
  have hrange : guardedInRange 1 v.toNat = true := by
    simp [guardedInRange]
    omega
  refine ⟨_, writeOp_completes (Or.inl rfl) hpair h₀ h₁ hrange, ?_⟩
  have hmod : v.toNat % 512 = v.toNat := Nat.mod_eq_of_lt (by omega)
  have hset : (s.dropPair 0).setGuarded .i3c 1 v.toNat = (s.dropPair 0).setCap v.toNat := by
    simp [State.setGuarded, hmod]
  rw [hset]
  obtain ⟨hguards, hwindows, -⟩ := (s.dropPair 0).setCap_guards v.toNat
  generalize (s.dropPair 0).setCap v.toNat = t at hguards hwindows ⊢
  simp only [PowerSt.guards, Prod.mk.injEq] at hguards
  obtain ⟨hcap, htrip, hlaser⟩ := hguards
  have hpair' : (t.window 0).pair = none := by
    unfold State.window
    rw [hwindows]
    exact s.dropPair_pair 0
  exact ⟨hcap, hpair', rfl, htrip, hlaser⟩

/-- A completed pair gives TRIP_LIMIT its value (15 R708). -/
theorem does_tripLimitC (s : State) (v : Word32) (h₀ : s.locked 0 = false) (h₁ : s.locked 1 = false)
    (hpair : (s.window 0).pair = some (2, v)) (hlo : 90 ≤ v.toNat) (hhi : v.toNat ≤ 115) :
    Does (.tripLimitCWrite .i3c (~~~v)) s fun t => t.power.tripC = v.toNat ∧ (t.window 0).pair = none ∧ t.side.status = 0 ∧
      t.power.cap = s.power.cap ∧ t.power.laser = s.power.laser := by
  have hrange : guardedInRange 2 v.toNat = true := by
    simp [guardedInRange]
    omega
  have hmod : v.toNat % 128 = v.toNat := Nat.mod_eq_of_lt (by omega)
  exact ⟨_, writeOp_completes (Or.inr (Or.inl rfl)) hpair h₀ h₁ hrange, hmod, s.dropPair_pair 0, rfl, rfl, rfl⟩

/-- A completed pair gives LASER_ENABLE its value: the engines of a comb whose bit it clears go OFF (02 R95; 12 R596). -/
theorem does_laserEnableC (s : State) (v : Word32) (h₀ : s.locked 0 = false) (h₁ : s.locked 1 = false)
    (hpair : (s.window 0).pair = some (3, v)) (hlt : v.toNat < 2 ^ 17) :
    Does (.laserEnableCWrite .i3c (~~~v)) s fun t => t.power.laser.toNat = v.toNat ∧ (t.window 0).pair = none ∧ t.side.status = 0 ∧
      t.power.cap = s.power.cap ∧
      ∀ e, v.getLsbD (combOfEngine e) = false → s.power.laser.getLsbD (combOfEngine e) = true → combOfEngine e < 8 →
        (s.engine e).lock ≠ .mappedOut → (t.engine e).lock = .off := by
  have hrange : guardedInRange 3 v.toNat = true := by
    simp [guardedInRange]
    omega
  refine ⟨_, writeOp_completes (Or.inr (Or.inr rfl)) hpair h₀ h₁ hrange, ?_⟩
  have hset : (s.dropPair 0).setGuarded .i3c 3 v.toNat = (s.dropPair 0).setLaser (BitVec.ofNat 17 v.toNat) := rfl
  rw [hset]
  have hview := (s.dropPair 0).setLaser_view (BitVec.ofNat 17 v.toNat)
  have hoff := (s.dropPair 0).setLaser_off (BitVec.ofNat 17 v.toNat)
  generalize (s.dropPair 0).setLaser _ = t at hview hoff ⊢
  simp only [State.sideView, Prod.mk.injEq] at hview
  obtain ⟨hpower, hwindows, -⟩ := hview
  refine ⟨?_, ?_, rfl, ?_, fun e hv hold hc hlock => hoff e hc ?_ hold hlock⟩
  · change t.power.laser.toNat = v.toNat
    rw [hpower, BitVec.toNat_ofNat, Nat.mod_eq_of_lt hlt]
  · change (Sparse.get {} t.windows 0).pair = none
    rw [hwindows]
    exact s.dropPair_pair 0
  · change t.power.cap = s.power.cap
    rw [hpower]
    rfl
  · rw [BitVec.getLsbD_ofNat, BitVec.testBit_toNat, hv, Bool.and_false]

/-- A write to a partner that completes no pair drops the pending value and counts a guard failure (R630). -/
theorem does_partner_breaks (s : State) (g : Nat) (v w : Word32) (c : Instr) (hpair : (s.window 0).pair = some (g, v)) (hw : w ≠ ~~~v)
    (h₀ : s.locked 0 = false) (h₁ : s.locked 1 = false)
    (hc : g = 1 ∧ c = .powerCapCWrite .i3c w ∨ g = 2 ∧ c = .tripLimitCWrite .i3c w ∨ g = 3 ∧ c = .laserEnableCWrite .i3c w) :
    Does c s fun t => (t.window 0).pair = none ∧
      t.power = { s.power with guardFail := Nat.min 0xFFFF (s.power.guardFail + 1), guardLast := g } ∧ t.side.status = 4 := by
  have hg : isGuardCode g := by
    rcases hc with ⟨hg, -⟩ | ⟨hg, -⟩ | ⟨hg, -⟩
    exacts [.inl hg, .inr (.inl hg), .inr (.inr hg)]
  have hexec : exec c s = writeOp .i3c (guardedOffset g + 4) 4 w.toNat false s := by
    rcases hc with ⟨rfl, rfl⟩ | ⟨rfl, rfl⟩ | ⟨rfl, rfl⟩ <;> rfl
  exact ⟨_, hexec.trans (writeOp_breaks w hg hpair h₀ h₁ hw), s.dropPair_pair 0, rfl, rfl⟩

/-- 64 µs without a partner drop the pending value and count a guard failure (R630). -/
theorem does_guardPendingExpiry (s : State) (src : Src) (g : Nat) (v : Word32) (hpair : (s.window (srcSession src)).pair = some (g, v)) :
    Does (.guardPendingExpiry src) s fun t => (t.window (srcSession src)).pair = none ∧
      t.power = { s.power with guardFail := Nat.min 0xFFFF (s.power.guardFail + 1), guardLast := g } := by
  refine ⟨(s.dropPair (srcSession src)).guardFailed g, ?_, s.dropPair_pair _, rfl⟩
  change execGuardPendingExpiry src s = _
  simp [execGuardPendingExpiry, hpair, ok]

/-- Settles O49: a write's status and effect are read off the pending pair, and of the effects of register writes only those of the
partners' offsets reach the guarded values. -/
theorem guardedRegistersChangeThroughPairs : Obligations.GuardedRegistersChangeThroughPairs := by
  unfold Obligations.GuardedRegistersChangeThroughPairs
  refine ⟨fun s v hpair h₀ h₁ => ⟨?_, ?_, ?_⟩, fun s v h₀ h₁ => ⟨?_, ?_, ?_⟩, does_partner_breaks, does_guardPendingExpiry, ?_⟩
  · exact writeOp_guarded v (Or.inl rfl) hpair h₀ h₁
  · exact writeOp_guarded v (Or.inr (Or.inl rfl)) hpair h₀ h₁
  · exact writeOp_guarded v (Or.inr (Or.inr rfl)) hpair h₀ h₁
  · exact does_powerCapC s v h₀ h₁
  · exact does_tripLimitC s v h₀ h₁
  · exact does_laserEnableC s v h₀ h₁
  · intro s src o len v rails h₁ h₂ h₃ halias
    have h := s.regWrite_guards src o len v rails h₁ h₂ h₃ halias
    simp only [PowerSt.guards, Prod.mk.injEq] at h
    exact h

end Sys2Proof.Machine
end

section
/-! PROOFS. Bank loads and swaps (02 R62, R76 to R79, R92). -/

namespace Sys2Proof.Machine

/-! ## Clips of inputs -/

@[simp] theorem State.countClips_offPath (s : State) (job c n : Nat) : (s.countClips job c n).offPath = s.offPath := by
  unfold State.countClips
  split <;> rfl
@[simp] theorem State.countClips_engine (s : State) (job c n e : Nat) : (s.countClips job c n).engine e = s.engine e := by
  unfold State.countClips
  split <;> rfl
@[simp] theorem State.countClips_acc (s : State) (job c n : Nat) : (s.countClips job c n).acc = s.acc := by
  unfold State.countClips
  split <;> rfl

/-! ## The banks of an engine -/

theorem Engine.bank_setBank (x : Engine) (b c : Bool) (y : Bank) : (x.setBank b y).bank c = if b = c then y else x.bank c := by
  cases b <;> cases c <;> rfl

/-- An engine whose idle bank the weight port has written: that bank can come under light next. -/
def Engine.loaded (x : Engine) (bank : Bank) (w : List WeightBuf) : Engine :=
  { x.setBank x.loadB bank with activeB := !x.loadB, wbufs := w }

theorem Engine.bank_loaded (x : Engine) (bank : Bank) (w : List WeightBuf) (b : Bool) :
    (x.loaded bank w).bank b = if x.loadB = b then bank else x.bank b := x.bank_setBank x.loadB b bank

/-! ## BANK_LOAD -/

/-- A map over numbered elements that does not look at the numbers. -/
theorem map_numbered {α β : Type} (f : Nat × α → β) (g : α → β) (l : List α) (h : ∀ y, f y = g y.2) :
    ((List.range l.length).zip l).map f = l.map g := by
  calc ((List.range l.length).zip l).map f
      = (((List.range l.length).zip l).map Prod.snd).map g := by rw [List.map_map]; exact List.map_congr_left fun y _ => h y
    _ = l.map g := by rw [List.map_snd_zip (by simp)]

/-- The channel that a row of a loaded bank holds: its own when the tile elements read hold that channel's weights. -/
def Stage.rowChan (st : Stage) (rb ws : Nat) (els : List (Nat × List Byte)) (c : Option Nat) : Option Nat :=
  match c with
  | none => none
  | some ch => if els.any (fun x => x.1 == st.wElement (ch / st.rows) rb ws) then some ch else none

/-- The bank that a load of a stage's tile leaves. -/
def Stage.loadedBank (st : Stage) (j : Job) (rb ws : Nat) (rows : List BankRow) : Bank :=
  { job := j.id, stage := j.run.stage, rerun := j.run.rerun, rb := rb, ws := ws, h := st.h, pair := st.g == 2, rows := rows }

/-- The weight port fills the bank that it writes, and changes no other engine. -/
theorem State.loadBank_engine (s : State) (j : Job) (st : Stage) (e rb ws : Nat) (chans : List (Option Nat)) (els : List Nat)
    (l : List (List Byte)) :
    ∃ (rows : List BankRow) (w : List WeightBuf), rows.map (·.chan) = chans.map (st.rowChan rb ws (els.zip l)) ∧
      ∀ x, (s.loadBank j st e rb ws chans els l).engine x =
        if e = x then (s.engine e).loaded (st.loadedBank j rb ws rows) w else s.engine x := by
  unfold State.loadBank
  extract_lets c hi held kap new rows bank s₁ s₂
  refine ⟨rows.map (·.1), (s.engine e).wbufs.filter fun w =>
    !(w.job == j.id && w.stage == j.run.stage && w.rerun == j.run.rerun && w.els == els), ?_, fun x => ?_⟩
  · simp only [rows, List.map_map]
    refine map_numbered _ _ chans fun y => ?_
    obtain ⟨i, ch⟩ := y
    cases ch with
    | none => rfl
    | some ch =>
      simp only [Function.comp, Stage.rowChan]
      rw [← List.isSome_find?]
      cases (els.zip l).find? fun x => x.1 == st.wElement (ch / st.rows) rb ws <;> rfl
  · have h₂ : s₂.engine x = s₁.engine x := rfl
    have hnew : (if new then s₂.countClips j.id c kap.2 else s₂).engine x = s₂.engine x := by
      split
      · exact s₂.countClips_engine ..
      · rfl
    rw [hnew, h₂, State.engine_modEngine]
    rfl

theorem State.loadBank_offPath (s : State) (j : Job) (st : Stage) (e rb ws : Nat) (chans : List (Option Nat)) (els : List Nat)
    (l : List (List Byte)) : (s.loadBank j st e rb ws chans els l).offPath = s.offPath := by
  unfold State.loadBank
  extract_lets c hi held kap new rows bank s₁ s₂
  split
  · exact s₂.countClips_offPath ..
  · rfl

theorem State.loadBank_acc (s : State) (j : Job) (st : Stage) (e rb ws : Nat) (chans : List (Option Nat)) (els : List Nat)
    (l : List (List Byte)) : (s.loadBank j st e rb ws chans els l).acc = s.acc := by
  unfold State.loadBank
  extract_lets c hi held kap new rows bank s₁ s₂
  split
  · exact s₂.countClips_acc ..
  · rfl

/-- The operands of a load fit its stage when they name a block of the part and channels of the stage. -/
theorem Stage.loadFits_of (st : Stage) (e ob rb ws : Nat) (patch : List Nat) (p : Nat × Nat × Nat) (hp : st.partOf (e / 4) = some p)
    (hlo : p.2.1 ≤ rb) (hhi : rb < p.2.1 + p.2.2) (hws : ws < st.ws) (hob : ob < st.blocks) (hpatch : ∀ ch ∈ patch, ch < st.chans) :
    st.loadFits e ob rb ws patch = true := by
  simpa [Stage.loadFits, hp, hlo, hhi, hws, hob] using hpatch

/-- A load whose tile has been read writes it into the bank. -/
theorem execBankLoad_loads (s : State) (id e ob rb ws : Nat) (patch : List Nat) (j : Job) (st : Stage) (d : TDesc)
    (l : List (List Byte)) (hj : s.job? id = some j) (hst : j.stage? = some st)
    (hnow : s.committedNow = true) (hmask : bit j.mask (e / 4) = true) (hin : s.inService e = true) (hidle : s.slotIdle e = false)
    (he : e < 256) (hahead : j.aheadOn st e = false) (hfits : st.loadFits e ob rb ws patch = true) (hd : st.wDesc = some d)
    (hl : s.weightTile j st d e (st.tilesOf (s.bankChans st e ob patch) rb ws) = .done l none) :
    exec (.bankLoad id e ob rb ws patch) s = .next (s.loadBank j st e rb ws (s.bankChans st e ob patch)
      (st.tilesOf (s.bankChans st e ob patch) rb ws) l) := by
  change execBankLoad id e ob rb ws patch s = _
  unfold execBankLoad
  simp only [hj, hst, hd, hl]
  rw [if_neg (by simp [hnow, hmask, hin, hidle, he]), if_neg (by simp [hahead]), if_neg (by simp [hfits])]
  rfl

/-! ## BANK_SWAP -/

/-- An engine whose next bank comes under light; `kept` is what its outgoing bank holds then. -/
def Engine.swapped (x : Engine) (kept : Bank) : Engine :=
  { x.setBank (!x.loadB) kept with activeB := x.loadB, h := (x.bank x.loadB).h }

/-- An engine with both banks parked. -/
def Engine.bothParked (x : Engine) : Engine := { x with bankA := {}, bankB := {}, activeB := x.loadB, h := 0 }

/-- The bank under light holds the tile that was next, and the outgoing bank what is kept of it. -/
theorem Engine.banks_swapped (x : Engine) (kept : Bank) (h : x.activeB ≠ x.loadB) :
    (x.swapped kept).active = x.bank x.loadB ∧ (x.swapped kept).bank x.activeB = kept := by
  have hb : x.activeB = !x.loadB := by
    cases ha : x.activeB <;> cases hl : x.loadB <;> simp_all
  have hbank : ∀ b, (x.swapped kept).bank b = if (!x.loadB) = b then kept else x.bank b := fun b => x.bank_setBank (!x.loadB) b kept
  constructor
  · refine (hbank x.loadB).trans ?_
    simp
  · rw [hb, hbank, if_pos rfl]

section
variable {s : State} {e : Nat} (hswap : (s.engine e).activeB ≠ (s.engine e).loadB)
include hswap

theorem execBankSwap_swaps (hready : s.bankReady e ((s.engine e).bank (s.engine e).loadB) = true) :
    exec (.bankSwap e) s = .next (s.modEngine e fun _ => (s.engine e).swapped
      (if s.bankKept e (s.engine e).active ((s.engine e).bank (s.engine e).loadB) then (s.engine e).active else {})) := by
  change execBankSwap e s = _
  unfold execBankSwap
  extract_lets x b next
  rw [if_neg hswap, if_pos hready]
  rfl

theorem execBankSwap_waits (hready : s.bankReady e ((s.engine e).bank (s.engine e).loadB) = false)
    (hdue : (s.bankDue e (s.engine e).active || s.bankDue e ((s.engine e).bank (s.engine e).loadB)) = true) :
    exec (.bankSwap e) s = .next s := by
  change execBankSwap e s = _
  unfold execBankSwap
  extract_lets x b next
  rw [if_neg hswap, if_neg (by simp [next, b, x, hready]), if_pos hdue]
  rfl

theorem execBankSwap_parks (hready : s.bankReady e ((s.engine e).bank (s.engine e).loadB) = false)
    (hdue : (s.bankDue e (s.engine e).active || s.bankDue e ((s.engine e).bank (s.engine e).loadB)) = false) :
    exec (.bankSwap e) s = .next (s.modEngine e fun _ => (s.engine e).bothParked) := by
  change execBankSwap e s = _
  unfold execBankSwap
  extract_lets x b next
  rw [if_neg hswap, if_neg (by simp [next, b, x, hready]), if_neg (by simp only [Bool.not_eq_true]; exact hdue)]
  rfl

/-- BANK_SWAP changes its engine alone: the next bank comes under light and the outgoing one keeps its tile or is parked; or the swap
waits; or both banks are parked. -/
theorem execBankSwap_does : Does (.bankSwap e) s fun t => t = { s with engines := t.engines } ∧
    (∀ x, x ≠ e → t.engine x = s.engine x) ∧
    (s.bankReady e ((s.engine e).bank (s.engine e).loadB) = true → (t.engine e).activeB = (s.engine e).loadB ∧
      (t.engine e).active = (s.engine e).bank (s.engine e).loadB ∧ (t.engine e).h = ((s.engine e).bank (s.engine e).loadB).h ∧
      (t.engine e).bank (s.engine e).activeB =
        if s.bankKept e (s.engine e).active ((s.engine e).bank (s.engine e).loadB) then (s.engine e).active else {}) ∧
    (s.bankReady e ((s.engine e).bank (s.engine e).loadB) = false →
      (s.bankDue e (s.engine e).active || s.bankDue e ((s.engine e).bank (s.engine e).loadB)) = true → t = s) ∧
    (s.bankReady e ((s.engine e).bank (s.engine e).loadB) = false → s.bankDue e (s.engine e).active = false →
      s.bankDue e ((s.engine e).bank (s.engine e).loadB) = false → (t.engine e).bankA = {} ∧ (t.engine e).bankB = {}) := by
  by_cases hready : s.bankReady e ((s.engine e).bank (s.engine e).loadB) = true
  · refine ⟨_, execBankSwap_swaps hswap hready, rfl, fun x hx => ?_, fun _ => ?_, fun hno => ?_, fun hno => ?_⟩
    · rw [State.engine_modEngine, if_neg hx.symm]
    · obtain ⟨hactive, hkept⟩ := (s.engine e).banks_swapped
        (if s.bankKept e (s.engine e).active ((s.engine e).bank (s.engine e).loadB) then (s.engine e).active else {}) hswap
      rw [State.engine_modEngine, if_pos rfl]
      exact ⟨rfl, hactive, rfl, hkept⟩
    · exact absurd (hready.symm.trans hno) (by decide)
    · exact absurd (hready.symm.trans hno) (by decide)
  · have hready := Bool.eq_false_of_not_eq_true hready
    cases hdue : s.bankDue e (s.engine e).active || s.bankDue e ((s.engine e).bank (s.engine e).loadB) with
    | true =>
      refine ⟨s, execBankSwap_waits hswap hready hdue, rfl, fun _ _ => rfl, fun hyes => ?_, fun _ _ => rfl, fun _ ha hb => ?_⟩
      · exact absurd (hready.symm.trans hyes) (by decide)
      · rw [ha, hb] at hdue
        exact absurd hdue (by decide)
    | false =>
      refine ⟨_, execBankSwap_parks hswap hready hdue, rfl, fun x hx => ?_, fun hyes => ?_, fun _ hno => ?_, fun _ _ _ => ?_⟩
      · rw [State.engine_modEngine, if_neg hx.symm]
      · exact absurd (hready.symm.trans hyes) (by decide)
      · exact absurd hno (by decide)
      · rw [State.engine_modEngine, if_pos rfl]
        exact ⟨rfl, rfl⟩

end

end Sys2Proof.Machine
end

section
/-! PROOFS. Group issues (02 R57, R63; 04 R200, R208; 08 R384 to R387): what a turn at one engine of the quad changes, and what it leaves
as it was. -/

namespace Sys2Proof.Machine

/-! ## Views of a command -/

/-- What every change of a command keeps, the command with a number keeps. -/
theorem State.map_job?_modJob {β : Type} (g : Job → β) (s : State) (n m : Nat) (f : Job → Job) (hid : ∀ j, (f j).id = j.id)
    (hg : ∀ j, g (f j) = g j) : ((s.modJob n f).job? m).map g = (s.job? m).map g := by
  rw [State.job?_modJob _ _ _ _ hid]
  split
  · rw [Option.map_map]
    exact congrFun (congrArg Option.map (funext hg)) _
  · rfl

/-- The running stage, the clusters and the run of a command. -/
def Job.stageView (j : Job) : Option Stage × Nat × Nat × Bool := (j.stage?, j.mask, j.run.stage, j.run.rerun)

/-- What decides on an engine's place in the calendar. -/
def Engine.unitView (x : Engine) : LockState × Nat := (x.lock, x.outAt)

/-- An engine idles in the present slot by the rotation, the frame and the engines that are mapped out. -/
theorem State.slotIdle_congr {s t : State} (hoff : t.offPath = s.offPath)
    (hunits : ∀ n, (t.engine n).unitView = (s.engine n).unitView) (e : Nat) : t.slotIdle e = s.slotIdle e := by
  have hlock : ∀ n, (t.engine n).lock = (s.engine n).lock := fun n => congrArg Prod.fst (hunits n)
  have hout : ∀ n, (t.engine n).outAt = (s.engine n).outAt := fun n => congrArg Prod.snd (hunits n)
  unfold State.slotIdle State.slotEngine State.rotation State.engineOut
  simp only [hlock, hout, State.frame_of_offPath hoff, State.cal_of_offPath hoff]

theorem State.codebook_congr {s t : State} {c : Nat} (h : (t.cluster c).codebooks = (s.cluster c).codebooks) (slot : Nat) :
    t.codebook c slot = s.codebook c slot := by
  unfold State.codebook
  rw [h]

/-- What holds of both branches. -/
theorem ite_both {α : Type} {P : α → Prop} {c : Prop} [Decidable c] {a b : α} (ha : P a) (hb : P b) : P (if c then a else b) := by
  split
  · exact ha
  · exact hb

/-! ## Opening a tile -/

/-- Two changes of one command in a list are one. -/
theorem mapIf_mapIf_id (n : Nat) (f g : Job → Job) (hid : ∀ j, (f j).id = j.id) (l : List Job) :
    mapIf (fun j => j.id == n) g (mapIf (fun j => j.id == n) f l) = mapIf (fun j => j.id == n) (fun j => g (f j)) l := by
  unfold mapIf
  rw [List.map_map]
  congr 1
  funext j
  by_cases h : j.id = n <;> simp [hid, h]

/-- A command whose run has opened a tile, with the values that it keeps then. -/
def Job.opened (t : TileRun) (values saved : Job → Sparse Int) (c : Job) : Job :=
  { c with run := { c.run with tiles := c.run.tiles ++ [t], values := values c, saved := saved c } }

/-- The state but for the commands and the accumulator files. -/
def State.outsideFiles (s : State) : State × Sparse Engine × Sparse Cluster := (s.offPath, s.engines, s.clusters)

theorem State.clearRow_outsideFiles (s : State) (e row base n : Nat) :
    ((s.clearSlots e row base n).zeroSlots e row base n).outsideFiles = s.outsideFiles :=
  forEach_same State.outsideFiles (List.range n) (fun s i => s.setAccSlot e row (base + i) 0) (fun _ _ _ => rfl) (s.clearSlots e row base n)

theorem State.clearRow_jobs (s : State) (e row base n : Nat) :
    ((s.clearSlots e row base n).zeroSlots e row base n).jobs = s.jobs :=
  forEach_same State.jobs (List.range n) (fun s i => s.setAccSlot e row (base + i) 0) (fun _ _ _ => rfl) (s.clearSlots e row base n)

/-- Opening a tile works on its command and on the accumulator files alone. -/
theorem State.openRun_outsideFiles (s : State) (j : Job) (st : Stage) (t : TileRun) :
    (s.openRun j st t).outsideFiles = s.outsideFiles := by
  unfold State.openRun
  extract_lets s₁ s₂ s₃
  split
  · split <;> rfl
  · split
    · rfl
    · split
      · split <;> rfl
      · exact forEach_same State.outsideFiles _ _ (fun u row _ => u.clearRow_outsideFiles ..) s₃

/-- Opening a tile adds it to its command's run. -/
theorem State.openRun_jobs (s : State) (j : Job) (st : Stage) (t : TileRun) :
    ∃ v w, (s.openRun j st t).jobs = (s.modJob j.id (Job.opened t v w)).jobs := by
  unfold State.openRun
  extract_lets s₁ s₂ s₃
  split
  · split
    · refine ⟨fun c => (t.cells st).foldl (fun m (x : Nat × Nat × Nat) => m.set 0 x.2.2 (c.run.saved.get 0 x.2.2)) c.run.values,
        fun c => c.run.saved, mapIf_mapIf_id j.id _ _ ?_ s.jobs⟩
      exact fun _ => rfl
    · exact ⟨fun c => c.run.values, fun c => c.run.saved, rfl⟩
  · split
    · exact ⟨fun c => c.run.values, fun c => c.run.saved, rfl⟩
    · split
      · split
        · refine ⟨fun c => c.run.values, fun c => s₂.saveValues st t c.run.saved, mapIf_mapIf_id j.id _ _ ?_ s.jobs⟩
          exact fun _ => rfl
        · exact ⟨fun c => c.run.values, fun c => c.run.saved, rfl⟩
      · exact ⟨fun c => c.run.values, fun c => c.run.saved,
          forEach_same State.jobs _ _ (fun u row _ => u.clearRow_jobs ..) s₃⟩

/-! ## Turns at the engines of the quad -/

/-- The tiles of a command's run on an engine. -/
def Job.tilesOn (e : Nat) (j : Job) : List TileRun := j.run.tiles.filter fun t => t.engine == e

theorem StageRun.tileFor_tilesOn (j : Job) (e u part : Nat) (chans : List (Option Nat)) :
    j.run.tileFor e u part chans =
      (j.tilesOn e).find? fun t => !t.closed && t.u == u && t.part == part && t.chans == chans := by
  unfold StageRun.tileFor Job.tilesOn
  rw [List.find?_filter]
  congr 1
  funext t
  rw [Bool.eq_iff_iff]
  simp only [Bool.and_eq_true, beq_iff_eq, decide_eq_true_eq, and_assoc]

/-- The tile in progress for a pass lies on the engine and belongs to the activation tile. -/
theorem StageRun.place_of_tileFor {r : StageRun} {e u part : Nat} {chans : List (Option Nat)} {t : TileRun}
    (h : r.tileFor e u part chans = some t) : t.engine = e ∧ t.u = u := by
  have ht := List.find?_some h
  simp only [Bool.and_eq_true, beq_iff_eq] at ht
  obtain ⟨⟨⟨⟨hengine, -⟩, hu⟩, -⟩, -⟩ := ht
  exact ⟨hengine, hu⟩

/-- What a command is to a pass on engine `e`: its stage, the tile that each cluster is at, and its tiles there. -/
def Job.issueView (e : Nat) (j : Job) : (Option Stage × Nat × Nat × Bool) × Sparse Nat × List TileRun :=
  (j.stageView, j.run.cur, j.tilesOn e)

/-- What a turn at one engine leaves as it was for a pass of command `id` on another engine `e`. -/
structure State.SameFor (id e : Nat) (s t : State) : Prop where
  offPath : t.offPath = s.offPath
  clusters : t.clusters = s.clusters
  units : ∀ n, (t.engine n).unitView = (s.engine n).unitView
  engine : t.engine e = s.engine e
  job : (t.job? id).map (Job.issueView e) = (s.job? id).map (Job.issueView e)

theorem State.SameFor.refl (id e : Nat) (s : State) : s.SameFor id e s := ⟨rfl, rfl, fun _ => rfl, rfl, rfl⟩

theorem State.SameFor.trans {id e : Nat} {s t u : State} (h : s.SameFor id e t) (k : t.SameFor id e u) : s.SameFor id e u :=
  ⟨k.offPath.trans h.offPath, k.clusters.trans h.clusters, fun n => (k.units n).trans (h.units n), k.engine.trans h.engine,
    k.job.trans h.job⟩

theorem State.SameFor.modJob (id e n : Nat) (s : State) (f : Job → Job) (hid : ∀ j, (f j).id = j.id)
    (hf : ∀ j, (f j).issueView e = j.issueView e) : s.SameFor id e (s.modJob n f) :=
  ⟨rfl, rfl, fun _ => rfl, rfl, s.map_job?_modJob _ n id f hid hf⟩

theorem State.SameFor.modEngine (id e n : Nat) (s : State) (f : Engine → Engine) (hn : n ≠ e)
    (hf : ∀ x, (f x).unitView = x.unitView) : s.SameFor id e (s.modEngine n f) := by
  refine ⟨rfl, rfl, fun m => ?_, ?_, rfl⟩
  · rw [State.engine_modEngine]
    split
    · next h => rw [hf, h]
    · rfl
  · rw [State.engine_modEngine, if_neg hn]

/-- A tile opened on another engine. -/
theorem Job.opened_issueView (t : TileRun) (v w : Job → Sparse Int) (e : Nat) (h : t.engine ≠ e) (j : Job) :
    (j.opened t v w).issueView e = j.issueView e := by
  have htiles : (j.opened t v w).tilesOn e = j.tilesOn e := by
    change (j.run.tiles ++ [t]).filter _ = _
    simp [List.filter_append, h, Job.tilesOn]
  change (j.stageView, j.run.cur, (j.opened t v w).tilesOn e) = _
  rw [htiles]
  rfl

theorem State.SameFor.openRun (id e : Nat) (s : State) (j : Job) (st : Stage) (t : TileRun) (h : t.engine ≠ e) :
    s.SameFor id e (s.openRun j st t) := by
  obtain ⟨v, w, hjobs⟩ := s.openRun_jobs j st t
  have hout := s.openRun_outsideFiles j st t
  have hengines : (s.openRun j st t).engines = s.engines := congrArg (fun x => x.2.1) hout
  have hengine : ∀ n, (s.openRun j st t).engine n = s.engine n := fun n => congrArg (fun l => Sparse.get ({} : Engine) l n) hengines
  have hjob : (s.openRun j st t).job? id = (s.modJob j.id (Job.opened t v w)).job? id :=
    congrArg (fun l : List Job => l.find? fun (j : Job) => j.id == id) hjobs
  refine ⟨congrArg Prod.fst hout, congrArg (fun x => x.2.2) hout, fun n => by rw [hengine], hengine e, ?_⟩
  rw [hjob]
  exact s.map_job?_modJob _ j.id id _ (fun _ => rfl) (Job.opened_issueView t v w e h)

theorem State.SameFor.tileFor (id e n : Nat) (s : State) (j : Job) (st : Stage) (t : TileRun) (h : t.engine ≠ e) :
    s.SameFor id e (s.tileFor j st t n) := by
  unfold State.tileFor
  extract_lets m
  split
  · exact State.SameFor.openRun id e s j st _ h
  · exact State.SameFor.refl id e s

/-- What an engine `x` numbered `e` has under way of a group of command `id` that is issued on it. -/
def State.issueFor (s : State) (x : Engine) (e : Nat) (j : Job) (st : Stage) (id vec grp slice : Nat) (q : Quantised) : Issue :=
  let sl := sliceValues st.inf (s.codebook (e / 4) st.inCb) slice q.v
  { job := id, stage := j.run.stage, rerun := j.run.rerun, vec := vec, grp := grp, ws := x.active.ws,
    slice := slice, ex := q.ex, colsum := Dy.sum sl.1, c := sl.2.2.c,
    a := lsbExp st (log2F st.wf (x.active.ws == 0) (cbEntries st.wf (s.codebook (e / 4) st.wCb))) sl.2.2.p x.h, narrow := st.narrow,
    pair := x.active.pair, rows := (s.convRows e x.active).map (issueRow sl.2.2 sl.1) }

/-- An engine that a quantised group has been issued on. -/
def Engine.issue (id : Nat) (is : Issue) (x : Engine) : Engine :=
  { x with issues := x.issues ++ [is], usedBy := insertNat id x.usedBy }

/-- A command of which a pass of a tile has been issued. -/
def Job.passOn (t : TileRun) (c : Job) : Job :=
  { c with run := { c.run with tiles := mapIf (fun y => y == t) (fun y => { y with issued := y.issued + 1 }) c.run.tiles } }

/-- A pass issued on another engine. -/
theorem Job.passOn_issueView (t : TileRun) (e : Nat) (h : t.engine ≠ e) (j : Job) : (j.passOn t).issueView e = j.issueView e := by
  have htiles : ∀ l : List TileRun, (mapIf (fun y => y == t) (fun y => { y with issued := y.issued + 1 }) l).filter
      (fun t => t.engine == e) = l.filter fun t => t.engine == e := by
    intro l
    induction l with
    | nil => rfl
    | cons y l ih =>
      unfold mapIf at ih ⊢
      rw [List.map_cons]
      by_cases hy : y = t
      · subst hy
        simpa [h] using ih
      · simp only [beq_iff_eq, hy, if_false, List.filter_cons] at ih ⊢
        rw [ih]
  have hon : (j.passOn t).tilesOn e = j.tilesOn e := htiles j.run.tiles
  change (j.stageView, j.run.cur, (j.passOn t).tilesOn e) = _
  rw [hon]
  rfl

/-- A turn at one engine leaves what a pass on another engine looks at. -/
theorem State.SameFor.issueOn (id e : Nat) (s : State) (vec grp slice : Nat) (q : Quantised) (n : Nat) (hn : n ≠ e) :
    s.SameFor id e (s.issueOn id vec grp slice q n) := by
  have same := State.SameFor.refl id e s
  unfold State.issueOn
  cases s.job? id with
  | none => exact same
  | some j =>
    dsimp -zeta only
    cases j.stage? with
    | none => exact same
    | some st =>
      dsimp -zeta only
      cases st.partOf (n / 4) with
      | none => exact same
      | some p =>
        dsimp -zeta only
        extract_lets x bank u chans per k s₁
        refine ite_both same ?_
        have same₁ : s.SameFor id e s₁ := State.SameFor.tileFor id e k s j st _ hn
        cases s₁.job? id with
        | none => exact same₁
        | some j₁ =>
          dsimp -zeta only
          cases ht : j₁.run.tileFor n u p.1 chans with
          | none => exact same₁
          | some t =>
            dsimp -zeta only
            refine ite_both same₁ ?_
            have hte : t.engine ≠ e := (StageRun.place_of_tileFor ht).1 ▸ hn
            have issued : s₁.SameFor id e (s₁.modEngine n (Engine.issue id (s₁.issueFor x n j₁ st id vec grp slice q))) :=
              State.SameFor.modEngine id e n s₁ _ hn fun _ => rfl
            exact (same₁.trans issued).trans
              (State.SameFor.modJob id e id _ (Job.passOn t) (fun _ => rfl) (Job.passOn_issueView t e hte))

/-- Engine `e` is due for a pass of command `id`: its active bank holds the group's tile, and the next pass of its tile in progress is
this one. -/
structure State.Due (s : State) (id e vec grp slice : Nat) (st : Stage) (p : Nat × Nat × Nat) (tl : TileRun) (j : Job) : Prop where
  job : s.job? id = some j
  stage : j.stage? = some st
  part : st.partOf (e / 4) = some p
  inService : s.inService e = true
  busy : s.slotIdle e = false
  bankJob : (s.engine e).active.job = id
  bankStage : (s.engine e).active.stage = j.run.stage
  bankRerun : (s.engine e).active.rerun = j.run.rerun
  bankGroup : (s.engine e).active.rb = grp
  bankRows : (s.engine e).active.rows ≠ []
  tile : j.run.tileFor e (vec / st.vecB) p.1 (st.tileChans ((s.engine e).active.rows.map (·.chan))) = some tl
  pass : tl.issued = ((grp - p.2.1) * st.ws + (s.engine e).active.ws) * (st.vecsIn (vec / st.vecB) * st.inSlices) +
    (vec - vec / st.vecB * st.vecB) * st.inSlices + slice

section
variable {s : State} {id e vec grp slice : Nat} {st : Stage} {p : Nat × Nat × Nat} {tl : TileRun} {j : Job}

/-- A turn at an engine that is due issues the group. -/
theorem State.Due.issueOn (h : s.Due id e vec grp slice st p tl j) (q : Quantised) : s.issueOn id vec grp slice q e =
    (s.modEngine e (Engine.issue id (s.issueFor (s.engine e) e j st id vec grp slice q))).modJob id (Job.passOn tl) := by
  have hopen : ∀ t n, t.engine = e → t.u = vec / st.vecB → t.part = p.1 →
      t.chans = st.tileChans ((s.engine e).active.rows.map (·.chan)) → s.tileFor j st t n = s := by
    intro t n h₁ h₂ h₃ h₄
    unfold State.tileFor
    rw [if_neg]
    simp [h₁, h₂, h₃, h₄, h.tile]
  unfold State.issueOn
  simp only [h.job, h.stage, h.part]
  rw [if_neg (by simp [h.inService, h.busy, h.bankJob, h.bankStage, h.bankRerun, h.bankGroup, h.bankRows]),
    hopen _ _ rfl rfl rfl rfl]
  simp only [h.job, h.tile]
  rw [if_neg (by simpa using h.pass)]
  rfl

/-- What decides on whether an engine is due: the engine, the rotation, and the command's stage and tiles there. -/
theorem State.Due.congr (h : s.Due id e vec grp slice st p tl j) {t : State} {k : Job} (hoff : t.offPath = s.offPath)
    (hunits : ∀ n, (t.engine n).unitView = (s.engine n).unitView) (hengine : t.engine e = s.engine e) (hk : t.job? id = some k)
    (hview : k.stageView = j.stageView) (htiles : k.tilesOn e = j.tilesOn e) : t.Due id e vec grp slice st p tl k := by
  have hstage? : k.stage? = j.stage? := congrArg Prod.fst hview
  have hstage : k.run.stage = j.run.stage := congrArg (fun x => x.2.2.1) hview
  have hrerun : k.run.rerun = j.run.rerun := congrArg (fun x => x.2.2.2) hview
  have hin : t.inService e = s.inService e := by
    unfold State.inService
    rw [hengine]
  constructor
  case job => exact hk
  case stage => exact hstage?.trans h.stage
  case part => exact h.part
  case inService => exact hin.trans h.inService
  case busy => exact (State.slotIdle_congr hoff hunits e).trans h.busy
  case tile => rw [hengine, StageRun.tileFor_tilesOn, htiles, ← StageRun.tileFor_tilesOn, h.tile]
  case bankJob => rw [hengine, h.bankJob]
  case bankStage => rw [hengine, h.bankStage, hstage]
  case bankRerun => rw [hengine, h.bankRerun, hrerun]
  case bankGroup => rw [hengine, h.bankGroup]
  case bankRows => rw [hengine]; exact h.bankRows
  case pass => rw [hengine, h.pass]

/-- An engine is still due after turns at other engines. -/
theorem State.Due.same (h : s.Due id e vec grp slice st p tl j) {t : State} (same : s.SameFor id e t) :
    ∃ k, t.Due id e vec grp slice st p tl k ∧ k.issueView e = j.issueView e := by
  have hjob : (t.job? id).map (Job.issueView e) = some (j.issueView e) := same.job.trans (congrArg _ h.job)
  obtain ⟨k, hk, hview⟩ := Option.map_eq_some_iff.mp hjob
  exact ⟨k, h.congr same.offPath same.units same.engine hk (congrArg Prod.fst hview) (congrArg (fun x => x.2.2) hview), hview⟩

end

end Sys2Proof.Machine
end

section
/-! PROOFS. GROUP_ISSUE as a whole: the Follower turns to the tile, the group streams on the quad, and after a tile's last group the
clusters of its set turn to the next (02 R57, R63; 08 R384 to R387). -/

namespace Sys2Proof.Machine

/-! ## Turning to a tile -/

/-- A command whose Follower on cluster `c` is at tile `u`. -/
def Job.turnTo (c u : Nat) (j : Job) : Job := { j with run := { j.run with cur := j.run.cur.set 0 c u } }

/-- The state but for the commands and for the tile buffers of the clusters. -/
def State.besideBufs (s : State) : State × Sparse Engine × (Nat → List (List (Nat × Nat)) × List (Nat × List Int)) :=
  (s.offPath, s.engines, fun n => ((s.cluster n).emit, (s.cluster n).codebooks))

theorem State.advanceTile_besideBufs (s : State) (id c u : Nat) : (s.advanceTile id c u).besideBufs = s.besideBufs := by
  unfold State.advanceTile
  cases s.job? id with
  | none => rfl
  | some j =>
    refine Prod.ext rfl (Prod.ext rfl (funext fun n => ?_))
    dsimp only [State.besideBufs]
    rw [State.cluster_modCluster]
    split
    · next h => rw [h]; rfl
    · rfl

theorem State.job?_advanceTile (s : State) (id c u : Nat) : (s.advanceTile id c u).job? id = (s.job? id).map (Job.turnTo c u) := by
  unfold State.advanceTile
  cases hj : s.job? id with
  | none => exact hj
  | some j =>
    refine (State.job?_modJob s id id (Job.turnTo c u) fun _ => rfl).trans ?_
    rw [if_pos rfl, hj]

theorem State.retireTile_besideBufs (s : State) (id c u : Nat) : (s.retireTile id c u).besideBufs = s.besideBufs := by
  unfold State.retireTile
  cases s.job? id with
  | none => rfl
  | some j =>
    dsimp only
    cases j.stage? with
    | none => rfl
    | some st =>
      dsimp only
      cases st.partOf c with
      | none => rfl
      | some p =>
        refine ite_both (P := fun t : State => t.besideBufs = s.besideBufs) ?_ rfl
        refine forEach_same State.besideBufs _ _ (fun t n _ => ?_) s
        exact ite_both (P := fun v : State => v.besideBufs = t.besideBufs) (t.advanceTile_besideBufs id n (u + 1)) rfl

/-- The command `id` has these tiles, and its Follower on cluster `c` is at tile `u` or at one of `us`. -/
def State.followerAt (id c : Nat) (tiles : List TileRun) (us : List Nat) (s : State) : Prop :=
  ∃ j, s.job? id = some j ∧ j.run.tiles = tiles ∧ j.run.cur.get 0 c ∈ us

theorem State.followerAt_advance {s : State} {id c : Nat} {tiles : List TileRun} {us : List Nat} (h : s.followerAt id c tiles us)
    (n u : Nat) (hu : u ∈ us) : (s.advanceTile id n u).followerAt id c tiles us := by
  obtain ⟨j, hj, htiles, hcur⟩ := h
  refine ⟨j.turnTo n u, by rw [s.job?_advanceTile, hj]; rfl, htiles, ?_⟩
  change (j.run.cur.set 0 n u).get 0 c ∈ us
  rw [Sparse.get_set]
  exact ite_both (P := (· ∈ us)) hu hcur

theorem State.followerAt_turned {s : State} {id c : Nat} {tiles : List TileRun} {us : List Nat} (h : s.followerAt id c tiles us)
    (u : Nat) : (s.advanceTile id c u).followerAt id c tiles [u] := by
  obtain ⟨j, hj, htiles, -⟩ := h
  refine ⟨j.turnTo c u, by rw [s.job?_advanceTile, hj]; rfl, htiles, ?_⟩
  change (j.run.cur.set 0 c u).get 0 c ∈ [u]
  simp

/-- After the pass, the Follower stands at the pass's tile, or at the next one when that was the tile's last group. -/
theorem State.retireTile_cur (s : State) (id c u : Nat) (j : Job) (st : Stage) (p : Nat × Nat × Nat) (hj : s.job? id = some j)
    (hst : j.stage? = some st) (hp : st.partOf c = some p) (hc : c ∈ s.fetchSet j st c) (hcur : j.run.cur.get 0 c = u) :
    ∃ j', (s.retireTile id c u).job? id = some j' ∧ j'.run.cur.get 0 c = u + if j'.run.tileIssued st p.1 u then 1 else 0 := by
  unfold State.retireTile
  simp only [hj, hst, hp]
  cases hdone : j.run.tileIssued st p.1 u with
  | false =>
    refine ⟨j, hj, ?_⟩
    rw [hdone, hcur]
    rfl
  | true =>
    rw [if_pos rfl]
    have hstart : s.followerAt id c j.run.tiles [u, u + 1] := ⟨j, hj, rfl, by simp [hcur]⟩
    have hend : (forEach (s.fetchSet j st c) (fun s n => if j.run.cur.get 0 n ≤ u then s.advanceTile id n (u + 1) else s) s).followerAt
        id c j.run.tiles [u + 1] := by
      refine forEach_reaches (State.followerAt id c j.run.tiles [u, u + 1]) _ _ _ c hc (fun t n ht => ?_) (fun t ht => ?_)
        (fun t n ht => ?_) s hstart
      · exact ite_both (P := State.followerAt id c j.run.tiles [u, u + 1]) (State.followerAt_advance ht n (u + 1) (by simp)) ht
      · rw [if_pos hcur.le]
        exact State.followerAt_turned ht (u + 1)
      · exact ite_both (P := State.followerAt id c j.run.tiles [u + 1]) (State.followerAt_advance ht n (u + 1) (by simp)) ht
    obtain ⟨j', hj', htiles, hat⟩ := hend
    have hsame : j'.run.tileIssued st p.1 u = j.run.tileIssued st p.1 u := by
      unfold StageRun.tileIssued
      rw [htiles]
    refine ⟨j', hj', ?_⟩
    rw [hsame, hdone]
    simpa using hat

/-! ## Before the group streams -/

/-- The running stage and the run of a command. -/
def Job.runView (j : Job) : (Option Stage × Nat × Nat × Bool) × StageRun := (j.stageView, j.run)

/-- What counting and emitting leave as it was. -/
def State.groupView (id : Nat) (s : State) :
    State × Sparse Engine × (Nat → List (Nat × List Int)) × Option ((Option Stage × Nat × Nat × Bool) × StageRun) :=
  (s.offPath, s.engines, fun n => (s.cluster n).codebooks, (s.job? id).map Job.runView)

@[simp] theorem State.cluster_modJob (s : State) (n : Nat) (f : Job → Job) (m : Nat) : (s.modJob n f).cluster m = s.cluster m := rfl

theorem State.modJob_groupView (s : State) (id n : Nat) (f : Job → Job) (hid : ∀ j, (f j).id = j.id)
    (hf : ∀ j, (f j).runView = j.runView) : (s.modJob n f).groupView id = s.groupView id := by
  unfold State.groupView
  rw [s.map_job?_modJob Job.runView n id f hid hf]
  rfl

theorem State.modCluster_groupView (s : State) (id n : Nat) (f : Cluster → Cluster) (hf : ∀ x, (f x).codebooks = x.codebooks) :
    (s.modCluster n f).groupView id = s.groupView id := by
  refine Prod.ext rfl (Prod.ext rfl (Prod.ext (funext fun m => ?_) rfl))
  dsimp only [State.groupView]
  rw [State.cluster_modCluster]
  split
  · next h => rw [hf, h]
  · rfl

theorem State.countClips_groupView (s : State) (id c n : Nat) : (s.countClips id c n).groupView id = s.groupView id := by
  unfold State.countClips
  split
  · rfl
  · refine Eq.trans ?_ (s.modCluster_groupView id c (fun x => { x with inputClips := x.inputClips + n }) fun _ => rfl)
    exact State.modJob_groupView _ id id _ (fun _ => rfl) fun _ => rfl

theorem State.countClips_emit (s : State) (id c n m : Nat) : ((s.countClips id c n).cluster m).emit = (s.cluster m).emit := by
  unfold State.countClips
  split
  · rfl
  · rw [State.cluster_modJob, State.cluster_modCluster]
    split
    · next h => rw [h]
    · rfl

/-- The first slice of a group counts its clips. -/
def State.clipsOf (s : State) (id c slice : Nat) (q : Quantised) : State := if slice = 0 then s.countClips id c q.clips else s

/-- What the modulators of cluster `c` emit for a slice of a group. -/
def State.emission (s : State) (st : Stage) (c slice : Nat) (q : Quantised) : List (List (Nat × Nat)) :=
  streamed (sliceValues st.inf (s.codebook c st.inCb) slice q.v).2.2 (sliceValues st.inf (s.codebook c st.inCb) slice q.v).1

/-- The modulators of cluster `c` have the symbols of a slice of a group. -/
def State.emits (s : State) (st : Stage) (c slice : Nat) (q : Quantised) : State :=
  s.modCluster c fun x => { x with emit := x.emit ++ s.emission st c slice q }

/-- A group without a codebook sets RANGE. -/
def State.noteCb (s : State) (id : Nat) (q : Quantised) : State :=
  if q.noCb then s.modJob id fun c => { c with flags := { c.flags with range := true } } else s

/-- The state in which a group streams: the Follower is at its tile, its clips are counted, and the modulators have its symbols. -/
def State.streaming (s : State) (st : Stage) (id c u slice : Nat) (q : Quantised) : State :=
  (((s.advanceTile id c u).clipsOf id c slice q).emits st c slice q).noteCb id q

section
variable (s : State) (st : Stage) (id c u slice : Nat) (q : Quantised)

theorem State.clipsOf_groupView : (s.clipsOf id c slice q).groupView id = s.groupView id := by
  unfold State.clipsOf
  split
  · exact s.countClips_groupView ..
  · rfl

theorem State.clipsOf_emit (m : Nat) : ((s.clipsOf id c slice q).cluster m).emit = (s.cluster m).emit := by
  unfold State.clipsOf
  split
  · exact s.countClips_emit ..
  · rfl

theorem State.emits_groupView : (s.emits st c slice q).groupView id = s.groupView id := by
  unfold State.emits
  exact s.modCluster_groupView id c _ fun _ => rfl

theorem State.noteCb_groupView : (s.noteCb id q).groupView id = s.groupView id := by
  unfold State.noteCb
  split
  · exact s.modJob_groupView id id _ (fun _ => rfl) fun _ => rfl
  · rfl

theorem State.noteCb_cluster (m : Nat) : (s.noteCb id q).cluster m = s.cluster m := by
  unfold State.noteCb
  split <;> rfl

theorem State.streaming_groupView : (s.streaming st id c u slice q).groupView id = (s.advanceTile id c u).groupView id := by
  unfold State.streaming
  rw [State.noteCb_groupView, State.emits_groupView, State.clipsOf_groupView]

theorem State.advanceTile_codebooks (m : Nat) : ((s.advanceTile id c u).cluster m).codebooks = (s.cluster m).codebooks :=
  congrArg (fun x => (x.2.2 m).2) (s.advanceTile_besideBufs id c u)

theorem State.advanceTile_emit (m : Nat) : ((s.advanceTile id c u).cluster m).emit = (s.cluster m).emit :=
  congrArg (fun x => (x.2.2 m).1) (s.advanceTile_besideBufs id c u)

theorem State.streaming_codebooks (m : Nat) : ((s.streaming st id c u slice q).cluster m).codebooks = (s.cluster m).codebooks :=
  (congrArg (fun x => x.2.2.1 m) (s.streaming_groupView st id c u slice q)).trans (s.advanceTile_codebooks id c u m)

theorem State.streaming_offPath : (s.streaming st id c u slice q).offPath = s.offPath :=
  (congrArg (fun x => x.1) (s.streaming_groupView st id c u slice q)).trans
    (congrArg (fun x => x.1) (s.advanceTile_besideBufs id c u))

theorem State.streaming_engines : (s.streaming st id c u slice q).engines = s.engines :=
  (congrArg (fun x => x.2.1) (s.streaming_groupView st id c u slice q)).trans
    (congrArg (fun x => x.2.1) (s.advanceTile_besideBufs id c u))

/-- The command is at the tile of the group. -/
theorem State.streaming_job : ((s.streaming st id c u slice q).job? id).map Job.runView =
    (s.job? id).map fun j => (j.turnTo c u).runView := by
  refine (congrArg (fun x => x.2.2.2) (s.streaming_groupView st id c u slice q)).trans ?_
  change ((s.advanceTile id c u).job? id).map Job.runView = _
  rw [s.job?_advanceTile, Option.map_map]
  rfl

theorem State.streaming_emit :
    ((s.streaming st id c u slice q).cluster c).emit = (s.cluster c).emit ++ s.emission st c slice q := by
  have hemission : ((s.advanceTile id c u).clipsOf id c slice q).emission st c slice q = s.emission st c slice q := by
    unfold State.emission
    rw [State.codebook_congr ((congrArg (fun x => x.2.2.1 c) (State.clipsOf_groupView _ id c slice q)).trans
      (s.advanceTile_codebooks id c u c))]
  unfold State.streaming State.emits
  rw [State.noteCb_cluster, State.cluster_modCluster, if_pos rfl, hemission]
  dsimp only
  rw [State.clipsOf_emit, s.advanceTile_emit]

end

/-! ## The group streams on the quad -/

/-- A property that turns at other elements keep, and the turn at one element makes into another that they keep too. -/
theorem forEach_passes {α : Type} (P Q : State → Prop) (l : List α) (hl : l.Nodup) (f : State → α → State) (a : α) (ha : a ∈ l)
    (hP : ∀ s b, b ≠ a → P s → P (f s b)) (hPQ : ∀ s, P s → Q (f s a)) (hQ : ∀ s b, b ≠ a → Q s → Q (f s b)) (s : State) (hs : P s) :
    Q (forEach l f s) := by
  obtain ⟨l₁, l₂, rfl⟩ := List.append_of_mem ha
  have hne : ∀ b, b ∈ l₁ ∨ b ∈ l₂ → b ≠ a := by
    have hmid := (List.nodup_middle.mp hl).notMem
    rintro b hb rfl
    exact hmid (List.mem_append.mpr hb)
  have h₁ : P (forEach l₁ f s) := forEach_keeps P l₁ f (fun t b hb => hP t b (hne b (.inl hb))) s hs
  rw [forEach_append]
  exact forEach_keeps Q l₂ f (fun t b hb => hQ t b (hne b (.inr hb))) (f (forEach l₁ f s) a) (hPQ _ h₁)

/-- The group that an engine has under way depends on the engine, the codebooks and the run of the command alone. -/
theorem State.issueFor_congr {s t : State} {e : Nat} {j k : Job} (hbooks : (t.cluster (e / 4)).codebooks = (s.cluster (e / 4)).codebooks)
    (hengine : t.engine e = s.engine e) (hrun : k.stageView = j.stageView) (st : Stage) (id vec grp slice : Nat) (q : Quantised) :
    t.issueFor (t.engine e) e k st id vec grp slice q = s.issueFor (s.engine e) e j st id vec grp slice q := by
  have hstage : k.run.stage = j.run.stage := congrArg (fun x => x.2.2.1) hrun
  have hrerun : k.run.rerun = j.run.rerun := congrArg (fun x => x.2.2.2) hrun
  have hconv : t.convRows e (s.engine e).active = s.convRows e (s.engine e).active := by
    unfold State.convRows State.fileRow
    rw [hengine]
  unfold State.issueFor
  simp only [State.codebook_congr hbooks, hengine, hstage, hrerun, hconv]

/-- The running stage of a command and the tile that each cluster is at. -/
def Job.streamView (j : Job) : (Option Stage × Nat × Nat × Bool) × Sparse Nat := (j.stageView, j.run.cur)

theorem State.SameFor.streamView {id e : Nat} {s t : State} (h : s.SameFor id e t) :
    (t.job? id).map Job.streamView = (s.job? id).map Job.streamView := by
  have hview := congrArg (Option.map fun x : (Option Stage × Nat × Nat × Bool) × Sparse Nat × List TileRun => (x.1, x.2.1)) h.job
  rwa [Option.map_map, Option.map_map] at hview

/-- From `s` on, the group has been issued on engine `e` as `is`. -/
structure State.IssuedOn (id e : Nat) (is : Issue) (s t : State) : Prop where
  offPath : t.offPath = s.offPath
  clusters : t.clusters = s.clusters
  engine : t.engine e = (s.engine e).issue id is
  job : (t.job? id).map Job.streamView = (s.job? id).map Job.streamView

theorem State.IssuedOn.same {id e : Nat} {is : Issue} {s t u : State} (h : s.IssuedOn id e is t) (k : t.SameFor id e u) :
    s.IssuedOn id e is u :=
  ⟨k.offPath.trans h.offPath, k.clusters.trans h.clusters, k.engine.trans h.engine, k.streamView.trans h.job⟩

/-- With an engine of the quad due for the pass, the loop over the quad issues the group on it. -/
theorem State.Due.quad {s : State} {id e vec grp slice : Nat} {st : Stage} {p : Nat × Nat × Nat} {tl : TileRun} {j : Job}
    (h : s.Due id e vec grp slice st p tl j) (q : Quantised) :
    s.IssuedOn id e (s.issueFor (s.engine e) e j st id vec grp slice q)
      (forEach [0, 1, 2, 3] (fun s i => s.issueOn id vec grp slice q (4 * (e / 4) + i)) s) := by
  have hturn : ∀ i, i ≠ e % 4 → 4 * (e / 4) + i ≠ e := by omega
  have hhere : 4 * (e / 4) + e % 4 = e := by omega
  refine forEach_passes (s.SameFor id e ·) _ [0, 1, 2, 3] (by decide) _ (e % 4) ?_ (fun t i hi ht => ?_) (fun t ht => ?_)
    (fun t i hi ht => ?_) s (State.SameFor.refl id e s)
  · have : e % 4 < 4 := Nat.mod_lt _ (by decide)
    simp only [List.mem_cons, List.not_mem_nil]
    omega
  · exact ht.trans (State.SameFor.issueOn id e t vec grp slice q _ (hturn i hi))
  · obtain ⟨k, hdue, hview⟩ := h.same ht
    have hfor := State.issueFor_congr (j := j) (k := k) (congrArg (fun l => Cluster.codebooks (Sparse.get {} l (e / 4))) ht.clusters)
      ht.engine (congrArg Prod.fst hview) st id vec grp slice q
    rw [hhere, hdue.issueOn q, hfor]
    refine ⟨ht.offPath, ht.clusters, ?_, ?_⟩
    · change (t.modEngine e _).engine e = _
      rw [State.engine_modEngine, if_pos rfl, ht.engine]
    · rw [State.map_job?_modJob Job.streamView _ id id (Job.passOn tl) (fun _ => rfl) fun _ => rfl]
      exact ht.streamView
  · exact ht.same (State.SameFor.issueOn id e t vec grp slice q _ (hturn i hi))

/-! ## GROUP_ISSUE -/

/-- A group of a command may stream on a cluster: the guards of GROUP_ISSUE. -/
structure State.MayIssue (s : State) (id c vec grp slice : Nat) (j : Job) (st : Stage) (p : Nat × Nat × Nat) (b : TileBuf) : Prop where
  job : s.job? id = some j
  stage : j.stage? = some st
  part : st.partOf c = some p
  groupLo : p.2.1 ≤ grp
  groupHi : grp < p.2.1 + p.2.2
  mask : bit j.mask c = true
  vecIn : vec < st.vecs
  tile : st.firstTile ≤ vec / st.vecB
  sliceIn : slice < st.inSlices
  running : j.run.drainFrame = none
  free : s.issueHeld c = false
  room : s.hasRoom j = true
  cur : j.run.cur.get 0 c ≤ vec / st.vecB
  before : j.run.doneBefore c (vec / st.vecB) = true
  buf : s.buf? j c (vec / st.vecB) = some b
  reads : b.reads = []
  hostReads : b.hostReads = []
  good : b.bad = none
  scales : s.inputBad st c vec grp = none

section
variable {s : State} {id c vec grp slice : Nat} {j : Job} {st : Stage} {p : Nat × Nat × Nat} {b : TileBuf}

/-- A group that may stream is issued on the quad, and its tile retired after the last group. -/
theorem State.MayIssue.exec (h : s.MayIssue id c vec grp slice j st p b) (q : Quantised)
    (hq : q = s.quantGroup st j.run.rerun c b vec grp) :
    exec (.groupIssue id c vec grp slice) s =
      .next ((forEach [0, 1, 2, 3] (fun s i => s.issueOn id vec grp slice q (4 * c + i))
        (s.streaming st id c (vec / st.vecB) slice q)).retireTile id c (vec / st.vecB)) := by
  change execGroupIssue id c vec grp slice s = _
  unfold execGroupIssue
  simp only [h.job, h.stage, h.part, h.buf, h.good, h.scales]
  rw [if_neg (by simp [h.room, h.mask, h.groupLo, h.groupHi, h.vecIn, h.tile, h.sliceIn, h.running, h.free, h.cur, h.before]),
    if_neg (by simp [h.reads, h.hostReads]), hq]
  rfl
/-- A cluster of a command belongs to its own multicast set while it is in service. -/
theorem State.mem_fetchSet {s : State} {j : Job} {st : Stage} {c : Nat} {p : Nat × Nat × Nat} (hc : c < 64)
    (hmask : bit j.mask c = true) (hp : st.partOf c = some p) (hin : s.clusterOut c = false) : c ∈ s.fetchSet j st c := by
  simp [State.fetchSet, bitList, hc, hmask, hp, hin]

/-- After the loop over the quad the group of a due engine is under way there, the modulators have its symbols, and the command is at
its tile. -/
theorem State.Due.streamed {e : Nat} {tl : TileRun} (hdue : s.Due id e vec grp slice st p tl j) (q : Quantised) {t : State}
    (ht : t = forEach [0, 1, 2, 3] (fun s i => s.issueOn id vec grp slice q (4 * (e / 4) + i))
      (s.streaming st id (e / 4) (vec / st.vecB) slice q)) :
    t.offPath = s.offPath ∧ (t.cluster (e / 4)).emit = (s.cluster (e / 4)).emit ++ s.emission st (e / 4) slice q ∧
    t.engine e = (s.engine e).issue id (s.issueFor (s.engine e) e j st id vec grp slice q) ∧
    ∃ k, t.job? id = some k ∧ k.stageView = j.stageView ∧ k.run.cur.get 0 (e / 4) = vec / st.vecB := by
  have hoff := s.streaming_offPath st id (e / 4) (vec / st.vecB) slice q
  have hengines := s.streaming_engines st id (e / 4) (vec / st.vecB) slice q
  have hengine : ∀ n, (s.streaming st id (e / 4) (vec / st.vecB) slice q).engine n = s.engine n :=
    fun n => congrArg (fun l => Sparse.get ({} : Engine) l n) hengines
  have hjob := s.streaming_job st id (e / 4) (vec / st.vecB) slice q
  have hbooks := s.streaming_codebooks st id (e / 4) (vec / st.vecB) slice q
  have hemit := s.streaming_emit st id (e / 4) (vec / st.vecB) slice q
  generalize s.streaming st id (e / 4) (vec / st.vecB) slice q = s₁ at *
  rw [hdue.job] at hjob
  obtain ⟨k, hk, hview⟩ := Option.map_eq_some_iff.mp hjob
  have hrun : k.run = (j.turnTo (e / 4) (vec / st.vecB)).run := congrArg Prod.snd hview
  have hstage : k.stageView = j.stageView := congrArg Prod.fst hview
  have htiles : k.tilesOn e = j.tilesOn e := by
    unfold Job.tilesOn
    rw [hrun]
    rfl
  have hcur : k.run.cur.get 0 (e / 4) = vec / st.vecB := by
    rw [hrun]
    exact (Sparse.get_set ..).trans (if_pos rfl)
  have hloop := (hdue.congr hoff (fun n => by rw [hengine n]) (hengine e) hk hstage htiles).quad q
  rw [State.issueFor_congr (hbooks (e / 4)) (hengine e) hstage, ← ht] at hloop
  obtain ⟨hoff', hclusters, hissue, hstream⟩ := hloop
  rw [hk] at hstream
  obtain ⟨m, hm, hsame⟩ := Option.map_eq_some_iff.mp hstream
  have hcluster : t.cluster (e / 4) = s₁.cluster (e / 4) := congrArg (fun l => Sparse.get ({} : Cluster) l (e / 4)) hclusters
  have hcur' : m.run.cur = k.run.cur := congrArg Prod.snd hsame
  exact ⟨hoff'.trans hoff, (congrArg Cluster.emit hcluster).trans hemit, hissue.trans (congrArg _ (hengine e)), m, hm,
    (congrArg Prod.fst hsame).trans hstage, (congrArg (Sparse.get 0 · (e / 4)) hcur').trans hcur⟩

/-- The group of a due engine streams: memory stays, the Follower moves on after the last group, the modulators have the symbols, and
the engine has the group under way. -/
theorem State.MayIssue.streams {e : Nat} {tl : TileRun} (h : s.MayIssue id (e / 4) vec grp slice j st p b)
    (hdue : s.Due id e vec grp slice st p tl j) (q : Quantised) (hc : e / 4 < 64) (hout : s.clusterOut (e / 4) = false)
    {t : State} (ht : t = (forEach [0, 1, 2, 3] (fun s i => s.issueOn id vec grp slice q (4 * (e / 4) + i))
      (s.streaming st id (e / 4) (vec / st.vecB) slice q)).retireTile id (e / 4) (vec / st.vecB)) :
    s.sameMem t ∧
    (∃ j', t.job? id = some j' ∧ j'.run.cur.get 0 (e / 4) =
      vec / st.vecB + if j'.run.tileIssued st p.1 (vec / st.vecB) then 1 else 0) ∧
    (t.cluster (e / 4)).emit = (s.cluster (e / 4)).emit ++ s.emission st (e / 4) slice q ∧
    (t.engine e).issues = (s.engine e).issues ++ [s.issueFor (s.engine e) e j st id vec grp slice q] := by
  obtain ⟨hoff, hemit, hissue, k, hk, hview, hcur⟩ := hdue.streamed q rfl
  generalize forEach [0, 1, 2, 3] _ _ = s₁ at *
  have hbeside := s₁.retireTile_besideBufs id (e / 4) (vec / st.vecB)
  rw [← ht] at hbeside
  have hengines : t.engines = s₁.engines := congrArg (fun x => x.2.1) hbeside
  have hengine : t.engine e = s₁.engine e := congrArg (fun l => Sparse.get ({} : Engine) l e) hengines
  have hemit' : (t.cluster (e / 4)).emit = (s₁.cluster (e / 4)).emit := congrArg (fun x => (x.2.2 (e / 4)).1) hbeside
  have hstage : k.stage? = some st := (congrArg Prod.fst hview).trans h.stage
  have hmask : k.mask = j.mask := congrArg (fun x => x.2.1) hview
  have hin : s₁.clusterOut (e / 4) = false := by
    rw [← hout]
    unfold State.clusterOut
    rw [State.mapped_of_offPath hoff]
  have hmem : e / 4 ∈ s₁.fetchSet k st (e / 4) := State.mem_fetchSet hc (hmask ▸ h.mask) h.part hin
  refine ⟨State.sameMem_of_offPath ((congrArg Prod.fst hbeside).trans hoff), ?_, hemit'.trans hemit, ?_⟩
  · rw [ht]
    exact s₁.retireTile_cur id (e / 4) _ k st p hk hstage h.part hmem hcur
  · rw [hengine, hissue]
    rfl

end

end Sys2Proof.Machine
end

section
/-! PROOFS. Exact values of the accumulator files: their sums modulo 2³²⁰ (04 R184 to R187). -/

namespace Sys2Proof.Machine

/-! ## 320 bits in two's complement -/

/-- The value of the low `w + 1` bits is the balanced remainder. -/
theorem sext_eq_bmod (n w : Nat) : sext n (w + 1) = (n : Int).bmod (2 ^ (w + 1)) := by
  have hpow : 2 ^ (w + 1) = 2 * 2 ^ w := Nat.pow_succ'
  unfold sext Int.bmod
  dsimp only
  rw [Nat.add_sub_cancel, hpow]
  generalize 2 ^ w = m
  have hmod : ((n % (2 * m) : Nat) : Int) = (n : Int) % ((2 * m : Nat) : Int) := Int.natCast_mod n (2 * m)
  split <;> split <;> omega

theorem toBits_lt (v : Int) (w : Nat) : toBits v w < 2 ^ w := by
  have hlt := Int.emod_lt_of_pos v (b := ((2 ^ w : Nat) : Int)) (by positivity)
  unfold toBits
  omega

theorem sext_toBits (v : Int) (w : Nat) : sext (toBits v (w + 1)) (w + 1) = v.bmod (2 ^ (w + 1)) := by
  unfold toBits
  rw [sext_eq_bmod, Int.toNat_of_nonneg (Int.emod_nonneg _ (by positivity))]
  exact Int.emod_bmod _ _

theorem wrapExact_eq_bmod (v : Int) : wrapExact v = v.bmod (2 ^ (319 + 1)) := sext_toBits v 319

@[simp] theorem wrapExact_add_wrapExact (a b : Int) : wrapExact (wrapExact a + b) = wrapExact (a + b) := by
  simp only [wrapExact_eq_bmod]
  exact Int.bmod_add_bmod

/-! ## Writing an exact value -/

theorem accKey_add (e row slot i : Nat) : accKey e row (slot + i) = accKey e row slot + i := by
  unfold accKey
  omega

/-- What stands in a slot after one is written. -/
theorem State.slotAt_setAccSlot (s : State) (e row slot : Nat) (v : Word64) (k : Nat) :
    (s.setAccSlot e row slot v).slotAt k = if accKey e row slot = k then v else s.slotAt k := by
  unfold State.slotAt State.setAccSlot
  dsimp only
  rw [Sparse.get_set]
  split <;> rfl

/-- An exact value is its own balanced remainder. -/
@[simp] theorem State.wrapExact_exactAt (s : State) (e row slot : Nat) : wrapExact (s.exactAt e row slot) = s.exactAt e row slot := by
  unfold State.exactAt
  rw [wrapExact_eq_bmod, sext_eq_bmod, Int.bmod_bmod]

/-- Five limbs of a number below 2³²⁰ give the number back. -/
theorem limbs_eq (n : Nat) (h : n < 2 ^ 320) :
    (List.range 5).foldr (fun i m => n / 2 ^ (64 * i) % 2 ^ 64 + 2 ^ 64 * m) 0 = n := by
  simp only [List.range, List.range.loop, List.foldr]
  norm_num at h ⊢
  omega

theorem State.slotAt_setExact (s : State) (e row slot : Nat) (v : Int) (i : Nat) (hi : i < 5) :
    (s.setExact e row slot v).slotAt (accKey e row slot + i) = BitVec.ofNat 64 (toBits v 320 / 2 ^ (64 * i)) := by
  unfold State.setExact
  simp only [List.range, List.range.loop, List.foldl, State.slotAt_setAccSlot, accKey_add]
  interval_cases i <;> simp

/-- The value that stands in the five slots. -/
theorem State.exactAt_setExact (s : State) (e row slot : Nat) (v : Int) :
    (s.setExact e row slot v).exactAt e row slot = wrapExact v := by
  have hbits : (s.setExact e row slot v).exactBits (accKey e row slot) = toBits v 320 := by
    unfold State.exactBits
    have hlimb : ∀ i < 5, ((s.setExact e row slot v).slotAt (accKey e row slot + i)).toNat = toBits v 320 / 2 ^ (64 * i) % 2 ^ 64 :=
      fun i hi => by rw [s.slotAt_setExact e row slot v i hi, BitVec.toNat_ofNat]
    rw [← limbs_eq (toBits v 320) (toBits_lt v 320)]
    refine List.foldr_ext _ _ _ fun i hi m => ?_
    rw [hlimb i (List.mem_range.mp hi)]
  unfold State.exactAt
  rw [hbits]
  rfl

/-- An addend is added modulo 2³²⁰. -/
theorem State.exactAt_addExact (s : State) (e row slot : Nat) (x : Int) :
    (s.addExact e row slot x).exactAt e row slot = wrapExact (s.exactAt e row slot + x) :=
  s.exactAt_setExact e row slot (s.exactAt e row slot + x)

end Sys2Proof.Machine
end

section
/-! PROOFS. Conversions (02 R65 to R70; 03 R132; 04 R178 to R187): the engine counts the code, the term is added to the tile's value, and
what follows leaves both as they were. -/

namespace Sys2Proof.Machine

/-! ## What work after a conversion leaves -/

/-- The counts and the groups under way of an engine. -/
def Engine.tally (x : Engine) : Nat × Nat × List Issue := (x.convs, x.clips, x.issues)

/-- Off the light path nothing has changed, and engine `e`, which has converted, keeps its counts and groups. -/
structure State.SameTally (e : Nat) (s t : State) : Prop where
  offPath : t.offPath = s.offPath
  tally : (s.engine e).convs ≠ 0 → (t.engine e).tally = (s.engine e).tally

theorem State.SameTally.refl (e : Nat) (s : State) : s.SameTally e s := ⟨rfl, fun _ => rfl⟩

theorem State.SameTally.trans {e : Nat} {s t u : State} (h : s.SameTally e t) (k : t.SameTally e u) : s.SameTally e u := by
  refine ⟨k.offPath.trans h.offPath, fun hs => ?_⟩
  have ht := h.tally hs
  have hconvs : (t.engine e).convs = (s.engine e).convs := congrArg Prod.fst ht
  exact (k.tally (hconvs ▸ hs)).trans ht

theorem State.SameTally.modEngine (e n : Nat) (s : State) (f : Engine → Engine) (hf : ∀ x, (f x).tally = x.tally) :
    s.SameTally e (s.modEngine n f) := by
  refine ⟨rfl, fun _ => ?_⟩
  rw [State.engine_modEngine]
  split
  · next h => rw [hf, h]
  · rfl

/-- What a term of a command may change there. -/
def Job.sumView (j : Job) : Bool × Bool × Sparse Int := (j.flags.saturation, j.flags.range, j.run.values)

/-- Besides, the accumulator files, and what command `id` has of flags and values, are the same. -/
structure State.SameSums (e id : Nat) (s t : State) : Prop extends s.SameTally e t where
  acc : t.acc = s.acc
  job : (t.job? id).map Job.sumView = (s.job? id).map Job.sumView

theorem State.SameSums.refl (e id : Nat) (s : State) : s.SameSums e id s := ⟨.refl e s, rfl, rfl⟩

theorem State.SameSums.trans {e id : Nat} {s t u : State} (h : s.SameSums e id t) (k : t.SameSums e id u) : s.SameSums e id u :=
  ⟨h.toSameTally.trans k.toSameTally, k.acc.trans h.acc, k.job.trans h.job⟩

theorem State.SameSums.modJob (e id n : Nat) (s : State) (f : Job → Job) (hid : ∀ j, (f j).id = j.id)
    (hf : ∀ j, (f j).sumView = j.sumView) : s.SameSums e id (s.modJob n f) :=
  ⟨⟨rfl, fun _ => rfl⟩, rfl, s.map_job?_modJob _ n id f hid hf⟩

theorem State.SameSums.modEngine (e id n : Nat) (s : State) (f : Engine → Engine) (hf : ∀ x, (f x).tally = x.tally) :
    s.SameSums e id (s.modEngine n f) :=
  ⟨.modEngine e n s f hf, rfl, rfl⟩

theorem State.SameSums.finishJob (e id n : Nat) (s : State) (st : Status) : s.SameSums e id (s.finishJob n st) := by
  refine .modJob e id n s _ (fun j => j.finish_id st) fun j => ?_
  unfold Job.finish
  split <;> rfl

/-! ## The shadow unit and the flags -/

theorem State.SameSums.shadow (e id n m : Nat) (s : State) (r : Dy) (clipped : Bool) : s.SameSums e id (s.shadow n m r clipped) := by
  have hdraw : ∀ k, s.SameSums e id (s.drawRun m k).2 := fun k => by
    unfold State.drawRun
    split
    · exact .refl e id s
    · exact ⟨⟨rfl, fun _ => rfl⟩, rfl, rfl⟩
  unfold State.shadow
  extract_lets k x d hit s₁
  have h₁ : s.SameSums e id s₁ := (hdraw k).trans (.modEngine e id m d.2 _ fun _ => rfl)
  exact ite_both (h₁.trans (.modJob e id n s₁ _ (fun _ => rfl) fun _ => rfl)) h₁

theorem State.SameSums.flagConversion (e id m : Nat) (s : State) (is : Issue) : s.SameSums e id (s.flagConversion m is) :=
  .modJob e id is.job s _ (fun _ => rfl) fun _ => rfl

/-! ## The end of a tile and of a stage -/

/-- An entry that a change keeps from being the default is changed in a store from which defaults are dropped. -/
theorem Sparse.get_map_dropped {α : Type} [DecidableEq α] (d : α) (f : α → α) (m : Sparse α) (k : Nat) (hd : Sparse.get d m k ≠ d)
    (hf : f (Sparse.get d m k) ≠ d) :
    Sparse.get d ((m.map fun x => (x.1, f x.2)).filter fun x => x.2 != d) k = f (Sparse.get d m k) := by
  induction m with
  | nil => exact absurd rfl hd
  | cons x m ih =>
    obtain ⟨n, v⟩ := x
    by_cases hn : n = k
    · have hget : Sparse.get d ((n, v) :: m) k = v := by simp [Sparse.get, hn]
      rw [hget] at hf ⊢
      simp [Sparse.get, hn, hf]
    · have hget : Sparse.get d ((n, v) :: m) k = Sparse.get d m k := by simp [Sparse.get, hn]
      rw [hget] at hd hf ⊢
      rw [List.map_cons, List.filter_cons]
      split
      · simpa [Sparse.get, hn] using ih hd hf
      · exact ih hd hf

/-- A change of all engines that keeps their counts and groups, with idle ones dropped. -/
theorem State.tally_mapEngines (e : Nat) (s t : State) (f : Engine → Engine) (hf : ∀ x, (f x).tally = x.tally)
    (ht : t.engines = (s.engines.map fun x => (x.1, f x.2)).filter fun x => x.2 != {}) (hs : (s.engine e).convs ≠ 0) :
    (t.engine e).tally = (s.engine e).tally := by
  have hne : ∀ x : Engine, x.convs ≠ 0 → x ≠ {} := by
    rintro x hx rfl
    exact hx rfl
  have hconvs : (f (s.engine e)).convs = (s.engine e).convs := congrArg Prod.fst (hf _)
  have hget : t.engine e = f (s.engine e) := by
    unfold State.engine at hs hconvs ⊢
    rw [ht]
    exact Sparse.get_map_dropped {} f s.engines e (hne _ hs) (hne _ (hconvs ▸ hs))
  rw [hget, hf]

theorem State.SameSums.parkRun (e id n : Nat) (s : State) : s.SameSums e id (s.parkRun n) :=
  ⟨⟨rfl, s.tally_mapEngines e (s.parkRun n) (fun x => x.park fun b => b.job == n && !b.rows.isEmpty) (fun _ => rfl) rfl⟩, rfl, rfl⟩

/-- An engine without the weight tiles of a command's stages up to the running one. -/
def Engine.dropBufs (j : Job) (x : Engine) : Engine :=
  { x with wbufs := x.wbufs.filter fun b => !(b.job == j.id && decide (b.stage ≤ j.run.stage)) }

theorem State.SameSums.freeStage (e id : Nat) (s : State) (j : Job) : s.SameSums e id (s.freeStage j) :=
by
  unfold State.freeStage
  extract_lets gone
  generalize (List.range 64).foldl _ s.clusters = clusters
  exact ⟨⟨rfl, s.tally_mapEngines e _ (Engine.dropBufs j) (fun _ => rfl) rfl⟩, rfl, rfl⟩

theorem State.SameSums.stageSettled (e id : Nat) (s : State) (j : Job) (st : Stage) : s.SameSums e id (s.stageSettled j st) := by
  have h : s.SameSums e id ((s.parkRun j.id).freeStage j) := (State.SameSums.parkRun e id j.id s).trans (.freeStage e id _ j)
  unfold State.stageSettled
  extract_lets s₁
  refine ite_both ?_ (ite_both ?_ ?_)
  · exact h.trans (.modJob e id j.id s₁ _ (fun _ => rfl) fun _ => rfl)
  · exact h.trans (.modJob e id j.id s₁ _ (fun _ => rfl) fun _ => rfl)
  · exact h.trans (.finishJob e id j.id s₁ .done)

theorem State.SameSums.parkDone (e id n : Nat) (s : State) : s.SameSums e id (s.parkDone n) :=
  .modEngine e id n s _ fun _ => rfl

theorem State.SameSums.closeTile (e id n : Nat) (s : State) (st : Stage) (t : TileRun) : s.SameSums e id (s.closeTile n st t) := by
  unfold State.closeTile
  extract_lets k s₁
  have h : s.SameSums e id s₁ := .modJob e id n s _ (fun _ => rfl) fun _ => rfl
  cases s₁.job? n with
  | none => exact h
  | some j => exact ite_both (h.trans (.stageSettled e id s₁ j st)) (h.trans (.parkDone e id t.engine s₁))

theorem State.SameSums.keepDone (e id n : Nat) (s : State) (st : Stage) (t : TileRun) : s.SameSums e id (s.keepDone n st t) :=
  ite_both (.closeTile e id n s st t) (.refl e id s)

/-! ## Adding a term -/

theorem State.SameSums.gens (e id : Nat) (s : State) (g : Sparse (BitVec 128)) : s.SameSums e id { s with gens := g } :=
  ⟨⟨rfl, fun _ => rfl⟩, rfl, rfl⟩

theorem State.SameSums.seedFor (e id n g unit engine stage : Nat) (s : State) (st : Stage) (drawn : Bool) :
    s.SameSums e id (s.seedFor n st g unit engine stage drawn) := by
  unfold State.seedFor
  cases s.job? n with
  | none => exact .refl e id s
  | some j =>
    refine ite_both (.refl e id s) ((State.SameSums.gens e id s _).trans (.modJob e id n _ _ ?_ ?_)) <;> exact fun _ => rfl

/-- An exact add draws no random bits. -/
theorem State.seedFor_no_draw (s : State) (n g unit engine stage : Nat) (st : Stage) : s.seedFor n st g unit engine stage false = s := by
  unfold State.seedFor
  cases s.job? n with
  | none => rfl
  | some j => exact if_pos (.inr (.inl rfl))

theorem State.setExact_engines (s : State) (e row slot : Nat) (v : Int) : (s.setExact e row slot v).engines = s.engines :=
  forEach_same State.engines (List.range 5) (fun t i => t.setAccSlot e row (slot + i) (BitVec.ofNat 64 (toBits v 320 / 2 ^ (64 * i))))
    (fun _ _ _ => rfl) s

theorem State.setExact_jobs (s : State) (e row slot : Nat) (v : Int) : (s.setExact e row slot v).jobs = s.jobs :=
  forEach_same State.jobs (List.range 5) (fun t i => t.setAccSlot e row (slot + i) (BitVec.ofNat 64 (toBits v 320 / 2 ^ (64 * i))))
    (fun _ _ _ => rfl) s

theorem State.addExact_engines (s : State) (e row slot : Nat) (v : Int) : (s.addExact e row slot v).engines = s.engines :=
  s.setExact_engines e row slot (s.exactAt e row slot + v)

theorem State.addExact_jobs (s : State) (e row slot : Nat) (v : Int) : (s.addExact e row slot v).jobs = s.jobs :=
  s.setExact_jobs e row slot (s.exactAt e row slot + v)

theorem State.addToTile_engines (s : State) (e row base vec : Nat) (exact : Bool) (b v : Int) :
    (s.addToTile e row base vec exact b v).1.engines = s.engines := by
  unfold State.addToTile
  split
  · exact s.addExact_engines ..
  · rfl

theorem State.addToTile_jobs (s : State) (e row base vec : Nat) (exact : Bool) (b v : Int) :
    (s.addToTile e row base vec exact b v).1.jobs = s.jobs := by
  unfold State.addToTile
  split
  · exact s.addExact_jobs ..
  · rfl

/-- The saturation and range flags of a command. -/
def Job.flagView (j : Job) : Bool × Bool := (j.flags.saturation, j.flags.range)

/-- Off the files, on engine `e`, and of command `id`'s flags nothing has changed; nor in the files, when `acc` holds. -/
structure State.SameFlags (e id : Nat) (acc : Prop) (s t : State) : Prop extends s.SameTally e t where
  job : (t.job? id).map Job.flagView = (s.job? id).map Job.flagView
  acc : acc → t.acc = s.acc

theorem State.SameFlags.refl (e id : Nat) (acc : Prop) (s : State) : s.SameFlags e id acc s := ⟨.refl e s, rfl, fun _ => rfl⟩

theorem State.SameFlags.trans {e id : Nat} {acc : Prop} {s t u : State} (h : s.SameFlags e id acc t) (k : t.SameFlags e id acc u) :
    s.SameFlags e id acc u :=
  ⟨h.toSameTally.trans k.toSameTally, k.job.trans h.job, fun ha => (k.acc ha).trans (h.acc ha)⟩

theorem State.SameFlags.modJob (e id n : Nat) (acc : Prop) (s : State) (f : Job → Job) (hid : ∀ j, (f j).id = j.id)
    (hf : ∀ j, (f j).flagView = j.flagView) : s.SameFlags e id acc (s.modJob n f) :=
  ⟨⟨rfl, fun _ => rfl⟩, s.map_job?_modJob _ n id f hid hf, fun _ => rfl⟩

theorem State.SameSums.sameFlags {e id : Nat} {s t : State} (h : s.SameSums e id t) (acc : Prop) : s.SameFlags e id acc t := by
  have hview := congrArg (Option.map fun x : Bool × Bool × Sparse Int => (x.1, x.2.1)) h.job
  rw [Option.map_map, Option.map_map] at hview
  exact ⟨h.toSameTally, hview, fun _ => h.acc⟩

/-- Adding an addend changes the value of its element and the generators alone. -/
theorem State.SameFlags.addTerm (e id n : Nat) (s : State) (st : Stage) (t : TileRun) (i vec : Nat) (x : Int) :
    s.SameFlags e id (t.inFile = false) (s.addTerm n st t i vec x).1 := by
  unfold State.addTerm
  cases s.job? n with
  | none => exact .refl e id _ s
  | some j =>
    dsimp only
    have h₁ : s.SameFlags e id (t.inFile = false) (s.seedFor n st (64 * t.engine + s.rowFile st t.engine i) (s.rowFile st t.engine i)
        t.engine j.run.stage (!st.exact && draws (exactDy x) st.compactExp)) :=
      (State.SameSums.seedFor ..).sameFlags _
    generalize s.seedFor n st _ _ _ _ _ = s₁ at h₁ ⊢
    split
    · next hfile =>
      refine h₁.trans ⟨⟨State.addToTile_offPath .., fun _ => ?_⟩, ?_, fun hno => ?_⟩
      · exact congrArg (fun l => Engine.tally (Sparse.get {} l e)) (s₁.addToTile_engines ..)
      · exact congrArg (fun l : List Job => (l.find? fun j : Job => j.id == id).map Job.flagView) (s₁.addToTile_jobs ..)
      · exact absurd (hfile.symm.trans hno) (by decide)
    · cases nth t.chans i none with
      | none => exact h₁
      | some ch =>
        dsimp only
        split
        · exact h₁.trans (.modJob e id n _ s₁ _ (fun _ => rfl) fun _ => rfl)
        · refine (h₁.trans ?_).trans ((State.SameSums.gens e id _ _).sameFlags _)
          exact .modJob e id n _ s₁ _ (fun _ => rfl) fun _ => rfl

end Sys2Proof.Machine
end

section
/-! PROOFS. CONVERSION_ARRIVAL as a whole, and the statement `LightPathLoadsIssuesAndConverts`. -/

namespace Sys2Proof.Machine

/-- What a change of a command makes of it. -/
theorem State.map_job?_modJob_self {β : Type} (g : Job → β) (s : State) (n : Nat) (f : Job → Job) (hid : ∀ j, (f j).id = j.id) :
    ((s.modJob n f).job? n).map g = (s.job? n).map fun j => g (f j) := by
  rw [State.job?_modJob _ _ _ _ hid, if_pos rfl, Option.map_map]
  rfl

/-! ## Exact sums -/

theorem State.addTerm_file (s : State) (n : Nat) (j : Job) (st : Stage) (t : TileRun) (i vec : Nat) (x : Int)
    (hj : s.job? n = some j) (hexact : st.exact = true) (hfile : t.inFile = true) :
    (s.addTerm n st t i vec x).1 =
      s.addExact t.engine (s.rowFile st t.engine i) (st.accBase + 5 * (vec - t.u * st.vecB)) x := by
  unfold State.addTerm State.addToTile
  simp only [hj, hexact, hfile, Bool.not_true, Bool.false_and, State.seedFor_no_draw, if_true]

/-- A command with an addend added to the value that its run keeps under a key. -/
def Job.addValue (k : Nat) (x : Int) (c : Job) : Job :=
  { c with run := { c.run with values := c.run.values.set 0 k (wrapExact (c.run.values.get 0 k + x)) } }

theorem State.addTerm_values (s : State) (n : Nat) (j : Job) (st : Stage) (t : TileRun) (i vec ch : Nat) (x : Int)
    (hj : s.job? n = some j) (hexact : st.exact = true) (hfile : t.inFile = false) (hch : nth t.chans i none = some ch) :
    (s.addTerm n st t i vec x).1 = s.modJob n (Job.addValue (st.cell t.part (st.element vec ch)) x) := by
  unfold State.addTerm
  simp only [hj, hexact, hfile, hch, Bool.not_true, Bool.false_and, State.seedFor_no_draw, if_true, Bool.false_eq_true, if_false]
  rfl

theorem State.addTerms_cons (s : State) (n : Nat) (st : Stage) (t : TileRun) (i vec : Nat) (x : Int) (xs : List Int) :
    (s.addTerms n st t i vec (x :: xs)).1 = ((s.addTerm n st t i vec x).1.addTerms n st t i vec xs).1 := rfl

theorem State.SameFlags.addTerms (e id n : Nat) (st : Stage) (t : TileRun) (i vec : Nat) (xs : List Int) (s : State) :
    s.SameFlags e id (t.inFile = false) (s.addTerms n st t i vec xs).1 := by
  induction xs generalizing s with
  | nil => exact .refl e id _ s
  | cons x xs ih => exact (State.SameFlags.addTerm e id n s st t i vec x).trans (ih _)

/-- Exact terms are added to the value in the file modulo 2³²⁰. -/
theorem State.addTerms_exactAt (n : Nat) (j : Job) (st : Stage) (t : TileRun) (i vec file : Nat) (hexact : st.exact = true)
    (hfile : t.inFile = true) (xs : List Int) (s : State) (hj : s.job? n = some j) (hrow : file = s.rowFile st t.engine i) :
    (s.addTerms n st t i vec xs).1.exactAt t.engine file (st.accBase + 5 * (vec - t.u * st.vecB)) =
      wrapExact (s.exactAt t.engine file (st.accBase + 5 * (vec - t.u * st.vecB)) + xs.foldl (· + ·) 0) := by
  induction xs generalizing s with
  | nil => exact ((congrArg wrapExact (add_zero _)).trans (s.wrapExact_exactAt ..)).symm
  | cons x xs ih =>
    have hsum : (x :: xs).foldl (· + ·) 0 = x + xs.foldl (· + ·) 0 := by
      rw [List.foldl_cons, add_comm 0 x, List.foldl_assoc]
    rw [State.addTerms_cons, State.addTerm_file s n j st t i vec x hj hexact hfile, ← hrow]
    generalize hs₁ : s.addExact t.engine file (st.accBase + 5 * (vec - t.u * st.vecB)) x = s₁
    have hjobs : s₁.jobs = s.jobs := hs₁ ▸ s.addExact_jobs ..
    have hengines : s₁.engines = s.engines := hs₁ ▸ s.addExact_engines ..
    have hj₁ : s₁.job? n = some j := by
      unfold State.job? at hj ⊢
      rw [hjobs, hj]
    have hrow₁ : file = s₁.rowFile st t.engine i := by
      rw [hrow]
      unfold State.rowFile State.fileRow State.engine
      rw [hengines]
    rw [ih s₁ hj₁ hrow₁, ← hs₁, State.exactAt_addExact, wrapExact_add_wrapExact, hsum, add_assoc]

/-- Exact terms are added to the value that the run keeps for a tile outside the file. -/
theorem State.addTerms_values (n : Nat) (st : Stage) (t : TileRun) (i vec ch : Nat) (hexact : st.exact = true)
    (hfile : t.inFile = false) (hch : nth t.chans i none = some ch) (xs : List Int) (s : State) (j : Job) (hj : s.job? n = some j) :
    ∃ j', (s.addTerms n st t i vec xs).1.job? n = some j' ∧ j'.run.values.get 0 (st.cell t.part (st.element vec ch)) =
      xs.foldl (fun v x => wrapExact (v + x)) (j.run.values.get 0 (st.cell t.part (st.element vec ch))) := by
  induction xs generalizing s j with
  | nil => exact ⟨j, hj, rfl⟩
  | cons x xs ih =>
    rw [State.addTerms_cons, State.addTerm_values s n j st t i vec ch x hj hexact hfile hch]
    have hj₁ : (s.modJob n (Job.addValue (st.cell t.part (st.element vec ch)) x)).job? n =
        some (j.addValue (st.cell t.part (st.element vec ch)) x) := by
      have hmod := State.job?_modJob s n n (Job.addValue (st.cell t.part (st.element vec ch)) x) fun _ => rfl
      rw [hmod, if_pos rfl, hj]
      rfl
    obtain ⟨j', hj', hval⟩ := ih _ _ hj₁
    refine ⟨j', hj', hval.trans ?_⟩
    have hset : (j.addValue (st.cell t.part (st.element vec ch)) x).run.values.get 0 (st.cell t.part (st.element vec ch)) =
        wrapExact (j.run.values.get 0 (st.cell t.part (st.element vec ch)) + x) := by
      unfold Job.addValue
      dsimp only
      rw [Sparse.get_set, if_pos rfl]
    rw [hset]
    rfl

/-! ## The RANGE flag -/

@[simp] theorem State.markRange_false (s : State) (id : Nat) (st : Stage) (t : TileRun) : s.markRange id st t false = s := rfl

theorem State.stickRange_acc (s : State) (t : AccTile) : (s.stickRange t).acc = s.acc := by
  unfold State.stickRange
  split <;> rfl
theorem State.stickRange_engine (s : State) (t : AccTile) (e : Nat) : (s.stickRange t).engine e = s.engine e := by
  unfold State.stickRange
  split <;> rfl
theorem State.stickRange_job? (s : State) (t : AccTile) (id : Nat) : (s.stickRange t).job? id = s.job? id := by
  unfold State.stickRange
  split <;> rfl

theorem State.SameTally.markRange (e n : Nat) (s : State) (st : Stage) (t : TileRun) (b : Bool) :
    s.SameTally e (s.markRange n st t b) := by
  unfold State.markRange
  extract_lets s₁
  refine ite_both (.refl e s) (ite_both ⟨State.stickRange_offPath s₁ _, fun _ => ?_⟩ ⟨rfl, fun _ => rfl⟩)
  rw [State.stickRange_engine]
  rfl

theorem State.markRange_acc (s : State) (n : Nat) (st : Stage) (t : TileRun) (b : Bool) : (s.markRange n st t b).acc = s.acc := by
  unfold State.markRange
  extract_lets s₁
  split
  · rfl
  · split
    · exact s₁.stickRange_acc _
    · rfl

/-- A term that was out of range, or a window that saturated, sets RANGE on the command. -/
theorem State.markRange_job (s : State) (n : Nat) (st : Stage) (t : TileRun) (b : Bool) :
    ((s.markRange n st t b).job? n).map Job.sumView =
      (s.job? n).map fun j => (j.flags.saturation, j.flags.range || b, j.run.values) := by
  cases b with
  | false =>
    simp only [State.markRange_false, Bool.or_false]
    rfl
  | true =>
    unfold State.markRange
    extract_lets s₁
    have h₁ : (s₁.job? n).map Job.sumView = (s.job? n).map fun j => (j.flags.saturation, j.flags.range || true, j.run.values) := by
      simp only [Bool.or_true]
      exact s.map_job?_modJob_self Job.sumView n _ fun _ => rfl
    rw [← h₁]
    split
    · next h => exact absurd h (by decide)
    · split
      · rw [State.stickRange_job?]
      · exact s₁.map_job?_modJob Job.sumView n n _ (fun _ => rfl) fun _ => rfl

/-! ## The arrival of a code -/

/-- After an arrival, a group that still waits for the row's code has not been touched. -/
theorem Engine.mem_issues_arrive (x : Engine) (row : Nat) (clip : Bool) (is : Issue) (his : is ∈ (x.arrive row clip).issues)
    (hrow : is.arrived.contains row = false) : is ∈ x.issues := by
  unfold Engine.arrive at his
  dsimp only at his
  obtain ⟨⟨n, y⟩, hy, rfl⟩ := List.mem_map.mp (List.mem_of_mem_filter his)
  dsimp only at hrow ⊢
  split at hrow
  · simp at hrow
  · rw [if_neg (by assumption)]
    exact (List.of_mem_zip hy).2

/-- The state in which a row's code has been counted on its engine. -/
def State.counted (s : State) (e row id : Nat) (clip : Bool) : State :=
  let s := s.modEngine e fun x => x.arrive row clip
  if clip then s.flagJobs (fun j => j.id == id) fun f => { f with saturation := true } else s

/-- A command with SATURATION set by a clip. -/
def Job.clipped (clip : Bool) (j : Job) : Job := { j with flags := { j.flags with saturation := if clip then true else j.flags.saturation } }

/-- A clip sets SATURATION on its command, which has no final record yet. -/
theorem State.counted_job? {s : State} {id : Nat} {j : Job} (hj : s.job? id = some j) (hopen : j.open' = true) (e row : Nat)
    (clip : Bool) : (s.counted e row id clip).job? id = some (j.clipped clip) := by
  unfold State.counted
  cases clip with
  | false => exact hj
  | true =>
    have hsel : (j.open' && j.id == id) = true := by simp [hopen, State.job?_id hj]
    dsimp only
    rw [if_pos rfl, State.job?_flagJobs, State.job?_modEngine, hj, Option.map_some, if_pos hsel]
    rfl

theorem State.counted_offPath (s : State) (e row id : Nat) (clip : Bool) : (s.counted e row id clip).offPath = s.offPath := by
  unfold State.counted
  split <;> rfl

theorem State.counted_engine (s : State) (e row id : Nat) (clip : Bool) (n : Nat) :
    (s.counted e row id clip).engine n = if e = n then (s.engine e).arrive row clip else s.engine n := by
  rw [← State.engine_modEngine s e n fun x => x.arrive row clip]
  unfold State.counted
  split <;> rfl

theorem State.counted_acc (s : State) (e row id : Nat) (clip : Bool) : (s.counted e row id clip).acc = s.acc := by
  unfold State.counted
  split <;> rfl

/-! ## The term of a conversion -/

/-- A conversion's flags and its sample are taken. -/
def State.sampled (s : State) (e : Nat) (is : Issue) (r : Dy) (clip : Bool) : State := (s.shadow is.job e r clip).flagConversion e is

/-- A tile has one more term, and is closed with its last one while the command runs. -/
def State.endTerm (s : State) (id : Nat) (st : Stage) (t : TileRun) (phase : Phase') : State :=
  let s := s.modJob id fun c => { c with run := { c.run with
    tiles := mapIf (fun (y : TileRun) => ({ y with range := t.range } : TileRun) == t) (fun y => { y with terms := y.terms + 1 }) c.run.tiles } }
  if phase = .running then s.keepDone id st { t with terms := t.terms + 1 } else s

/-- What the term of a conversion of a tile makes of the state: it is sampled, its addends are added, a loss sets RANGE, and the tile
may end. -/
def State.takeTerm (s : State) (e : Nat) (is : Issue) (st : Stage) (t : TileRun) (i : Nat) (r : Dy) (clip : Bool) (ts : List Int × Bool)
    (phase : Phase') : State :=
  let x := (s.sampled e is r clip).addTerms is.job st t i is.vec ts.1
  (x.1.markRange is.job st t (ts.2 || x.2)).endTerm is.job st t phase

theorem State.SameSums.sampled (e id : Nat) (s : State) (is : Issue) (r : Dy) (clip : Bool) :
    s.SameSums e id (s.sampled e is r clip) :=
  (State.SameSums.shadow e id is.job e s r clip).trans (.flagConversion e id e _ is)

theorem State.SameSums.endTerm (e id n : Nat) (s : State) (st : Stage) (t : TileRun) (phase : Phase') :
    s.SameSums e id (s.endTerm n st t phase) := by
  unfold State.endTerm
  extract_lets s₁
  have h₁ : s.SameSums e id s₁ := .modJob e id n s _ (fun _ => rfl) fun _ => rfl
  exact ite_both (h₁.trans (.keepDone e id n s₁ st _)) h₁

theorem State.SameTally.takeTerm (e : Nat) (s : State) (is : Issue) (st : Stage) (t : TileRun) (i : Nat) (r : Dy) (clip : Bool)
    (ts : List Int × Bool) (phase : Phase') : s.SameTally e (s.takeTerm e is st t i r clip ts phase) := by
  have h₁ := (State.SameSums.sampled e is.job s is r clip).toSameTally
  have h₂ := (State.SameFlags.addTerms e is.job is.job st t i is.vec ts.1 (s.sampled e is r clip)).toSameTally
  exact ((h₁.trans h₂).trans (.markRange e is.job _ st t _)).trans (State.SameSums.endTerm e is.job is.job _ st t phase).toSameTally

/-- A conversion of a group: the row's oldest group that waits, the row's entry in it, and its code. -/
structure State.Converts (s : State) (e row ch : Nat) (noise raw code : Int) (is : Issue) (light wv : Dy) (b : BankRow) : Prop where
  waiting : (s.engine e).waiting row = some is
  entry : nth is.rows row none = some (ch, light, wv, b)
  rawCode : raw = (light.scale (-is.a)).roundEven + noise
  clamped : code = clampInt (adcRange is.narrow).1 (adcRange is.narrow).2 raw

/-- The tile to which a conversion's term belongs, in the run of a command that goes on. -/
structure Job.Receives (j : Job) (e ch : Nat) (is : Issue) (st0 : Stage) (tl : TileRun) : Prop where
  isOpen : j.open' = true
  stage : j.run.stage = is.stage
  rerun : j.run.rerun = is.rerun
  body : j.body.stageList[is.stage]? = some st0
  tile : j.run.tileOf (st0.eff is.rerun) e (is.vec / (st0.eff is.rerun).vecB) ch = some tl

section
variable {s : State} {e row ch : Nat} {noise raw code : Int} {is : Issue} {light wv : Dy} {b : BankRow}

/-- A conversion whose tile goes on takes its term. -/
theorem State.Converts.takes (h : s.Converts e row ch noise raw code is light wv b) {j : Job} {st0 : Stage} {tl : TileRun}
    (hj : (s.counted e row is.job (code != raw)).job? is.job = some j) (hr : j.Receives e ch is st0 tl) :
    exec (.conversionArrival e row noise) s = .next ((s.counted e row is.job (code != raw)).takeTerm e is (st0.eff is.rerun) tl
      (tl.place ch) ((Dy.ofInt code).sub ((wv.add (is.c.mul b.sumW)).scale (-is.a))) (code != raw)
      (termAddends (is.term (st0.eff is.rerun) b code)) j.phase) := by
  change execConversionArrival e row noise s = _
  obtain ⟨hwaiting, hentry, rfl, rfl⟩ := h
  unfold execConversionArrival
  rw [hwaiting]
  dsimp -zeta only
  rw [hentry]
  dsimp -zeta only
  extract_lets raw range code clip s₁ s₂
  have hs₂ : s₂.job? is.job = some j := hj
  rw [hs₂]
  dsimp -zeta only
  rw [hr.body]
  dsimp -zeta only
  extract_lets st
  rw [if_neg (by simp [hr.isOpen, hr.stage, hr.rerun]), hr.tile]
  rfl

/-- A conversion whose command or tile does not go on is counted alone. -/
theorem State.Converts.takes_or (h : s.Converts e row ch noise raw code is light wv b) :
    exec (.conversionArrival e row noise) s = .next (s.counted e row is.job (code != raw)) ∨
      ∃ j st0 tl, (s.counted e row is.job (code != raw)).job? is.job = some j ∧ j.Receives e ch is st0 tl := by
  change execConversionArrival e row noise s = _ ∨ _
  obtain ⟨hwaiting, hentry, rfl, rfl⟩ := h
  unfold execConversionArrival
  rw [hwaiting]
  dsimp -zeta only
  rw [hentry]
  dsimp -zeta only
  extract_lets raw range code clip s₁ s₂
  cases hj : s₂.job? is.job with
  | none => exact .inl rfl
  | some j =>
    dsimp -zeta only
    cases hbody : j.body.stageList[is.stage]? with
    | none => exact .inl rfl
    | some st0 =>
      dsimp -zeta only
      extract_lets st
      by_cases hrun : (j.open' && j.run.stage == is.stage && j.run.rerun == is.rerun) = true
      · rw [if_neg (by simp [hrun])]
        simp only [Bool.and_eq_true, beq_iff_eq] at hrun
        obtain ⟨⟨hopen, hstage⟩, hrerun⟩ := hrun
        cases htile : j.run.tileOf st e (is.vec / st.vecB) ch with
        | none => exact .inl rfl
        | some tl => exact .inr ⟨j, st0, tl, hj, hopen, hstage, hrerun, hbody, htile⟩
      · rw [if_pos (by simp [hrun])]
        exact .inl rfl

/-- Whatever becomes of its term, a conversion's counts stand on its engine. -/
theorem State.Converts.tally (h : s.Converts e row ch noise raw code is light wv b) :
    ∃ t, exec (.conversionArrival e row noise) s = .next t ∧ (s.counted e row is.job (code != raw)).SameTally e t := by
  obtain hexec | ⟨j, st0, tl, hj, hr⟩ := h.takes_or
  · exact ⟨_, hexec, .refl e _⟩
  · exact ⟨_, h.takes hj hr, .takeTerm ..⟩

/-- The counts of a conversion's engine, and its groups that do not wait for the row's code any more. -/
theorem State.Converts.counts (h : s.Converts e row ch noise raw code is light wv b) : Does (.conversionArrival e row noise) s fun t =>
    (t.engine e).convs = (s.engine e).convs + 1 ∧
    (t.engine e).clips = (s.engine e).clips + (if code = raw then 0 else 1) ∧
    (∀ x ∈ (t.engine e).issues, x.arrived.contains row = false → (nth x.rows row none).isSome = true → x ∈ (s.engine e).issues) ∧
    s.sameMem t := by
  obtain ⟨t, hexec, hoff, htally⟩ := h.tally
  have hengine : (s.counted e row is.job (code != raw)).engine e = (s.engine e).arrive row (code != raw) :=
    (s.counted_engine ..).trans (if_pos rfl)
  have hconvs₁ : ((s.engine e).arrive row (code != raw)).convs = (s.engine e).convs + 1 := rfl
  have hclips₁ : ((s.engine e).arrive row (code != raw)).clips = (s.engine e).clips + b2n (code != raw) := rfl
  have ht := htally (by rw [hengine, hconvs₁]; exact Nat.succ_ne_zero _)
  rw [hengine] at ht
  have hconvs : (t.engine e).convs = _ := congrArg Prod.fst ht
  have hclips : (t.engine e).clips = _ := congrArg (fun x => x.2.1) ht
  have hissues : (t.engine e).issues = _ := congrArg (fun x => x.2.2) ht
  refine ⟨t, hexec, hconvs.trans hconvs₁, ?_, fun x hx hrow _ => ?_, State.sameMem_of_offPath (hoff.trans (s.counted_offPath ..))⟩
  · refine (hclips.trans hclips₁).trans ?_
    by_cases hclip : code = raw <;> simp [hclip, b2n]
  · rw [hissues] at hx
    exact Engine.mem_issues_arrive _ row (code != raw) x hx hrow

end

/-! ## What a term leaves -/

theorem State.shadow_masked (s : State) (id e : Nat) (r : Dy) (clip : Bool) (n : Nat) :
    ((s.shadow id e r clip).engine n).masked = (s.engine n).masked := by
  have hdraw : ∀ k, (s.drawRun e k).2.engine n = s.engine n := fun k => by
    unfold State.drawRun
    split <;> rfl
  have hmod : ∀ (u : State) (f : Engine → Engine), (∀ x, (f x).masked = x.masked) →
      ((u.modEngine e f).engine n).masked = (u.engine n).masked := fun u f hf => by
    rw [State.engine_modEngine]
    split
    · next h => rw [hf, h]
    · rfl
  unfold State.shadow
  extract_lets k x d hit s₁
  have h₁ : (s₁.engine n).masked = (s.engine n).masked := by
    refine (hmod d.2 _ ?_).trans (congrArg Engine.masked (hdraw k))
    exact fun _ => rfl
  exact ite_both (P := fun t : State => (t.engine n).masked = (s.engine n).masked) h₁ h₁

theorem State.counted_masked (s : State) (e row id : Nat) (clip : Bool) (n : Nat) :
    ((s.counted e row id clip).engine n).masked = (s.engine n).masked := by
  rw [s.counted_engine]
  split
  · next h => rw [h]; rfl
  · rfl

theorem State.rowFile_congr {s t : State} (h : ∀ n, (t.engine n).masked = (s.engine n).masked) (st : Stage) (e i : Nat) :
    t.rowFile st e i = s.rowFile st e i := by
  unfold State.rowFile State.fileRow
  rw [h]

/-- The value of slots depends on the files alone. -/
theorem State.exactAt_congr {s t : State} (hacc : t.acc = s.acc) (hoff : t.offPath = s.offPath) (e row slot : Nat) :
    t.exactAt e row slot = s.exactAt e row slot := by
  have hlost : t.accLost = s.accLost := by
    have := congrArg State.accLost hoff
    exact this
  have hruns : t.accRuns = s.accRuns := by
    have := congrArg State.accRuns hoff
    exact this
  unfold State.exactAt State.exactBits State.slotAt
  rw [hacc, hlost, hruns]

section
variable (s : State) (e : Nat) (is : Issue) (st : Stage) (t : TileRun) (i : Nat) (r : Dy) (clip : Bool) (ts : List Int × Bool)
  (phase : Phase')

/-- The state in which a conversion's addends have been added. -/
def State.summed : State := ((s.sampled e is r clip).addTerms is.job st t i is.vec ts.1).1

theorem State.takeTerm_acc : (s.takeTerm e is st t i r clip ts phase).acc = (s.summed e is st t i r clip ts).acc :=
  (State.SameSums.endTerm e is.job is.job _ st t phase).acc.trans (State.markRange_acc ..)

theorem State.takeTerm_offPath : (s.takeTerm e is st t i r clip ts phase).offPath = s.offPath :=
  (State.SameTally.takeTerm e s is st t i r clip ts phase).offPath

theorem State.summed_offPath : (s.summed e is st t i r clip ts).offPath = s.offPath :=
  ((State.SameSums.sampled e is.job s is r clip).toSameTally.trans
    (State.SameFlags.addTerms e is.job is.job st t i is.vec ts.1 _).toSameTally).offPath

end

/-! ## The sums of a conversion's tile -/

section
variable (s : State) (e : Nat) (is : Issue) (st : Stage) (t : TileRun) (i : Nat) (r : Dy) (clip : Bool) (ts : List Int × Bool)
  (phase : Phase')

/-- A conversion that is sampled leaves the files, their rows, and its command's values. -/
theorem State.sampled_keeps (j : Job) (hj : s.job? is.job = some j) : (s.sampled e is r clip).acc = s.acc ∧
    (s.sampled e is r clip).offPath = s.offPath ∧ (∀ n, ((s.sampled e is r clip).engine n).masked = (s.engine n).masked) ∧
    ∃ k, (s.sampled e is r clip).job? is.job = some k ∧ k.run.values = j.run.values := by
  have hsame := State.SameSums.sampled e is.job s is r clip
  obtain ⟨k, hk, hview⟩ := Option.map_eq_some_iff.mp (hsame.job.trans (congrArg _ hj))
  exact ⟨hsame.acc, hsame.offPath, s.shadow_masked is.job e r clip, k, hk, congrArg (fun x => x.2.2) hview⟩

/-- Exact addends of a tile in the file are added there. -/
theorem State.takeTerm_exactAt (j : Job) (hj : s.job? is.job = some j) (hexact : st.exact = true) (hfile : t.inFile = true) :
    (s.takeTerm e is st t i r clip ts phase).exactAt t.engine (s.rowFile st t.engine i) (st.accBase + 5 * (is.vec - t.u * st.vecB)) =
      wrapExact (s.exactAt t.engine (s.rowFile st t.engine i) (st.accBase + 5 * (is.vec - t.u * st.vecB)) + ts.1.foldl (· + ·) 0) := by
  obtain ⟨hacc, hoff, hmasked, k, hk, -⟩ := s.sampled_keeps e is r clip j hj
  have hrow : s.rowFile st t.engine i = (s.sampled e is r clip).rowFile st t.engine i := (State.rowFile_congr hmasked st t.engine i).symm
  have hend : (s.takeTerm e is st t i r clip ts phase).offPath = (s.summed e is st t i r clip ts).offPath :=
    (s.takeTerm_offPath ..).trans (s.summed_offPath ..).symm
  rw [State.exactAt_congr (s.takeTerm_acc ..) hend]
  refine (State.addTerms_exactAt is.job k st t i is.vec _ hexact hfile ts.1 _ hk hrow).trans ?_
  rw [State.exactAt_congr hacc hoff]

/-- Exact addends of a tile outside the file are added to the value that the run keeps. -/
theorem State.summed_values (j : Job) (hj : s.job? is.job = some j) (hexact : st.exact = true) (hfile : t.inFile = false) (ch : Nat)
    (hch : nth t.chans i none = some ch) :
    ∃ u, (s.summed e is st t i r clip ts).job? is.job = some u ∧ u.run.values.get 0 (st.cell t.part (st.element is.vec ch)) =
      ts.1.foldl (fun v x => wrapExact (v + x)) (j.run.values.get 0 (st.cell t.part (st.element is.vec ch))) := by
  obtain ⟨-, -, -, k, hk, hvalues⟩ := s.sampled_keeps e is r clip j hj
  rw [← hvalues]
  exact State.addTerms_values is.job st t i is.vec ch hexact hfile hch ts.1 _ k hk

/-- A tile outside the file leaves the file. -/
theorem State.takeTerm_acc_of_outside (hfile : t.inFile = false) : (s.takeTerm e is st t i r clip ts phase).acc = s.acc :=
  (s.takeTerm_acc ..).trans (((State.SameFlags.addTerms e is.job is.job st t i is.vec ts.1 _).acc hfile).trans
    (State.SameSums.sampled e is.job s is r clip).acc)

/-- The command's flags after a term, and its values: RANGE is set by a loss, and the values are those that the addends left. -/
theorem State.takeTerm_job (j : Job) (hj : s.job? is.job = some j) :
    ∃ j', (s.takeTerm e is st t i r clip ts phase).job? is.job = some j' ∧ j'.flags.saturation = j.flags.saturation ∧
      (ts.2 = true → j'.flags.range = true) ∧
      (st.exact = true → t.inFile = false → ∀ ch, nth t.chans i none = some ch →
        j'.run.values.get 0 (st.cell t.part (st.element is.vec ch)) = ts.1.foldl (fun v x => wrapExact (v + x))
          (j.run.values.get 0 (st.cell t.part (st.element is.vec ch)))) := by
  have hflags : ((s.summed e is st t i r clip ts).job? is.job).map Job.flagView = some j.flagView := by
    have hsum := (State.SameSums.sampled e is.job s is r clip).sameFlags (t.inFile = false)
    exact (hsum.trans (State.SameFlags.addTerms e is.job is.job st t i is.vec ts.1 _)).job.trans (congrArg _ hj)
  obtain ⟨u, hu, hflag⟩ := Option.map_eq_some_iff.mp hflags
  have hend : ((s.takeTerm e is st t i r clip ts phase).job? is.job).map Job.sumView =
      some (u.flags.saturation, u.flags.range || (ts.2 || ((s.sampled e is r clip).addTerms is.job st t i is.vec ts.1).2),
        u.run.values) :=
    ((State.SameSums.endTerm e is.job is.job _ st t phase).job.trans (State.markRange_job ..)).trans (congrArg _ hu)
  obtain ⟨j', hj', hview⟩ := Option.map_eq_some_iff.mp hend
  have hrange : j'.flags.range = _ := congrArg (fun x => x.2.1) hview
  have hvalues : j'.run.values = u.run.values := congrArg (fun x => x.2.2) hview
  refine ⟨j', hj', (congrArg Prod.fst hview).trans (congrArg Prod.fst hflag), fun hloss => ?_, fun hexact hfile ch hch => ?_⟩
  · rw [hrange, hloss]
    simp
  · obtain ⟨v, hv, hval⟩ := s.summed_values e is st t i r clip ts j hj hexact hfile ch hch
    rw [hvalues, Option.some.inj (hu.symm.trans hv), hval]

end

section
variable {s : State} {e row ch : Nat} {noise raw code : Int} {is : Issue} {light wv : Dy} {b : BankRow} {j : Job} {st0 : Stage}
  {tl : TileRun}

/-- The term of a conversion is added to its tile's value, in the file or beside it, and clips and losses are flagged. -/
theorem State.Converts.sums (h : s.Converts e row ch noise raw code is light wv b) (hj : s.job? is.job = some j)
    (hr : j.Receives e ch is st0 tl) {st : Stage} (hst : st = st0.eff is.rerun) {ts : List Int × Bool}
    (hts : ts = termAddends (is.term st b code)) {file : Nat} (hfile : file = s.rowFile st tl.engine (tl.place ch)) :
    Does (.conversionArrival e row noise) s fun t =>
      (st.exact = true → tl.inFile = true →
        t.exactAt tl.engine file (st.accBase + 5 * (is.vec - tl.u * st.vecB)) =
          wrapExact (s.exactAt tl.engine file (st.accBase + 5 * (is.vec - tl.u * st.vecB)) + ts.1.foldl (· + ·) 0)) ∧
      (tl.inFile = false → t.acc = s.acc) ∧
      (∃ j', t.job? is.job = some j' ∧ (code ≠ raw → j'.flags.saturation = true) ∧ (ts.2 = true → j'.flags.range = true) ∧
        (st.exact = true → tl.inFile = false → nth tl.chans (tl.place ch) none = some ch →
          j'.run.values.get 0 (st.cell tl.part (st.element is.vec ch)) = ts.1.foldl (fun v x => wrapExact (v + x))
            (j.run.values.get 0 (st.cell tl.part (st.element is.vec ch))))) := by
  subst hst hts
  have hk := State.counted_job? hj hr.isOpen e row (code != raw)
  have hkr : (j.clipped (code != raw)).Receives e ch is st0 tl := ⟨hr.isOpen, hr.stage, hr.rerun, hr.body, hr.tile⟩
  have hacc := s.counted_acc e row is.job (code != raw)
  have hoff := s.counted_offPath e row is.job (code != raw)
  have hrow := State.rowFile_congr (s.counted_masked e row is.job (code != raw)) (st0.eff is.rerun) tl.engine (tl.place ch)
  obtain ⟨r, hexec⟩ : ∃ r, exec (.conversionArrival e row noise) s = .next ((s.counted e row is.job (code != raw)).takeTerm e is
      (st0.eff is.rerun) tl (tl.place ch) r (code != raw) (termAddends (is.term (st0.eff is.rerun) b code)) j.phase) :=
    ⟨_, h.takes (j := j.clipped (code != raw)) hk hkr⟩
  obtain ⟨j', hj', hsat, hrange, hvalues⟩ := State.takeTerm_job (s.counted e row is.job (code != raw)) e is (st0.eff is.rerun) tl
    (tl.place ch) r (code != raw) (termAddends (is.term (st0.eff is.rerun) b code)) j.phase _ hk
  refine ⟨_, hexec, fun hexact hin => ?_, fun hout => (State.takeTerm_acc_of_outside _ _ _ _ _ _ _ _ _ _ hout).trans hacc,
    j', hj', fun hclip => hsat.trans ?_, hrange, fun hexact hout => hvalues hexact hout ch⟩
  · rw [hfile, ← hrow, State.takeTerm_exactAt _ _ _ _ _ _ _ _ _ _ _ hk hexact hin, State.exactAt_congr hacc hoff]
  · rw [bne_iff_ne.mpr hclip]
    rfl

end

/-! ## The statement -/

/-- Settles O26: a load fills the bank that the weight port writes; a swap puts the bank whose tile is next under light; a group streams
to the engines that are due for it; and a conversion is counted and its term added modulo 2³²⁰. -/
theorem lightPathLoadsIssuesAndConverts : Obligations.LightPathLoadsIssuesAndConverts := by
  unfold Obligations.LightPathLoadsIssuesAndConverts
  refine ⟨?_, ?_, ?_, ?_⟩
  · intro s id e ob rb ws patch j st d l p hj hst hp hlo hhi hnow hmask hws hob hin hidle he hpatch hahead hd hl
    have hfits := st.loadFits_of e ob rb ws patch p hp hlo hhi hws hob hpatch
    obtain ⟨rows, w, hrows, hengine⟩ := s.loadBank_engine j st e rb ws (s.bankChans st e ob patch)
      (st.tilesOf (s.bankChans st e ob patch) rb ws) l
    refine ⟨_, execBankLoad_loads s id e ob rb ws patch j st d l hj hst hnow hmask hin hidle he hahead hfits hd hl, ?_⟩
    have hhere : (s.loadBank j st e rb ws _ _ l).engine e = (s.engine e).loaded (st.loadedBank j rb ws rows) w :=
      (hengine e).trans (if_pos rfl)
    beta_reduce
    rw [hhere, Engine.bank_loaded, if_pos rfl, Engine.bank_loaded, if_neg (by simp)]
    exact ⟨rfl, State.job?_id hj, rfl, rfl, rfl, rfl, rfl, rfl, hrows, rfl, fun x hx => (hengine x).trans (if_neg hx.symm),
      State.sameMem_of_offPath (s.loadBank_offPath ..), s.loadBank_acc ..⟩
  · exact fun s e => execBankSwap_does
  · intro s id c vec grp slice e j st p b tl bank q hj hst hp hlo hhi hmask hvec hfirst hslice hdrain hheld hroom hcur hbefore hbuf
      hreads hhost hbad hscales hq he hc hout hin hidle hbank hjob hstage hrerun hgrp hrows htl hissued
    subst he hbank
    have htu : tl.u = vec / st.vecB := (StageRun.place_of_tileFor htl).2
    rw [htu] at hissued
    have hmay : s.MayIssue id (e / 4) vec grp slice j st p b := ⟨hj, hst, hp, hlo, hhi, hmask, hvec, hfirst, hslice, hdrain, hheld,
      hroom, hcur, hbefore, hbuf, hreads, hhost, hbad, hscales⟩
    have hdue : s.Due id e vec grp slice st p tl j :=
      ⟨hj, hst, hp, hin, hidle, hjob, hstage, hrerun, hgrp, hrows, htl, hissued⟩
    obtain ⟨hmem, hturn, hemit, hissues⟩ := hmay.streams hdue q hc hout rfl
    exact ⟨_, hmay.exec q hq, hmem, hturn, hemit, _, hissues, rfl, rfl, rfl, rfl, rfl, rfl, rfl, rfl⟩
  · intro s e row ch file noise raw code is light wv b j st0 st tl ts hwaiting hentry hraw hcode
    have hconverts : s.Converts e row ch noise raw code is light wv b := ⟨hwaiting, hentry, hraw, hcode⟩
    exact ⟨hconverts.counts, fun hj hopen hstage hrerun hbody hst htile hts hfile =>
      hconverts.sums hj ⟨hopen, hstage, hrerun, hbody, hst ▸ htile⟩ hst hts hfile⟩

end Sys2Proof.Machine
end

section
/-! PROOFS. Storing elements (08 R392, R403, R431; 09 R441, R453): a command that stores to HBM or SRAM in service writes every copy of
every element, and changes nothing of the state but memory and the marks of its blocks. -/

namespace Sys2Proof.Machine

/-! ## Addresses in service -/

/-- An address of HBM or SRAM in service: a store to it arrives. -/
def State.takesStore (s : State) (a : Nat) : Prop := (s.isHbm a || s.isSram a) = true ∧ s.onBadStack a = false

theorem State.isHbm_iff (s : State) (a : Nat) :
    s.isHbm a = true ↔ a < 0x00C000000000 ∧ a % 0x003000000000 < regionSize s.remapped (regionOf a) := by
  unfold State.isHbm State.space spaceAt
  split
  · next ha => split <;> simp [*]
  · next ha =>
    simp only [ha, false_and, iff_false, beq_iff_eq]
    split_ifs <;> simp

/-- All addresses of a granule lie on one stack (09 R441). -/
theorem State.onBadStack_granule (s : State) (a : Nat) : s.onBadStack (a / 2048 * 2048) = s.onBadStack a := by
  have hregion : regionOf (a / 2048 * 2048) = regionOf a := by
    unfold regionOf
    omega
  have hsize : ∃ n, regionSize s.remapped (regionOf a) = 2048 * n :=
    ⟨(stacksOf s.remapped (regionOf a)).length * 33554432, by unfold regionSize; omega⟩
  obtain ⟨n, hn⟩ := hsize
  have hhbm : s.isHbm (a / 2048 * 2048) = s.isHbm a := by
    rw [Bool.eq_iff_iff, State.isHbm_iff, State.isHbm_iff, hregion, hn]
    omega
  have hgranule : a / 2048 * 2048 % 0x003000000000 / 2048 = a % 0x003000000000 / 2048 := by omega
  have hstack : stackAt s.remapped (a / 2048 * 2048) = stackAt s.remapped a := by
    unfold stackAt
    rw [hregion, Config.granuleBytes, hgranule]
  unfold State.onBadStack
  rw [hhbm, hstack]

theorem State.takesStore.space_ne_aperture {s : State} {a : Nat} (h : s.takesStore a) : s.space a ≠ .aperture := by
  intro hspace
  obtain ⟨hmem, -⟩ := h
  simp [State.isHbm, State.isSram, hspace] at hmem

/-- A range of bytes in service stops no write. -/
theorem State.writeStop_none {s : State} {a n : Nat} (session : Nat) (hn : 0 < n)
    (h : ∀ y, a ≤ y → y < a + n → s.takesStore y) : s.writeStop session a n = none := by
  have hspace := (h a (le_refl a) (by omega)).space_ne_aperture
  have hstacks : ((List.range ((a + n - 1) / 2048 - a / 2048 + 1)).any fun i => s.onBadStack ((a / 2048 + i) * 2048)) = false := by
    refine List.any_eq_false.mpr fun i hi => ?_
    rw [List.mem_range] at hi
    obtain ⟨-, hy⟩ := h (Nat.max a ((a / 2048 + i) * 2048)) (Nat.le_max_left _ _) (Nat.max_lt.mpr ⟨by omega, by omega⟩)
    have hgranule : Nat.max a ((a / 2048 + i) * 2048) / 2048 = a / 2048 + i := by
      rcases Nat.le_total a ((a / 2048 + i) * 2048) with hle | hle
      · rw [show Nat.max a _ = _ from Nat.max_eq_right hle]; omega
      · rw [show Nat.max a _ = _ from Nat.max_eq_left hle]; omega
    rw [← State.onBadStack_granule, hgranule] at hy
    rw [hy]
    decide
  unfold State.writeStop
  split
  · next happ => exact absurd happ hspace
  · rw [hstacks]
    rfl
  · rfl

/-! ## Writing a range -/

/-- `t` is the state with this memory; which of its blocks are poisoned, and where errors wait, may have changed. -/
def State.Stored (s : State) (m : Sparse Byte) (t : State) : Prop := ∃ p l, t = { s with mem := m, poison := p, latent := l }

theorem State.Stored.refl (s : State) : s.Stored s.mem s := ⟨s.poison, s.latent, rfl⟩

theorem State.Stored.trans {s t u : State} {m n : Sparse Byte} (h : s.Stored m t) (k : t.Stored n u) : s.Stored n u := by
  obtain ⟨p, l, rfl⟩ := h
  obtain ⟨q, r, rfl⟩ := k
  exact ⟨q, r, rfl⟩

theorem State.Stored.mem {s t : State} {m : Sparse Byte} (h : s.Stored m t) : t.mem = m := by
  obtain ⟨p, l, rfl⟩ := h
  rfl

theorem State.Stored.jobs {s t : State} {m : Sparse Byte} (h : s.Stored m t) : t.jobs = s.jobs := by
  obtain ⟨p, l, rfl⟩ := h
  rfl

theorem State.Stored.acc {s t : State} {m : Sparse Byte} (h : s.Stored m t) : t.acc = s.acc := by
  obtain ⟨p, l, rfl⟩ := h
  rfl

theorem State.Stored.scales {s t : State} {m : Sparse Byte} (h : s.Stored m t) : t.scales = s.scales := by
  obtain ⟨p, l, rfl⟩ := h
  rfl

theorem State.Stored.takesStore {s t : State} {m : Sparse Byte} {a : Nat} (h : s.Stored m t) (ha : s.takesStore a) :
    t.takesStore a := by
  obtain ⟨p, l, rfl⟩ := h
  exact ha

theorem writeMem_append (m : Sparse Byte) (a : Nat) (bs cs : List Byte) :
    writeMem m a (bs ++ cs) = writeMem (writeMem m a bs) (a + bs.length) cs := by
  induction bs generalizing m a with
  | nil => rfl
  | cons b bs ih =>
    rw [List.cons_append, writeMem, writeMem, ih, List.length_cons, Nat.add_right_comm, Nat.add_assoc a]

theorem State.write_stored {s : State} {a : Nat} (bs : List Byte) (h : s.onBadStack a = false) :
    s.Stored (writeMem s.mem a bs) (s.write a bs) := by
  unfold State.write
  rw [h]
  exact ⟨_, _, rfl⟩

/-- A write across granules arrives whole when every byte of it falls on memory in service. -/
theorem State.writeLong_stored (fuel : Nat) (s : State) (a : Nat) (bs : List Byte) (hfuel : a % 2048 + bs.length ≤ 2048 * fuel)
    (h : ∀ y, a ≤ y → y < a + bs.length → s.takesStore y) : s.Stored (writeMem s.mem a bs) (s.writeLong a bs fuel) := by
  induction fuel generalizing s a bs with
  | zero =>
    obtain rfl : bs = [] := List.length_eq_zero_iff.mp (by omega)
    exact .refl s
  | succ fuel ih =>
    unfold State.writeLong
    split
    · next hempty =>
      obtain rfl := List.isEmpty_iff.mp hempty
      exact .refl s
    · next hempty =>
      have hlen : 0 < bs.length := List.length_pos_iff.mpr fun hnil => hempty (List.isEmpty_iff.mpr hnil)
      rw [Config.granuleBytes]
      have hpiece := s.write_stored (bs.take (2048 - a % 2048)) (h a (le_refl a) (by omega)).2
      refine hpiece.trans ?_
      have hsplit : writeMem s.mem a bs =
          writeMem (writeMem s.mem a (bs.take (2048 - a % 2048))) (a + (2048 - a % 2048)) (bs.drop (2048 - a % 2048)) := by
        rcases Nat.le_total (2048 - a % 2048) bs.length with hle | hle
        · conv_lhs => rw [← List.take_append_drop (2048 - a % 2048) bs]
          rw [writeMem_append, List.length_take_of_le hle]
        · rw [List.take_of_length_le hle, List.drop_eq_nil_iff.mpr hle, writeMem]
      rw [hsplit, ← hpiece.mem]
      refine ih _ _ _ ?_ fun y hlo hhi => hpiece.takesStore (h y (by omega) ?_)
      · rw [List.length_drop]
        omega
      · rw [List.length_drop] at hhi
        omega

theorem State.put_stored {s : State} {a : Nat} {bs : List Byte} (j : Job) (hbs : bs ≠ [])
    (h : ∀ y, a ≤ y → y < a + bs.length → s.takesStore y) : s.Stored (writeMem s.mem a bs) (s.put j a bs) := by
  have hlen := List.length_pos_iff.mpr hbs
  unfold State.put
  split
  · next happ => exact absurd happ (h a (le_refl a) (by omega)).space_ne_aperture
  · refine State.writeLong_stored _ s a bs ?_ h
    rw [Config.granuleBytes]
    omega

/-! ## Writing elements -/

/-- Memory with ranges of bytes written, in order. -/
def writeRanges (m : Sparse Byte) (l : List (Nat × List Byte)) : Sparse Byte := l.foldl (fun m x => writeMem m x.1 x.2) m

/-- Ranges of bytes that a store can write: none is empty, and each falls on memory in service. -/
def State.takesRanges (s : State) (l : List (Nat × List Byte)) : Prop :=
  ∀ x ∈ l, x.2 ≠ [] ∧ ∀ y, x.1 ≤ y → y < x.1 + x.2.length → s.takesStore y

theorem State.forEach_put_stored (j : Job) (l : List (Nat × List Byte)) (s : State) (h : s.takesRanges l) :
    s.Stored (writeRanges s.mem l) (forEach l (fun s x => s.put j x.1 x.2) s) := by
  induction l generalizing s with
  | nil => exact .refl s
  | cons x l ih =>
    obtain ⟨hne, hx⟩ := h x List.mem_cons_self
    have hput := State.put_stored j hne hx
    refine hput.trans ?_
    have hrest : (s.put j x.1 x.2).takesRanges l := fun y hy =>
      ⟨(h y (List.mem_cons_of_mem x hy)).1, fun a hlo hhi => hput.takesStore ((h y (List.mem_cons_of_mem x hy)).2 a hlo hhi)⟩
    have hwritten := ih _ hrest
    rw [hput.mem] at hwritten
    exact hwritten

/-- Joining writes that follow each other changes nothing of what they write. -/
theorem writeRanges_joinWrites (m : Sparse Byte) (l : List (Nat × List Byte)) : writeRanges m (joinWrites l) = writeRanges m l := by
  induction l generalizing m with
  | nil => rfl
  | cons x l ih =>
    obtain ⟨a, bs⟩ := x
    have hl := ih (writeMem m a bs)
    change _ = writeRanges (writeMem m a bs) l
    rw [← hl, joinWrites]
    cases joinWrites l with
    | nil => rfl
    | cons y more =>
      obtain ⟨b, cs⟩ := y
      dsimp only
      split
      · next hb =>
        subst hb
        simp only [writeRanges, List.foldl_cons, writeMem_append]
      · rfl

theorem State.takesRanges_joinWrites {s : State} {l : List (Nat × List Byte)} (h : s.takesRanges l) :
    s.takesRanges (joinWrites l) := by
  induction l with
  | nil => exact h
  | cons x l ih =>
    obtain ⟨a, bs⟩ := x
    obtain ⟨hx, hl⟩ := List.forall_mem_cons.mp h
    have hjoined := ih hl
    rw [joinWrites]
    cases hj : joinWrites l with
    | nil => exact List.forall_mem_cons.mpr ⟨hx, fun _ hnil => absurd hnil List.not_mem_nil⟩
    | cons y more =>
      obtain ⟨b, cs⟩ := y
      rw [hj] at hjoined
      obtain ⟨hy, hmore⟩ := List.forall_mem_cons.mp hjoined
      dsimp only
      split
      · next hb =>
        subst hb
        refine List.forall_mem_cons.mpr ⟨⟨List.append_ne_nil_of_left_ne_nil hx.1 cs, fun y hlo hhi => ?_⟩, hmore⟩
        rw [List.length_append] at hhi
        rcases Nat.lt_or_ge y (a + bs.length) with hlt | hge
        · exact hx.2 y hlo hlt
        · exact hy.2 y hge (by dsimp only at hhi ⊢; omega)
      · exact List.forall_mem_cons.mpr ⟨hx, List.forall_mem_cons.mpr ⟨hy, hmore⟩⟩

/-- The copies of elements of a destination, as ranges of bytes (08 R403). -/
def copyRanges (d : TDesc) (l : List (Nat × List Byte)) : List (Nat × List Byte) :=
  l.flatMap fun x => (copiesOf d (d.addr x.1)).map fun a => (a, x.2)

theorem writeRanges_copyRanges (m : Sparse Byte) (d : TDesc) (l : List (Nat × List Byte)) :
    writeRanges m (copyRanges d l) = writeEach m d l := by
  unfold writeRanges copyRanges writeEach
  rw [List.foldl_flatMap]
  simp only [List.foldl_map]

theorem State.takesRanges_copyRanges {s : State} {d : TDesc} {l : List (Nat × List Byte)} (h : s.storable d l) :
    s.takesRanges (copyRanges d l) := by
  intro y hy
  obtain ⟨x, hx, hcopy⟩ := List.mem_flatMap.mp hy
  obtain ⟨a, ha, rfl⟩ := List.mem_map.mp hcopy
  exact ⟨(h x hx).1, (h x hx).2 a (List.mem_cons_of_mem _ ha)⟩

/-- No write of storable elements stops. -/
theorem State.scanWrites_storable {s : State} {d : TDesc} {l : List (Nat × List Byte)} (session : Nat) (h : s.storable d l) :
    s.scanWrites session d l = (copyRanges d l, none) := by
  induction l with
  | nil => rfl
  | cons x l ih =>
    obtain ⟨i, bs⟩ := x
    obtain ⟨⟨hne, hx⟩, hl⟩ := List.forall_mem_cons.mp h
    have hnone := State.writeStop_none session (List.length_pos_iff.mpr hne) (hx (d.addr i) List.mem_cons_self)
    rw [State.scanWrites, hnone, ih hl]
    rfl

/-- Storable elements are stored, each to all its copies, and nothing stops the store. -/
theorem State.writeElems_storable {s : State} {d : TDesc} {l : List (Nat × List Byte)} (j : Job) (h : s.storable d l) :
    ∃ u, s.writeElems j d l = (u, none) ∧ s.Stored (writeEach s.mem d l) u := by
  unfold State.writeElems
  rw [State.scanWrites_storable j.session h]
  refine ⟨_, rfl, ?_⟩
  have hstored := State.forEach_put_stored j _ s (State.takesRanges_joinWrites (State.takesRanges_copyRanges h))
  rwa [writeRanges_joinWrites, writeRanges_copyRanges] at hstored

theorem State.storeElems_storable {s : State} {d : Option TDesc} {l : List (Nat × List Byte)} (j : Job) (h : s.storableOpt d l) :
    ∃ u, s.storeElems j d l = (u, none) ∧ s.Stored (storeOpt s.mem d l) u := by
  cases d with
  | none => exact ⟨s, rfl, .refl s⟩
  | some d => exact State.writeElems_storable j (h d rfl)

theorem State.Stored.storableOpt {s t : State} {m : Sparse Byte} {d : Option TDesc} {l : List (Nat × List Byte)} (h : s.Stored m t)
    (hs : s.storableOpt d l) : t.storableOpt d l :=
  fun x hx y hy => ⟨(hs x hx y hy).1, fun a ha b hlo hhi => h.takesStore ((hs x hx y hy).2 a ha b hlo hhi)⟩

end Sys2Proof.Machine
end

section
/-! PROOFS. What commands that move data have in common (08 R390, R430 to R432; 10 R479; 11 R541): their start and their end, reads that
find all they need, and loops that touch a thing once. -/

namespace Sys2Proof.Machine

/-! ## Commands at work -/

theorem State.job?_modJob_some {s : State} {id : Nat} {j : Job} (f : Job → Job) (hid : ∀ k, (f k).id = k.id)
    (h : s.job? id = some j) : (s.modJob id f).job? id = some (f j) := by
  rw [State.job?_modJob _ _ _ _ hid, if_pos rfl, h]
  rfl

theorem State.job?_congr {s t : State} (h : t.jobs = s.jobs) (id : Nat) : t.job? id = s.job? id := by
  unfold State.job?
  rw [h]

/-- What a command that is under way becomes by its end. -/
theorem Job.finish_running {j : Job} (st : Status) (h : j.phase = .running) : j.finish st = { j with phase := .finished st } := by
  unfold Job.finish
  rw [h]

theorem State.job?_finishJob {s : State} {id : Nat} {j : Job} (st : Status) (h : s.job? id = some j) (hrun : j.phase = .running) :
    (s.finishJob id st).job? id = some { j with phase := .finished st } :=
  (State.job?_modJob_some (fun k => k.finish st) (fun k => k.finish_id st) h).trans (congrArg some (Job.finish_running st hrun))

/-- The work of a command that may do it. -/
theorem jobRun_works {s : State} {id op : Nat} {j : Job} (f : Job → State → State) (h : s.works id op j) :
    jobRun id op s f = .next (f j (s.begin' j)) := by
  obtain ⟨hj, hop, hmay⟩ := h
  unfold jobRun
  rw [hj]
  exact if_pos ⟨hop, hmay⟩

theorem State.works.job?_begin' {s : State} {id op : Nat} {j : Job} (h : s.works id op j) :
    (s.begin' j).job? id = some (j.execute s.frame) := by
  obtain ⟨hj, -, -⟩ := h
  obtain rfl := State.job?_id hj
  exact State.job?_modJob_some (fun k => k.execute s.frame) (fun _ => rfl) hj

/-! ## Reading elements -/

theorem State.scanReads_bytes {s : State} {j : Job} {f : Nat → Nat × Nat} {got : Nat → List Byte} {is : List Nat}
    (h : ∀ i ∈ is, s.readFor j (f i).1 (f i).2 = .bytes (got i)) : s.scanReads j f is = (is.map got, [], none) := by
  induction is with
  | nil => rfl
  | cons i is ih =>
    obtain ⟨hi, his⟩ := List.forall_mem_cons.mp h
    rw [State.scanReads, hi, ih his]
    rfl

/-- A command that holds all the elements of a source reads them. -/
theorem State.readAll_holds {s : State} {j : Job} {d : TDesc} {n : Nat} {is : List Nat} {got : Nat → List Byte}
    (h : s.holds j d n is got) : s.readAll j (fun i => (d.addr i, n)) is = .done (is.map got) none := by
  unfold State.readAll
  rw [State.scanReads_bytes (f := fun i => (d.addr i, n)) h]

theorem State.bytes_begin' (s : State) (k : Job) (a n : Nat) : (s.begin' k).bytes a n = s.bytes a n := by
  induction n generalizing a with
  | zero => rfl
  | succ n ih =>
    rw [State.bytes, State.bytes, ih]
    rfl

theorem State.hatEntry_begin' (s : State) (k : Job) (a : Nat) : (s.begin' k).hatEntry a = s.hatEntry a := by
  unfold State.hatEntry State.word
  rw [State.bytes_begin']
  rfl

theorem State.canRead_begin' (s : State) (k : Job) (session a : Nat) : (s.begin' k).canRead session a = s.canRead session a := by
  unfold State.canRead State.xlat State.xlatMiddle State.xlatLeaf
  simp only [State.hatEntry_begin']
  rfl

theorem State.readFor_begin' (s : State) (k j : Job) (a n : Nat) : (s.begin' k).readFor j a n = s.readFor j a n := by
  unfold State.readFor
  simp only [State.bytes_begin', State.canRead_begin']
  rfl

/-- The beginning of a command changes nothing of what it can read. -/
theorem State.holds.begin' {s : State} {j : Job} {d : TDesc} {n : Nat} {is : List Nat} {got : Nat → List Byte}
    (h : s.holds j d n is got) (k : Job) : (s.begin' k).holds j d n is got :=
  fun i hi => (s.readFor_begin' k j (d.addr i) n).trans (h i hi)

theorem TDesc.covered_nodup (d : TDesc) : d.covered.Nodup := List.nodup_range.map fun _ _ h => Nat.add_left_cancel h

theorem bitList_nodup (n v : Nat) : (bitList n v).Nodup := List.nodup_range.filter _

/-! ## Loops that touch a thing once -/

/-- A reading that one turn of a loop changes, and no other, is changed once by the loop. -/
theorem forEach_once {α β : Type} (r : State → β) (g : β → β) {l : List α} (f : State → α → State) {a : α} (ha : a ∈ l)
    (hl : l.Nodup) (hself : ∀ s, r (f s a) = g (r s)) (hother : ∀ s b, b ∈ l → b ≠ a → r (f s b) = r s) (s : State) :
    r (forEach l f s) = g (r s) := by
  obtain ⟨l₁, l₂, rfl⟩ := List.append_of_mem ha
  have hother' : ∀ b, b ∈ l₁ ∨ b ∈ l₂ → b ≠ a := by
    rintro b hb rfl
    have := List.nodup_append.mp hl
    rcases hb with hb | hb
    · exact this.2.2 b hb b List.mem_cons_self rfl
    · exact (List.nodup_cons.mp this.2.1).1 hb
  rw [forEach_append]
  have hafter := forEach_same r l₂ f (fun t b hb => hother t b (by simp [hb]) (hother' b (.inr hb))) (f (forEach l₁ f s) a)
  have hbefore := forEach_same r l₁ f (fun t b hb => hother t b (by simp [hb]) (hother' b (.inl hb))) s
  exact hafter.trans ((hself _).trans (congrArg g hbefore))

end Sys2Proof.Machine
end

section
/-! PROOFS. SCALE_LOAD and SCALE_READ (03 R111 to R114, R136 to R143, R156; 04 R235, R236; 11 R536), and the statement
`ScaleEntriesAndSlotsLoadAndRead`. -/

namespace Sys2Proof.Machine

/-! ## Scale entries -/

theorem State.scale_modScale (s : State) (n e m k : Nat) (f : Nat → Nat) : (s.modScale n e f).scale m k =
    if 4096 * n + e = 4096 * m + k then BitVec.ofNat 512 (f (s.scale m k).toNat) else s.scale m k := by
  unfold State.scale State.modScale
  dsimp only
  rw [Sparse.get_modify]
  split
  · next h => rw [h]
  · rfl

theorem State.cleanEntry_scale (s : State) (n e wmask m k : Nat) : (s.cleanEntry n e wmask).scale m k = s.scale m k := by
  unfold State.cleanEntry
  split <;> rfl

/-- An image is taken into an entry: its scale is positive, normal and finite, or its scale field is not selected (03 R143). -/
def imageTaken (wmask n : Nat) : Bool := !bit wmask 0 || scaleValid (bits n 0 32)

theorem imageTaken_iff (wmask n : Nat) : imageTaken wmask n = true ↔ bit wmask 0 = false ∨ scaleValid (bits n 0 32) = true := by
  simp [imageTaken]

/-- One image of a load reaches an entry of a cluster. -/
def State.loadEntry (s : State) (wmask n e image : Nat) : State :=
  if imageTaken wmask image then (s.cleanEntry n e wmask).modScale n e fun old => mergeEntry old image wmask else s

/-- An entry after an image of a load. -/
def loadedEntry (wmask image : Nat) (v : BitVec 512) : BitVec 512 :=
  if bit wmask 0 = false ∨ scaleValid (bits image 0 32) = true then BitVec.ofNat 512 (mergeEntry v.toNat image wmask) else v

theorem State.scale_loadEntry (s : State) (wmask n e image m k : Nat) (he : e < 4096) (hk : k < 4096) :
    (s.loadEntry wmask n e image).scale m k = if n = m ∧ e = k then loadedEntry wmask image (s.scale m k) else s.scale m k := by
  have hkey : 4096 * n + e = 4096 * m + k ↔ n = m ∧ e = k := by omega
  unfold State.loadEntry loadedEntry
  simp only [imageTaken_iff]
  split
  · simp only [State.scale_modScale, State.cleanEntry_scale, hkey]
  · rw [ite_self]

/-- The state but for scale entries and the marks of memory blocks. -/
def State.besideScales (s : State) : State := { s with scales := [], poison := [], latent := [] }

theorem State.loadEntry_besideScales (s : State) (wmask n e image : Nat) :
    (s.loadEntry wmask n e image).besideScales = s.besideScales := by
  unfold State.loadEntry State.cleanEntry
  split
  · split <;> rfl
  · rfl

/-- A load of some fields marks no block. -/
theorem State.loadEntry_poison (s : State) (wmask n e image : Nat) (h : wmask % 128 ≠ 127) :
    (s.loadEntry wmask n e image).poison = s.poison := by
  unfold State.loadEntry State.cleanEntry
  simp only [h, ne_eq, not_false_eq_true, if_true]
  split <;> rfl

/-- A load of an entry cleans no block but the entry's. -/
theorem State.loadEntry_cleans (s : State) (wmask n e image b : Nat) (hb : b ∈ s.poison)
    (hgone : b ∉ (s.loadEntry wmask n e image).poison) : 64 * b = scaleAddr n e := by
  unfold State.loadEntry State.cleanEntry at hgone
  split at hgone
  · split at hgone
    · exact absurd hb hgone
    · have hcleared : b ∉ clearPoison s.poison (scaleAddr n e) 64 := hgone
      unfold clearPoison at hcleared
      simp only [List.mem_filter, hb, true_and, Bool.not_eq_true', Bool.and_eq_true, decide_eq_true_eq,
        Bool.not_eq_false] at hcleared
      omega
  · exact absurd hb hgone

/-- The images of a load reach their entries in every named cluster. -/
def State.loadEntries (s : State) (wmask first : Nat) (cs is : List Nat) (image : Nat → Nat) : State :=
  forEach cs (fun s n => forEach is (fun s i => s.loadEntry wmask n (first + i) (image i)) s) s

section
variable (s : State) (wmask first : Nat) (cs is : List Nat) (image : Nat → Nat)

theorem State.loadEntries_besideScales : (s.loadEntries wmask first cs is image).besideScales = s.besideScales :=
  forEach_same State.besideScales cs _ (fun t n _ => forEach_same State.besideScales is _
    (fun u i _ => u.loadEntry_besideScales wmask n (first + i) (image i)) t) s

theorem State.loadEntries_mem : (s.loadEntries wmask first cs is image).mem = s.mem := by
  have h := congrArg State.mem (s.loadEntries_besideScales wmask first cs is image)
  exact h

theorem State.job?_loadEntries (id : Nat) : (s.loadEntries wmask first cs is image).job? id = s.job? id := by
  have h := congrArg (fun t => t.job? id) (s.loadEntries_besideScales wmask first cs is image)
  exact h

theorem State.loadEntries_poison (h : wmask % 128 ≠ 127) : (s.loadEntries wmask first cs is image).poison = s.poison :=
  forEach_same State.poison cs _ (fun t n _ => forEach_same State.poison is _
    (fun u i _ => u.loadEntry_poison wmask n (first + i) (image i) h) t) s

/-- A load of entries cleans no block but those of its entries. -/
theorem State.loadEntries_cleans (b : Nat) (hb : b ∈ s.poison) (hgone : b ∉ (s.loadEntries wmask first cs is image).poison) :
    ∃ n ∈ cs, ∃ i ∈ is, 64 * b = scaleAddr n (first + i) := by
  by_contra hno
  push Not at hno
  refine hgone (forEach_keeps (fun t => b ∈ t.poison) cs _ (fun t n hn ht => ?_) s hb)
  refine forEach_keeps (fun t => b ∈ t.poison) is _ (fun u i hi hu => ?_) t ht
  by_contra hlost
  exact hno n hn i hi (u.loadEntry_cleans wmask n (first + i) (image i) b hu hlost)

/-- Entries that no image of the load is for stay. -/
theorem State.scale_loadEntries_other (hfirst : ∀ i ∈ is, first + i < 4096) (n e : Nat) (he : e < 4096)
    (h : n ∉ cs ∨ ∀ i ∈ is, e ≠ first + i) : (s.loadEntries wmask first cs is image).scale n e = s.scale n e := by
  refine forEach_same (fun t => t.scale n e) cs _ (fun t m hm => ?_) s
  refine forEach_same (fun t => t.scale n e) is _ (fun u i hi => ?_) t
  refine (u.scale_loadEntry wmask m (first + i) (image i) n e (hfirst i hi) he).trans (if_neg ?_)
  rintro ⟨rfl, rfl⟩
  rcases h with hn | hi'
  · exact hn hm
  · exact hi' i hi rfl

/-- Every entry that an image of the load is for takes it once. -/
theorem State.scale_loadEntries (hfirst : ∀ i ∈ is, first + i < 4096) (hcs : cs.Nodup) (his : is.Nodup) (n i : Nat) (hn : n ∈ cs)
    (hi : i ∈ is) :
    (s.loadEntries wmask first cs is image).scale n (first + i) = loadedEntry wmask (image i) (s.scale n (first + i)) := by
  have hturn : ∀ (u : State) (m k : Nat), k ∈ is → (u.loadEntry wmask m (first + k) (image k)).scale n (first + i) =
      if m = n ∧ k = i then loadedEntry wmask (image k) (u.scale n (first + i)) else u.scale n (first + i) := by
    intro u m k hk
    rw [u.scale_loadEntry wmask m (first + k) (image k) n (first + i) (hfirst k hk) (hfirst i hi)]
    simp only [Nat.add_left_cancel_iff]
  refine forEach_once (fun t => t.scale n (first + i)) (loadedEntry wmask (image i)) _ hn hcs (fun t => ?_) (fun t m _ hm => ?_) s
  · refine forEach_once (fun t => t.scale n (first + i)) (loadedEntry wmask (image i)) _ hi his (fun u => ?_) (fun u k hk hki => ?_) t
    · exact (hturn u n i hi).trans (if_pos ⟨rfl, rfl⟩)
    · exact (hturn u n k hk).trans (if_neg fun h => hki h.2)
  · refine forEach_same (fun t => t.scale n (first + i)) is _ (fun u k hk => ?_) t
    exact (hturn u m k hk).trans (if_neg fun h => hm h.1)

end

/-! ## SCALE_LOAD into entries -/

/-- A command some of whose images were refused: RANGE and the count of them (03 R143). -/
def Job.refuseEntries (bad : Nat) (c : Job) : Job :=
  { c with flags := { c.flags with range := true }, report := c.report ++ [entryCountSection bad] }

/-- Images that were refused are counted for their command. -/
def State.refuseEntries (s : State) (id bad : Nat) : State := if bad = 0 then s else s.modJob id (Job.refuseEntries bad)

theorem State.job?_refuseEntries {s : State} {id : Nat} {j : Job} (bad : Nat) (h : s.job? id = some j) :
    ∃ k, (s.refuseEntries id bad).job? id = some k ∧ k.phase = j.phase ∧ k.flags.range = (j.flags.range || decide (bad ≠ 0)) := by
  unfold State.refuseEntries
  split
  · next hbad => exact ⟨j, h, rfl, by simp [hbad]⟩
  · next hbad => exact ⟨_, State.job?_modJob_some _ (fun _ => rfl) h, rfl, by simp [Job.refuseEntries, hbad]⟩

@[simp] theorem State.refuseEntries_mem (s : State) (id bad : Nat) : (s.refuseEntries id bad).mem = s.mem := by
  unfold State.refuseEntries
  split <;> rfl
@[simp] theorem State.refuseEntries_poison (s : State) (id bad : Nat) : (s.refuseEntries id bad).poison = s.poison := by
  unfold State.refuseEntries
  split <;> rfl
@[simp] theorem State.scale_refuseEntries (s : State) (id bad n e : Nat) : (s.refuseEntries id bad).scale n e = s.scale n e := by
  unfold State.refuseEntries
  split <;> rfl

/-- How many images of a load are refused. -/
def refusedCount (wmask : Nat) (is : List Nat) (image : Nat → Nat) : Nat := (is.filter fun i => !imageTaken wmask (image i)).length

theorem refusedCount_ne_zero (wmask : Nat) (is : List Nat) (image : Nat → Nat) :
    decide (refusedCount wmask is image ≠ 0) = is.any fun i => bit wmask 0 && !scaleValid (bits (image i) 0 32) := by
  rw [Bool.eq_iff_iff]
  simp [refusedCount, imageTaken]

theorem exec_scaleLoad (id : Nat) (s : State) : exec (.scaleLoad id) s = execScaleLoad id s := rfl

/-- SCALE_LOAD into entries, with its images in hand. -/
theorem execScaleLoad_entries {s : State} {id : Nat} {j : Job} {slot first count wmask clusters : Nat} {d : TDesc}
    {got : Nat → List Byte} (hw : s.works id 0x09 j) (hbody : j.body = .scaleLoad 0 slot first count wmask d clusters)
    (hgot : s.holds j d (d.size 0) d.covered got) :
    exec (.scaleLoad id) s = .next
      ((((s.begin' j).loadEntries wmask first (bitList 64 clusters) d.covered fun i => ofLe (got i)).refuseEntries id
        (refusedCount wmask d.covered fun i => ofLe (got i))).finishJob id .done) := by
  rw [exec_scaleLoad, execScaleLoad, jobRun_works _ hw]
  simp only [hbody, State.readAll_holds (hgot.begin' j), if_true, ← List.map_prod_left_eq_zip, List.map_map, forEach,
    List.foldl_map, List.filter_map, List.length_map]
  rfl


/-! ## SCALE_LOAD into a slot -/

theorem mem_slotReplaced {α : Type} (slot : Nat) (x : α) (l : List (Nat × α)) :
    (slot, x) ∈ (l.filter fun y => y.1 != slot) ++ [(slot, x)] := List.mem_append_right _ List.mem_cons_self

/-- A cluster whose codebook slot has been replaced. -/
def Cluster.putCodebook (slot : Nat) (es : List Int) (c : Cluster) : Cluster :=
  { c with codebooks := (c.codebooks.filter fun x => x.1 != slot) ++ [(slot, es)] }

/-- A cluster whose activation table slot has been replaced. -/
def Cluster.putTable (slot : Nat) (es : List ActEntry) (c : Cluster) : Cluster :=
  { c with tables := (c.tables.filter fun x => x.1 != slot) ++ [(slot, es)] }

theorem execScaleLoad_codebook {s : State} {id : Nat} {j : Job} {slot first count wmask clusters : Nat} {d : TDesc}
    {got : Nat → List Byte} (hw : s.works id 0x09 j) (hbody : j.body = .scaleLoad 1 slot first count wmask d clusters)
    (hgot : s.holds j d (d.size 0) d.covered got) :
    exec (.scaleLoad id) s = .next ((s.begin' j).loadSlot id slot (firstNotRising 0 (d.covered.map fun i => sext (ofLe (got i)) 16))
      clusters (Cluster.putCodebook slot (d.covered.map fun i => sext (ofLe (got i)) 16))) := by
  rw [exec_scaleLoad, execScaleLoad, jobRun_works _ hw]
  simp only [hbody, State.readAll_holds (hgot.begin' j), List.map_map]
  rfl

theorem execScaleLoad_table {s : State} {id : Nat} {j : Job} {slot first count wmask clusters : Nat} {d : TDesc}
    {got : Nat → List Byte} (hw : s.works id 0x09 j) (hbody : j.body = .scaleLoad 2 slot first count wmask d clusters)
    (hgot : s.holds j d (d.size 0) d.covered got) :
    exec (.scaleLoad id) s = .next ((s.begin' j).loadSlot id slot (firstBadTable 0 (d.covered.map fun i => parseActEntry (got i)))
      clusters (Cluster.putTable slot (d.covered.map fun i => parseActEntry (got i)))) := by
  rw [exec_scaleLoad, execScaleLoad, jobRun_works _ hw]
  simp only [hbody, State.readAll_holds (hgot.begin' j), List.map_map]
  rfl

/-- A command whose slot image was refused at an entry (03 R114; 04 R236). -/
def Job.refuseSlot (i slot : Nat) (c : Job) : Job :=
  { c with flags := { c.flags with range := true }, report := c.report ++ [offendingSection i slot] }

theorem State.loadSlot_refused (s : State) (id slot i mask : Nat) (f : Cluster → Cluster) :
    s.loadSlot id slot (some i) mask f = (s.modJob id (Job.refuseSlot i slot)).finishJob id .done := rfl

theorem State.loadSlot_taken (s : State) (id slot mask : Nat) (f : Cluster → Cluster) :
    s.loadSlot id slot none mask f = (forEach (bitList 64 mask) (fun s n => s.modCluster n f) s).finishJob id .done := rfl

theorem State.forEach_modCluster_eq (s : State) (l : List Nat) (f : Cluster → Cluster) :
    ∃ x, forEach l (fun s n => s.modCluster n f) s = { s with clusters := x } :=
  forEach_keeps (fun t => ∃ x, t = { s with clusters := x }) l _ (fun t n _ ht => by
    obtain ⟨x, rfl⟩ := ht
    exact ⟨_, rfl⟩) s ⟨s.clusters, rfl⟩

/-- Every cluster of a set is changed once. -/
theorem State.cluster_forEach_modCluster (s : State) {l : List Nat} (hl : l.Nodup) (f : Cluster → Cluster) {n : Nat} (hn : n ∈ l) :
    (forEach l (fun s n => s.modCluster n f) s).cluster n = f (s.cluster n) :=
  forEach_once (fun t => t.cluster n) f _ hn hl (fun t => (t.cluster_modCluster n n f).trans (if_pos rfl))
    (fun t m _ hm => (t.cluster_modCluster m n f).trans (if_neg hm)) s

/-- What a slot load has done: the command has ended; a good image stands in every cluster of the set, and a bad one has
changed no cluster and is reported. -/
structure State.SlotLoaded (s : State) (id slot : Nat) (j : Job) (bad : Option Nat) (mask : Nat) (f : Cluster → Cluster) (t : State) :
    Prop where
  ended : t.ended id .done
  sameMem : s.sameMem t
  scales : t.scales = s.scales
  taken : bad = none → ∀ n ∈ bitList 64 mask, t.cluster n = f (s.cluster n)
  refused : ∀ i, bad = some i → t.clusters = s.clusters ∧
    ∃ j', t.job? id = some j' ∧ j'.flags.range = true ∧ j'.report = j.report ++ [offendingSection i slot]

theorem State.loadSlot_loaded {s : State} {id slot op : Nat} {j : Job} (hw : s.works id op j) (bad : Option Nat) (mask : Nat)
    (f : Cluster → Cluster) : s.SlotLoaded id slot j bad mask f ((s.begin' j).loadSlot id slot bad mask f) := by
  have hbegun := hw.job?_begin'
  cases bad with
  | none =>
    rw [State.loadSlot_taken]
    have hcluster := fun n => (s.begin' j).cluster_forEach_modCluster (n := n) (bitList_nodup 64 mask) f
    obtain ⟨x, hx⟩ := (s.begin' j).forEach_modCluster_eq (bitList 64 mask) f
    rw [hx] at hcluster ⊢
    exact ⟨⟨_, State.job?_finishJob .done hbegun rfl, rfl⟩, ⟨rfl, rfl⟩, rfl, fun _ n hn => hcluster n hn, fun _ h => nomatch h⟩
  | some i =>
    rw [State.loadSlot_refused]
    have hend := State.job?_finishJob .done (State.job?_modJob_some (Job.refuseSlot i slot) (fun _ => rfl) hbegun) rfl
    refine ⟨⟨_, hend, rfl⟩, ⟨rfl, rfl⟩, rfl, fun h => (nomatch h), fun k hk => ?_⟩
    obtain rfl := Option.some.inj hk
    exact ⟨rfl, _, hend, rfl, rfl⟩

/-! ## SCALE_READ -/

/-- Where record `k` of a SCALE_READ comes from: cluster, entry (03 R141). -/
def scaleRecordAt (clusters first count k : Nat) : Nat × Nat := (nth (bitList 64 clusters) (k / count) 0, first + k % count)

/-- The record that a SCALE_READ stores (03 R141). -/
def State.scaleRecord (s : State) (clusters first count k : Nat) : Nat × List Byte :=
  (k, leBytes 64 (s.scale (scaleRecordAt clusters first count k).1 (scaleRecordAt clusters first count k).2).toNat)

/-- An entry with its counters cleared (03 R156). -/
def clearedEntry (v : BitVec 512) : BitVec 512 := BitVec.ofNat 512 (v.toNat % 2 ^ 384)

theorem ofNat_low_low {w a : Nat} (h : a ≤ w) (v : BitVec w) :
    BitVec.ofNat w ((BitVec.ofNat w (v.toNat % 2 ^ a)).toNat % 2 ^ a) = BitVec.ofNat w (v.toNat % 2 ^ a) := by
  rw [BitVec.toNat_ofNat, Nat.mod_mod_of_dvd _ (Nat.pow_dvd_pow 2 h), Nat.mod_mod]

theorem clearedEntry_clearedEntry (v : BitVec 512) : clearedEntry (clearedEntry v) = clearedEntry v :=
  ofNat_low_low (by decide) v

/-- The counters of entries are cleared. -/
def State.clearEntries (s : State) (l : List Nat) (at' : Nat → Nat × Nat) : State :=
  forEach l (fun s k => s.modScale (at' k).1 (at' k).2 fun n => n % 2 ^ 384) s

theorem State.clearEntries_eq (s : State) (l : List Nat) (at' : Nat → Nat × Nat) :
    ∃ x, s.clearEntries l at' = { s with scales := x } :=
  forEach_keeps (fun t => ∃ x, t = { s with scales := x }) l _ (fun t n _ ht => by
    obtain ⟨x, rfl⟩ := ht
    exact ⟨_, rfl⟩) s ⟨s.scales, rfl⟩

/-- Every entry of the list is cleared, however often it stands there. -/
theorem State.scale_clearEntries (s : State) (l : List Nat) (at' : Nat → Nat × Nat) (k : Nat) (hk : k ∈ l) :
    (s.clearEntries l at').scale (at' k).1 (at' k).2 = clearedEntry (s.scale (at' k).1 (at' k).2) := by
  generalize hv : s.scale (at' k).1 (at' k).2 = v
  have hturn : ∀ (t : State) (b : Nat), (t.modScale (at' b).1 (at' b).2 fun n => n % 2 ^ 384).scale (at' k).1 (at' k).2 =
      if 4096 * (at' b).1 + (at' b).2 = 4096 * (at' k).1 + (at' k).2 then clearedEntry (t.scale (at' k).1 (at' k).2)
      else t.scale (at' k).1 (at' k).2 := fun t b => t.scale_modScale ..
  refine forEach_reaches (fun t => t.scale (at' k).1 (at' k).2 = v ∨ t.scale (at' k).1 (at' k).2 = clearedEntry v)
    (fun t => t.scale (at' k).1 (at' k).2 = clearedEntry v) l _ k hk (fun t b ht => ?_) (fun t ht => ?_) (fun t b ht => ?_) s (.inl hv)
  · rw [hturn]
    split
    · rcases ht with ht | ht
      · exact .inr (by rw [ht])
      · exact .inr (by rw [ht, clearedEntry_clearedEntry])
    · exact ht
  · rw [hturn, if_pos rfl]
    rcases ht with ht | ht
    · rw [ht]
    · rw [ht, clearedEntry_clearedEntry]
  · rw [hturn]
    split
    · rw [ht, clearedEntry_clearedEntry]
    · exact ht

theorem exec_scaleRead (id : Nat) (s : State) : exec (.scaleRead id) s = execScaleRead id s := rfl

/-- SCALE_READ of entries that can be read, to memory in service: the records are stored, and then the counters cleared. -/
theorem execScaleRead_reads {s : State} {id : Nat} {j : Job} {first count clusters : Nat} {clear : Bool} {d : TDesc}
    (hw : s.works id 0x0A j) (hbody : j.body = .scaleRead first count clear d clusters)
    (hgood : ∀ k ∈ d.covered, s.clusterOut (scaleRecordAt clusters first count k).1 = false ∧
      s.poisoned (scaleAddr (scaleRecordAt clusters first count k).1 (scaleRecordAt clusters first count k).2) = false)
    (hstore : s.storable d (d.covered.map (s.scaleRecord clusters first count))) :
    ∃ u, (s.begin' j).Stored (writeEach s.mem d (d.covered.map (s.scaleRecord clusters first count))) u ∧
      exec (.scaleRead id) s =
        .next ((if clear then u.clearEntries d.covered (scaleRecordAt clusters first count) else u).finishJob id .done) := by
  have hstore' : (s.begin' j).storable d (d.covered.map (s.scaleRecord clusters first count)) := hstore
  obtain ⟨u, hwrite, hu⟩ := State.writeElems_storable j hstore'
  refine ⟨u, hu, ?_⟩
  have hup : (d.covered.find? fun k => (s.begin' j).clusterOut (scaleRecordAt clusters first count k).1) = none :=
    List.find?_eq_none.mpr fun k hk h => Bool.false_ne_true ((hgood k hk).1.symm.trans h)
  have hread : (d.covered.find? fun k => ((s.begin' j).badEntry? (scaleRecordAt clusters first count k).1
      [(scaleRecordAt clusters first count k).2]).isSome) = none := by
    refine List.find?_eq_none.mpr fun k hk h => ?_
    have hpoisoned : (s.begin' j).poisoned (scaleAddr (scaleRecordAt clusters first count k).1
        (scaleRecordAt clusters first count k).2) = false := (hgood k hk).2
    simp [State.badEntry?, hpoisoned] at h
  have hwrite' : (s.begin' j).writeElems j d (d.covered.map ((s.begin' j).scaleRecord clusters first count)) = (u, none) := hwrite
  unfold State.scaleRecord at hwrite'
  unfold scaleRecordAt at hup hread hwrite'
  rw [exec_scaleRead, execScaleRead, jobRun_works _ hw]
  simp only [hbody, hup, hread, hwrite', List.filter_true]
  rfl

/-! ## The statement -/

/-- Settles O18: an image reaches each entry of each named cluster once, or is refused and counted; a slot is replaced in every cluster of
the set or in none; and records are stored before the counters of their entries are cleared. -/
theorem scaleEntriesAndSlotsLoadAndRead : Obligations.ScaleEntriesAndSlotsLoadAndRead := by
  unfold Obligations.ScaleEntriesAndSlotsLoadAndRead
  refine ⟨⟨?_, ?_⟩, ?_⟩
  · intro s id j slot first count wmask clusters d got hw hbody hgot hfirst
    refine ⟨_, execScaleLoad_entries hw hbody hgot, ?_⟩
    have hjob := ((s.begin' j).job?_loadEntries wmask first (bitList 64 clusters) d.covered (fun i => ofLe (got i)) id).trans
      hw.job?_begin'
    obtain ⟨k, hk, hphase, hrange⟩ := State.job?_refuseEntries (refusedCount wmask d.covered fun i => ofLe (got i)) hjob
    have hend := State.job?_finishJob .done hk hphase
    refine ⟨⟨_, hend, rfl⟩, (State.refuseEntries_mem ..).trans (State.loadEntries_mem ..),
      fun hpart => (State.refuseEntries_poison ..).trans (State.loadEntries_poison _ _ _ _ _ _ hpart),
      fun b hb hgone => ?_, fun n hn i hi => ?_, fun n e he hout => ?_, fun j' hj' => ?_⟩
    · rw [State.finishJob_poison, State.refuseEntries_poison] at hgone
      exact (s.begin' j).loadEntries_cleans _ _ _ _ _ b hb hgone
    · exact (State.scale_refuseEntries ..).trans
        (State.scale_loadEntries _ _ _ _ _ _ hfirst (bitList_nodup 64 clusters) d.covered_nodup n i hn hi)
    · exact (State.scale_refuseEntries ..).trans (State.scale_loadEntries_other _ _ _ _ _ _ hfirst n e he hout)
    · rw [← Option.some.inj (hend.symm.trans hj'), ← refusedCount_ne_zero]
      exact hrange
  · intro s id j target slot first count wmask clusters d got hw hbody hgot htarget
    rcases htarget with rfl | rfl
    · refine ⟨_, execScaleLoad_codebook hw hbody hgot, ?_⟩
      obtain ⟨hend, hmem, hscales, htaken, hrefused⟩ := State.loadSlot_loaded (slot := slot) hw
        (firstNotRising 0 (d.covered.map fun i => sext (ofLe (got i)) 16)) clusters
        (Cluster.putCodebook slot (d.covered.map fun i => sext (ofLe (got i)) 16))
      refine ⟨hend, hmem, hscales, fun _ hgood n hn => ?_, fun h => absurd h (by decide), fun x hx => ?_⟩
      · rw [htaken hgood n hn]
        exact ⟨mem_slotReplaced .., rfl⟩
      · rcases hx with ⟨-, hx⟩ | ⟨h, -⟩
        · exact hrefused x hx
        · exact absurd h (by decide)
    · refine ⟨_, execScaleLoad_table hw hbody hgot, ?_⟩
      obtain ⟨hend, hmem, hscales, htaken, hrefused⟩ := State.loadSlot_loaded (slot := slot) hw
        (firstBadTable 0 (d.covered.map fun i => parseActEntry (got i))) clusters
        (Cluster.putTable slot (d.covered.map fun i => parseActEntry (got i)))
      refine ⟨hend, hmem, hscales, fun h => absurd h (by decide), fun _ hgood n hn => ?_, fun x hx => ?_⟩
      · rw [htaken hgood n hn]
        exact ⟨mem_slotReplaced .., rfl⟩
      · rcases hx with ⟨h, -⟩ | ⟨-, hx⟩
        · exact absurd h (by decide)
        · exact hrefused x hx
  · intro s id j first count clusters clear d hw hbody hgood hstore
    obtain ⟨u, hu, hexec⟩ := execScaleRead_reads hw hbody hgood hstore
    refine ⟨_, hexec, ?_⟩
    have hjob := State.job?_finishJob .done hw.job?_begin' rfl
    have hcleared := u.scale_clearEntries d.covered (scaleRecordAt clusters first count)
    obtain ⟨x, hx⟩ := u.clearEntries_eq d.covered (scaleRecordAt clusters first count)
    obtain ⟨p, l, rfl⟩ := hu
    rw [hx] at hcleared ⊢
    cases clear with
    | false => exact ⟨⟨_, hjob, rfl⟩, rfl, fun _ => rfl, fun h => absurd h (by decide), rfl⟩
    | true => exact ⟨⟨_, hjob, rfl⟩, rfl, fun h => absurd h (by decide), fun _ k hk => hcleared k hk, rfl⟩

end Sys2Proof.Machine
end

section
/-! PROOFS. Stops of a stage and TILE_DRAIN (04 R203, R204, R209, R228; 03 R145 to R148; 08 R432, R436), and the statement
`TilesDrainThroughTheEpilogue`. -/

namespace Sys2Proof.Machine

/-! ## Stops -/

/-- The bytes of memory and the commands: what no entry of the error log changes. -/
def State.bytesAndJobs (s : State) : Sparse Byte × List Job := (s.mem, s.jobs)

theorem State.logError_bytesAndJobs (s : State) (code cls kind unit aux detail : Nat) :
    (s.logError code cls kind unit aux detail).bytesAndJobs = s.bytesAndJobs := by
  rw [State.logError_eq]
  rfl

theorem State.foundError_bytesAndJobs (s : State) (x : Nat × Bool) : (s.foundError x).bytesAndJobs = s.bytesAndJobs := by
  unfold State.foundError
  extract_lets a u t
  split
  · exact State.logError_bytesAndJobs ..
  · split <;> rfl

theorem State.logUnreadable_bytesAndJobs (s : State) (a : Nat) : (s.logUnreadable a).bytesAndJobs = s.bytesAndJobs := by
  unfold State.logUnreadable
  split
  · exact State.logError_bytesAndJobs ..
  · exact State.logError_bytesAndJobs ..

theorem State.logXlat_bytesAndJobs (s : State) (session a : Nat) : (s.logXlat session a).bytesAndJobs = s.bytesAndJobs := by
  unfold State.logXlat
  split
  · exact State.logUnreadable_bytesAndJobs ..
  · rfl

/-- A command that has ended with a fault: its status, its offset, its locus (11 R543, R763). -/
def Job.fault (l : Locus) (x : Nat × Status × Nat) (c : Job) : Job :=
  { (c.finish x.2.1) with faultOfs := x.1, report := c.report ++ [faultLocus l.role l.stage l.entry (pageShown x.2.1 x.2.2)] }

/-- A fault of a command logs what it logs, and changes the command. -/
theorem State.faultJob_eq (s : State) (j : Job) (l : Locus) (x : Nat × Status × Nat) :
    ∃ u : State, u.bytesAndJobs = s.bytesAndJobs ∧ s.faultJob j l x = u.modJob j.id (Job.fault l x) := by
  unfold State.faultJob
  extract_lets u
  refine ⟨u, ?_, rfl⟩
  exact ite_both (P := fun t : State => t.bytesAndJobs = s.bytesAndJobs) (State.logXlat_bytesAndJobs ..)
    (ite_both (P := fun t : State => t.bytesAndJobs = s.bytesAndJobs) (State.foundError_bytesAndJobs ..) rfl)

theorem State.freeBufs_bytesAndJobs (s : State) (id : Nat) : (s.freeBufs id).bytesAndJobs = s.bytesAndJobs := by
  unfold State.freeBufs
  generalize (List.range 64).foldl _ s.clusters = clusters
  rfl

/-- A stop of a stage leaves the bytes of memory, and ends its command with the stop's status, place and stage (08 R420). -/
theorem State.faultStage_ends {s : State} {j k : Job} (role : Nat) (x : Nat × Status × Nat) (hk : s.job? j.id = some k) :
    (s.faultStage j role x).mem = s.mem ∧
    (s.faultStage j role x).job? j.id = some { k.fault { role := role, stage := j.run.stage } x with faultStage := j.run.stage } := by
  obtain ⟨u, hu, hfault⟩ := s.faultJob_eq j { role := role, stage := j.run.stage } x
  have hmem : u.mem = s.mem := congrArg Prod.fst hu
  have hjob : u.job? j.id = some k := (State.job?_congr (congrArg Prod.snd hu) j.id).trans hk
  unfold State.faultStage
  rw [hfault]
  have hfaulted := State.job?_modJob_some (Job.fault { role := role, stage := j.run.stage } x) (fun c => c.finish_id x.2.1) hjob
  have hstaged := State.job?_modJob_some (fun c => { c with faultStage := j.run.stage }) (fun _ => rfl) hfaulted
  have hfreed := State.freeBufs_bytesAndJobs ((u.modJob j.id (Job.fault { role := role, stage := j.run.stage } x)).modJob j.id
    fun c => { c with faultStage := j.run.stage }) j.id
  exact ⟨(congrArg Prod.fst hfreed).trans hmem, (State.job?_congr (congrArg Prod.snd hfreed) j.id).trans hstaged⟩

/-! ## TILE_DRAIN -/

/-- A command has a stage under way only while it runs. -/
theorem Job.running_of_stage? {j : Job} {st : Stage} (h : j.stage? = some st) : j.phase = .running := by
  unfold Job.stage? at h
  split at h
  · next hrun =>
    simp only [Bool.and_eq_true, beq_iff_eq] at hrun
    exact hrun.1.1
  · exact nomatch h

section
variable {s : State} {id e : Nat} {j : Job} {st : Stage} {tl : TileRun}

/-- TILE_DRAIN of a tile whose slots and entries can be read. -/
theorem execTileDrain_drains {elts : List (List Byte)} (hj : s.job? id = some j) (hst : j.stage? = some st) (hdrain : st.drain = true)
    (htl : j.run.drainOn st e = some tl) (hgood : s.drainBad j st tl = none)
    (helts : (st.eltDesc = none ∧ elts = []) ∨ ∃ d, st.eltDesc = some d ∧
      s.readAll j (fun i => (d.addr i, d.size 0)) ((tl.elems st).map (·.1)) = .done elts none) :
    exec (.tileDrain id e) s = .next (s.drainTile j st tl (s.drainYs j st tl (tl.elems st) elts)) := by
  change execTileDrain id e s = _
  unfold execTileDrain
  simp only [hj, hst, hdrain, if_true, htl, hgood]
  rcases helts with ⟨hnone, rfl⟩ | ⟨d, hsome, hread⟩
  · rw [hnone]
    rfl
  · simp only [hsome, hread]
    rfl

/-- TILE_DRAIN of a tile of which something cannot be read: the stage stops there. -/
theorem execTileDrain_stops {x : Nat × Nat × Nat} (hj : s.job? id = some j) (hst : j.stage? = some st) (hdrain : st.drain = true)
    (htl : j.run.drainOn st e = some tl) (hbad : s.drainBad j st tl = some x) :
    ∃ u : State, u.bytesAndJobs = s.bytesAndJobs ∧
      exec (.tileDrain id e) s = .next (u.faultStage j x.1 (x.2.1, .dataUncorrectable, x.2.2)) := by
  change ∃ u : State, _ ∧ execTileDrain id e s = _
  unfold execTileDrain
  simp only [hj, hst, hdrain, if_true, htl, hbad]
  refine ⟨_, ?_, rfl⟩
  exact ite_both (P := fun t : State => t.bytesAndJobs = s.bytesAndJobs) (State.logError_bytesAndJobs ..) rfl

end

/-! ## Closing a tile -/

/-- The tiles of a command's run and the elements that have drained. -/
def Job.tileView (j : Job) : List TileRun × Nat := (j.run.tiles, j.run.drained)

theorem Job.finish_tileView (j : Job) (st : Status) : (j.finish st).tileView = j.tileView := by
  unfold Job.finish
  split <;> rfl

theorem State.freeStage_jobs (s : State) (j : Job) : (s.freeStage j).jobs = s.jobs := by
  unfold State.freeStage
  extract_lets gone
  generalize (List.range 64).foldl _ s.clusters = clusters
  rfl

theorem State.stageSettled_tileView (s : State) (j : Job) (st : Stage) (id : Nat) :
    ((s.stageSettled j st).job? id).map Job.tileView = (s.job? id).map Job.tileView := by
  unfold State.stageSettled
  extract_lets t
  have hjobs : t.jobs = s.jobs := State.freeStage_jobs ..
  have hmod : ∀ f : Job → Job, (∀ c, (f c).id = c.id) → (∀ c, (f c).tileView = c.tileView) →
      ((t.modJob j.id f).job? id).map Job.tileView = (s.job? id).map Job.tileView :=
    fun f hid hf => (t.map_job?_modJob Job.tileView j.id id f hid hf).trans (congrArg _ (State.job?_congr hjobs id))
  split
  · exact hmod _ (fun _ => rfl) fun _ => rfl
  · split
    · exact hmod _ (fun _ => rfl) fun _ => rfl
    · exact hmod _ (fun c => c.finish_id .done) fun c => c.finish_tileView .done

/-- Tiles of a run of which one has been closed. -/
def closeIn (t : TileRun) (l : List TileRun) : List TileRun :=
  mapIf (fun x => x.engine == t.engine && x.u == t.u && x.part == t.part && x.chans == t.chans && !x.closed)
    (fun x => { x with closed := true }) l

theorem closeIn_closes {t : TileRun} {l : List TileRun} (hopen : t.closed = false) (ht : t ∈ l) :
    t ∉ closeIn t l ∧ { t with closed := true } ∈ closeIn t l := by
  unfold closeIn mapIf
  constructor
  · intro hmem
    obtain ⟨x, -, hx⟩ := List.mem_map.mp hmem
    split at hx
    · rw [← hx] at hopen
      exact Bool.noConfusion hopen
    · next hno =>
      subst hx
      exact hno (by simp [hopen])
  · exact List.mem_map.mpr ⟨t, ht, if_pos (by simp [hopen])⟩

/-- A tile of a run is closed, and its elements are counted when its part is the last on this device. -/
theorem State.closeTile_tileView (s : State) (id : Nat) (st : Stage) (t : TileRun) :
    ((s.closeTile id st t).job? id).map Job.tileView = (s.job? id).map fun j => (closeIn t j.run.tiles,
      j.run.drained + if t.part = st.finalPart then (t.chans.filter Option.isSome).length * st.vecsIn t.u else 0) := by
  unfold State.closeTile
  extract_lets n u
  have hu : (u.job? id).map Job.tileView = (s.job? id).map fun j => (closeIn t j.run.tiles, j.run.drained + n) :=
    s.map_job?_modJob_self Job.tileView id _ fun _ => rfl
  refine Eq.trans ?_ hu
  cases hj : u.job? id with
  | none => exact congrArg _ hj
  | some j =>
    dsimp only
    rw [← hj]
    split
    · exact u.stageSettled_tileView j st id
    · rfl

/-- Closing a tile works on the commands, the engines and the clusters; of its own command it leaves the flags. -/
theorem State.closeTile_closes {s : State} {id : Nat} {k : Job} (st : Stage) (t : TileRun) (hk : s.job? id = some k) :
    (s.closeTile id st t).mem = s.mem ∧ (s.closeTile id st t).acc = s.acc ∧ (s.closeTile id st t).scales = s.scales ∧
    ∃ k', (s.closeTile id st t).job? id = some k' ∧ k'.flags.saturation = k.flags.saturation ∧
      k'.run.tiles = closeIn t k.run.tiles ∧
      k'.run.drained = k.run.drained + if t.part = st.finalPart then (t.chans.filter Option.isSome).length * st.vecsIn t.u else 0 := by
  have hsame := State.SameSums.closeTile 0 id id s st t
  have hmem := (State.sameMem_of_offPath hsame.offPath).1
  have hscales := congrArg State.scales hsame.offPath
  obtain ⟨k', hk', htiles⟩ := Option.map_eq_some_iff.mp ((s.closeTile_tileView id st t).trans (congrArg _ hk))
  have hflags := hsame.job
  rw [hk', hk] at hflags
  exact ⟨hmem, hsame.acc, hscales, k', hk', congrArg Prod.fst (Option.some.inj hflags), congrArg Prod.fst htiles,
    congrArg Prod.snd htiles⟩

/-! ## Stages 6 to 8 -/

/-- With neither MX outputs nor winners a step ends without a further store. -/
theorem State.stepEnd_plain (s : State) (id : Nat) {st : Stage} (hmx : st.out.isMx = false) (harg : st.arg = 0) :
    s.stepEnd id st = s := by
  unfold State.stepEnd State.writeWinners
  cases hj : s.job? id with
  | none => rfl
  | some j => simp [hmx, harg, hj]

/-- A command of which a tile's values have passed stages 6 to 8 in a main run. -/
def Job.drainedTile (st : Stage) (ys : List DrainY) (stale noTable : Bool) (stats : Job → Sparse ChanStat) (c : Job) : Job :=
  { c with
    flags := { c.flags with saturation := c.flags.saturation || ys.any fun d => d.big, staleScale := c.flags.staleScale || stale,
                            range := c.flags.range || noTable }
    run := { c.run with winners := winAll st c.run.winners ys, stats := stats c } }

/-- The codes that a main run stores of a tile's values (03 R146). -/
def State.drainedElems (s : State) (st : Stage) (c : Nat) (ys : List DrainY) : List (Nat × List Byte) :=
  ys.map fun y => (y.elem, leBytes (2 ^ st.out.esize) (s.convElem st .ne c y).code)

/-- A tile of a main run whose converted values can be stored: they are, and the tile is closed. -/
theorem State.drainTile_main {s u : State} {j : Job} {st : Stage} (t : TileRun) {ys : List DrainY} (hrerun : j.run.rerun = false)
    (hmx : st.out.isMx = false) (harg : st.arg = 0)
    (hstore : s.storeElems j st.outDesc (s.drainedElems st (t.engine / 4) ys) = (u, none)) :
    ∃ stale noTable stats, s.drainTile j st t ys =
      (u.modJob j.id (Job.drainedTile st ys stale noTable stats)).closeTile j.id st t := by
  unfold State.drainTile
  unfold State.drainedElems at hstore
  simp only [hrerun, hmx, pathRnd, Bool.or_self, Bool.false_eq_true, if_false, List.map_map, Function.comp_def, hstore,
    State.stepEnd_plain _ _ hmx harg]
  exact ⟨_, _, _, rfl⟩

/-! ## The statement -/

/-- Settles O28: a tile that can be read passes the epilogue, one that cannot stops its stage; a main run stores the converted values from
RESUME on, and closes and counts the tile. -/
theorem tilesDrainThroughTheEpilogue : Obligations.TilesDrainThroughTheEpilogue := by
  unfold Obligations.TilesDrainThroughTheEpilogue
  refine ⟨?_, ?_, ?_⟩
  · exact fun s id e j st tl elts hj hst hdrain htl hgood helts => execTileDrain_drains hj hst hdrain htl hgood helts
  · intro s id e j st tl x hj hst hdrain htl hbad
    obtain ⟨u, hu, hexec⟩ := execTileDrain_stops hj hst hdrain htl hbad
    refine ⟨_, hexec, ?_⟩
    obtain rfl := State.job?_id hj
    have hjob : u.job? j.id = some j := (State.job?_congr (congrArg Prod.snd hu) j.id).trans hj
    obtain ⟨hmem, hended⟩ := State.faultStage_ends x.1 (x.2.1, .dataUncorrectable, x.2.2) hjob
    refine ⟨hmem.trans (congrArg Prod.fst hu), _, hended, ?_, rfl, rfl⟩
    exact congrArg Job.phase (Job.finish_running _ (Job.running_of_stage? hst))
  · intro s id j st tl d ys l hj hrun htl hopen harg hrerun hmx hd hl hstorable
    obtain rfl := State.job?_id hj
    have hstore : s.storableOpt st.outDesc l := fun x hx => by
      rw [hd] at hx
      exact Option.some.inj hx ▸ hstorable
    obtain ⟨u, hwrite, hu⟩ := State.storeElems_storable j hstore
    rw [hl] at hwrite
    obtain ⟨stale, noTable, stats, htile⟩ := State.drainTile_main tl hrerun hmx harg hwrite
    have hmem : u.mem = writeEach s.mem d (l.filter fun x => decide (d.resume ≤ x.1)) := by
      rw [hu.mem, hd]
      rfl
    have hdrained := State.job?_modJob_some (Job.drainedTile st ys stale noTable stats) (fun _ => rfl)
      ((State.job?_congr hu.jobs j.id).trans hj)
    obtain ⟨hmem', hacc, hscales, k', hk', hflag, htiles, hcount⟩ := State.closeTile_closes st tl hdrained
    rw [htile]
    refine ⟨hmem'.trans hmem, hacc.trans hu.acc, hscales.trans hu.scales, k', hk', ?_, ?_, hflag, hcount⟩
    · rw [htiles]
      exact (closeIn_closes hopen htl).1
    · rw [htiles]
      exact (closeIn_closes hopen htl).2

end Sys2Proof.Machine
end

section
/-! PROOFS. STEP_DECISION and RERUN_DRAIN (03 R149, R157 to R159, R164 to R170), and the statement `StepsAreDecidedAndRerun`. -/

namespace Sys2Proof.Machine

/-! ## Entries -/

/-- `t` is the state but for its scale entries. -/
def State.Rescaled (s t : State) : Prop := ∃ x, t = { s with scales := x }

section
variable {s t : State}

theorem State.Rescaled.trans {u : State} (h : s.Rescaled t) (k : t.Rescaled u) : s.Rescaled u := by
  obtain ⟨x, rfl⟩ := h
  obtain ⟨y, rfl⟩ := k
  exact ⟨y, rfl⟩
theorem State.Rescaled.sameMem (h : s.Rescaled t) : s.sameMem t := by
  obtain ⟨x, rfl⟩ := h
  exact ⟨rfl, rfl⟩
theorem State.Rescaled.acc (h : s.Rescaled t) : t.acc = s.acc := by
  obtain ⟨x, rfl⟩ := h
  rfl
theorem State.Rescaled.frame (h : s.Rescaled t) : t.frame = s.frame := by
  obtain ⟨x, rfl⟩ := h
  rfl
theorem State.Rescaled.jobs (h : s.Rescaled t) : t.jobs = s.jobs := by
  obtain ⟨x, rfl⟩ := h
  rfl

end

/-- An update of output entries changes scale entries alone. -/
theorem State.updateEntries_rescaled (s : State) (mask : Nat) (st : Stage) (stats : Sparse ChanStat)
    (f : ChanStat → Nat → Nat × Bool) : ∃ t b, s.updateEntries mask st stats f = (t, b) ∧ s.Rescaled t := by
  refine ⟨(s.updateEntries mask st stats f).1, (s.updateEntries mask st stats f).2, rfl, ?_⟩
  unfold State.updateEntries
  refine List.foldlRecOn (motive := fun acc : State × Bool => s.Rescaled acc.1) _ _ ⟨s.scales, rfl⟩ fun acc hacc c _ => ?_
  exact List.foldlRecOn (motive := fun acc : State × Bool => s.Rescaled acc.1) _ _ hacc fun acc hacc y _ => hacc.trans ⟨_, rfl⟩

/-! ## The end of a step -/

/-- A command whose step is over: with a further stage to come its hand-over frame is fixed, and otherwise its work has ended (03 R165;
08 R417). -/
def Job.stepOver (j : Job) (handover : Nat) (k : Job) : Job :=
  if j.run.stage + 1 < j.body.stageList.length then { k with handover := some handover } else { k with phase := .finished .done }

/-- A step that ends once its command has become `f` of it: memory and the accumulator files stay, and the command is that of a step that
is over. -/
theorem State.stepOver_ends {s : State} {j : Job} (f : Job → Job) (handover : Nat) (hid : ∀ c, (f c).id = c.id)
    (hj : s.job? j.id = some j) (hrun : (f j).phase = .running) : s.sameMem ((s.modJob j.id f).stepOver j handover) ∧
      ((s.modJob j.id f).stepOver j handover).acc = s.acc ∧
      ((s.modJob j.id f).stepOver j handover).job? j.id = some (j.stepOver handover (f j)) := by
  have hk := State.job?_modJob_some f hid hj
  unfold State.stepOver Job.stepOver
  split
  · exact ⟨⟨rfl, rfl⟩, rfl, State.job?_modJob_some _ (fun _ => rfl) hk⟩
  · exact ⟨⟨rfl, rfl⟩, rfl, State.job?_finishJob .done hk hrun⟩

theorem Job.stepOver_next {j : Job} (handover : Nat) (k : Job) (h : j.run.stage + 1 < j.body.stageList.length) :
    j.stepOver handover k = { k with handover := some handover } := if_pos h

theorem Job.stepOver_last {j : Job} (handover : Nat) (k : Job) (h : j.body.stageList.length ≤ j.run.stage + 1) :
    j.stepOver handover k = { k with phase := .finished .done } := if_neg (Nat.not_lt.mpr h)

/-- What the end of a step leaves of its command. -/
theorem Job.stepOver_keeps (j : Job) (handover : Nat) (k : Job) : (j.stepOver handover k).reran = k.reran ∧
    (j.stepOver handover k).placed = k.placed ∧ (j.stepOver handover k).flags = k.flags ∧ (j.stepOver handover k).run = k.run := by
  unfold Job.stepOver
  split <;> exact ⟨rfl, rfl, rfl, rfl⟩

/-! ## STEP_DECISION -/

/-- A re-run is reserved for the step and a threshold is exceeded (03 R158). -/
def Job.triggers (j : Job) (st : Stage) : Bool :=
  let x := overCounts st j.run.stats
  st.rerunReserved j.hdr && (x.1 != 0 || x.2.1 != 0 || x.2.2 != 0)

theorem Job.triggers_iff (j : Job) (st : Stage) :
    j.triggers st = true ↔ st.rerunReserved j.hdr = true ∧ overCounts st j.run.stats ≠ (0, 0, 0) := by
  unfold Job.triggers
  generalize overCounts st j.run.stats = x
  obtain ⟨a, b, c⟩ := x
  simp [or_iff_not_imp_left]

/-- A command whose re-run is triggered: it begins at the hand-over frame, and forms and receives its sums anew (03 R159). -/
def Job.rerunFrom (frame : Nat) (c : Job) : Job :=
  { c with handover := some frame, reran := true, got := [], acked := [],
           run := { stage := c.run.stage, rerun := true, saved := c.run.saved, ahead := c.run.ahead } }

/-- A command whose step needs no re-run: the flags of R157 are set, and the frames of the reserved re-run given back (03 R166). -/
def Job.settleStep (stage horizon : Nat) (x : Nat × Nat × Nat) (clamped : Bool) (stats : Sparse ChanStat) (c : Job) : Job :=
  { (c.dropRerun stage horizon) with
    flags := { (c.flags.exceeded x) with range := c.flags.range || clamped }
    stageStats := c.stageStats ++ (if (c.flags.exceeded x).any then [statsRow stage false x stats] else []) }

/-- The untriggered re-run of a stage is cut off at the committed horizon. -/
theorem Job.dropRerun_placed {c : Job} {stage horizon : Nat} {p : Placed} (hp : p ∈ (c.dropRerun stage horizon).placed)
    (hrerun : p.rerun = true) (hstage : p.phase.stage = stage) : p.cut = some horizon := by
  obtain ⟨q, -, hq⟩ := List.mem_map.mp hp
  split at hq
  · rw [← hq]
  · next hno =>
    subst hq
    exact absurd (by simp [hrerun, hstage]) hno

/-- The step is ready to be decided: its last tile drained in an earlier frame, and the stage's last part is on this device. -/
structure State.StepDue (s : State) (id dF : Nat) (j : Job) (st : Stage) : Prop where
  job : s.job? id = some j
  stage : j.stage? = some st
  drained : j.run.drainFrame = some dF
  mainRun : j.run.rerun = false
  handover : j.handover = none
  drains : st.drain = true
  frame : dF + 1 ≤ s.frame.counter
  lastHere : st.finalPart = st.lastPart

section
variable {s : State} {id dF : Nat} {j : Job} {st : Stage}

/-- A due step is decided by its thresholds: with a re-run reserved and a threshold exceeded, the re-run begins two frames after the
drain; otherwise the flags are set and the step is over. -/
theorem State.StepDue.decides (h : s.StepDue id dF j st) : ∃ t u clamped frame, s.Rescaled t ∧ s.Rescaled u ∧
    dF + 2 ≤ frame ∧ exec (.stepDecision id) s = .next (if j.triggers st then t.modJob id (Job.rerunFrom (dF + 2))
      else (u.modJob id (Job.settleStep j.run.stage s.frame.committed (overCounts st j.run.stats) clamped j.run.stats)).stepOver j
        frame) := by
  obtain ⟨t, b, ht, hscaled⟩ := s.updateEntries_rescaled j.mask st j.run.stats fun c n => (addCounts c n, false)
  obtain ⟨u, clamped, hu, hrescaled⟩ := t.updateEntries_rescaled j.mask st j.run.stats (stepEntry st false)
  refine ⟨t, u, clamped, dF + 2 + if st.rerunReserved j.hdr then j.rerunFrames j.run.stage else 0, hscaled,
    hscaled.trans hrescaled, Nat.le_add_right _ _, ?_⟩
  change execStepDecision id s = _
  unfold execStepDecision
  simp only [h.job, h.stage, h.drained]
  rw [if_neg (by simp [h.mainRun, h.handover, h.drains, h.lastHere, Nat.lt_of_succ_le h.frame]), ← (hscaled.trans hrescaled).frame]
  simp only [ht, hu]
  exact (apply_ite Host.Outcome.next _ _ _).symm

/-! ## RERUN_DRAIN -/

/-- A command whose re-run has ended: the flags of R157, and the re-run's row of the stage statistics (03 R170; 11 R543). -/
def Job.settleRerun (stage : Nat) (x : Nat × Nat × Nat) (clamped : Bool) (stats : Sparse ChanStat) (c : Job) : Job :=
  { c with
    flags := { (c.flags.exceeded x) with range := c.flags.range || clamped }
    run := { stage := c.run.stage, ahead := c.run.ahead }
    stageStats := c.stageStats ++ [statsRow stage true x stats] }

/-- The statistics of a re-run with the counts of its conversions by the entries that it has set (03 R155, R170). -/
def State.rerunStats (u : State) (st : Stage) (j : Job) : Sparse ChanStat :=
  ((rerunElems j).map fun k => (k.drainY st, k.cluster, u.convElem st .na k.cluster (k.drainY st))).foldl
    (fun m x => m.modify {} x.1.ch fun k => k.count (u.scaleOf st x.2.1 x.1.ch) x.1.big x.2.2 none) j.run.stats

@[simp] theorem KeptY.drainY_elem (k : KeptY) (st : Stage) : (k.drainY st).elem = k.elem := rfl

theorem State.writeWinners_plain (s : State) (j : Job) (harg : st.arg = 0) : s.writeWinners j st = s := if_pos harg

/-- A re-run whose outputs can be stored ends its step: the BF16 buffer and the outputs are stored, with the entries that it has set. -/
theorem execRerunDrain_ends {u : State} (hj : s.job? id = some j) (hst : j.stage? = some st) (hdrained : j.run.drainFrame = some dF)
    (hrerun : j.run.rerun = true) (harg : st.arg = 0)
    (hu : u = (s.updateEntries j.mask st j.run.stats (stepEntry st true)).1) (hbuf : s.storableOpt st.rerunBuf (rerunBf16 j))
    (hout : s.storableOpt st.outDesc (u.rerunOut st j)) :
    ∃ v w clamped frame, s.Stored (storeOpt (storeOpt s.mem st.rerunBuf (rerunBf16 j)) st.outDesc (u.rerunOut st j)) v ∧
      v.Rescaled w ∧ exec (.rerunDrain id) s = .next ((w.modJob id
        (Job.settleRerun j.run.stage (overCounts st (u.rerunStats st j)) clamped (u.rerunStats st j))).stepOver j frame) := by
  obtain ⟨b, hb, hbstored⟩ := State.storeElems_storable j hbuf
  obtain ⟨v, hv, hvstored⟩ := State.storeElems_storable j (hbstored.storableOpt hout)
  rw [hbstored.mem] at hvstored
  have hstored := hbstored.trans hvstored
  obtain rfl := State.job?_id hj
  have hjob : v.job? j.id = some j := (State.job?_congr hstored.jobs j.id).trans hj
  obtain ⟨new, clamped, hnew, -⟩ := s.updateEntries_rescaled j.mask st j.run.stats (stepEntry st true)
  obtain ⟨t, c₁, ht, hscaled⟩ := v.updateEntries_rescaled j.mask st j.run.stats (stepEntry st true)
  obtain ⟨w, c₂, hw, hcounted⟩ := t.updateEntries_rescaled j.mask st (u.rerunStats st j) fun c n => (addCounts c n, false)
  refine ⟨v, w, clamped, j.handover.getD w.frame.counter + j.rerunFrames j.run.stage, hstored, hscaled.trans hcounted, ?_⟩
  rw [hnew] at hu
  subst hu
  change execRerunDrain j.id s = _
  unfold execRerunDrain
  unfold State.rerunOut rerunElems at hv
  unfold rerunBf16 rerunElems at hb
  unfold State.rerunStats rerunElems at hw
  simp only [hj, hst, hdrained, hrerun, Bool.not_true, Bool.false_eq_true, if_false, hnew, List.map_map, Function.comp_def, hb, hv,
    KeptY.drainY_elem, State.writeWinners_plain _ _ harg, hjob, Job.running_of_stage? hst, beq_self_eq_true, ht, hw]
  rfl

end

/-! ## The statement -/

/-- Settles O29: a due step re-runs or is over, by its thresholds; a re-run's end stores what it computed and is the step's end. -/
theorem stepsAreDecidedAndRerun : Obligations.StepsAreDecidedAndRerun := by
  unfold Obligations.StepsAreDecidedAndRerun
  refine ⟨?_, ?_⟩
  · intro s id dF j st x hj hst hdrained hmain hhandover hdrain hframe hlast hx
    subst hx
    obtain ⟨t, u, clamped, frame, ht, hu, hframe', hexec⟩ :=
      State.StepDue.decides ⟨hj, hst, hdrained, hmain, hhandover, hdrain, hframe, hlast⟩
    obtain rfl := State.job?_id hj
    have hrun := Job.running_of_stage? hst
    refine ⟨_, hexec, ?_⟩
    split
    · next htrigger =>
      obtain ⟨hreserved, hover⟩ := (j.triggers_iff st).mp htrigger
      have hjob := State.job?_modJob_some (Job.rerunFrom (dF + 2)) (fun _ => rfl) ((State.job?_congr ht.jobs j.id).trans hj)
      refine ⟨ht.sameMem, ht.acc, _, hjob, fun _ _ => ⟨hrun, rfl, rfl, rfl, rfl, rfl, rfl, rfl⟩, fun hno => ?_⟩
      rcases hno with hno | hno
      · exact absurd (hno.symm.trans hreserved) (by decide)
      · exact absurd hno hover
    · next htrigger =>
      obtain ⟨hmem, hacc, hjob⟩ := State.stepOver_ends
        (Job.settleStep j.run.stage s.frame.committed (overCounts st j.run.stats) clamped j.run.stats) frame (fun _ => rfl)
        ((State.job?_congr hu.jobs j.id).trans hj) hrun
      obtain ⟨hreran, hplaced, hflags, -⟩ := j.stepOver_keeps frame
        (j.settleStep j.run.stage s.frame.committed (overCounts st j.run.stats) clamped j.run.stats)
      refine ⟨⟨hmem.1.trans hu.sameMem.1, hmem.2.trans hu.sameMem.2⟩, hacc.trans hu.acc, _, hjob,
        fun hreserved hover => absurd ((j.triggers_iff st).mpr ⟨hreserved, hover⟩) htrigger, fun _ => ?_⟩
      refine ⟨hreran, fun p hp hrerun hstage => ?_, congrArg Flags.saturation hflags, congrArg Flags.staleScale hflags,
        congrArg Flags.mseHigh hflags, fun hnext => ?_, fun hdone => ?_⟩
      · rw [hplaced] at hp
        exact Job.dropRerun_placed hp hrerun hstage
      · rw [Job.stepOver_next _ _ hnext]
        exact ⟨hrun, frame, rfl, hframe'⟩
      · rw [Job.stepOver_last _ _ hdone]
  · intro s u id dF j st hj hst hdrained hrerun harg hu hbuf hout
    obtain ⟨v, w, clamped, frame, hv, hw, hexec⟩ := execRerunDrain_ends hj hst hdrained hrerun harg hu hbuf hout
    obtain rfl := State.job?_id hj
    have hrun := Job.running_of_stage? hst
    obtain ⟨hmem, hacc, hjob⟩ := State.stepOver_ends
      (Job.settleRerun j.run.stage (overCounts st (u.rerunStats st j)) clamped (u.rerunStats st j)) frame (fun _ => rfl)
      ((State.job?_congr (hw.jobs.trans hv.jobs) j.id).trans hj) hrun
    obtain ⟨-, -, -, hover⟩ := j.stepOver_keeps frame
      (j.settleRerun j.run.stage (overCounts st (u.rerunStats st j)) clamped (u.rerunStats st j))
    refine ⟨_, hexec, hmem.1.trans (hw.sameMem.1.trans hv.mem), hacc.trans (hw.acc.trans hv.acc), _, hjob,
      congrArg StageRun.rerun hover, congrArg StageRun.ys hover, fun hnext => ?_, fun hdone => ?_⟩
    · rw [Job.stepOver_next _ _ hnext]
      exact ⟨hrun, rfl⟩
    · rw [Job.stepOver_last _ _ hdone]

end Sys2Proof.Machine
end

section
/-! PROOFS. Compact accumulation (04 R193 to R197): rounding at random and the 64-bit window, and the statement
`CompactRoundingPicksANeighbour`. -/

namespace Sys2Proof.Machine

/-- Rounding at random ends at the quotient or the next integer, whatever bits are drawn (04 R193). -/
theorem stochastic_of_lt (g : BitVec 128) {t : Dy} {b : Int} (h : t.e < b) :
    ((stochastic g t b).1 = t.m / (2 ^ (b - t.e).toNat : Nat) ∨ (stochastic g t b).1 = t.m / (2 ^ (b - t.e).toNat : Nat) + 1) ∧
    (t.m % (2 ^ (b - t.e).toNat : Nat) = 0 → stochastic g t b = (t.m / (2 ^ (b - t.e).toNat : Nat), g)) := by
  unfold stochastic
  rw [if_neg (Int.not_le.mpr h)]
  dsimp only
  split
  · exact ⟨.inl rfl, fun _ => rfl⟩
  · next hr =>
    refine ⟨?_, fun h0 => absurd (by rw [h0]; rfl) hr⟩
    split
    · exact .inr rfl
    · exact .inl rfl

/-- An addend that is a multiple of the window's unit is taken as it is (04 R193). -/
theorem stochastic_of_le (g : BitVec 128) {t : Dy} {b : Int} (h : b ≤ t.e) :
    stochastic g t b = (t.m * (2 ^ (t.e - b).toNat : Nat), g) :=
  if_pos h

theorem toWindow_of_fits {w : Int} (h : -(2 ^ 63) ≤ w) (h' : w < 2 ^ 63) : toWindow w = (w, false) := by
  rw [toWindow, if_neg (Int.not_le.mpr h'), if_neg (Int.not_lt.mpr h)]

theorem toWindow_of_high {w : Int} (h : 2 ^ 63 ≤ w) : toWindow w = (2 ^ 63 - 1, true) := if_pos h

theorem toWindow_of_low {w : Int} (h : w < -(2 ^ 63)) : toWindow w = (-(2 ^ 63), true) := by
  rw [toWindow, if_neg (by omega), if_pos h]

/-- Settles O27: the generator's period is its own law; rounding and the window by the branches of their definitions. -/
theorem compactRoundingPicksANeighbour : Obligations.CompactRoundingPicksANeighbour :=
  ⟨fun g hg n => Config.lfsr.period g hg n, fun g _ _ h => stochastic_of_lt g h, fun g _ _ h => stochastic_of_le g h,
    fun _ => ⟨toWindow_of_fits, toWindow_of_high, toWindow_of_low⟩⟩

end Sys2Proof.Machine
end

section
/-! PROOFS. ACC_STORE and ACC_LOAD (04 R182 to R190, R217 to R219; 11 R535), and the statement
`AccumulatorRecordsAreStoredAndLoaded`. -/

namespace Sys2Proof.Machine

/-! ## The exact record -/

/-- Little-endian bytes hold the number they were written from (00 R11). -/
theorem ofLe_leBytes (n v : Nat) : ofLe (leBytes n v) = v % 256 ^ n := by
  induction n generalizing v with
  | zero => rw [leBytes, ofLe, pow_zero, Nat.mod_one]
  | succ n ih => rw [leBytes, ofLe, ih, BitVec.toNat_ofNat, Nat.pow_succ' (m := 256), Nat.mod_mul]

/-- A value that 320 bits hold is kept by them. -/
theorem wrapExact_of_fits {v : Int} (h : -(2 ^ 319) ≤ v) (h' : v < 2 ^ 319) : wrapExact v = v := by
  rw [wrapExact_eq_bmod]
  exact Int.bmod_eq_of_le (by norm_num at h ⊢; omega) (by norm_num at h' ⊢; omega)

theorem sext_exactRecord {v : Int} (h : -(2 ^ 319) ≤ v) (h' : v < 2 ^ 319) : sext (ofLe (leBytes 40 (toBits v 320))) 320 = v := by
  have hpow : 256 ^ 40 = 2 ^ 320 := by
    rw [show 256 = 2 ^ 8 from rfl, ← pow_mul]
  rw [ofLe_leBytes, hpow, Nat.mod_eq_of_lt (toBits_lt v 320)]
  exact wrapExact_of_fits h h'

/-- A finite value at 2⁻¹⁴⁸ in range is imported as it is. -/
theorem importExact_of_fits {v : Int} (h : -(2 ^ 319) ≤ v) (h' : v < 2 ^ 319) :
    importExact (.fin (decide (v < 0)) v.natAbs (-148)) = (v, false) := by
  have hdy : (Fv.fin (decide (v < 0)) v.natAbs (-148)).dy = exactDy v := by
    simp only [Fv.dy, exactDy, decide_eq_true_eq]
    congr 1
    split <;> omega
  have hround : ((exactDy v).scale 148).roundEven = v := Int.mul_one v
  unfold importExact
  simp only [hdy, hround, lt_irrefl, decide_false, Bool.false_and, exactMax]
  rw [if_neg (by omega), if_neg (by omega)]

/-- The exact record is lossless (04 R185, R190, R217). -/
theorem importExact_exactRecord {v : Int} (h : -(2 ^ 319) ≤ v) (h' : v < 2 ^ 319) :
    importExact (importRecord .exact (leBytes 40 (toBits v 320))) = (v, false) := by
  unfold importRecord
  simp only [sext_exactRecord h h']
  exact importExact_of_fits h h'

/-! ## Records that are exported -/

/-- Exports draw from generators, and change nothing else. -/
theorem State.exportRecord_gens (s : State) (form : RecForm) (e row base vec : Nat) (exact : Bool) (b : Int) :
    ∃ g, (s.exportRecord form e row base vec exact b).1 = { s with gens := g } := by
  cases form with
  | compact => cases exact with
    | true =>
      unfold State.exportRecord
      simp only [if_true]
      generalize transport _ _ = x
      exact ⟨_, rfl⟩
    | false => exact ⟨_, rfl⟩
  | exact => exact ⟨_, rfl⟩
  | fp64 => exact ⟨_, rfl⟩
  | fp32 => exact ⟨_, rfl⟩
  | bf16 => exact ⟨_, rfl⟩

theorem State.exportAll_gens (form : RecForm) (engines base vecB : Nat) (exact pair : Bool) (b : Int) (ks : List Nat) (s : State) :
    ∃ g, (s.exportAll form engines base vecB exact pair b ks).1 = { s with gens := g } := by
  induction ks generalizing s with
  | nil => exact ⟨s.gens, rfl⟩
  | cons k ks ih =>
    rw [State.exportAll]
    obtain ⟨g, hg⟩ := s.exportRecord_gens form (s.recordAt engines vecB pair k).1 (s.recordAt engines vecB pair k).2.1 base
      (s.recordAt engines vecB pair k).2.2 exact b
    obtain ⟨g', hg'⟩ := ih { s with gens := g }
    dsimp only
    rw [hg, hg']
    exact ⟨g', rfl⟩

/-- The beginning of a command changes no record. -/
theorem State.exportRecord_begin' (s : State) (j : Job) (form : RecForm) (e row base vec : Nat) (exact : Bool) (b : Int) :
    (s.begin' j).exportRecord form e row base vec exact b =
      ((s.exportRecord form e row base vec exact b).1.begin' j, (s.exportRecord form e row base vec exact b).2) := by
  have hvalue : (s.begin' j).tileValue e row base vec exact b = s.tileValue e row base vec exact b := rfl
  have hgen : (s.begin' j).gen (16384 + e / 4) = s.gen (16384 + e / 4) := rfl
  unfold State.exportRecord
  simp only [hvalue, hgen]
  cases form with
  | compact => cases exact with
    | true =>
      simp only [if_true]
      generalize transport _ _ = x
      rfl
    | false => rfl
  | exact => rfl
  | fp64 => rfl
  | fp32 => rfl
  | bf16 => rfl

theorem State.exportAll_begin' (j : Job) (form : RecForm) (engines base vecB : Nat) (exact pair : Bool) (b : Int) (ks : List Nat)
    (s : State) : (s.begin' j).exportAll form engines base vecB exact pair b ks =
      ((s.exportAll form engines base vecB exact pair b ks).1.begin' j, (s.exportAll form engines base vecB exact pair b ks).2) := by
  induction ks generalizing s with
  | nil => rfl
  | cons k ks ih =>
    have hat : (s.begin' j).recordAt engines vecB pair k = s.recordAt engines vecB pair k := rfl
    simp only [State.exportAll, hat, State.exportRecord_begin', ih]

theorem State.Stored.tiles {s t : State} {m : Sparse Byte} (h : s.Stored m t) : t.tiles = s.tiles := by
  obtain ⟨p, l, rfl⟩ := h
  rfl

/-! ## ACC_STORE -/

theorem exec_accStore (id : Nat) (s : State) : exec (.accStore id) s = execAccStore id s := rfl

/-- The named engines whose tile at this base carries its sticky RANGE bit. -/
def State.stickyTiles (s : State) (base engines : Nat) : List Nat :=
  (bitList 256 engines).filter fun e => s.tiles.any fun t => t.engine == e && t.base == base && t.range

theorem State.stickyTiles_isEmpty (s : State) (base engines : Nat) : (!(s.stickyTiles base engines).isEmpty) =
    (bitList 256 engines).any fun e => s.tiles.any fun x => x.engine == e && x.base == base && x.range := by
  rw [Bool.eq_iff_iff, Bool.not_eq_true', List.isEmpty_eq_false_iff, State.stickyTiles, ← List.length_pos_iff, List.length_filter_pos_iff,
    List.any_eq_true]

/-- What a command has to report of exported records: RANGE, and the tiles that carry it (04 R182, R218). -/
def Job.noteExport (big : Bool) (sticky : List Nat) (c : Job) : Job :=
  { c with flags := { c.flags with range := c.flags.range || big || !sticky.isEmpty },
           report := if sticky.isEmpty then c.report else c.report ++ [tileRangeSection (ofBitList sticky)] }

/-- ACC_STORE of records that can be read, to memory in service. -/
theorem execAccStore_stores {s : State} {id : Nat} {j : Job} {d : TDesc} {base vecB f engines : Nat} {exact pair : Bool} {b : Int}
    {form : RecForm} (hw : s.works id 0x08 j) (hbody : j.body = .acc d base vecB f exact pair b engines)
    (hform : RecForm.ofCode f = some form) (hfile : ∀ k ∈ d.covered, s.fileLost (s.recordAt engines vecB pair k).1 = false)
    (hgood : ∀ k ∈ d.covered, s.recordBad base exact (s.recordAt engines vecB pair k) = false)
    (hstore : s.storable d (s.exportAll form engines base vecB exact pair b d.covered).2.1) :
    ∃ u, (((s.exportAll form engines base vecB exact pair b d.covered).1.begin' j).modJob id
        (Job.noteExport (s.exportAll form engines base vecB exact pair b d.covered).2.2 (s.stickyTiles base engines))).Stored
        (writeEach s.mem d (s.exportAll form engines base vecB exact pair b d.covered).2.1) u ∧
      exec (.accStore id) s = .next (u.finishJob id .done) := by
  have hfile' : (d.covered.find? fun k => (s.begin' j).fileLost ((s.begin' j).recordAt engines vecB pair k).1) = none :=
    List.find?_eq_none.mpr fun k hk h => Bool.false_ne_true ((hfile k hk).symm.trans h)
  have hgood' : (d.covered.find? fun k => (s.begin' j).recordBad base exact ((s.begin' j).recordAt engines vecB pair k)) = none :=
    List.find?_eq_none.mpr fun k hk h => Bool.false_ne_true ((hgood k hk).symm.trans h)
  have hexport := s.exportAll_begin' j form engines base vecB exact pair b d.covered
  obtain ⟨g, hg⟩ := s.exportAll_gens form engines base vecB exact pair b d.covered
  generalize s.exportAll form engines base vecB exact pair b d.covered = x at hg hexport hstore ⊢
  have hstore' : ((x.1.begin' j).modJob id (Job.noteExport x.2.2 ((s.begin' j).stickyTiles base engines))).storable d x.2.1 := by
    rw [hg]
    exact hstore
  have hmem : x.1.mem = s.mem := by rw [hg]
  obtain ⟨u, hwrite, hu⟩ := State.writeElems_storable j hstore'
  rw [← hmem]
  refine ⟨u, hu, ?_⟩
  unfold State.stickyTiles Job.noteExport at hwrite
  rw [exec_accStore, execAccStore, jobRun_works _ hw]
  simp only [hbody, hform, hfile', hgood', hexport, hwrite]

/-! ## Records that are imported -/

/-- The state without the commands and the lists of tiles, by which no import goes. -/
def State.besideTiles (s : State) : State := { s with jobs := [], tiles := [], accHolds := [], accBad := [] }

theorem State.acc_of_besideTiles {s t : State} (h : s.besideTiles = t.besideTiles) : s.acc = t.acc := by
  have := congrArg State.acc h
  exact this

@[simp] theorem State.modJob_besideTiles (s : State) (n : Nat) (f : Job → Job) : (s.modJob n f).besideTiles = s.besideTiles := rfl
@[simp] theorem State.openTile_besideTiles (s : State) (t : AccTile) : (s.openTile t).besideTiles = s.besideTiles := rfl
@[simp] theorem State.noteHeld_besideTiles (s : State) (e base u : Nat) (chans : List (Option Nat)) :
    (s.noteHeld e base u chans).besideTiles = s.besideTiles := rfl
@[simp] theorem State.clearSlots_besideTiles (s : State) (e row slot n : Nat) :
    (s.clearSlots e row slot n).besideTiles = s.besideTiles := rfl

theorem State.clearRecords_besideTiles (s : State) (engines base vecB : Nat) (exact pair : Bool) (ks : List Nat) :
    (s.clearRecords engines base vecB exact pair ks).besideTiles = s.besideTiles :=
  forEach_same State.besideTiles ks _ (fun t _ _ => t.clearSlots_besideTiles ..) s

/-- What a slot takes does not depend on what lies beside it. -/
theorem State.setExact_besideTiles (s : State) (e row slot : Nat) (v : Int) :
    (s.setExact e row slot v).besideTiles = s.besideTiles.setExact e row slot v := rfl

theorem State.importTo_besideTiles (s : State) (form : RecForm) (e row base vec : Nat) (exact : Bool) (b : Int) (bs : List Byte) :
    s.besideTiles.importTo form e row base vec exact b bs =
      ((s.importTo form e row base vec exact b bs).1.besideTiles, (s.importTo form e row base vec exact b bs).2) := by
  have hgen : s.besideTiles.gen (64 * e + row) = s.gen (64 * e + row) := rfl
  unfold State.importTo
  simp only [hgen, ← State.setExact_besideTiles]
  split
  · rfl
  · split
    · rfl
    · generalize importCompact _ _ _ = x
      rfl

theorem State.importAll_besideTiles (s : State) (form : RecForm) (engines base vecB : Nat) (exact pair : Bool) (b : Int)
    (l : List (Nat × List Byte)) : s.besideTiles.importAll form engines base vecB exact pair b l =
      ((s.importAll form engines base vecB exact pair b l).1.besideTiles, (s.importAll form engines base vecB exact pair b l).2) := by
  induction l generalizing s with
  | nil => rfl
  | cons x l ih =>
    have hat : s.besideTiles.recordAt engines vecB pair x.1 = s.recordAt engines vecB pair x.1 := rfl
    simp only [State.importAll, hat, State.importTo_besideTiles, ih]

/-- Two states that differ in commands and lists of tiles alone import the same values. -/
theorem State.importAll_acc (form : RecForm) (engines base vecB : Nat) (exact pair : Bool) (b : Int) (l : List (Nat × List Byte))
    {s t : State} (h : s.besideTiles = t.besideTiles) : (s.importAll form engines base vecB exact pair b l).1.acc =
      (t.importAll form engines base vecB exact pair b l).1.acc := by
  have hs := s.importAll_besideTiles form engines base vecB exact pair b l
  rw [h, State.importAll_besideTiles] at hs
  exact State.acc_of_besideTiles (congrArg Prod.fst hs.symm)

/-- The state without accumulator slots and generators, which alone an import changes. -/
def State.besideFiles (s : State) : State := { s with acc := [], carries := [], gens := [] }

@[simp] theorem State.setAccSlot_besideFiles (s : State) (e row slot : Nat) (v : Word64) :
    (s.setAccSlot e row slot v).besideFiles = s.besideFiles := rfl

theorem State.setExact_besideFiles (s : State) (e row slot : Nat) (v : Int) : (s.setExact e row slot v).besideFiles = s.besideFiles :=
  forEach_same State.besideFiles (List.range 5) _ (fun t _ _ => t.setAccSlot_besideFiles ..) s

theorem State.importTo_besideFiles (s : State) (form : RecForm) (e row base vec : Nat) (exact : Bool) (b : Int) (bs : List Byte) :
    (s.importTo form e row base vec exact b bs).1.besideFiles = s.besideFiles := by
  unfold State.importTo
  dsimp only
  split
  · exact s.setExact_besideFiles ..
  · split
    · rfl
    · rfl

theorem State.importAll_besideFiles (s : State) (form : RecForm) (engines base vecB : Nat) (exact pair : Bool) (b : Int)
    (l : List (Nat × List Byte)) :
    (s.importAll form engines base vecB exact pair b l).1.besideFiles = s.besideFiles := by
  induction l generalizing s with
  | nil => rfl
  | cons x l ih =>
    rw [State.importAll]
    exact (ih _).trans (s.importTo_besideFiles ..)

/-! ## ACC_LOAD -/

theorem exec_accLoad (id : Nat) (s : State) : exec (.accLoad id) s = execAccLoad id s := rfl

/-- The tile that an ACC_LOAD opens on an engine (04 R219). -/
def loadedTile (base vecB : Nat) (exact : Bool) (b : Int) (e : Nat) : AccTile :=
  { engine := e, base := base, slots := vecB * (if exact then 5 else 1), exact := exact, b := b, range := false }

/-- The tiles of the named engines are opened. -/
def State.openTiles (s : State) (base vecB : Nat) (exact : Bool) (b : Int) (es : List Nat) : State :=
  forEach es (fun s e => (s.openTile (loadedTile base vecB exact b e)).noteHeld e base 0 []) s

section
variable (s : State) (base vecB : Nat) (exact : Bool) (b : Int) (es : List Nat)

theorem State.openTiles_besideTiles : (s.openTiles base vecB exact b es).besideTiles = s.besideTiles := by
  refine forEach_same State.besideTiles es _ (fun t e _ => ?_) s
  rw [State.noteHeld_besideTiles, State.openTile_besideTiles]

theorem State.openTiles_jobs : (s.openTiles base vecB exact b es).jobs = s.jobs := by
  refine forEach_same State.jobs es _ (fun t e _ => ?_) s
  rfl

/-- Every named engine's tile is open at the end: no other engine's opening displaces it. -/
theorem State.mem_openTiles {e : Nat} (he : e ∈ es) : loadedTile base vecB exact b e ∈ (s.openTiles base vecB exact b es).tiles := by
  refine forEach_reaches (fun _ => True) (fun t => loadedTile base vecB exact b e ∈ t.tiles) es _ e he (fun _ _ _ => trivial)
    (fun t _ => List.mem_append_right _ List.mem_cons_self) (fun t n ht => ?_) s trivial
  by_cases hn : e = n
  · subst hn
    exact List.mem_append_right _ List.mem_cons_self
  · refine List.mem_append_left _ (List.mem_filter.mpr ⟨ht, ?_⟩)
    simp [loadedTile, hn]

end

/-- The state in which an ACC_LOAD imports its records: their tiles are open, and the slots that they replace have no errors. -/
def State.readyForRecords (s : State) (engines base vecB : Nat) (exact pair : Bool) (b : Int) (ks : List Nat) : State :=
  (s.openTiles base vecB exact b (bitList 256 engines)).clearRecords engines base vecB exact pair ks

theorem State.readyForRecords_besideTiles (s : State) (engines base vecB : Nat) (exact pair : Bool) (b : Int) (ks : List Nat) :
    (s.readyForRecords engines base vecB exact pair b ks).besideTiles = s.besideTiles :=
  (State.clearRecords_besideTiles ..).trans (State.openTiles_besideTiles ..)

/-- Clearing slots of their errors opens and closes no tile. -/
theorem State.clearRecords_keeps (s : State) (engines base vecB : Nat) (exact pair : Bool) (ks : List Nat) :
    (s.clearRecords engines base vecB exact pair ks).tiles = s.tiles ∧
    (s.clearRecords engines base vecB exact pair ks).jobs = s.jobs := by
  constructor
  · refine forEach_same State.tiles ks _ (fun t k _ => ?_) s
    rfl
  · refine forEach_same State.jobs ks _ (fun t k _ => ?_) s
    rfl

/-- A command whose import lost something carries RANGE (04 R218). -/
def Job.noteLoss (big : Bool) (c : Job) : Job := { c with flags := { c.flags with range := c.flags.range || big } }

/-- ACC_LOAD of records in hand, into files in service. -/
theorem execAccLoad_loads {s : State} {id : Nat} {j : Job} {d : TDesc} {base vecB f engines : Nat} {exact pair : Bool} {b : Int}
    {form : RecForm} {got : Nat → List Byte} (hw : s.works id 0x07 j) (hbody : j.body = .acc d base vecB f exact pair b engines)
    (hform : RecForm.ofCode f = some form) (hfile : ∀ k ∈ d.covered, s.fileLost (s.recordAt engines vecB pair k).1 = false)
    (hgot : s.holds j d form.size d.covered got) {x : State × Bool}
    (hx : ((s.begin' j).readyForRecords engines base vecB exact pair b d.covered).importAll form engines base vecB exact pair b
      (d.covered.map fun k => (k, got k)) = x) :
    exec (.accLoad id) s = .next ((x.1.modJob id (Job.noteLoss x.2)).finishJob id .done) := by
  have hfile' : (d.covered.find? fun k => ((s.begin' j).openTiles base vecB exact b (bitList 256 engines)).fileLost
      (((s.begin' j).openTiles base vecB exact b (bitList 256 engines)).recordAt engines vecB pair k).1) = none := by
    refine List.find?_eq_none.mpr fun k hk h => Bool.false_ne_true ((hfile k hk).symm.trans ?_)
    have hlost := congrArg (fun t => t.fileLost (t.recordAt engines vecB pair k).1)
      ((s.begin' j).openTiles_besideTiles base vecB exact b (bitList 256 engines))
    exact hlost.symm.trans h
  subst hx
  unfold State.openTiles loadedTile at hfile'
  rw [exec_accLoad, execAccLoad, jobRun_works _ hw]
  simp only [hbody, hform, State.readAll_holds (hgot.begin' j), List.length_map, List.take_length, hfile', ← List.map_prod_left_eq_zip]
  rfl

/-! ## The statement -/

/-- Settles O17: records are exported before anything is stored and imported into tiles just opened; the exact record holds the 320 bits
of the value. -/
theorem accumulatorRecordsAreStoredAndLoaded : Obligations.AccumulatorRecordsAreStoredAndLoaded := by
  unfold Obligations.AccumulatorRecordsAreStoredAndLoaded
  refine ⟨fun s id j d base vecB f engines exact pair b form hbody hform hfile => ⟨fun hw hgood hstore => ?_, fun got hw hgot => ?_⟩,
    fun v => importExact_exactRecord, fun s e row slot v h h' => ?_, fun s e row slot v => s.exactAt_setExact e row slot v⟩
  · obtain ⟨u, hu, hexec⟩ := execAccStore_stores hw hbody hform hfile hgood hstore
    obtain ⟨g, hg⟩ := s.exportAll_gens form engines base vecB exact pair b d.covered
    rw [hg] at hu
    have hjob := State.job?_modJob_some (Job.noteExport (s.exportAll form engines base vecB exact pair b d.covered).2.2
      (s.stickyTiles base engines)) (fun _ => rfl) hw.job?_begin'
    have hend := State.job?_finishJob .done ((State.job?_congr hu.jobs id).trans hjob) rfl
    refine ⟨_, hexec, ⟨_, hend, rfl⟩, hu.mem, hu.acc, hu.tiles, fun j' hj' => ?_⟩
    rw [← Option.some.inj (hend.symm.trans hj'), ← State.stickyTiles_isEmpty]
    rfl
  · refine ⟨_, execAccLoad_loads hw hbody hform hfile hgot rfl, ?_⟩
    have hready := ((s.begin' j).readyForRecords_besideTiles engines base vecB exact pair b d.covered).trans
      (s.modJob_besideTiles j.id fun c => c.execute s.frame)
    have hmem := congrArg State.mem hready
    have hpoison := congrArg State.poison hready
    obtain ⟨htiles, hjobs⟩ := ((s.begin' j).openTiles base vecB exact b (bitList 256 engines)).clearRecords_keeps engines base vecB exact
      pair d.covered
    have hacc := State.importAll_acc form engines base vecB exact pair b (d.covered.map fun k => (k, got k)) hready
    have himport := ((s.begin' j).readyForRecords engines base vecB exact pair b d.covered).importAll_besideFiles form engines base vecB
      exact pair b (d.covered.map fun k => (k, got k))
    generalize ((s.begin' j).readyForRecords engines base vecB exact pair b d.covered).importAll form engines base vecB exact pair b
      (d.covered.map fun k => (k, got k)) = x at hacc himport ⊢
    have hbegun : x.1.job? id = (s.begin' j).job? id :=
      State.job?_congr (((congrArg State.jobs himport).trans hjobs).trans (State.openTiles_jobs ..)) id
    have hend := State.job?_finishJob .done (State.job?_modJob_some (Job.noteLoss x.2) (fun _ => rfl) (hbegun.trans hw.job?_begin')) rfl
    refine ⟨⟨_, hend, rfl⟩, ⟨(congrArg State.mem himport).trans hmem, (congrArg State.poison himport).trans hpoison⟩,
      fun e he => ?_, hacc⟩
    have hopen := (s.begin' j).mem_openTiles base vecB exact b (bitList 256 engines) he
    rw [← htiles] at hopen
    exact (congrArg State.tiles himport).symm ▸ hopen
  · rw [State.exactAt_setExact, wrapExact_of_fits h h']

end Sys2Proof.Machine
end

section
/-! PROOFS. Contracts with peers (12 R582, R585, R586; 16 R734), and what the work of a Polonaise chain (04 R220 to R224) leaves as
it was. -/

namespace Sys2Proof.Machine

/-! ## A contract lapses -/

/-- The work of a command that has not ended ends with the status of a stop. -/
theorem Job.failStage_phase {j : Job} (st : Status) (h : j.live = true) : (j.failStage st).phase = .finished st := by
  have hfinish : (j.finish st).phase = .finished st := by
    unfold Job.live at h
    unfold Job.finish
    cases hphase : j.phase with
    | planned => rfl
    | running => rfl
    | finished old => rw [hphase] at h; exact nomatch h
    | written old n => rw [hphase] at h; exact nomatch h
  unfold Job.failStage
  split
  · exact hfinish
  · exact hfinish

@[simp] theorem Job.failStage_id (j : Job) (st : Status) : (j.failStage st).id = j.id := by
  unfold Job.failStage
  split
  · exact j.finish_id st
  · exact j.finish_id st

/-- A lapse ends the command, logs it once, and takes the command's waiting frames away. -/
theorem State.lapse_ends {s : State} {j : Job} (peer : Nat) (hj : s.job? j.id = some j) (hlive : j.live = true) :
    (s.lapse j peer).ended j.id .peerUnreachable ∧ s.sameMem (s.lapse j peer) ∧
    s.logs (s.lapse j peer) 0x0300 0 peer (j.identWith peer) ∧
    (s.lapse j peer).link.tx = s.link.tx.filter fun x => x.job != j.id := by
  have hended := State.job?_modJob_some (fun c => c.failStage .peerUnreachable) (fun c => c.failStage_id _) hj
  have hlog := (((s.modJob j.id fun c => c.failStage .peerUnreachable).dropTx fun t => t.job == j.id)).logError_log 0x0300 4 0 0 peer
    (j.identWith peer)
  have heq := (((s.modJob j.id fun c => c.failStage .peerUnreachable).dropTx fun t => t.job == j.id)).logError_eq 0x0300 4 0 0 peer
    (j.identWith peer)
  change (s.lapse j peer).log.next = _ ∧ (s.lapse j peer).log.entries.getLast? = _ at hlog
  change s.lapse j peer = _ at heq
  obtain ⟨hnext, hentry⟩ := hlog
  refine ⟨?_, ?_, ⟨hnext, _, hentry, rfl, rfl, rfl, rfl, rfl, rfl⟩, ?_⟩
  · rw [heq]
    exact ⟨_, hended, j.failStage_phase _ hlive⟩
  · rw [heq]
    exact ⟨rfl, rfl⟩
  · rw [heq]
    rfl

/-- PEER_CONTRACT_LAPSE with a peer that no route has reached for eight boundaries (12 R585). -/
theorem execPeerContractLapse_unreachable {s : State} {id p : Nat} {j : Job} (hj : s.job? id = some j) (hrun : j.phase = .running)
    (hstop : j.stopped = false) (hpeer : p ∈ j.peersNamed) (hcut : 8 ≤ (s.link.peers.get {} p).unreachable) :
    exec (.peerContractLapse id p) s = .next (s.lapse j p) := by
  change execPeerContractLapse id p s = _
  unfold execPeerContractLapse
  simp only [hj, hrun, hstop, List.contains_iff_mem.mpr hpeer, hcut, decide_true, Bool.or_true, Bool.not_false, beq_self_eq_true,
    Bool.and_true, if_true]
  rfl

/-! ## A frame from a peer -/

/-- The state that has taken a frame from a peer context. -/
def State.took (s : State) (f : SlotFrame) (p : Nat) : State := (s.tookFrame f).countPeer p false

/-- A frame taken from a peer changes counts of the links alone. -/
theorem State.took_eq (s : State) (f : SlotFrame) (p : Nat) :
    s.took f p = { s with link := { s.link with lanes := (s.took f p).link.lanes, peers := (s.took f p).link.peers } } := rfl

/-- CANCEL_NOTICE from a peer that a command exchanges with (12 R585). -/
theorem execCancelNotice_lapses {s : State} {f : SlotFrame} {p : Nat} {j : Job} (hkind : f.kind = 5) (hcrc : f.crcOk = true)
    (hhears : s.laneHears f.lane = true) (hdst : s.link.fabricAddr.toNat = f.dstFa) (hsrc : s.peerOf f.srcFa = some p)
    (hfind : (s.jobs.find? fun x => x.live && !x.stopped && x.peersNamed.contains p && x.identWith p == f.ident) = some j) :
    exec (.cancelNotice f) s = .next ((s.took f p).lapse j p) := by
  change execCancelNotice f s = _
  have hfind' : ((s.took f p).jobs.find? fun x => x.live && !x.stopped && x.peersNamed.contains p && x.identWith p == f.ident) = some j :=
    hfind
  unfold State.took at hfind'
  unfold execCancelNotice
  rw [← hkind, State.arrive_own s f _ p hcrc hhears hdst hsrc]
  simp only [hfind']
  rfl

/-! ## What the work of a chain leaves -/

/-- Off the light path nothing has changed, nor what command `id` has received. -/
structure State.SameGot (id : Nat) (s t : State) : Prop where
  offPath : t.offPath = s.offPath
  got : (t.job? id).map Job.got = (s.job? id).map Job.got

theorem State.SameGot.refl (id : Nat) (s : State) : s.SameGot id s := ⟨rfl, rfl⟩

theorem State.SameGot.trans {id : Nat} {s t u : State} (h : s.SameGot id t) (k : t.SameGot id u) : s.SameGot id u :=
  ⟨k.offPath.trans h.offPath, k.got.trans h.got⟩

theorem State.SameGot.of_jobs {id : Nat} {s t : State} (h : t.offPath = s.offPath) (hjobs : t.jobs = s.jobs) : s.SameGot id t :=
  ⟨h, congrArg (Option.map Job.got) (State.job?_congr hjobs id)⟩

theorem State.SameGot.modJob (id n : Nat) (s : State) (f : Job → Job) (hid : ∀ j, (f j).id = j.id) (hf : ∀ j, (f j).got = j.got) :
    s.SameGot id (s.modJob n f) :=
  ⟨rfl, s.map_job?_modJob Job.got n id f hid hf⟩

/-- A loop each of whose turns leaves this leaves it. -/
theorem State.SameGot.forEach {α : Type} (id : Nat) (l : List α) (f : State → α → State) (hf : ∀ (s : State) x, s.SameGot id (f s x))
    (s : State) : s.SameGot id (forEach l f s) :=
  forEach_keeps (fun t => s.SameGot id t) l f (fun t x _ ht => ht.trans (hf t x)) s (.refl id s)

theorem State.SameGot.stageSettled (id : Nat) (s : State) (j : Job) (st : Stage) : s.SameGot id (s.stageSettled j st) := by
  have h : s.SameGot id ((s.parkRun j.id).freeStage j) :=
    ⟨((State.SameSums.parkRun 0 id j.id s).trans (.freeStage 0 id _ j)).offPath,
      congrArg (Option.map Job.got) (State.job?_congr (State.freeStage_jobs _ j) id)⟩
  unfold State.stageSettled
  extract_lets s₁
  refine ite_both ?_ (ite_both ?_ ?_)
  · exact h.trans (.modJob id j.id s₁ _ (fun _ => rfl) fun _ => rfl)
  · exact h.trans (.modJob id j.id s₁ _ (fun _ => rfl) fun _ => rfl)
  · refine h.trans (.modJob id j.id s₁ _ (fun c => c.finish_id .done) fun c => ?_)
    unfold Job.finish
    split <;> rfl

theorem State.SameGot.closeTile (id n : Nat) (s : State) (st : Stage) (t : TileRun) : s.SameGot id (s.closeTile n st t) := by
  unfold State.closeTile
  extract_lets k s₁
  have h : s.SameGot id s₁ := .modJob id n s _ (fun _ => rfl) fun _ => rfl
  cases s₁.job? n with
  | none => exact h
  | some j => exact ite_both (h.trans (.stageSettled id s₁ j st)) (h.trans (.of_jobs rfl rfl))

theorem State.SameGot.keepSummed (id n : Nat) (s : State) (st : Stage) (part u : Nat) : s.SameGot id (s.keepSummed n st part u) := by
  unfold State.keepSummed
  refine ite_both (.refl id s) ?_
  cases s.job? n with
  | none => exact .refl id s
  | some j => exact .forEach id _ _ (fun t x => .closeTile id n t st x) s

theorem State.SameGot.setSummed (id n : Nat) (s : State) (t : TileRun) (chs : List Nat) : s.SameGot id (s.setSummed n t chs) :=
  .modJob id n s _ (fun _ => rfl) fun _ => rfl

theorem State.SameGot.seedFor (id n g unit engine stage : Nat) (s : State) (st : Stage) (drawn : Bool) :
    s.SameGot id (s.seedFor n st g unit engine stage drawn) := by
  unfold State.seedFor
  cases s.job? n with
  | none => exact .refl id s
  | some j =>
    refine ite_both (.refl id s) ⟨rfl, ?_⟩
    exact State.map_job?_modJob Job.got _ n id _ (fun _ => rfl) fun _ => rfl

theorem State.SameGot.addTerm (id n : Nat) (s : State) (st : Stage) (t : TileRun) (i vec : Nat) (x : Int) :
    s.SameGot id (s.addTerm n st t i vec x).1 := by
  refine ⟨(State.SameFlags.addTerm 0 id n s st t i vec x).offPath, ?_⟩
  unfold State.addTerm
  cases s.job? n with
  | none => rfl
  | some j =>
    dsimp only
    have h₁ : s.SameGot id (s.seedFor n st (64 * t.engine + s.rowFile st t.engine i) (s.rowFile st t.engine i) t.engine j.run.stage
        (!st.exact && draws (exactDy x) st.compactExp)) := .seedFor ..
    generalize s.seedFor n st _ _ _ _ _ = s₁ at h₁ ⊢
    refine Eq.trans ?_ h₁.got
    split
    · exact congrArg (Option.map Job.got) (State.job?_congr (s₁.addToTile_jobs ..) id)
    · cases nth t.chans i none with
      | none => rfl
      | some ch =>
        dsimp only
        split
        · exact s₁.map_job?_modJob Job.got n id _ (fun _ => rfl) fun _ => rfl
        · exact s₁.map_job?_modJob Job.got n id _ (fun _ => rfl) fun _ => rfl

theorem State.SameGot.markRange (id n : Nat) (s : State) (st : Stage) (t : TileRun) (b : Bool) : s.SameGot id (s.markRange n st t b) := by
  refine ⟨(State.SameTally.markRange 0 n s st t b).offPath, ?_⟩
  unfold State.markRange
  extract_lets s₁
  have h₁ : (s₁.job? id).map Job.got = (s.job? id).map Job.got := s.map_job?_modJob Job.got n id _ (fun _ => rfl) fun _ => rfl
  split
  · rfl
  · refine Eq.trans ?_ h₁
    split
    · rw [State.stickRange_job?]
    · exact s₁.map_job?_modJob Job.got n id _ (fun _ => rfl) fun _ => rfl

/-- Adding a running sum's value works on the tile, its values and flags. -/
theorem State.SameGot.addSum (id n : Nat) (s : State) (st : Stage) (t : TileRun) (vec ch : Nat) (x : Int) :
    s.SameGot id (s.addSum n st t vec ch x) :=
  (State.SameGot.addTerm id n s st t _ vec x).trans (.markRange id n _ st t _)

/-- A running sum's value is added to the exact value in the file, which does not saturate (04 R221). -/
theorem State.addSum_file (s : State) (n : Nat) (j : Job) (st : Stage) (t : TileRun) (vec ch : Nat) (x : Int)
    (hj : s.job? n = some j) (hexact : st.exact = true) (hfile : t.inFile = true) :
    s.addSum n st t vec ch x = s.addExact t.engine (s.rowFile st t.engine ((t.chans.findIdx? (· == some ch)).getD 0))
      (st.accBase + 5 * (vec - t.u * st.vecB)) x := by
  unfold State.addSum State.addTerm State.addToTile
  simp only [hj, hexact, hfile, Bool.not_true, Bool.false_and, State.seedFor_no_draw, if_true, State.markRange_false]

end Sys2Proof.Machine
end

section
/-! PROOFS. POLONAISE_HOP and POLONAISE_VALUES (04 R220 to R224; 12 R580, R582), and the statement `PeerContractsAndRunningSums`. -/

namespace Sys2Proof.Machine

/-! ## The channels that a tile's sums stand for -/

@[simp] theorem mem_insertNat (n : Nat) (l : List Nat) (a : Nat) : a ∈ insertNat n l ↔ a = n ∨ a ∈ l := by
  induction l with
  | nil => rw [insertNat, List.mem_singleton, or_iff_left List.not_mem_nil]
  | cons m ms ih =>
    rw [insertNat]
    split
    · rw [List.mem_cons]
    · split
      · next h => simp [h]
      · simp only [List.mem_cons, ih]
        tauto

theorem mem_foldl_insertNat (chs l : List Nat) (a : Nat) : a ∈ chs.foldl (fun m c => insertNat c m) l ↔ a ∈ chs ∨ a ∈ l := by
  induction chs generalizing l with
  | nil => simp
  | cons c chs ih =>
    rw [List.foldl_cons, ih, mem_insertNat, List.mem_cons]
    tauto

/-- A tile with all its channels among those that have received the running sum, of which there is one, has received it. -/
theorem TileRun.summed_of_sums {t : TileRun} {ch : Nat} (hch : some ch ∈ t.chans) (h : ∀ c, some c ∈ t.chans → c ∈ t.sums) :
    t.summed = true := by
  unfold TileRun.summed
  rw [Bool.and_eq_true, List.any_eq_true, List.all_eq_true]
  refine ⟨⟨some ch, hch, rfl⟩, fun c hc => ?_⟩
  cases c with
  | none => rfl
  | some c => simpa using h c hc

/-- The channels on a tile's rows are its channels. -/
theorem TileRun.mem_rowsOf (t : TileRun) (ch : Nat) : (∃ x ∈ t.rowsOf, x.2 = ch) ↔ some ch ∈ t.chans := by
  unfold TileRun.rowsOf
  simp only [List.mem_filterMap, Option.map_eq_some_iff]
  constructor
  · rintro ⟨-, ⟨⟨i, c⟩, hx, c', rfl, rfl⟩, rfl⟩
    exact (List.of_mem_zip hx).2
  · intro h
    obtain ⟨i, hi, hget⟩ := List.mem_iff_getElem.mp h
    have hmem : (i, some ch) ∈ (List.range t.chans.length).zip t.chans :=
      List.mem_iff_getElem.mpr ⟨i, by simpa using hi, by simp [hget]⟩
    exact ⟨(i, ch), ⟨(i, some ch), hmem, ch, rfl, rfl⟩, rfl⟩

/-! ## The tiles of a command -/

/-- All tiles of the command with this number, if there is one, have a property. -/
def State.tilesAll (s : State) (id : Nat) (P : TileRun → Prop) : Prop := ∀ j, s.job? id = some j → ∀ x ∈ j.run.tiles, P x

theorem State.tilesAll_of_tileView {s t : State} {id : Nat} {P : TileRun → Prop} {g : List TileRun → List TileRun} {d : Job → Nat}
    (h : (t.job? id).map Job.tileView = (s.job? id).map fun j => (g j.run.tiles, d j))
    (hg : ∀ j, s.job? id = some j → ∀ x ∈ g j.run.tiles, P x) : t.tilesAll id P := by
  intro j' hj' x hx
  rw [hj'] at h
  obtain ⟨j, hj, htiles⟩ := Option.map_eq_some_iff.mp h.symm
  have hin : g j.run.tiles = j'.run.tiles := congrArg Prod.fst htiles
  exact hg j hj x (hin ▸ hx)

/-- Closing a tile keeps what closing keeps of each tile. -/
theorem State.tilesAll_closeTile {s : State} {id : Nat} {P : TileRun → Prop} (st : Stage) (t : TileRun)
    (hP : ∀ x, P x → P { x with closed := true }) (h : s.tilesAll id P) : (s.closeTile id st t).tilesAll id P := by
  refine State.tilesAll_of_tileView (s.closeTile_tileView id st t) fun j hj x hx => ?_
  obtain ⟨y, hy, rfl⟩ := List.mem_map.mp hx
  split
  · exact hP y (h j hj y hy)
  · exact h j hj y hy

/-- Once a tile has been closed every tile like it is closed. -/
theorem State.tilesAll_closed (s : State) (id : Nat) (st : Stage) (t : TileRun) : (s.closeTile id st t).tilesAll id fun x =>
    x.part = t.part → x.engine = t.engine → x.u = t.u → x.chans = t.chans → x.closed = true := by
  refine State.tilesAll_of_tileView (s.closeTile_tileView id st t) fun j hj x hx => ?_
  obtain ⟨y, -, rfl⟩ := List.mem_map.mp hx
  split
  · exact fun _ _ _ _ => rfl
  · next hno =>
    intro hpart hengine hu hchans
    simpa [hpart, hengine, hu, hchans] using hno

theorem State.tilesAll_keepSummed {s : State} {id : Nat} {P : TileRun → Prop} (st : Stage) (part u : Nat)
    (hP : ∀ x, P x → P { x with closed := true }) (h : s.tilesAll id P) : (s.keepSummed id st part u).tilesAll id P := by
  unfold State.keepSummed
  refine ite_both (P := fun t : State => t.tilesAll id P) h ?_
  cases s.job? id with
  | none => exact h
  | some j => exact forEach_keeps (fun t => t.tilesAll id P) _ _ (fun t x _ ht => State.tilesAll_closeTile st x hP ht) s h

/-- Tiles of a run with channels of one of them noted as having received the running sum. -/
def sumIn (t : TileRun) (chs : List Nat) (l : List TileRun) : List TileRun :=
  mapIf (fun x => x.engine == t.engine && x.u == t.u && x.part == t.part && x.chans == t.chans && !x.closed)
    (fun x => { x with sums := chs.foldl (fun m c => insertNat c m) x.sums }) l

theorem State.setSummed_tileView (s : State) (id : Nat) (t : TileRun) (chs : List Nat) :
    ((s.setSummed id t chs).job? id).map Job.tileView = (s.job? id).map fun j => (sumIn t chs j.run.tiles, j.run.drained) :=
  s.map_job?_modJob_self Job.tileView id _ fun _ => rfl

/-- After channels of a tile have received the running sum, every open tile like it with no other channels has received it. -/
theorem State.tilesAll_setSummed (s : State) (id : Nat) (t : TileRun) {chs : List Nat} {ch : Nat} (hch : some ch ∈ t.chans)
    (hall : ∀ c, some c ∈ t.chans → c ∈ chs) : (s.setSummed id t chs).tilesAll id fun x =>
    x.part = t.part → x.engine = t.engine → x.u = t.u → x.chans = t.chans → x.summed = true ∨ x.closed = true := by
  refine State.tilesAll_of_tileView (s.setSummed_tileView id t chs) fun j hj x hx => ?_
  obtain ⟨y, -, rfl⟩ := List.mem_map.mp hx
  split
  · rintro - - - hchans
    dsimp only at hchans
    refine .inl (TileRun.summed_of_sums (ch := ch) (hchans ▸ hch) fun c hc => ?_)
    exact (mem_foldl_insertNat ..).mpr (.inl (hall c (hchans ▸ hc)))
  · next hno =>
    intro hpart hengine hu hchans
    exact .inr (by simpa [hpart, hengine, hu, hchans] using hno)

/-! ## POLONAISE_HOP on this device -/

theorem StageRun.holds_tile {r : StageRun} {part u ch : Nat} {t : TileRun} (h : r.holds part u ch = some t) :
    t.part = part ∧ t.u = u ∧ some ch ∈ t.chans := by
  have hmine := List.find?_some h
  simp only [Bool.and_eq_true, beq_iff_eq, List.contains_iff_mem] at hmine
  obtain ⟨⟨⟨hpart, hu⟩, -⟩, hch⟩ := hmine
  exact ⟨hpart, hu, hch⟩

/-- A list of one thing over and over has that one thing. -/
theorem eraseDups_of_forall_eq {α : Type} [BEq α] [LawfulBEq α] {a : α} {l : List α} (hne : l ≠ []) (h : ∀ x ∈ l, x = a) :
    l.eraseDups = [a] := by
  obtain ⟨b, l, rfl⟩ := List.exists_cons_of_ne_nil hne
  obtain ⟨rfl, hl⟩ := List.forall_mem_cons.mp h
  rw [List.eraseDups_cons, List.filter_eq_nil_iff.mpr fun x hx => by simp [hl x hx], List.eraseDups_nil]

/-- The channels of one tile that another has as well. -/
def TileRun.shared (t r : TileRun) : List Nat := (t.rowsOf.map (·.2)).filter fun ch => r.chans.contains (some ch)

theorem TileRun.mem_shared {t r : TileRun} {ch : Nat} (ht : some ch ∈ t.chans) (hr : some ch ∈ r.chans) : ch ∈ t.shared r := by
  obtain ⟨x, hx, rfl⟩ := (t.mem_rowsOf ch).mpr ht
  exact List.mem_filter.mpr ⟨List.mem_map_of_mem hx, List.contains_iff_mem.mpr hr⟩

/-- POLONAISE_HOP from one tile to one tile of the next part: the sums are added, and the sending tile ends. -/
theorem execPolonaiseHop_passes {s : State} {n part ob : Nat} {j : Job} {st : Stage} {next : Part} {tl r : TileRun}
    (hj : s.job? n = some j) (hst : j.stage? = some st) (hnext : st.parts[part + 1]? = some next) (hlocal : next.peer = 0xFFFF)
    (htiles : j.run.partTiles st part ob = [tl]) (hsent : tl.sent = false) (hterms : tl.need ≤ tl.terms)
    (hsummed : tl.part = 0 ∨ tl.summed = true) (hrows : tl.rowsOf ≠ [])
    (hgoal : ∀ x ∈ tl.rowsOf, j.run.holds (part + 1) tl.u x.2 = some r) (hready : r.need ≤ r.terms) :
    ∃ u, s.SameGot n u ∧ exec (.polonaiseHop n part ob) s =
      .next (((u.setSummed n r (tl.shared r)).keepSummed n st (part + 1) tl.u).closeTile n st tl) := by
  change ∃ u, _ ∧ execPolonaiseHop n part ob s = _
  have hlen : decide (st.parts.length ≤ part + 1) = false := by
    obtain ⟨hlt, -⟩ := List.getElem?_eq_some_iff.mp hnext
    exact decide_eq_false (by omega)
  have hpart : (tl.part == 0 || tl.summed) = true := by simpa using hsummed
  have hone : ((j.run.partTiles st part ob).filter fun t => !t.sent) = [tl] := by simp [htiles, hsent]
  have hsame : ([tl].filter fun t => t.u == tl.u) = [tl] := by simp
  have hgoals : (tl.rowsOf.map fun x => j.run.holds (part + 1) tl.u x.2) = tl.rowsOf.map fun _ => some r :=
    List.map_congr_left hgoal
  have hdups : ((tl.rowsOf.map fun _ => some r).filterMap id).eraseDups = [r] :=
    eraseDups_of_forall_eq (by simpa [List.filterMap_map, Function.comp_def] using hrows) (by simp)
  unfold execPolonaiseHop
  simp only [hj, hst, hone, List.map_cons, List.map_nil, minNat, hsame, List.isEmpty_cons, hlen, List.all_cons, List.all_nil, hterms, hpart,
    decide_true, Bool.and_true, Bool.or_self, Bool.not_true, Bool.false_eq_true, if_false, hnext, hlocal, if_true, List.flatMap_cons,
    List.flatMap_nil, List.append_nil, hgoals, hdups]
  rw [if_neg (by simp [hready])]
  refine ⟨_, .forEach n [tl] _ (fun t x => .forEach n (x.elems st) _ (fun u y => ?_) t) s, rfl⟩
  split
  · exact .addSum n n u st _ _ _ _
  · exact .refl n u

/-! ## POLONAISE_VALUES -/

theorem State.SameGot.addValues (id n : Nat) (st : Stage) (part : Nat) (got : List (Nat × Nat × Nat)) (fuel k : Nat) (bs : List Byte)
    (s : State) : s.SameGot id (s.addValues n st part got k bs fuel) := by
  induction fuel generalizing k bs s with
  | zero => exact .refl id s
  | succ fuel ih =>
    unfold State.addValues
    refine ite_both (.refl id s) ?_
    dsimp only
    cases s.job? n with
    | none => exact .refl id s
    | some j =>
      dsimp only
      cases j.run.holds part (k / st.chans / st.vecB) (k % st.chans) with
      | none => exact .refl id s
      | some t => exact (ite_both (P := fun u : State => s.SameGot id u) (.refl id s) (.addSum id n s st t _ _ _)).trans (ih _ _ _)

theorem State.SameGot.sumArrived (id n : Nat) (s : State) (st : Stage) (part : Nat) : s.SameGot id (s.sumArrived n st part) := by
  unfold State.sumArrived
  cases s.job? n with
  | none => exact .refl id s
  | some j =>
    refine .forEach id _ _ (fun t x => ?_) s
    exact ite_both ((State.SameGot.setSummed id n t x _).trans (.keepSummed id n _ st part x.u)) (.refl id t)

/-- A command with a received range of bytes noted (12 R582). -/
def Job.noteGot (x : Nat × Nat × Nat) (c : Job) : Job := { c with got := c.got ++ [x] }

/-- POLONAISE_VALUES of a chain whose receiving tiles are open and have their own terms. -/
theorem execPolonaiseValues_adds {s : State} {f : SlotFrame} {p : Nat} {j : Job} {st : Stage} (hkind : f.kind = 3) (hcrc : f.crcOk = true)
    (hhears : s.laneHears f.lane = true) (hdst : s.link.fabricAddr.toNat = f.dstFa) (hsrc : s.peerOf f.srcFa = some p)
    (hchain : s.chainFor f.ident p = some (j, st)) (hlen : 0 < f.data.length / 10) (hofs : f.offset % 10 = 0)
    (hopen : ∀ i < f.data.length / 10, ∃ tl, j.run.holds (f.entry + 1) ((f.offset / 10 + i) / st.chans / st.vecB)
      ((f.offset / 10 + i) % st.chans) = some tl ∧ tl.need ≤ tl.terms) :
    ∃ u, (s.took f p).SameGot j.id u ∧ exec (.polonaiseValues f) s =
      .next (((u.modJob j.id (Job.noteGot (f.entry, f.offset, f.offset + 10 * (f.data.length / 10) - 1))).acknowledge j.id p f.entry f.ident
        f.offset (f.offset + 10 * (f.data.length / 10) - 1)).sumArrived j.id st (f.entry + 1)) := by
  change ∃ u, _ ∧ execPolonaiseValues f s = _
  have hchain' : (s.took f p).chainFor f.ident p = some (j, st) := hchain
  unfold State.took at hchain' ⊢
  unfold execPolonaiseValues
  rw [← hkind, State.arrive_own s f _ p hcrc hhears hdst hsrc]
  simp only [hchain']
  rw [if_neg]
  · exact ⟨_, .addValues j.id j.id st (f.entry + 1) j.got _ _ _ _, rfl⟩
  · rintro (hnone | hmisplaced | hclosed)
    · omega
    · exact hmisplaced hofs
    · refine Bool.false_ne_true (hclosed.symm.trans (List.all_eq_true.mpr fun i hi => ?_))
      obtain ⟨tl, hholds, hready⟩ := hopen i (List.mem_range.mp hi)
      simp [hholds, hready]

/-! ## The statement -/

/-- Settles O42: a lapse ends the command and takes its frames away; a hop closes the sending tiles once every channel of the receiving one
has its sum, and no later close takes that back; received values work on tiles and flags, and the acknowledgement is queued once. -/
theorem peerContractsAndRunningSums : Obligations.PeerContractsAndRunningSums := by
  unfold Obligations.PeerContractsAndRunningSums
  refine ⟨?_, ?_, ?_, ?_, ?_⟩
  · intro s id p j hj hrun hstop hpeer hcut
    obtain rfl := State.job?_id hj
    exact ⟨_, execPeerContractLapse_unreachable hj hrun hstop hpeer hcut, State.lapse_ends p hj (by rw [Job.live, hrun])⟩
  · intro s f p j hkind hcrc hhears hdst hsrc hj hfind
    have hfound := List.find?_some hfind
    simp only [Bool.and_eq_true, beq_iff_eq] at hfound
    obtain ⟨⟨⟨hlive, -⟩, -⟩, hident⟩ := hfound
    have hj' : (s.took f p).job? j.id = some j := hj
    obtain ⟨hended, hmem, hlogs, -⟩ := State.lapse_ends p hj' hlive
    exact ⟨_, execCancelNotice_lapses hkind hcrc hhears hdst hsrc hfind, hended, hmem, hident ▸ hlogs⟩
  · intro s n part ob j st next tl r hj hst hnext hlocal htiles hsent hterms hsummed hrows hgoal hchans hready
    have htl : tl ∈ j.run.partTiles st part ob := htiles ▸ List.mem_singleton_self tl
    have htlpart : tl.part = part := by
      have hmine := (List.mem_filter.mp htl).2
      simp only [Bool.and_eq_true, beq_iff_eq] at hmine
      exact hmine.1.1
    obtain ⟨u, hu, hexec⟩ := execPolonaiseHop_passes hj hst hnext hlocal htiles hsent hterms (htlpart ▸ hsummed) hrows hgoal hready
    obtain ⟨y, hy⟩ := List.exists_mem_of_ne_nil _ hrows
    obtain ⟨hrpart, hru, hrch⟩ := StageRun.holds_tile (hgoal y hy)
    have hkept := ((hu.trans (.setSummed n n u r (tl.shared r))).trans (.keepSummed n n _ st (part + 1) tl.u)).trans
      (.closeTile n n _ st tl)
    have hsums := u.tilesAll_setSummed n r hrch fun c hc => TileRun.mem_shared (hchans c hc) hc
    have hsums' := State.tilesAll_closeTile st tl (fun x hx hpart hengine hu hch => .inr rfl)
      (State.tilesAll_keepSummed st (part + 1) tl.u (fun x hx hpart hengine hu hch => .inr rfl) hsums)
    have hscales := congrArg State.scales hkept.offPath
    refine ⟨_, hexec, State.sameMem_of_offPath hkept.offPath, hscales,
      fun j' hj' x hx => ⟨fun hpart => ?_, ?_⟩⟩
    · exact State.tilesAll_closed _ n st tl j' hj' x hx (hpart.trans htlpart.symm)
    · exact fun hpart hengine hu hch => hsums' j' hj' x hx (hpart.trans hrpart.symm) hengine (hu.trans hru.symm) hch
  · rintro s id st tl vec ch i row x j hj rfl rfl hexact hfile
    refine ⟨?_, State.sameMem_of_offPath (State.SameGot.addSum id id s st tl vec ch x).offPath⟩
    rw [State.addSum_file s id j st tl vec ch x hj hexact hfile]
    exact s.exactAt_addExact ..
  · intro s f p j st hkind hcrc hhears hdst hsrc hchain hj hlen hofs hopen
    obtain ⟨u, hu, hexec⟩ := execPolonaiseValues_adds hkind hcrc hhears hdst hsrc hchain hlen hofs hopen
    have hdone := State.SameGot.sumArrived j.id j.id ((u.modJob j.id (Job.noteGot (f.entry, f.offset,
      f.offset + 10 * (f.data.length / 10) - 1))).acknowledge j.id p f.entry f.ident f.offset
      (f.offset + 10 * (f.data.length / 10) - 1)) st (f.entry + 1)
    have hmem := State.sameMem_of_offPath hdone.offPath
    have htx := congrArg (fun t => t.link.tx) hdone.offPath
    have hmem' := State.sameMem_of_offPath hu.offPath
    have htx' := congrArg (fun t => t.link.tx) hu.offPath
    obtain ⟨k, hk, hgot⟩ := Option.map_eq_some_iff.mp (hu.got.trans (congrArg (Option.map Job.got) hj))
    have hnoted := State.job?_modJob_some (Job.noteGot (f.entry, f.offset, f.offset + 10 * (f.data.length / 10) - 1)) (fun _ => rfl) hk
    obtain ⟨j', hj', hgot'⟩ := Option.map_eq_some_iff.mp (hdone.got.trans (congrArg (Option.map Job.got) hnoted))
    refine ⟨_, hexec, ⟨hmem.1.trans hmem'.1, hmem.2.trans hmem'.2⟩, ⟨j', hj', hgot'.trans (congrArg (· ++ _) hgot)⟩,
      _, htx.trans (congrArg (· ++ _) htx'), rfl, rfl, rfl, rfl⟩

end Sys2Proof.Machine
end

section
/-! PROOFS. What log entries, events and declarations leave as they were, what the limiters read after a change, and displaced work on
the engines. -/

namespace Sys2Proof.Machine

/-! ## Log entries and events -/

section
variable (s : State) (k : Nat) (d : Word32)

@[simp] theorem State.event_jobs : (s.event k d).jobs = s.jobs := by rw [s.event_eq]
@[simp] theorem State.event_mem : (s.event k d).mem = s.mem := by rw [s.event_eq]
@[simp] theorem State.event_monitors : (s.event k d).monitors = s.monitors := by rw [s.event_eq]
@[simp] theorem State.event_lane (i : Nat) : (s.event k d).lane i = s.lane i := by rw [s.event_eq]; rfl

end

section
variable (s : State) (code cls kind unit aux detail : Nat)

@[simp] theorem State.logError_engines : (s.logError code cls kind unit aux detail).engines = s.engines := by rw [s.logError_eq]
@[simp] theorem State.logError_jobs : (s.logError code cls kind unit aux detail).jobs = s.jobs := by rw [s.logError_eq]
@[simp] theorem State.logError_frame : (s.logError code cls kind unit aux detail).frame = s.frame := by rw [s.logError_eq]
@[simp] theorem State.logError_cal : (s.logError code cls kind unit aux detail).cal = s.cal := by rw [s.logError_eq]
@[simp] theorem State.logError_mem : (s.logError code cls kind unit aux detail).mem = s.mem := by rw [s.logError_eq]
@[simp] theorem State.logError_poison : (s.logError code cls kind unit aux detail).poison = s.poison := by rw [s.logError_eq]
@[simp] theorem State.logError_mapped : (s.logError code cls kind unit aux detail).mapped = s.mapped := by rw [s.logError_eq]
@[simp] theorem State.logError_failing : (s.logError code cls kind unit aux detail).failing = s.failing := by rw [s.logError_eq]
@[simp] theorem State.logError_sectors : (s.logError code cls kind unit aux detail).sectors = s.sectors := by rw [s.logError_eq]
@[simp] theorem State.logError_kernels : (s.logError code cls kind unit aux detail).kernels = s.kernels := by rw [s.logError_eq]
@[simp] theorem State.logError_monitors : (s.logError code cls kind unit aux detail).monitors = s.monitors := by rw [s.logError_eq]
@[simp] theorem State.logError_stackBad : (s.logError code cls kind unit aux detail).stackBad = s.stackBad := by rw [s.logError_eq]
@[simp] theorem State.logError_combs : (s.logError code cls kind unit aux detail).combs = s.combs := by rw [s.logError_eq]
@[simp] theorem State.logError_engine (e : Nat) : (s.logError code cls kind unit aux detail).engine e = s.engine e := by
  rw [s.logError_eq]; rfl
@[simp] theorem State.logError_lane (i : Nat) : (s.logError code cls kind unit aux detail).lane i = s.lane i := by
  rw [s.logError_eq]; rfl

/-- The entry that a log entry makes the newest. -/
theorem State.logs_logError : s.logs (s.logError code cls kind unit aux detail) code unit aux detail := by
  obtain ⟨hnext, hlast⟩ := s.logError_log code cls kind unit aux detail
  exact ⟨hnext, _, hlast, rfl, rfl, rfl, rfl, rfl, rfl⟩

end

/-- What the newest log entry is, is read off the log and the frame counter. -/
theorem State.logs_congr {s t u v : State} {code unit aux detail : Nat} (hs : u.log = s.log) (hf : u.frame = s.frame)
    (ht : v.log = t.log) (h : s.logs t code unit aux detail) : u.logs v code unit aux detail := by
  unfold State.logs at h ⊢
  rwa [hs, hf, ht]

/-! ## Declarations -/

section
variable (s : State) (u : Unit') (c : Nat)

@[simp] theorem State.declare_cal : (s.declare u c).cal = s.cal := by rw [(s.declare_eq u c).1]
@[simp] theorem State.declare_log : (s.declare u c).log = s.log := by rw [(s.declare_eq u c).1]
@[simp] theorem State.declare_engine (e : Nat) : (s.declare u c).engine e = s.engine e := by rw [(s.declare_eq u c).1]; rfl
@[simp] theorem State.declare_mapped : (s.declare u c).mapped = s.mapped := by rw [(s.declare_eq u c).1]

end

/-! ## Limiter channels (06 R304) -/

/-- A write at one key leaves a reading at another as it was, whatever the two take for the default. -/
theorem Sparse.get_set_ne {α : Type} [DecidableEq α] (d d' : α) (m : Sparse α) {k j : Nat} (v : α) (h : k ≠ j) :
    Sparse.get d' (Sparse.set d m k v) j = Sparse.get d' m j := by
  unfold Sparse.set
  split
  · rw [Sparse.get_erase, if_neg h]
  · rw [Sparse.get_put, if_neg h]

@[simp] theorem State.slew_modSlew (s : State) (c d : Nat) (f : Slew → Slew) :
    (s.modSlew c f).slew d = if c = d then f (s.slew c) else s.slew d := by
  change Sparse.get (s.slewRest d) (Sparse.set (s.slewRest c) s.slews c (f (s.slew c))) d = _
  by_cases h : c = d
  · subst h
    rw [Sparse.get_set, if_pos rfl, if_pos rfl]
  · rw [Sparse.get_set_ne _ _ _ _ h, if_neg h]
    rfl

/-! ## Displaced work leaves the engines as they were -/

@[simp] theorem State.splitRows_engines (is : List Nat) (s : State) (id : Nat) (t : TileRun) (lost : Nat → Nat) :
    (s.splitRows id t lost is).1.engines = s.engines := by
  induction is generalizing s t with
  | nil => rfl
  | cons i is ih =>
    unfold State.splitRows
    split
    · exact ih s t
    · exact ih _ _

@[simp] theorem State.moveBad_engines (s : State) (e row r dst slot : Nat) : (s.moveBad e row r dst slot).engines = s.engines := by
  unfold State.moveBad
  dsimp only
  split <;> rfl

@[simp] theorem State.moveTile_engines (s : State) (j : Job) (st : Stage) (t : TileRun) (r : Nat) :
    (s.moveTile j st t r).engines = s.engines := by
  unfold State.moveTile
  dsimp only
  have h := s.splitRows_engines (if st.g = 2 ∨ (t.rowsOf.length == 1) = true then [] else (s.engine r).masked) j.id t fun _ => 0
  generalize s.splitRows j.id t (fun _ => 0) _ = x at h ⊢
  obtain ⟨u, t'⟩ := x
  dsimp only at h ⊢
  rw [State.modJob_engines, ← h]
  split
  · rfl
  · refine (forEach_same State.engines _ _ (fun v x _ => forEach_same State.engines _ _ (fun w m _ => ?_) v) u :)
    exact w.moveBad_engines ..

@[simp] theorem State.displaceTile_engines (s : State) (id : Nat) (t : TileRun) : (s.displaceTile id t).engines = s.engines := by
  unfold State.displaceTile
  split
  · rfl
  · split
    · rfl
    · split
      · rfl
      · split
        · rfl
        · exact State.moveTile_engines ..

@[simp] theorem State.displace_engines (s : State) : s.displace.engines = s.engines := by
  unfold State.displace
  split
  · rfl
  · refine forEach_same State.engines _ _ (fun t j _ => ?_) s
    split
    · exact forEach_same State.engines _ _ (fun u x _ => u.displaceTile_engines j.id x) t
    · rfl

theorem State.log_of_offPath {s t : State} (h : t.offPath = s.offPath) : t.log = s.log := by
  have := congrArg State.log h
  exact this

end Sys2Proof.Machine
end

section
/-! PROOFS. ENGINE_REMOVAL and RATE_EXCURSION (05 R259 to R264, R269, R270, R280), and the statement
`LockLossAndExcursionsRemoveEngines`. -/

namespace Sys2Proof.Machine

/-! ## An engine that leaves service -/

/-- What an engine becomes that an excursion of its sector takes in (05 R269). -/
def Engine.intoExcursion (x : Engine) : Engine :=
  match x.lock with
  | .locked | .held | .calib => { x.removed true with calibAbandoned := x.calibAbandoned || x.lock == .calib }
  | _ => { x with discards := false }

/-- The turn of an excursion's loop at one engine. -/
def State.takeIn (s : State) (e : Nat) : State := s.modEngine e Engine.intoExcursion

theorem Engine.removed_bankA (x : Engine) (exc : Bool) (hdue : x.checkDue = true) (hbank : x.bankAFailed = false) :
    (x.removed exc).bankA = { pattern := true } := by
  simp [Engine.removed, Engine.underCheck, hdue, hbank]

theorem Engine.removed_issues (x : Engine) (exc : Bool) (hloss : x.lossEvent.isSome = true) (y : Issue)
    (hy : y ∈ (x.removed exc).issues) : y.excursion = true := by
  obtain ⟨z, -, rfl⟩ := List.mem_map.mp hy
  simp [hloss]

theorem Engine.intoExcursion_out (x : Engine) (h : x.lock = .locked ∨ x.lock = .held ∨ x.lock = .calib) :
    x.intoExcursion.lock = .unlocked ∧ x.intoExcursion.discards = false := by
  rcases h with h | h | h <;> simp [Engine.intoExcursion, h, Engine.removed]

theorem Engine.intoExcursion_else (x : Engine) (h₁ : x.lock ≠ .locked) (h₂ : x.lock ≠ .held) (h₃ : x.lock ≠ .calib) :
    x.intoExcursion = { x with discards := false } := by
  unfold Engine.intoExcursion
  split <;> simp_all

/-! ## ENGINE_REMOVAL -/

/-- Ring trims that return change the limiters alone. -/
theorem State.revertTrims_eq (s : State) (e : Nat) : ∃ m, s.revertTrims e = { s with slews := m } :=
  forEach_keeps (fun t => ∃ m, t = { s with slews := m }) _ _ (fun _ _ _ ⟨_, ht⟩ => ht ▸ ⟨_, rfl⟩) s ⟨_, rfl⟩

section
variable {s : State} {e f : Nat} (hloss : (s.engine e).lossEvent = some f) (hf : f < s.frame.counter)
  (hruns : s.runs .twilight = true)
include hloss hf hruns

theorem execEngineRemoval_locked (hlock : (s.engine e).lock = .locked) :
    exec (.engineRemoval e) s =
      .next (s.modEngine e fun x => x.removed (s.sector (sectorOfEngine e)).excursion).displace := by
  change execEngineRemoval e s = _
  simp [execEngineRemoval, hloss, hf, hruns, hlock, ok]

theorem execEngineRemoval_calib (hlock : (s.engine e).lock = .calib) :
    exec (.engineRemoval e) s = .next (s.abandonSlot e) := by
  change execEngineRemoval e s = _
  simp [execEngineRemoval, hloss, hf, hruns, hlock, ok]

end

/-- A slot that is abandoned: its engine is removed, memory and coefficients stay, and the entry is logged (05 R280; 16 R734). -/
theorem State.abandonSlot_spec (s : State) (e : Nat) :
    (∀ x, (s.abandonSlot e).engine x =
      if e = x then { (s.engine e).removed (s.sector (sectorOfEngine e)).excursion with calibAbandoned := true } else s.engine x) ∧
    s.sameMem (s.abandonSlot e) ∧ (s.abandonSlot e).cal = s.cal ∧
    s.logs (s.abandonSlot e) 0x0003 e 1 (65536 * (s.engine e).residRms + (s.engine e).residPeak) := by
  obtain ⟨m, htrims⟩ := s.revertTrims_eq e
  unfold State.abandonSlot
  rw [htrims]
  refine ⟨fun x => ?_, ⟨?_, ?_⟩, ?_, State.logs_congr rfl rfl rfl (State.logs_logError ..)⟩
  · rw [State.logError_engine, State.engine_modEngine]
    rfl
  · rw [State.logError_mem]; rfl
  · rw [State.logError_poison]; rfl
  · rw [State.logError_cal]; rfl

/-! ## RATE_EXCURSION -/

theorem mem_range_add (n k e : Nat) : e ∈ (List.range n).map (fun i => k + i) ↔ k ≤ e ∧ e < k + n := by
  simp only [List.mem_map, List.mem_range]
  constructor
  · rintro ⟨i, hi, rfl⟩
    omega
  · rintro ⟨hlo, hhi⟩
    exact ⟨e - k, by omega, by omega⟩

theorem nodup_range_add (n k : Nat) : ((List.range n).map fun i => k + i).Nodup :=
  List.nodup_range.map fun _ _ h => Nat.add_left_cancel h

/-- An excursion that begins is counted and logged (05 R269; 16 R734). -/
def State.noteExcursion (s : State) (k : Nat) (headroom : Bool) : State :=
  if (s.sector k).excursion then s else
    State.logError { s with cal := { s.cal with excursions := Nat.min 255 (s.cal.excursions + 1) } } 0x0002 1 0 k k (b2n headroom)

/-- A sector whose excursion takes in these engines (05 R269, R270). -/
def Sector.inExcursion (x : Sector) (es : List Nat) : Sector :=
  { x with excursion := true, ramp := true, affected := es.foldl (fun l e => insertNat e l) x.affected }

theorem State.beginExcursion_eq (s : State) (k : Nat) (l : List Nat) (headroom : Bool) :
    s.beginExcursion k l headroom = forEach (l.filter fun e => !s.engineOut e) State.takeIn
      ((s.noteExcursion k headroom).modSector k fun x => x.inExcursion (l.filter fun e => !s.engineOut e)) := rfl

theorem State.noteExcursion_frame (s : State) (k : Nat) (headroom : Bool) :
    (∀ e, (s.noteExcursion k headroom).engine e = s.engine e) ∧ (s.noteExcursion k headroom).sectors = s.sectors ∧
    s.sameMem (s.noteExcursion k headroom) := by
  unfold State.noteExcursion
  split
  · exact ⟨fun _ => rfl, rfl, rfl, rfl⟩
  · exact ⟨fun e => State.logError_engine .., State.logError_sectors .., State.logError_mem .., State.logError_poison ..⟩

theorem State.noteExcursion_begins (s : State) (k : Nat) (headroom : Bool) (h : (s.sector k).excursion = false) :
    (s.noteExcursion k headroom).cal.excursions = Nat.min 255 (s.cal.excursions + 1) ∧
    s.logs (s.noteExcursion k headroom) 0x0002 k k (b2n headroom) := by
  unfold State.noteExcursion
  rw [if_neg (by simp [h])]
  exact ⟨by rw [State.logError_cal], State.logs_congr rfl rfl rfl (State.logs_logError ..)⟩

theorem State.noteExcursion_stands (s : State) (k : Nat) (headroom : Bool) (h : (s.sector k).excursion = true) :
    s.noteExcursion k headroom = s := if_pos h

/-- What an excursion that begins or grows does to engines, sector, counts and log (05 R269, R270). -/
theorem State.beginExcursion_spec (s : State) (k : Nat) (l : List Nat) (hl : l.Nodup) (headroom : Bool) :
    (∀ e, (s.beginExcursion k l headroom).engine e =
      if e ∈ l ∧ s.engineOut e = false then (s.engine e).intoExcursion else s.engine e) ∧
    (s.beginExcursion k l headroom).sector k = (s.sector k).inExcursion (l.filter fun e => !s.engineOut e) ∧
    s.sameMem (s.beginExcursion k l headroom) ∧ (s.beginExcursion k l headroom).cal = (s.noteExcursion k headroom).cal ∧
    (s.beginExcursion k l headroom).log = (s.noteExcursion k headroom).log := by
  obtain ⟨hnoted, hsectors, hmem, hpoison⟩ := s.noteExcursion_frame k headroom
  rw [s.beginExcursion_eq]
  generalize s.noteExcursion k headroom = u at hnoted hsectors hmem hpoison ⊢
  have hsector : u.sector k = s.sector k := by unfold State.sector; rw [hsectors]
  refine ⟨fun e => ?_, ?_, ⟨?_, ?_⟩, ?_, ?_⟩
  · rw [engine_forEach Engine.intoExcursion State.takeIn (fun t n m => t.engine_modEngine n m _) _ (hl.filter _), ← hnoted e]
    simp only [List.mem_filter, Bool.not_eq_true']
    rfl
  · refine (forEach_same (State.sector · k) _ State.takeIn (fun _ _ _ => rfl) _).trans ?_
    rw [State.sector_modSector, if_pos rfl, hsector]
  · exact (forEach_same State.mem _ State.takeIn (fun _ _ _ => rfl) _).trans hmem
  · exact (forEach_same State.poison _ State.takeIn (fun _ _ _ => rfl) _).trans hpoison
  · exact forEach_same State.cal _ State.takeIn (fun _ _ _ => rfl) _
  · exact forEach_same State.log _ State.takeIn (fun _ _ _ => rfl) _

theorem execRateExcursion_begins {s : State} {k e : Nat} (hfast : 38 ≤ (s.sector k).fastCount) (hruns : s.runs .twilight = true)
    (hlo : 64 * k ≤ e) (hhi : e < 64 * k + 64) (hout : s.engineOut e = false) (haff : e ∉ (s.sector k).affected) :
    exec (.rateExcursion k) s = .next (s.beginExcursion k ((List.range 64).map fun i => 64 * k + i) false) := by
  have hany : (((List.range 64).map fun i => 64 * k + i).any fun e => !s.engineOut e && !(s.sector k).affected.contains e) = true :=
    List.any_eq_true.mpr ⟨e, (mem_range_add 64 (64 * k) e).mpr ⟨hlo, hhi⟩, by simp [hout, haff]⟩
  change execRateExcursion k s = _
  unfold execRateExcursion
  simp only [hfast, hruns, hany, decide_true, Bool.and_self]
  rfl

/-- Settles O30: an engine that a lock-loss event removes is the model's `removed` engine; an excursion takes in each engine of its
sector once. -/
theorem lockLossAndExcursionsRemoveEngines : Obligations.LockLossAndExcursionsRemoveEngines := by
  unfold Obligations.LockLossAndExcursionsRemoveEngines
  refine ⟨?_, ?_⟩
  · rintro s e f exc hloss hf hruns rfl
    refine ⟨fun hlock => ?_, fun hlock => ?_, rfl, rfl, rfl, rfl, fun y hy => ?_, fun hdue hbank => ?_⟩
    · refine ⟨_, execEngineRemoval_locked hloss hf hruns hlock, ?_⟩
      have hoff := (s.modEngine e fun x => x.removed (s.sector (sectorOfEngine e)).excursion).displace_offPath
      have hengine (x : Nat) : (s.modEngine e fun x => x.removed (s.sector (sectorOfEngine e)).excursion).displace.engine x =
          (s.modEngine e fun x => x.removed (s.sector (sectorOfEngine e)).excursion).engine x := by
        unfold State.engine
        rw [State.displace_engines]
      refine ⟨?_, fun x hx => ?_, State.sameMem_of_offPath hoff, State.log_of_offPath hoff⟩
      · rw [hengine, State.engine_modEngine, if_pos rfl]
      · rw [hengine, State.engine_modEngine, if_neg (Ne.symm hx)]
    · obtain ⟨hengine, hmem, hcal, hlogs⟩ := s.abandonSlot_spec e
      exact ⟨_, execEngineRemoval_calib hloss hf hruns hlock, (hengine e).trans (if_pos rfl),
        fun x hx => (hengine x).trans (if_neg (Ne.symm hx)), hmem, hcal, hlogs⟩
    · exact Engine.removed_issues _ _ (by simp [hloss]) y hy
    · exact Engine.removed_bankA _ _ hdue hbank
  · intro s k e hfast hruns hlo hhi hout haff
    obtain ⟨hengine, hsector, hmem, hcal, hlog⟩ := s.beginExcursion_spec k _ (nodup_range_add 64 (64 * k)) false
    refine ⟨_, execRateExcursion_begins hfast hruns hlo hhi hout haff, hmem, by rw [hsector]; rfl, by rw [hsector]; rfl, fun h => ?_, fun h => ?_,
      fun x hxlo hxhi hx => ?_, fun x hx => ?_, fun x hxlo hxhi h₁ h₂ h₃ => ?_⟩
    · obtain ⟨hcount, hlogs⟩ := s.noteExcursion_begins k false h
      exact ⟨by rw [hcal, hcount], State.logs_congr rfl rfl hlog hlogs⟩
    · rw [hcal, hlog, s.noteExcursion_stands k false h]
      exact ⟨rfl, rfl⟩
    · have hin : x ∈ (List.range 64).map fun i => 64 * k + i := (mem_range_add 64 (64 * k) x).mpr ⟨hxlo, hxhi⟩
      have hxout : s.engineOut x = false := by rcases hx with h | h | h <;> simp [State.engineOut, h]
      rw [hengine x, if_pos ⟨hin, hxout⟩, hsector, Sector.inExcursion, mem_foldl_insertNat]
      obtain ⟨hlock, hdiscards⟩ := (s.engine x).intoExcursion_out hx
      exact ⟨hlock, hdiscards, .inl (List.mem_filter.mpr ⟨hin, by simp [hxout]⟩)⟩
    · rw [hengine x, if_neg]
      rw [mem_range_add]
      omega
    · have hin : x ∈ (List.range 64).map fun i => 64 * k + i := (mem_range_add 64 (64 * k) x).mpr ⟨hxlo, hxhi⟩
      rw [hengine x]
      cases hxout : s.engineOut x
      · rw [if_pos ⟨hin, rfl⟩, Engine.intoExcursion_else _ h₁ h₂ h₃]
        rfl
      · simp

end Sys2Proof.Machine
end

section
/-! PROOFS. Identity checks (05 R240, R246, R250, R253 to R258, R264, R267, R775): the marks that a check leaves on its engine, and what
the reports of its banks and the moves of their heaters leave as it was. -/

namespace Sys2Proof.Machine

/-! ## What checks keep -/

/-- The engine without the marks that checks and heaters set on its banks. -/
def Engine.unmarked (x : Engine) : Engine := { x with undecided := [], searched := [], invalid := [], beyond := [] }

/-- The state without what the reports of checks and the moves of heaters change. -/
def State.offChecks (s : State) : State :=
  { s with engines := [], slews := [], centres := [], cal := { s.cal with wrongLine := 0 }, log := {}, out := [], failing := []
           link := { s.link with ports := [] } }

/-- From `s` to `t` a check of engine `e` has changed, of engines, the marks of `e` alone, has declared units and taken none back, and has
kept all that `offChecks` shows. -/
structure State.Checked (s : State) (e : Nat) (t : State) : Prop where
  other : ∀ x, x ≠ e → t.engine x = s.engine x
  kept : (t.engine e).unmarked = (s.engine e).unmarked
  frame : t.offChecks = s.offChecks
  failing : ∀ x ∈ s.failing, x ∈ t.failing

theorem State.Checked.refl (s : State) (e : Nat) : s.Checked e s := ⟨fun _ _ => rfl, rfl, rfl, fun _ h => h⟩

theorem State.Checked.trans {s t u : State} {e : Nat} (h : s.Checked e t) (k : t.Checked e u) : s.Checked e u where
  other x hx := (k.other x hx).trans (h.other x hx)
  kept := k.kept.trans h.kept
  frame := k.frame.trans h.frame
  failing x hx := k.failing x (h.failing x hx)

theorem State.Checked.forEach {α : Type} {e : Nat} {l : List α} {f : State → α → State} (h : ∀ (t : State) a, t.Checked e (f t a)) (s : State) :
    s.Checked e (forEach l f s) :=
  forEach_keeps (s.Checked e) l f (fun t a _ ht => ht.trans (h t a)) s (.refl s e)

section
variable {s t : State} {e : Nat} (h : s.Checked e t)
include h

theorem State.Checked.lock : (t.engine e).lock = (s.engine e).lock := by
  have := congrArg Engine.lock h.kept
  exact this
theorem State.Checked.relock : (t.engine e).relock = (s.engine e).relock := by
  have := congrArg Engine.relock h.kept
  exact this
theorem State.Checked.staged : (t.engine e).staged = (s.engine e).staged := by
  have := congrArg Engine.staged h.kept
  exact this
theorem State.Checked.jobs : t.jobs = s.jobs := by
  have := congrArg State.jobs h.frame
  exact this
theorem State.Checked.counter : t.frame.counter = s.frame.counter := by
  have := congrArg (fun x : State => x.frame.counter) h.frame
  exact this
theorem State.Checked.clusters : t.clusters = s.clusters := by
  have := congrArg State.clusters h.frame
  exact this
theorem State.Checked.sameMem : s.sameMem t := by
  have hmem := congrArg State.mem h.frame
  have hpoison := congrArg State.poison h.frame
  exact ⟨hmem, hpoison⟩

end

/-! ## The parts of a check -/

/-- Setting marks on the engine under check. -/
theorem State.Checked.mark {s t : State} {e : Nat} {f : Engine → Engine} (hengines : t.engines = (s.modEngine e f).engines)
    (hf : ∀ x : Engine, (f x).unmarked = x.unmarked) (hframe : t.offChecks = s.offChecks) (hfailing : t.failing = s.failing) :
    s.Checked e t := by
  have hengine (x : Nat) : t.engine x = (s.modEngine e f).engine x := by unfold State.engine; rw [hengines]
  refine ⟨fun x hx => ?_, ?_, hframe, fun x hx => by rwa [hfailing]⟩
  · rw [hengine, s.engine_modEngine, if_neg (Ne.symm hx)]
  · rw [hengine, s.engine_modEngine, if_pos rfl, hf]

theorem State.Checked.modEngine (s : State) (e : Nat) (f : Engine → Engine) (hf : ∀ x : Engine, (f x).unmarked = x.unmarked) :
    s.Checked e (s.modEngine e f) := .mark rfl hf rfl rfl

theorem State.Checked.logError (s : State) (e code cls kind unit aux detail : Nat) :
    s.Checked e (s.logError code cls kind unit aux detail) where
  other x _ := s.logError_engine ..
  kept := by rw [s.logError_engine]
  frame := by rw [s.logError_eq]; rfl
  failing x hx := by rwa [s.logError_failing]

theorem State.Checked.declare (s : State) (e : Nat) (u : Unit') (c : Nat) : s.Checked e (s.declare u c) := by
  obtain ⟨heq, hfails⟩ := s.declare_eq u c
  refine ⟨fun x _ => s.declare_engine u c x, by rw [s.declare_engine], ?_, hfails⟩
  rw [heq]
  rfl

/-- The marks of a bank whose heater's setting has changed (05 R246). -/
def Engine.markBeyond (x : Engine) (key : Nat × Bool) (far : Bool) : Engine :=
  { x with beyond := if far then (x.beyond.filter fun k => k != key) ++ [key] else x.beyond.filter fun k => k != key }

theorem State.Checked.setBankHeater (s : State) (e row : Nat) (isB : Bool) (low high target : Int) :
    s.Checked e (s.setBankHeater e row isB low high target) :=
  .mark (f := fun x => x.markBeyond (row, isB) _) rfl (fun _ => rfl) rfl rfl

theorem State.Checked.lockHeater (s : State) (e row : Nat) (isB : Bool) (target : Int) :
    s.Checked e (s.lockHeater e row isB target) := by
  unfold State.lockHeater
  dsimp only
  split <;> exact .setBankHeater ..

theorem State.Checked.followIdle (s : State) (e row : Nat) (isB : Bool) : s.Checked e (s.followIdle e row isB) := by
  unfold State.followIdle
  dsimp only
  split
  · exact .refl s e
  · exact .lockHeater ..

theorem State.Checked.startSearch (s : State) (e : Nat) (l : List (Nat × Bool × Int)) : s.Checked e (s.startSearch e l) := by
  refine .forEach (fun t x => ?_) s
  dsimp only
  split
  · exact .setBankHeater ..
  · exact (State.Checked.setBankHeater ..).trans (.followIdle ..)

theorem State.Checked.setCentre (s : State) (e row : Nat) (isB : Bool) : s.Checked e (s.setCentre e row isB) :=
  .mark rfl (fun _ => rfl) rfl rfl

/-! ## The report of a bank (05 R257, R264, R267, R775) -/

/-- The marks of a bank that has passed. -/
def Engine.markPassed (x : Engine) (key : Nat × Bool) : Engine :=
  { x with undecided := x.undecided.filter fun k => k != key, searched := x.searched.filter fun k => k != key
           invalid := x.invalid.filter fun k => k != key }
/-- The marks of a bank that sits on another line. -/
def Engine.markWrong (x : Engine) (key : Nat × Bool) : Engine :=
  { x with undecided := x.undecided.filter fun k => k != key, searched := x.searched.filter fun k => k != key
           invalid := (x.invalid.filter fun k => k != key) ++ [key] }
/-- The marks of a bank that a check has not decided. -/
def Engine.markUndecided (x : Engine) (key : Nat × Bool) : Engine :=
  { x with undecided := (x.undecided.filter fun k => k != key) ++ [key], searched := x.searched.filter fun k => k != key }

/-- A bank on another line is counted, up to 255. -/
def State.countWrong (s : State) : State := { s with cal := { s.cal with wrongLine := Nat.min 255 (s.cal.wrongLine + 1) } }
/-- A bank on another line is counted and logged, and its marks are set. -/
def State.noteWrong (s : State) (e detail : Nat) (b : BankShift) (n : Int) : State :=
  (s.countWrong.logError 0x0001 1 1 e (b.row + 256 * b2n b.isB + 4096 * toBits n 4) detail).modEngine e fun x =>
    x.markWrong (b.row, b.isB)
/-- A bank that has failed twice is declared failed. -/
def State.declareTwice (s : State) (e : Nat) (isB twice : Bool) : State := if twice then s.declare (.bank e isB) 1 else s

section
variable (s : State) (e detail : Nat) (b : BankShift)

theorem State.bankReport_failed (h : (if b.isB then (s.engine e).bankBFailed else (s.engine e).bankAFailed) = true) :
    s.bankReport e detail b = s := if_pos h

variable (hbank : (if b.isB then (s.engine e).bankBFailed else (s.engine e).bankAFailed) = false)
include hbank

theorem State.bankReport_undecided (h : b.shift = none) : s.bankReport e detail b =
    (s.modEngine e fun x => x.markUndecided (b.row, b.isB)).declareTwice e b.isB
      ((s.engine e).undecided.contains (b.row, b.isB)) := by
  unfold State.bankReport
  rw [if_neg (by simp [hbank]), h]
  rfl

theorem State.bankReport_passes (h : b.shift = some 0) : s.bankReport e detail b =
    (s.modEngine e fun x => x.markPassed (b.row, b.isB)).setCentre e b.row b.isB := by
  unfold State.bankReport
  rw [if_neg (by simp [hbank]), h]
  rfl

theorem State.bankReport_wrong {n : Int} (h : b.shift = some n) (hn : n ≠ 0) : s.bankReport e detail b =
    (s.noteWrong e detail b n).declareTwice e b.isB ((s.engine e).searched.contains (b.row, b.isB)) := by
  unfold State.bankReport
  rw [if_neg (by simp [hbank]), h]
  exact if_neg hn

end

theorem State.Checked.declareTwice (s : State) (e : Nat) (isB twice : Bool) : s.Checked e (s.declareTwice e isB twice) := by
  unfold State.declareTwice
  split
  · exact .declare ..
  · exact .refl ..

theorem State.Checked.noteWrong (s : State) (e detail : Nat) (b : BankShift) (n : Int) : s.Checked e (s.noteWrong e detail b n) := by
  have hcount : s.Checked e s.countWrong := ⟨fun _ _ => rfl, rfl, rfl, fun _ h => h⟩
  exact hcount.trans ((State.Checked.logError ..).trans (.modEngine _ e _ fun _ => rfl))

theorem State.Checked.bankReport (s : State) (e detail : Nat) (b : BankShift) : s.Checked e (s.bankReport e detail b) := by
  cases hbank : if b.isB then (s.engine e).bankBFailed else (s.engine e).bankAFailed
  case true => rw [s.bankReport_failed e detail b hbank]; exact .refl s e
  case false =>
    rcases hshift : b.shift with _ | n
    · rw [s.bankReport_undecided e detail b hbank hshift]
      exact (State.Checked.modEngine s e (fun x => x.markUndecided (b.row, b.isB)) fun _ => rfl).trans (.declareTwice ..)
    · by_cases hn : n = 0
      · rw [s.bankReport_passes e detail b hbank (hn ▸ hshift)]
        exact (State.Checked.modEngine s e (fun x => x.markPassed (b.row, b.isB)) fun _ => rfl).trans (.setCentre ..)
      · rw [s.bankReport_wrong e detail b hbank hshift hn]
        exact (State.Checked.noteWrong ..).trans (.declareTwice ..)

/-- A bank that passes is not declared failed. -/
theorem State.bankReport_passes_failing (s : State) (e detail : Nat) (b : BankShift) (h : b.shift = some 0) :
    (s.bankReport e detail b).failing = s.failing := by
  cases hbank : if b.isB then (s.engine e).bankBFailed else (s.engine e).bankAFailed
  case true => rw [s.bankReport_failed e detail b hbank]
  case false => rw [s.bankReport_passes e detail b hbank h]; rfl

theorem State.declareTwice_cal (s : State) (e : Nat) (isB twice : Bool) : (s.declareTwice e isB twice).cal = s.cal := by
  unfold State.declareTwice
  split
  · exact s.declare_cal ..
  · rfl
theorem State.declareTwice_log (s : State) (e : Nat) (isB twice : Bool) : (s.declareTwice e isB twice).log = s.log := by
  unfold State.declareTwice
  split
  · exact s.declare_log ..
  · rfl
theorem State.declareTwice_engine (s : State) (e : Nat) (isB twice : Bool) (x : Nat) :
    (s.declareTwice e isB twice).engine x = s.engine x := by
  unfold State.declareTwice
  split
  · exact s.declare_engine ..
  · rfl

/-- A bank that fails a second time is declared failed. -/
theorem State.declareTwice_mem (s : State) (e : Nat) (isB : Bool) (h : s.mapped.contains (.bank e isB) = false) :
    ∃ c, (Unit'.bank e isB, c) ∈ (s.declareTwice e isB true).failing := s.declare_mem _ 1 h

/-! ## The check of a modulator row (05 R240, R254, R258) -/

section
variable (s : State) (c : Nat) (good : Bool)

/-- The check of a modulator row changes its cluster's count, its centre and what is declared failed. -/
theorem State.modRowCheck_eq : ∃ m l f, s.modRowCheck c good = { s with clusters := m, centres := l, failing := f } ∧
    ∀ x ∈ s.failing, x ∈ f := by
  unfold State.modRowCheck
  extract_lets n u v
  have huv : ∃ l, v = { s with clusters := s.clusters.modify {} c fun x => { x with modFails := n }, centres := l } := by
    cases good <;> exact ⟨_, rfl⟩
  obtain ⟨l, hv⟩ := huv
  clear_value v
  subst hv
  split
  · obtain ⟨heq, hfails⟩ := State.declare_eq { s with clusters := s.clusters.modify {} c fun x => { x with modFails := n }, centres := l }
      (.modulator c 0) 5
    exact ⟨_, _, _, heq, hfails⟩
  · exact ⟨_, _, _, rfl, fun _ h => h⟩

theorem State.modRowCheck_passes : ((s.modRowCheck c true).cluster c).modFails = 0 := by
  change ((s.modCluster c fun x => { x with modFails := 0 }).cluster c).modFails = 0
  rw [State.cluster_modCluster, if_pos rfl]

/-- A modulator row that fails its second check in succession is declared failed (16 R724). -/
theorem State.modRowCheck_fails (h : (s.cluster c).modFails = 1) (hmapped : s.mapped.contains (.modulator c 0) = false) :
    ∃ k, (Unit'.modulator c 0, k) ∈ (s.modRowCheck c false).failing := by
  unfold State.modRowCheck
  rw [h]
  exact State.declare_mem _ _ 5 hmapped

end

end Sys2Proof.Machine
end

section
/-! PROOFS. Relocks (05 R255 to R257, R264 to R266, R270, R272, R775; 04 R202): their checks, index searches, acquisition and recovery
runs, and the statement `RelocksCheckAndReportEachBank`. -/

namespace Sys2Proof.Machine

/-! ## A relock begins -/

/-- The engine whose relock begins: its banks are under the first check (05 R265, R266). -/
def Engine.beginRelock (x : Engine) (frame : Nat) : Engine :=
  { x.underCheck with lock := .verify, lossEvent := none, checkDue := false
                      relock := { startFrame := frame, step := 0, search := [] } }

theorem execRelockStart_enters {s : State} {e : Nat} (hlock : (s.engine e).lock = .unlocked) (hruns : s.runs .twilight = true)
    (hslow : s.slowRate (sectorOfEngine e) = true) (hbeyond : (s.engine e).beyond = []) (hcomb : s.combOn e = true) :
    ∃ m, exec (.relockStart e) s = .next { s.modEngine e (fun x => x.beginRelock s.frame.counter) with sectors := m } := by
  change ∃ m, execRelockStart e s = _
  unfold execRelockStart
  simp only [hlock, hruns, hslow, hbeyond, hcomb, List.isEmpty_nil, Bool.and_self, Bool.not_true, Bool.false_eq_true, if_false,
    beq_self_eq_true, Bool.true_or]
  split
  · exact ⟨_, rfl⟩
  · exact ⟨_, rfl⟩

/-! ## Checks of an engine that relocks -/

theorem execVectorCheck_done {s : State} {e : Nat} {r : List CheckReading} {l : List BankShift} (hruns : s.runs .twilight = true)
    (htone : (s.engine e).toneRelock = false) (hl : s.checkShifts e false r = some l) :
    exec (.vectorCheckComplete e r) s = .next (s.checkDone e l) := by
  change execVectorCheckComplete e r s = _
  unfold execVectorCheckComplete
  rw [if_neg (by simp [hruns, htone]), hl]
  rfl

theorem execToneCheck_done {s : State} {e : Nat} {r : List CheckReading} {rowOk : Bool} {l : List BankShift}
    (hruns : s.runs .twilight = true) (hlock : (s.engine e).lock ≠ .calib) (htone : (s.engine e).toneRelock = true)
    (hl : s.checkShifts e true r = some l) :
    exec (.toneCheckComplete e r rowOk) s = .next ((s.modRowCheck (e / 4) rowOk).checkDone e l) := by
  have hcalib : ((s.engine e).lock == .calib) = false := by simpa using hlock
  change execToneCheckComplete e r rowOk s = _
  unfold execToneCheckComplete
  simp only [hruns, htone, hcalib, hl]
  rfl

/-- A check of an engine in VERIFY does what `checkDone` does, with a modulator row's check before it in a check of tones. -/
theorem exec_check_of_verify {s : State} {e : Nat} {i : Instr} {r : List CheckReading} {rowOk : Bool} {l : List BankShift}
    (hruns : s.runs .twilight = true) (hlock : (s.engine e).lock = .verify)
    (hi : (i = .vectorCheckComplete e r ∧ (s.engine e).toneRelock = false ∧ s.checkShifts e false r = some l) ∨
      (i = .toneCheckComplete e r rowOk ∧ (s.engine e).toneRelock = true ∧ s.checkShifts e true r = some l)) :
    ∃ u : State, exec i s = .next (u.checkDone e l) ∧ u.engines = s.engines ∧ s.sameMem u ∧
      (i = .vectorCheckComplete e r → u = s) := by
  rcases hi with ⟨rfl, htone, hl⟩ | ⟨rfl, htone, hl⟩
  · exact ⟨s, execVectorCheck_done hruns htone hl, rfl, ⟨rfl, rfl⟩, fun _ => rfl⟩
  · obtain ⟨m, c, f, heq, -⟩ := s.modRowCheck_eq (e / 4) rowOk
    refine ⟨_, execToneCheck_done hruns (by simp [hlock]) htone hl, ?_, ?_, nofun⟩
    · rw [heq]
    · rw [heq]; exact ⟨rfl, rfl⟩

/-- The reports of a check's banks. -/
def State.bankReports (s : State) (e detail : Nat) (l : List BankShift) : State := forEach l (fun s b => s.bankReport e detail b) s

theorem State.Checked.bankReports (s : State) (e detail : Nat) (l : List BankShift) : s.Checked e (s.bankReports e detail l) :=
  .forEach (fun _ _ => .bankReport ..) s

theorem State.bankReports_pass_failing {e detail : Nat} {l : List BankShift} (h : ∀ b ∈ l, b.shift = some 0) (s : State) :
    (s.bankReports e detail l).failing = s.failing :=
  forEach_same State.failing l _ (fun t b hb => t.bankReport_passes_failing e detail b (h b hb)) s

section
variable {s : State} {e : Nat} (l : List BankShift) (hlock : (s.engine e).lock = .verify)
include hlock

/-- The first check of a relock leads to index search and acquisition (05 R264, R266). -/
theorem State.checkDone_first (hstep : (s.engine e).relock.step = 0) : s.checkDone e l =
    ((s.bankReports e 0 l).modEngine e fun x =>
      { x.parked with lock := .search, relock := { x.relock with step := 1, search := wrongBanks l } }).startSearch e (wrongBanks l) := by
  unfold State.checkDone
  simp only [hlock, hstep]
  rfl

/-- The second check of a relock leads to the recovery run when every bank passes, else to a restart (05 R266, R775). -/
theorem State.checkDone_second (hstep : (s.engine e).relock.step = 2) : s.checkDone e l =
    if l.all (fun b => b.shift == some 0) then
      (s.bankReports e 0 l).modEngine e fun x => { x.parked with relock := { x.relock with step := 3 } }
    else ((s.bankReports e 0 l).modEngine e Engine.parked).restartRelock e false := by
  unfold State.checkDone
  simp only [hlock, hstep]
  rfl

end

/-- What the first check of a relock leaves. -/
theorem State.checkDone_first_spec (s : State) (e : Nat) (l : List BankShift) (hlock : (s.engine e).lock = .verify)
    (hstep : (s.engine e).relock.step = 0) :
    ((s.checkDone e l).engine e).lock = .search ∧
    ((s.checkDone e l).engine e).relock = { (s.engine e).relock with step := 1, search := wrongBanks l } ∧
    ((s.checkDone e l).engine e).bankA = {} ∧ ((s.checkDone e l).engine e).bankB = {} ∧
    (∀ x, x ≠ e → (s.checkDone e l).engine x = s.engine x) ∧ s.sameMem (s.checkDone e l) := by
  rw [State.checkDone_first l hlock hstep]
  have hreports := State.Checked.bankReports s e 0 l
  generalize s.bankReports e 0 l = u at hreports ⊢
  have hsearch := State.Checked.startSearch (u.modEngine e fun x =>
    { x.parked with lock := .search, relock := { x.relock with step := 1, search := wrongBanks l } }) e (wrongBanks l)
  generalize State.startSearch _ e (wrongBanks l) = t at hsearch ⊢
  obtain ⟨hmem, hpoison⟩ := hreports.sameMem
  obtain ⟨hmem', hpoison'⟩ := hsearch.sameMem
  have hA := congrArg Engine.bankA hsearch.kept
  have hB := congrArg Engine.bankB hsearch.kept
  have hself (f : Engine → Engine) := (u.engine_modEngine e e f).trans (if_pos rfl)
  refine ⟨?_, ?_, ?_, ?_, fun x hx => ?_, hmem'.trans hmem, hpoison'.trans hpoison⟩
  · rw [hsearch.lock, hself]
  · rw [hsearch.relock, hself, ← hreports.relock]
  · exact hA.trans (by rw [hself]; rfl)
  · exact hB.trans (by rw [hself]; rfl)
  · rw [hsearch.other x hx, State.engine_modEngine, if_neg (Ne.symm hx), hreports.other x hx]

/-- What the second check of a relock leaves. -/
theorem State.checkDone_second_spec (s : State) (e : Nat) (l : List BankShift) (hlock : (s.engine e).lock = .verify)
    (hstep : (s.engine e).relock.step = 2) :
    ((s.checkDone e l).engine e).lock = .verify ∧
    ((∀ b ∈ l, b.shift = some 0) → ((s.checkDone e l).engine e).relock.step = 3 ∧ (s.checkDone e l).failing = s.failing) ∧
    ((∃ b ∈ l, b.shift ≠ some 0) → ((s.checkDone e l).engine e).relock.step = 5) ∧
    ∀ x, x ≠ e → (s.checkDone e l).engine x = s.engine x := by
  rw [State.checkDone_second l hlock hstep]
  have hreports := State.Checked.bankReports s e 0 l
  by_cases hall : ∀ b ∈ l, b.shift = some 0
  · rw [if_pos (by simpa using hall)]
    refine ⟨?_, fun _ => ⟨?_, State.bankReports_pass_failing hall s⟩, fun ⟨b, hb, hn⟩ => absurd (hall b hb) hn, fun x hx => ?_⟩
    · rw [State.engine_modEngine, if_pos rfl]
      exact hreports.lock.trans hlock
    · rw [State.engine_modEngine, if_pos rfl]
    · rw [State.engine_modEngine, if_neg (Ne.symm hx), hreports.other x hx]
  · rw [if_neg (by simpa using hall)]
    refine ⟨?_, fun h => absurd h hall, fun _ => ?_, fun x hx => ?_⟩
    · simp only [State.restartRelock, State.engine_modEngine, if_pos]
      exact hreports.lock.trans hlock
    · simp only [State.restartRelock, State.engine_modEngine, if_pos]
    · simp only [State.restartRelock, State.engine_modEngine, if_neg (Ne.symm hx), hreports.other x hx]

/-! ## Index search and acquisition -/

theorem execIndexSearch_moves {s : State} {e row : Nat} {isB : Bool} {n : Int} (hlock : (s.engine e).lock = .search)
    (hstep : (s.engine e).relock.step = 1) (hmem : (row, isB, n) ∈ (s.engine e).relock.search)
    (hstands : (s.slew (heaterChan e row isB)).present = (s.slew (heaterChan e row isB)).target) :
    exec (.indexSearchComplete e row isB) s = .next (s.modEngine e fun x => { x with
      searched := x.searched ++ [(row, isB)]
      relock := { x.relock with search := x.relock.search.filter fun k => !(k.1 == row && k.2.1 == isB) } }) := by
  have hany : ((s.engine e).relock.search.any fun k => k.1 == row && k.2.1 == isB) = true :=
    List.any_eq_true.mpr ⟨_, hmem, by simp⟩
  exact if_pos ⟨hlock, hstep, hany, hstands⟩

theorem heaterChan_other (e row : Nat) (isB : Bool) : heaterChan e row (!isB) ≠ heaterChan e row isB := by
  cases isB <;> simp [heaterChan, b2n]

@[simp] theorem State.slew_setBankHeater (s : State) (e row : Nat) (isB : Bool) (low high target : Int) (c : Nat) :
    (s.setBankHeater e row isB low high target).slew c = if heaterChan e row isB = c then
      { s.slew c with target := (clampInt (max (s.tones.get {} (heaterChan e row isB)).amp low)
        (min (65535 - (s.tones.get {} (heaterChan e row isB)).amp) high) target).toNat } else s.slew c := by
  unfold State.setBankHeater
  dsimp only
  rw [State.slew_modSlew]
  split
  · next h => subst h; rfl
  · rfl

/-- The heater of a row's other bank does not touch this bank's. -/
theorem State.slew_followIdle (s : State) (e row : Nat) (isB : Bool) :
    (s.followIdle e row isB).slew (heaterChan e row isB) = s.slew (heaterChan e row isB) := by
  unfold State.followIdle
  dsimp only
  split
  · rfl
  · unfold State.lockHeater
    dsimp only
    split <;> rw [State.slew_setBankHeater, if_neg (heaterChan_other e row isB)]

theorem clampInt_inside {lo hi i : Int} (hlo : lo ≤ i) (hhi : i ≤ hi) : clampInt lo hi i = i := by
  unfold clampInt
  rw [if_neg (by omega), if_neg (by omega)]

/-- The index search of one bank moves its heater by whole line spacings (05 R257). -/
theorem State.startSearch_target (s : State) (e row : Nat) (isB : Bool) (n target : Int)
    (htarget : target = ((s.slew (heaterChan e row isB)).present : Int) + n * lineBits)
    (hlo : ((s.tones.get {} (heaterChan e row isB)).amp : Int) ≤ target)
    (hhi : target ≤ 65535 - ((s.tones.get {} (heaterChan e row isB)).amp : Int)) :
    ((s.startSearch e [(row, isB, n)]).slew (heaterChan e row isB)).target = target.toNat := by
  have hturn : s.startSearch e [(row, isB, n)] = (s.setBankHeater e row isB 0 65535 target).followIdle e row isB := by
    rw [htarget]
    simp [State.startSearch, forEach]
  rw [hturn, State.slew_followIdle, State.slew_setBankHeater, if_pos rfl]
  dsimp only
  rw [clampInt_inside (by omega) (by omega)]

theorem execAcquisition_ends {s : State} {e : Nat} (hlock : (s.engine e).lock = .search) (hstep : (s.engine e).relock.step = 1)
    (hsearch : (s.engine e).relock.search = []) (hruns : s.runs .twilight = true) :
    exec (.acquisitionComplete e) s = .next (s.modEngine e fun x =>
      { x.underCheck with lock := .verify, relock := { x.relock with step := 2 } }) :=
  if_pos ⟨hlock, hstep, by rw [hsearch]; rfl, hruns⟩

/-! ## The recovery run (04 R202; 05 R266, R272, R775) -/

/-- A run over all accumulator slots of an engine changes the accumulator files alone. -/
theorem State.selfTiles_eq (s : State) (e : Nat) : ∃ n c r l, s.selfTiles e =
    { s with free := n, acc := s.acc.keep (fun k => !accOf e k), carries := c, accRuns := r, tiles := l } := ⟨_, _, _, _, rfl⟩

theorem State.settled_engine (s : State) (e x : Nat) : (s.settled e).engine x = s.engine x := rfl

theorem State.settled_affected (s : State) (e : Nat) : e ∉ ((s.settled e).sector (sectorOfEngine e)).affected := by
  unfold State.settled
  rw [State.sector_modSector, if_pos rfl]
  simp

/-- The state after a recovery run, before its verdict. -/
def State.recoveryRun (s : State) (e : Nat) (resid : List Int) : State := (s.selfTiles e).windowResid e resid

theorem State.recoveryRun_frame (s : State) (e : Nat) (resid : List Int) :
    (∀ x, x ≠ e → (s.recoveryRun e resid).engine x = s.engine x) ∧
    (∀ k, (s.recoveryRun e resid).acc.get none k = if accOf e k then none else s.acc.get none k) ∧
    ((s.recoveryRun e resid).engine e).lock = (s.engine e).lock ∧
    ((s.recoveryRun e resid).engine e).recovFails = (s.engine e).recovFails ∧
    (s.recoveryRun e resid).failing = s.failing ∧ (s.recoveryRun e resid).mapped = s.mapped ∧
    (s.recoveryRun e resid).frame = s.frame := by
  obtain ⟨n, c, r, l, heq⟩ := s.selfTiles_eq e
  unfold State.recoveryRun State.windowResid
  rw [heq]
  refine ⟨fun x hx => ?_, fun k => ?_, ?_, ?_, rfl, rfl, rfl⟩
  · rw [State.engine_modEngine, if_neg (Ne.symm hx)]; rfl
  · change Sparse.get none (s.acc.keep fun k => !accOf e k) k = _
    rw [Sparse.get_keep]
    cases accOf e k <;> rfl
  · rw [State.engine_modEngine, if_pos rfl]; rfl
  · rw [State.engine_modEngine, if_pos rfl]; rfl

section
variable {s : State} {e : Nat} {codes exact : List Int} (hlock : (s.engine e).lock = .verify)
  (hstep : (s.engine e).relock.step = 3) (hruns : s.runs .twilight = true) (htemp : s.tempOk (sectorOfEngine e) = true)
include hlock hstep hruns htemp

/-- The verdict of a recovery run. -/
theorem execRecoveryRun_ends : exec (.recoveryRunComplete e codes exact) s = .next
    (if s.residOver (runResid codes exact) = false then (s.recoveryRun e (runResid codes exact)).enterService e else
      let u := (s.recoveryRun e (runResid codes exact)).restartRelock e true
      if 3 ≤ (u.engine e).recovFails then u.declare (.engine e) 0 else u) := by
  have hover : (s.recoveryRun e (runResid codes exact)).residOver (runResid codes exact) = s.residOver (runResid codes exact) := rfl
  change execRecoveryRunComplete e codes exact s = _
  unfold execRecoveryRunComplete
  simp only [hlock, hstep, hruns, htemp]
  change (if (!(s.recoveryRun e (runResid codes exact)).residOver (runResid codes exact)) = true then _ else _) = _
  rw [hover]
  cases s.residOver (runResid codes exact) <;> rfl

end

/-- An engine that enters service (05 R244, R259, R272). -/
theorem State.enterService_spec (s : State) (e : Nat) :
    (∀ x, x ≠ e → (s.enterService e).engine x = s.engine x) ∧ (s.enterService e).acc = s.acc ∧
    ((s.enterService e).engine e).lock = .locked ∧ ((s.enterService e).engine e).recovFails = 0 ∧
    ((s.enterService e).engine e).bankA = {} ∧ ((s.enterService e).engine e).bankB = {} ∧
    ((s.enterService e).engine e).lastPass = s.frame.counter ∧
    e ∉ ((s.enterService e).sector (sectorOfEngine e)).affected ∧ (s.enterService e).failing = s.failing := by
  unfold State.enterService
  refine ⟨fun x hx => ?_, rfl, ?_, ?_, ?_, ?_, ?_, State.settled_affected _ e, rfl⟩
  · rw [State.settled_engine, State.engine_modEngine, if_neg (Ne.symm hx)]
  all_goals rw [State.settled_engine, State.engine_modEngine, if_pos rfl]
  all_goals rfl

/-- A relock that its recovery run restarts (05 R775). -/
theorem State.restartRelock_engine (s : State) (e x : Nat) (recov : Bool) : (s.restartRelock e recov).engine x = if e = x then
    { s.engine e with relock := { (s.engine e).relock with step := 5 }, recovFails := if recov then (s.engine e).recovFails + 1 else 0 }
    else s.engine x := s.engine_modEngine ..

/-- RECOVERY_RUN_COMPLETE: within RESID_LIMITS the engine enters service; else the relock restarts, the third time in succession with
the engine declared failed (05 R266, R775). -/
theorem does_recoveryRunComplete (s : State) (e : Nat) (codes exact resid : List Int) (hresid : resid = runResid codes exact)
    (hlock : (s.engine e).lock = .verify) (hstep : (s.engine e).relock.step = 3) (hruns : s.runs .twilight = true)
    (htemp : s.tempOk (sectorOfEngine e) = true) :
    Does (.recoveryRunComplete e codes exact) s fun t => (∀ x, x ≠ e → t.engine x = s.engine x) ∧
      (∀ k, t.acc.get none k = if accOf e k then none else s.acc.get none k) ∧
      (s.residOver resid = false → (t.engine e).lock = .locked ∧ (t.engine e).recovFails = 0 ∧ (t.engine e).bankA = {} ∧
        (t.engine e).bankB = {} ∧
        (t.engine e).lastPass = s.frame.counter ∧ e ∉ (t.sector (sectorOfEngine e)).affected ∧ t.failing = s.failing) ∧
      (s.residOver resid = true → (t.engine e).lock = .verify ∧ (t.engine e).relock.step = 5 ∧
        (t.engine e).recovFails = (s.engine e).recovFails + 1 ∧
        (2 ≤ (s.engine e).recovFails → s.mapped.contains (.engine e) = false →
          (∃ c, (Unit'.engine e, c) ∈ t.failing) ∧ ∀ x ∈ s.failing, x ∈ t.failing)) := by
  subst hresid
  refine ⟨_, execRecoveryRun_ends hlock hstep hruns htemp, ?_⟩
  obtain ⟨hother, hacc, hlock', hfails, hfailing, hmapped, hframe⟩ := s.recoveryRun_frame e (runResid codes exact)
  generalize s.recoveryRun e (runResid codes exact) = u at hother hacc hlock' hfails hfailing hmapped hframe ⊢
  cases hover : s.residOver (runResid codes exact)
  · rw [if_pos rfl]
    obtain ⟨kother, kacc, klock, kfails, kA, kB, kpass, kaff, kfailing⟩ := u.enterService_spec e
    exact ⟨fun x hx => (kother x hx).trans (hother x hx), fun k => by rw [kacc, hacc],
      fun _ => ⟨klock, kfails, kA, kB, by rw [kpass, hframe], kaff, kfailing.trans hfailing⟩, nofun⟩
  · rw [if_neg nofun]
    extract_lets v
    have hv (x : Nat) : v.engine x = _ := u.restartRelock_engine e x true
    have hvself : (v.engine e).recovFails = (s.engine e).recovFails + 1 := by rw [hv, if_pos rfl, ← hfails]; rfl
    have hdeclared (t : State) (ht : t = if 3 ≤ (v.engine e).recovFails then v.declare (.engine e) 0 else v) :
        (∀ x, t.engine x = v.engine x) ∧ t.acc = u.acc := by
      subst ht
      split
      · exact ⟨fun x => v.declare_engine _ 0 x, by rw [(v.declare_eq (.engine e) 0).1]; rfl⟩
      · exact ⟨fun _ => rfl, rfl⟩
    obtain ⟨hengine, hacc'⟩ := hdeclared _ rfl
    refine ⟨fun x hx => ?_, fun k => by rw [hacc', hacc], nofun, fun _ => ⟨?_, ?_, ?_, fun hthird hnot => ?_⟩⟩
    · rw [hengine, hv, if_neg (Ne.symm hx), hother x hx]
    · rw [hengine, hv, if_pos rfl]; exact hlock'.trans hlock
    · rw [hengine, hv, if_pos rfl]
    · rw [hengine, hvself]
    · rw [if_pos (by omega)]
      refine ⟨v.declare_mem (.engine e) 0 (hmapped ▸ hnot), fun x hx => (v.declare_eq (.engine e) 0).2 x ?_⟩
      exact hfailing ▸ hx

/-! ## What a check reports of a bank -/

theorem does_check_of_verify (s : State) (e : Nat) (i : Instr) (r : List CheckReading) (rowOk : Bool) (l : List BankShift)
    (hruns : s.runs .twilight = true) (hlock : (s.engine e).lock = .verify)
    (hi : (i = .vectorCheckComplete e r ∧ (s.engine e).toneRelock = false ∧ s.checkShifts e false r = some l) ∨
      (i = .toneCheckComplete e r rowOk ∧ (s.engine e).toneRelock = true ∧ s.checkShifts e true r = some l)) :
    ((s.engine e).relock.step = 0 →
      Does i s fun t => (t.engine e).lock = .search ∧ (t.engine e).relock.step = 1 ∧
        (t.engine e).relock.search = wrongBanks l ∧ (t.engine e).relock.startFrame = (s.engine e).relock.startFrame ∧
        (t.engine e).bankA = {} ∧ (t.engine e).bankB = {} ∧ (∀ x, x ≠ e → t.engine x = s.engine x) ∧ s.sameMem t) ∧
    ((s.engine e).relock.step = 2 →
      Does i s fun t => (t.engine e).lock = .verify ∧
        ((∀ b ∈ l, b.shift = some 0) → (t.engine e).relock.step = 3 ∧ (i = .vectorCheckComplete e r → s.failing = t.failing)) ∧
        ((∃ b ∈ l, b.shift ≠ some 0) → (t.engine e).relock.step = 5) ∧ ∀ x, x ≠ e → t.engine x = s.engine x) := by
  obtain ⟨u, hexec, hengines, ⟨hmem, hpoison⟩, hsame⟩ := exec_check_of_verify hruns hlock hi
  have hengine (x : Nat) : u.engine x = s.engine x := by unfold State.engine; rw [hengines]
  rw [← hengine e] at hlock
  refine ⟨fun hstep => ⟨_, hexec, ?_⟩, fun hstep => ⟨_, hexec, ?_⟩⟩
  · rw [← hengine e] at hstep
    obtain ⟨klock, krelock, kA, kB, kother, kmem, kpoison⟩ := u.checkDone_first_spec e l hlock hstep
    exact ⟨klock, by rw [krelock], by rw [krelock], by rw [krelock, hengine], kA, kB, fun x hx => (kother x hx).trans (hengine x),
      kmem.trans hmem, kpoison.trans hpoison⟩
  · rw [← hengine e] at hstep
    obtain ⟨klock, kpass, kfail, kother⟩ := u.checkDone_second_spec e l hlock hstep
    refine ⟨klock, fun h => ⟨(kpass h).1, fun hi => ?_⟩, kfail, fun x hx => (kother x hx).trans (hengine x)⟩
    rw [(kpass h).2, hsame hi]

section
variable (s : State) (e detail : Nat) (b : BankShift)
  (hbank : (if b.isB then (s.engine e).bankBFailed else (s.engine e).bankAFailed) = false)
include hbank

theorem State.bankReport_passes_spec (h : b.shift = some 0) :
    (b.row, b.isB) ∉ ((s.bankReport e detail b).engine e).invalid ∧ (s.bankReport e detail b).cal = s.cal ∧
    (s.bankReport e detail b).failing = s.failing ∧
    (s.bankReport e detail b).centres.get 0 (heaterChan e b.row b.isB) = (s.slew (heaterChan e b.row b.isB)).present := by
  rw [s.bankReport_passes e detail b hbank h]
  refine ⟨?_, rfl, rfl, ?_⟩
  · have hinvalid : (((s.modEngine e fun x => x.markPassed (b.row, b.isB)).setCentre e b.row b.isB).engine e).invalid =
        (s.engine e).invalid.filter fun k => k != (b.row, b.isB) := by
      unfold State.setCentre
      rw [State.engine_modEngine, if_pos rfl]
      change ((s.modEngine e fun x => x.markPassed (b.row, b.isB)).engine e).invalid = _
      rw [State.engine_modEngine, if_pos rfl]
      rfl
    rw [hinvalid]
    simp
  · change Sparse.get 0 (Sparse.set 0 s.centres (heaterChan e b.row b.isB) _) _ = _
    rw [Sparse.get_set, if_pos rfl]
    rfl

theorem State.bankReport_wrong_spec (hmapped : s.mapped.contains (.bank e b.isB) = false) {n : Int} (h : b.shift = some n)
    (hn : n ≠ 0) :
    (b.row, b.isB) ∈ ((s.bankReport e detail b).engine e).invalid ∧
    (s.bankReport e detail b).cal.wrongLine = Nat.min 255 (s.cal.wrongLine + 1) ∧
    s.logs (s.bankReport e detail b) 0x0001 e (b.row + 256 * b2n b.isB + 4096 * toBits n 4) detail ∧
    ((b.row, b.isB) ∈ (s.engine e).searched → ∃ c, (Unit'.bank e b.isB, c) ∈ (s.bankReport e detail b).failing) := by
  rw [s.bankReport_wrong e detail b hbank h hn]
  have hcal : (s.noteWrong e detail b n).cal = s.countWrong.cal := State.logError_cal ..
  have hlogs : s.logs (s.noteWrong e detail b n) 0x0001 e (b.row + 256 * b2n b.isB + 4096 * toBits n 4) detail :=
    State.logs_congr rfl rfl rfl (State.logs_logError s.countWrong 0x0001 1 1 e _ detail)
  have hunits : (s.noteWrong e detail b n).mapped = s.mapped := State.logError_mapped ..
  refine ⟨?_, ?_, State.logs_congr rfl rfl (State.declareTwice_log ..) hlogs, fun hsearched => ?_⟩
  · rw [State.declareTwice_engine, State.noteWrong, State.engine_modEngine, if_pos rfl]
    simp [Engine.markWrong]
  · rw [State.declareTwice_cal, hcal]
    rfl
  · rw [List.contains_iff_mem.mpr hsearched]
    exact State.declareTwice_mem _ e b.isB (hunits ▸ hmapped)

theorem State.bankReport_undecided_spec (hmapped : s.mapped.contains (.bank e b.isB) = false) (h : b.shift = none) :
    (b.row, b.isB) ∈ ((s.bankReport e detail b).engine e).undecided ∧
    ((b.row, b.isB) ∈ (s.engine e).undecided → ∃ c, (Unit'.bank e b.isB, c) ∈ (s.bankReport e detail b).failing) := by
  rw [s.bankReport_undecided e detail b hbank h]
  refine ⟨?_, fun hundecided => ?_⟩
  · rw [State.declareTwice_engine, State.engine_modEngine, if_pos rfl]
    simp [Engine.markUndecided]
  · rw [List.contains_iff_mem.mpr hundecided]
    exact State.declareTwice_mem _ e b.isB hmapped

end

/-- Settles O31: a check marks its own engine alone, and the step of the relock, set by the check's branch, is no mark. -/
theorem relocksCheckAndReportEachBank : Obligations.RelocksCheckAndReportEachBank := by
  unfold Obligations.RelocksCheckAndReportEachBank
  refine ⟨⟨?_, does_check_of_verify, ?_, State.startSearch_target, ?_, does_recoveryRunComplete⟩, ?_⟩
  · intro s e hlock hruns hslow hbeyond hcomb
    obtain ⟨m, hexec⟩ := execRelockStart_enters hlock hruns hslow hbeyond hcomb
    have hengine (x : Nat) := s.engine_modEngine e x fun x => x.beginRelock s.frame.counter
    exact ⟨_, hexec, rfl, (hengine e).trans (if_pos rfl), fun x hx => (hengine x).trans (if_neg (Ne.symm hx))⟩
  · intro s e row isB n hlock hstep hmem hstands
    refine ⟨_, execIndexSearch_moves hlock hstep hmem hstands, ⟨rfl, fun x hx => ?_⟩, ?_, ?_, fun k => ?_⟩
    · rw [State.engine_modEngine, if_neg (Ne.symm hx)]
    all_goals rw [State.engine_modEngine, if_pos rfl]
    · simp
    · exact hlock
    · simp [Prod.ext_iff, Classical.or_iff_not_imp_left]
  · intro s e hlock hstep hsearch hruns
    exact ⟨_, execAcquisition_ends hlock hstep hsearch hruns,
      ⟨rfl, fun x hx => (s.engine_modEngine e x _).trans (if_neg (Ne.symm hx))⟩, (s.engine_modEngine e e _).trans (if_pos rfl)⟩
  · intro s e detail b hbank hmapped
    exact ⟨s.bankReport_passes_spec e detail b hbank, fun n h hn => s.bankReport_wrong_spec e detail b hbank hmapped h hn,
      s.bankReport_undecided_spec e detail b hbank hmapped, (State.Checked.bankReport s e detail b).other⟩

end Sys2Proof.Machine
end

section
/-! PROOFS. Coefficient sets (05 R279, R290 to R293), calibration slots (05 R267, R275 to R283, R285, R293), and the statement
`CalibrationSlotsTakeAndReturnTheEngine`. -/

namespace Sys2Proof.Machine

/-! ## Coefficient sets -/

/-- What a set holds of a coefficient, once those that fail a test on coefficients have been taken out. -/
theorem find?_filter_coef (p : Coef → Bool) (l : List (Coef × Int)) (c : Coef) :
    (l.filter fun v => p v.1).find? (fun v => v.1 == c) = if p c then l.find? (fun v => v.1 == c) else none := by
  rw [List.find?_filter]
  split
  · next h =>
    refine List.find?_congr fun v _ => ?_
    by_cases hv : v.1 = c <;> simp [hv, h]
  · next h =>
    refine List.find?_eq_none.mpr fun v _ => ?_
    by_cases hv : v.1 = c <;> simp [hv, h]

/-- A set from which the coefficients that fail a test have been taken out has their factory values. -/
theorem CoefSet.get_filter (b : Bool) (p : Coef → Bool) (x : CoefSet) (c : Coef) (hb : x.blob = b) :
    CoefSet.get { blob := b, vals := x.vals.filter fun v => p v.1 } c =
      if p c then x.get c else coefClamp c (Config.factoryCoef b c) := by
  subst hb
  unfold CoefSet.get
  rw [find?_filter_coef]
  cases p c <;> rfl

theorem CoefSet.get_put (x : CoefSet) (v : Coef × Int) (c : Coef) :
    (x.put v).get c = if v.1 = c then coefClamp c v.2 else x.get c := by
  have hfind : (x.put v).vals.find? (fun y => y.1 == c) =
      if v.1 = c then some v else x.vals.find? fun y => y.1 == c := by
    unfold CoefSet.put
    rw [List.find?_append, find?_filter_coef (fun k => k != v.1)]
    by_cases h : v.1 = c
    · simp [h]
    · simp [h, Ne.symm h]
  change coefClamp c (match (x.put v).vals.find? fun y => y.1 == c with
    | some w => w.2
    | none => Config.factoryCoef x.blob c) = _
  rw [hfind]
  by_cases h : v.1 = c
  · rw [if_pos h, if_pos h]
  · rw [if_neg h, if_neg h]
    rfl

theorem CoefSet.puts_append (x : CoefSet) (l m : List (Coef × Int)) : x.puts (l ++ m) = (x.puts l).puts m := List.foldl_append

theorem CoefSet.get_puts_other (l : List (Coef × Int)) (x : CoefSet) (c : Coef) (h : ∀ v ∈ l, v.1 ≠ c) :
    (x.puts l).get c = x.get c := by
  induction l generalizing x with
  | nil => rfl
  | cons v l ih =>
    obtain ⟨hv, hl⟩ := List.forall_mem_cons.mp h
    exact (ih (x.put v) hl).trans (by rw [x.get_put, if_neg hv])

/-- Of coefficients that are put once each, each is put. -/
theorem CoefSet.get_puts_mem (l : List (Coef × Int)) (x : CoefSet) (hl : (l.map (·.1)).Nodup) (v : Coef × Int) (hv : v ∈ l) :
    (x.puts l).get v.1 = coefClamp v.1 v.2 := by
  induction l generalizing x with
  | nil => cases hv
  | cons w l ih =>
    obtain ⟨hw, hl⟩ := List.nodup_cons.mp hl
    rcases List.mem_cons.mp hv with rfl | hv
    · refine (CoefSet.get_puts_other l (x.put v) v.1 fun y hy h => hw ?_).trans (by rw [x.get_put, if_pos rfl])
      exact List.mem_map.mpr ⟨y, hy, h⟩
    · exact ih (x.put w) hl hv

/-! ## Accepted commands that a map changes -/

/-- A change of every accepted command that keeps its number. -/
theorem State.job?_mapJobs (s : State) (f : Job → Job) (hf : ∀ j, (f j).id = j.id) (id : Nat) :
    State.job? { s with jobs := s.jobs.map f } id = (s.job? id).map f := by
  unfold State.job?
  rw [List.find?_map]
  congr 2
  funext j
  simp only [Function.comp, hf]

/-! ## A slot begins (05 R276, R278, R293) -/

/-- The engine whose slot begins; `now` says that its ring trims leave for their factory values. -/
def Engine.beginSlot (x : Engine) (now : Bool) : Engine :=
  { x.parked with lock := .calib, calibAbandoned := false, staged := [], trimsStale := x.trimsStale && !now }

theorem execCalibSlotStart_begins {s : State} {e : Nat} (hframe : s.frame.counter % 16 = 0) (hrotating : s.cal.rotating = true)
    (hruns : s.runs .twilight = true) (hlock : (s.engine e).lock = .locked) (hloss : (s.engine e).lossEvent = none)
    (hturn : s.slotEngine (sectorOfEngine e) s.frame.counter = some e) (now : Bool)
    (hnow : now = ((s.engine e).trimsStale && !s.slotTested e s.frame.counter)) :
    exec (.calibSlotStart e) s = .next (if now then (s.modEngine e fun x => x.beginSlot now).restoreTrims e
      else s.modEngine e fun x => x.beginSlot now) := by
  subst hnow
  change execCalibSlotStart e s = _
  unfold execCalibSlotStart
  rw [if_pos (by simp [hframe, hrotating, hruns, hlock, hloss, hturn])]
  rfl

/-- Ring trims that leave for their factory values change limiters and coefficients alone. -/
theorem State.restoreTrims_eq (s : State) (e : Nat) : ∃ m, s.restoreTrims e = { s with
    slews := m
    cal := { s.cal with active := { s.cal.active with
      vals := s.cal.active.vals.filter fun v => !(coefIsTrim v.1 && coefEngine v.1 == e) } } } := by
  unfold State.restoreTrims
  exact forEach_keeps (fun t => ∃ m, t = { s with
    slews := m
    cal := { s.cal with active := { s.cal.active with
      vals := s.cal.active.vals.filter fun v => !(coefIsTrim v.1 && coefEngine v.1 == e) } } }) _ _
    (fun _ _ _ ⟨_, ht⟩ => ht ▸ ⟨_, rfl⟩) _ ⟨_, rfl⟩

/-! ## A tone check in a slot (05 R267) -/

theorem execToneCheck_calib {s : State} {e : Nat} {r : List CheckReading} {rowOk : Bool} {l : List BankShift}
    (hruns : s.runs .twilight = true) (hlock : (s.engine e).lock = .calib) (hl : s.checkShifts e true r = some l) :
    exec (.toneCheckComplete e r rowOk) s = .next ((s.modRowCheck (e / 4) rowOk).slotCheck e l) := by
  change execToneCheckComplete e r rowOk s = _
  unfold execToneCheckComplete
  simp only [hruns, hlock, hl]
  rfl

/-- Commands that have used an engine which turns out to have sat on another line carry LOCK_EXCURSION. -/
def State.flagUsers (s : State) (ids : List Nat) (silent : Bool) : State :=
  if silent then s.flagJobs (fun j => ids.contains j.id) fun f => { f with lockExcursion := true } else s

theorem State.flagUsers_eq (s : State) (ids : List Nat) (silent : Bool) : ∃ l, s.flagUsers ids silent = { s with jobs := l } := by
  unfold State.flagUsers
  split <;> exact ⟨_, rfl⟩

theorem State.flagUsers_flags (s : State) {ids : List Nat} {id : Nat} {j : Job} (hid : id ∈ ids) (hj : s.job? id = some j)
    (ho : j.open' = true) : ∃ j', (s.flagUsers ids true).job? id = some j' ∧ j'.flags.lockExcursion = true := by
  have hused : ids.contains j.id = true := by
    rw [State.job?_id hj]
    exact List.contains_iff_mem.mpr hid
  refine ⟨_, (s.job?_flagJobs (fun j => ids.contains j.id) (fun f => { f with lockExcursion := true }) id).trans (congrArg _ hj), ?_⟩
  beta_reduce
  rw [if_pos (by simp only [ho, hused, Bool.and_self])]

/-- An engine whose banks have all passed a check in its slot. -/
def Engine.passCheck (x : Engine) (frame : Nat) : Engine := { x with lastPass := frame, usedBy := [], lossSince := false }

theorem State.slotCheck_eq (s : State) (e : Nat) (l : List BankShift) : s.slotCheck e l =
    let u := (s.bankReports e (if (s.engine e).lossSince then 0 else (s.engine e).lastPass) l).flagUsers (s.engine e).usedBy
      (!(wrongBanks l).isEmpty && !(s.engine e).lossSince)
    if l.all fun b => b.shift == some 0 then u.modEngine e fun x => x.passCheck u.frame.counter else u := rfl

theorem wrongBanks_of_pass {l : List BankShift} (h : ∀ b ∈ l, b.shift = some 0) : wrongBanks l = [] :=
  List.filterMap_eq_nil_iff.mpr fun b hb => by simp [h b hb]

/-- What a tone check leaves of an engine in its slot. -/
theorem State.slotCheck_spec (s : State) (e : Nat) (l : List BankShift) :
    ((s.slotCheck e l).engine e).lock = (s.engine e).lock ∧ (s.slotCheck e l).clusters = s.clusters ∧ s.sameMem (s.slotCheck e l) ∧
    (∀ x, x ≠ e → (s.slotCheck e l).engine x = s.engine x) ∧ (∀ x ∈ s.failing, x ∈ (s.slotCheck e l).failing) ∧
    (wrongBanks l ≠ [] → (s.engine e).lossSince = false → ∀ id j, id ∈ (s.engine e).usedBy → s.job? id = some j →
      j.open' = true → ∃ j', (s.slotCheck e l).job? id = some j' ∧ j'.flags.lockExcursion = true) ∧
    ((∀ b ∈ l, b.shift = some 0) → ((s.slotCheck e l).engine e).lastPass = s.frame.counter ∧
      ((s.slotCheck e l).engine e).usedBy = [] ∧ ((s.slotCheck e l).engine e).lossSince = false ∧
      (s.slotCheck e l).jobs = s.jobs) := by
  have hreports := State.Checked.bankReports s e (if (s.engine e).lossSince then 0 else (s.engine e).lastPass) l
  rw [s.slotCheck_eq]
  generalize s.bankReports e _ l = v at hreports ⊢
  generalize hsilent : (!(wrongBanks l).isEmpty && !(s.engine e).lossSince) = silent
  extract_lets u
  obtain ⟨js, hu⟩ : ∃ js, u = { v with jobs := js } := v.flagUsers_eq ..
  have hengine (x : Nat) : u.engine x = v.engine x := by rw [hu]; rfl
  have hmem : s.sameMem u := by rw [hu]; exact hreports.sameMem
  have hframe : u.frame.counter = s.frame.counter := by rw [hu]; exact hreports.counter
  have hclusters : u.clusters = s.clusters := by rw [hu]; exact hreports.clusters
  have hfailing : ∀ x ∈ s.failing, x ∈ u.failing := by rw [hu]; exact hreports.failing
  have hjob : silent = true → ∀ id j, id ∈ (s.engine e).usedBy → s.job? id = some j → j.open' = true →
      ∃ j', u.job? id = some j' ∧ j'.flags.lockExcursion = true := by
    rintro rfl id j hid hj ho
    have hv : v.job? id = some j := (State.job?_congr hreports.jobs id).trans hj
    exact v.flagUsers_flags hid hv ho
  have hjobs : silent = false → u.jobs = s.jobs := by
    rintro rfl
    exact hreports.jobs
  clear_value u
  have hmark (t : State) (ht : t = if l.all (fun b => b.shift == some 0) then u.modEngine e (fun x => x.passCheck u.frame.counter) else u) :
      (t.engine e).lock = (s.engine e).lock ∧ t.clusters = s.clusters ∧ s.sameMem t ∧ (∀ x, x ≠ e → t.engine x = s.engine x) ∧
      t.failing = u.failing ∧ t.jobs = u.jobs := by
    have hlock : (u.engine e).lock = (s.engine e).lock := by rw [hengine, hreports.lock]
    subst ht
    split
    · refine ⟨?_, hclusters, hmem, fun x hx => ?_, rfl, rfl⟩
      · rw [State.engine_modEngine, if_pos rfl]
        exact hlock
      · rw [State.engine_modEngine, if_neg (Ne.symm hx), hengine, hreports.other x hx]
    · exact ⟨hlock, hclusters, hmem, fun x hx => by rw [hengine, hreports.other x hx], rfl, rfl⟩
  obtain ⟨klock, kclusters, kmem, kother, kfailing, kjobs⟩ := hmark _ rfl
  refine ⟨klock, kclusters, kmem, kother, fun x hx => by rw [kfailing]; exact hfailing x hx, fun hwrong hloss id j hid hj ho => ?_,
    fun hpass => ?_⟩
  · obtain ⟨j', hj', hflag⟩ := hjob (by simp [← hsilent, hwrong, hloss]) id j hid hj ho
    exact ⟨j', (State.job?_congr kjobs id).trans hj', hflag⟩
  · refine ⟨?_, ?_, ?_, kjobs.trans (hjobs (by simp [← hsilent, wrongBanks_of_pass hpass]))⟩
    all_goals rw [if_pos (by simpa using hpass), State.engine_modEngine, if_pos rfl]
    · exact hframe
    · rfl
    · rfl

end Sys2Proof.Machine
end

section
/-! PROOFS. The end of a calibration slot (05 R267, R273, R278, R279, R282, R283; log 115), and the statement
`CalibrationSlotsTakeAndReturnTheEngine`. -/

namespace Sys2Proof.Machine

/-! ## Results, coefficients and trims -/

/-- The state without what log entries and declarations change. -/
def State.unreported (s : State) : State :=
  { s with log := {}, out := [], failing := [], link := { s.link with ports := [] } }

@[simp] theorem State.logError_unreported (s : State) (code cls kind unit aux detail : Nat) :
    (s.logError code cls kind unit aux detail).unreported = s.unreported := by
  rw [s.logError_eq]
  rfl

@[simp] theorem State.declare_unreported (s : State) (u : Unit') (c : Nat) : (s.declare u c).unreported = s.unreported := by
  rw [(s.declare_eq u c).1]
  rfl

/-- Beyond its report, a slot's result enters its engine's residual window alone. -/
theorem State.slotResults_unreported (s : State) (e : Nat) (o : CalibObs) :
    (s.slotResults e o).unreported = (s.windowResid e (residsOf (o.before ++ o.after))).unreported := by
  unfold State.slotResults
  extract_lets x u v w
  have hv : v.unreported = u.unreported := by
    change State.unreported (if _ then _ else _) = _
    split
    · exact State.logError_unreported ..
    · rfl
  have hw : w.unreported = v.unreported := forEach_same State.unreported o.badRows _ (fun t r _ => t.declare_unreported ..) v
  refine (forEach_same State.unreported o.vrefPpm _ (fun t y _ => ?_) w).trans (hw.trans hv)
  split
  · exact State.logError_unreported ..
  · rfl

/-- The engine with samples in its residual window. -/
def Engine.addResid (x : Engine) (l : List Int) : Engine :=
  { x with sumSq := x.sumSq.add (residOf 0 l).2.1, peakAbs := x.peakAbs.max (residOf 0 l).2.2.1, samples := x.samples + (residOf 0 l).2.2.2 }

/-- The sums of residuals do not depend on whose they are. -/
theorem residOf_sums (e : Nat) (l : List Int) : (residOf e l).2 = (residOf 0 l).2 := by
  have hfold : ∀ (l : List Int) (a : Nat × Dy × Dy × Nat), (l.foldl (fun (b : Nat × Dy × Dy × Nat) r =>
      (e, b.2.1.add ⟨r * r, -16⟩, b.2.2.1.max ⟨r.natAbs, -8⟩, b.2.2.2 + 1)) a).2 = (l.foldl (fun (b : Nat × Dy × Dy × Nat) r =>
      (0, b.2.1.add ⟨r * r, -16⟩, b.2.2.1.max ⟨r.natAbs, -8⟩, b.2.2.2 + 1)) (0, a.2)).2 := by
    intro l
    induction l with
    | nil => exact fun _ => rfl
    | cons r l ih => exact fun a => ih _
  exact hfold l _

theorem State.windowResid_engine (s : State) (e : Nat) (l : List Int) (x : Nat) :
    (s.windowResid e l).engine x = if e = x then (s.engine e).addResid l else s.engine x := by
  unfold State.windowResid
  dsimp only
  rw [State.engine_modEngine, residOf_sums e l]
  rfl

/-- Ring trims, which are no other coefficients. -/
def onlyTrims (l : List (Coef × Int)) : Prop := ∀ v ∈ l, coefIsTrim v.1 = true

/-- Staged coefficients that take effect change limiters and coefficients alone: those staged, and ring trims. -/
theorem State.applyStaged_eq (s : State) (e : Nat) : ∃ m trims, onlyTrims trims ∧ s.applyStaged e = { s with
    slews := m, cal := { s.cal with active := s.cal.active.puts ((s.engine e).staged ++ trims) } } := by
  unfold State.applyStaged
  extract_lets chans trims now y u
  obtain ⟨m, hm⟩ : ∃ m, forEach now (fun s x => s.modSlew x.1 fun _ => x.2) u = { u with slews := m } :=
    forEach_keeps (fun t => ∃ m, t = { u with slews := m }) _ _ (fun _ _ _ ⟨_, ht⟩ => ht ▸ ⟨_, rfl⟩) _ ⟨_, rfl⟩
  refine ⟨m, trims, fun v hv => ?_, hm⟩
  obtain ⟨c, -, rfl⟩ := List.mem_map.mp hv
  rfl

/-- A coefficient that is staged, once and as no trim, takes its staged value. -/
theorem CoefSet.get_puts_staged (x : CoefSet) {l trims : List (Coef × Int)} (htrims : onlyTrims trims) (hl : (l.map (·.1)).Nodup)
    {v : Coef × Int} (hv : v ∈ l) (hno : coefIsTrim v.1 = false) : (x.puts (l ++ trims)).get v.1 = coefClamp v.1 v.2 := by
  rw [CoefSet.puts_append, CoefSet.get_puts_other trims _ v.1 fun w hw h => ?_, CoefSet.get_puts_mem l x hl v hv]
  have := htrims w hw
  simp [h, hno] at this

/-- Every ring trim that a slot has moved returns to its coefficient. -/
theorem State.revertTrims_target (s : State) (e c : Nat) (hc : (s.slews.any fun x => x.1 == c) = true) (hlo : 32832 ≤ c)
    (he : (c - 32832) / 8192 = e) : ((s.revertTrims e).slew c).target = (s.slewRest c).target := by
  obtain ⟨x, hx, hxc⟩ := List.any_eq_true.mp hc
  have hmem : c ∈ (s.slews.filter fun (x : Nat × Slew) => decide (32832 ≤ x.1) && (x.1 - 32832) / 8192 == e).map (·.1) := by
    obtain rfl : x.1 = c := by simpa using hxc
    exact List.mem_map.mpr ⟨x, List.mem_filter.mpr ⟨hx, by simp [hlo, he]⟩, rfl⟩
  have hreach := forEach_reaches (fun t => t.cal = s.cal) (fun t => t.cal = s.cal ∧ (t.slew c).target = (s.slewRest c).target) _
    (fun (s : State) c => s.modSlew c fun x => { x with target := (s.slewRest c).target }) c hmem (fun _ _ h => h)
    (fun t ht => ⟨ht, ?_⟩) (fun t d ⟨ht, htarget⟩ => ⟨ht, ?_⟩) s rfl
  · exact hreach.2
  · rw [State.slew_modSlew, if_pos rfl]
    unfold State.slewRest
    rw [ht]
  · rw [State.slew_modSlew]
    split
    · next h =>
      subst h
      unfold State.slewRest
      rw [ht]
    · exact htarget

/-! ## The record of a slot (05 R283, R285) -/

theorem slotRecord_id (e start : Nat) (tested : Bool) (o : CalibObs) (j : Job) : (slotRecord e start tested o j).id = j.id := by
  unfold slotRecord
  split
  · rfl
  · split <;> rfl

/-- What a CALIBRATE that takes part in a slot keeps of it. -/
theorem slotRecord_calib {e start : Nat} {j : Job} (o : CalibObs) (htest : j.takesSlot e start = false)
    (h : j.takesCalib e start = true) :
    e ∈ (slotRecord e start false o j).calSlots ∧ (e, (residFigures (residsOf o.before)).1, (residFigures (residsOf o.before)).2,
      (residFigures (residsOf o.after)).1, (residFigures (residsOf o.after)).2) ∈ (slotRecord e start false o j).calib := by
  unfold slotRecord
  rw [if_neg (by simp [htest]), if_pos h]
  exact ⟨List.mem_append_right _ List.mem_cons_self, List.mem_append_right _ List.mem_cons_self⟩

/-- A command that may keep the active set once its last named slot has ended (05 R284). -/
def State.keepSet (s : State) (j : Job) : Job :=
  match j.body with
  | .calibrate true engines => if j.live && j.saveSet.isNone && s.slotsHad j engines then { j with saveSet := some s.cal.active } else j
  | _ => j

theorem State.keepSets_eq (s : State) : s.keepSets = { s with jobs := s.jobs.map s.keepSet } := rfl

theorem State.keepSet_keeps (s : State) (j : Job) :
    (s.keepSet j).id = j.id ∧ (s.keepSet j).calSlots = j.calSlots ∧ (s.keepSet j).calib = j.calib := by
  unfold State.keepSet
  split
  · split <;> exact ⟨rfl, rfl, rfl⟩
  · exact ⟨rfl, rfl, rfl⟩

/-! ## The slot's end (05 R278, R279, R282) -/

/-- The coefficients at a slot's end: the staged ones take effect, unless the verification exceeds RESID_LIMITS. -/
def State.slotCoefs (s : State) (e : Nat) (o : CalibObs) : State :=
  if s.residOver (residsOf o.after) then (s.slotResults e o).revertTrims e else (s.slotResults e o).applyStaged e

/-- The engine whose slot has ended, in a sector within 25 °C to 105 °C or not, and in an excursion or not. -/
def Engine.endSlot (x : Engine) (temp exc : Bool) : Engine :=
  let lock := if !x.invalid.isEmpty then LockState.search else if temp then .locked else .unlocked
  { x.parked with
    calFrames := if x.calibAbandoned then x.calFrames else some 0
    staged := []
    lock := lock
    discards := lock != .locked && !exc
    relock := if lock = .search then { step := 4 } else x.relock }

/-- The state at a slot's end, but for the sets that a SAVE keeps. -/
def State.slotEnded (s : State) (e : Nat) (o : CalibObs) : State :=
  let u := { s.slotCoefs e o with jobs := (s.slotCoefs e o).jobs.map (slotRecord e (s.frame.counter - 16) false o) }
  u.modEngine e fun x => x.endSlot (u.tempOk (sectorOfEngine e)) (u.sector (sectorOfEngine e)).excursion

section
variable {s : State} {e : Nat} (hlock : (s.engine e).lock = .calib) (hframe : s.frame.counter % 16 = 0)
include hlock hframe

theorem execCalibSlotEnd_ends {obs : CalibObs} (hruns : s.runs .twilight = true)
    (htest : s.slotTested e (s.frame.counter - 16) = false) (htone : s.checkShifts e true obs.tone = none)
    (habandoned : (s.engine e).calibAbandoned = false) (hloss : (s.engine e).lossEvent = none) :
    exec (.calibSlotEnd e obs) s = .next (s.slotEnded e obs).keepSets := by
  have hover : (s.slotResults e obs).residOver (residsOf obs.after) = s.residOver (residsOf obs.after) := by
    have hcal := congrArg State.cal (s.slotResults_unreported e obs)
    change (s.slotResults e obs).cal = s.cal at hcal
    unfold State.residOver State.residualHigh
    rw [hcal]
  change execCalibSlotEnd e obs s = _
  unfold execCalibSlotEnd State.slotEnded State.slotCoefs
  simp only [hlock, hframe, hruns, hloss, htone, htest, habandoned, hover, beq_self_eq_true, Bool.and_self, Bool.not_true,
    Bool.false_eq_true, if_false, Option.isSome_none, Bool.or_self, Bool.not_false, Bool.true_and]
  cases s.residOver (residsOf obs.after) <;> rfl

theorem execCalibSlotEnd_held {obs : CalibObs} (hruns : s.runs .twilight = false) :
    exec (.calibSlotEnd e obs) s = .next ((s.revertTrims e).modEngine e fun x =>
      { x.parked with lock := .held, staged := [], heldLoss := x.lossEvent.isSome, lossEvent := none }) := by
  change execCalibSlotEnd e obs s = _
  unfold execCalibSlotEnd
  simp only [hlock, hframe, hruns]
  rfl

end

/-- What the results and the coefficients of a slot leave. -/
theorem State.slotCoefs_spec (s : State) (e : Nat) (o : CalibObs) :
    (∀ x, (s.slotCoefs e o).engine x = if e = x then (s.engine e).addResid (residsOf (o.before ++ o.after)) else s.engine x) ∧
    s.sameMem (s.slotCoefs e o) ∧ (s.slotCoefs e o).jobs = s.jobs ∧ (s.slotCoefs e o).sectors = s.sectors ∧
    (s.residOver (residsOf o.after) = true → (s.slotCoefs e o).cal = s.cal) ∧
    (s.residOver (residsOf o.after) = false → ((s.engine e).staged.map (·.1)).Nodup →
      ∀ v ∈ (s.engine e).staged, coefIsTrim v.1 = false → (s.slotCoefs e o).cal.active.get v.1 = coefClamp v.1 v.2) := by
  have hresults := s.slotResults_unreported e o
  have hengines := congrArg State.engines hresults
  have hmem := congrArg State.mem hresults
  have hpoison := congrArg State.poison hresults
  have hjobs := congrArg State.jobs hresults
  have hsectors := congrArg State.sectors hresults
  have hcal := congrArg State.cal hresults
  unfold State.slotCoefs
  generalize s.slotResults e o = r at hengines hmem hpoison hjobs hsectors hcal ⊢
  change r.engines = (s.windowResid e _).engines at hengines
  change r.cal = s.cal at hcal
  have hengine (x : Nat) : r.engine x =
      if e = x then (s.engine e).addResid (residsOf (o.before ++ o.after)) else s.engine x := by
    rw [← State.windowResid_engine]
    unfold State.engine
    rw [hengines]
  split
  · next hover =>
    obtain ⟨m, heq⟩ := r.revertTrims_eq e
    rw [heq]
    exact ⟨hengine, ⟨hmem, hpoison⟩, hjobs, hsectors, fun _ => hcal, fun h => absurd hover (by simp [h])⟩
  · next hover =>
    obtain ⟨m, trims, htrims, heq⟩ := r.applyStaged_eq e
    have hstaged : (r.engine e).staged = (s.engine e).staged := by rw [hengine, if_pos rfl]; rfl
    rw [heq, hstaged]
    exact ⟨hengine, ⟨hmem, hpoison⟩, hjobs, hsectors, fun h => absurd h hover,
      fun _ hl v hv hno => CoefSet.get_puts_staged _ htrims hl hv hno⟩

theorem State.tempOk_congr {s t : State} (h : t.sectors = s.sectors) (k : Nat) : t.tempOk k = s.tempOk k := by
  unfold State.tempOk State.sector
  rw [h]

/-- CALIB_SLOT_END: a slot that ends while Twilight runs. -/
theorem does_calibSlotEnd (s : State) (e : Nat) (obs : CalibObs) (hlock : (s.engine e).lock = .calib)
    (hframe : s.frame.counter % 16 = 0) (hruns : s.runs .twilight = true)
    (htest : s.slotTested e (s.frame.counter - 16) = false) (htone : s.checkShifts e true obs.tone = none)
    (habandoned : (s.engine e).calibAbandoned = false) (hloss : (s.engine e).lossEvent = none) :
    Does (.calibSlotEnd e obs) s fun t => s.sameMem t ∧ (t.engine e).calFrames = some 0 ∧
      (t.engine e).trimsStale = (s.engine e).trimsStale ∧
      (t.engine e).bankA = {} ∧ (t.engine e).bankB = {} ∧ (t.engine e).staged = [] ∧
      ((s.engine e).invalid = [] →
        (t.engine e).lock = if s.tempOk (sectorOfEngine e) then LockState.locked else .unlocked) ∧
      ((s.engine e).invalid ≠ [] → (t.engine e).lock = .search ∧ (t.engine e).relock.step = 4) ∧
      (∀ x, x ≠ e → t.engine x = s.engine x) ∧
      (s.residOver (residsOf obs.after) = true → t.cal = s.cal) ∧
      (s.residOver (residsOf obs.after) = false → ((s.engine e).staged.map (·.1)).Nodup → ∀ v ∈ (s.engine e).staged, coefIsTrim v.1 = false →
        t.cal.active.get v.1 = coefClamp v.1 v.2) ∧
      (∀ id j, s.job? id = some j → j.takesCalib e (s.frame.counter - 16) = true →
        ∃ j', t.job? id = some j' ∧ e ∈ j'.calSlots ∧ (e, (residFigures (residsOf obs.before)).1,
          (residFigures (residsOf obs.before)).2, (residFigures (residsOf obs.after)).1, (residFigures (residsOf obs.after)).2) ∈ j'.calib) := by
  refine ⟨_, execCalibSlotEnd_ends hlock hframe hruns htest htone habandoned hloss, ?_⟩
  obtain ⟨hengine, hmem, hjobs, hsectors, hover, hfits⟩ := s.slotCoefs_spec e obs
  rw [State.keepSets_eq]
  have hself : (s.slotEnded e obs).engine e = ((s.engine e).addResid (residsOf (obs.before ++ obs.after))).endSlot
      (s.tempOk (sectorOfEngine e)) ((s.slotCoefs e obs).sector (sectorOfEngine e)).excursion := by
    unfold State.slotEnded
    dsimp only
    rw [State.engine_modEngine, if_pos rfl, ← State.tempOk_congr hsectors]
    exact congrArg (fun x : Engine => x.endSlot _ _) ((hengine e).trans (if_pos rfl))
  have hother (x : Nat) (hx : x ≠ e) : (s.slotEnded e obs).engine x = s.engine x := by
    unfold State.slotEnded
    dsimp only
    rw [State.engine_modEngine, if_neg (Ne.symm hx)]
    exact (hengine x).trans (if_neg (Ne.symm hx))
  refine ⟨hmem, ?_, ?_, ?_, ?_, ?_, fun hvalid => ?_, fun hinvalid => ?_, hother, hover, hfits, fun id j hj htakes => ?_⟩
  · exact (congrArg Engine.calFrames hself).trans (if_neg (by simp [Engine.addResid, habandoned]))
  · exact (congrArg Engine.trimsStale hself).trans rfl
  · exact congrArg Engine.bankA hself
  · exact congrArg Engine.bankB hself
  · exact congrArg Engine.staged hself
  · exact (congrArg Engine.lock hself).trans (if_neg (by simp [Engine.addResid, hvalid]))
  · have hsearch : ((s.slotEnded e obs).engine e).lock = .search :=
      (congrArg Engine.lock hself).trans (if_pos (by simp [Engine.addResid, hinvalid]))
    refine ⟨hsearch, ?_⟩
    rw [hself] at hsearch
    have hrelock := (congrArg Engine.relock hself).trans (if_pos hsearch)
    exact congrArg Relock.step hrelock
  · have htested : j.takesSlot e (s.frame.counter - 16) = false := by
      have hall := List.any_eq_false.mp htest
      simpa using hall j (List.mem_of_find?_eq_some hj)
    have hmapped : (s.slotEnded e obs).job? id = some (slotRecord e (s.frame.counter - 16) false obs j) := by
      refine (State.job?_mapJobs (s.slotCoefs e obs) (slotRecord e (s.frame.counter - 16) false obs) (slotRecord_id e _ false obs)
        id).trans ?_
      rw [State.job?_congr hjobs, hj]
      rfl
    obtain ⟨hid, hslots, hcalib⟩ := (s.slotEnded e obs).keepSet_keeps (slotRecord e (s.frame.counter - 16) false obs j)
    refine ⟨_, (State.job?_mapJobs _ _ (fun k => ((s.slotEnded e obs).keepSet_keeps k).1) id).trans (congrArg _ hmapped), ?_⟩
    rw [hslots, hcalib]
    exact slotRecord_calib obs htested htakes

/-- CALIB_SLOT_START: the engine leaves service, and ring trims that RESTORE_FACTORY has replaced return to their factory values. -/
theorem does_calibSlotStart (s : State) (e : Nat) (hframe : s.frame.counter % 16 = 0) (hrotating : s.cal.rotating = true)
    (hruns : s.runs .twilight = true) (hlock : (s.engine e).lock = .locked) (hloss : (s.engine e).lossEvent = none)
    (hturn : s.slotEngine (sectorOfEngine e) s.frame.counter = some e) :
    Does (.calibSlotStart e) s fun t => (∀ x, x ≠ e → t.engine x = s.engine x) ∧ s.sameMem t ∧
      t.engine e = { s.engine e with lock := .calib, bankA := {}, bankB := {}, wbufs := [], calibAbandoned := false, staged := [],
                                     trimsStale := (s.engine e).trimsStale && s.slotTested e s.frame.counter } ∧
      ((s.engine e).trimsStale = false → t = { s with engines := t.engines }) ∧
      ((s.engine e).trimsStale = true → s.slotTested e s.frame.counter = false →
        ∀ c, t.cal.active.get c = if coefIsTrim c = true ∧ coefEngine c = e then coefClamp c (Config.factoryCoef s.cal.active.blob c)
          else s.cal.active.get c) := by
  refine ⟨_, execCalibSlotStart_begins hframe hrotating hruns hlock hloss hturn _ rfl, ?_⟩
  generalize hnow : ((s.engine e).trimsStale && !s.slotTested e s.frame.counter) = now
  have hengine (x : Nat) := s.engine_modEngine e x fun x => x.beginSlot now
  have hbegun : (s.engine e).beginSlot now = { s.engine e with
      lock := .calib, bankA := {}, bankB := {}, wbufs := [], calibAbandoned := false, staged := []
      trimsStale := (s.engine e).trimsStale && s.slotTested e s.frame.counter } := by
    subst hnow
    unfold Engine.beginSlot
    cases (s.engine e).trimsStale <;> cases s.slotTested e s.frame.counter <;> rfl
  cases now with
  | false =>
    rw [if_neg nofun]
    refine ⟨fun x hx => (hengine x).trans (if_neg (Ne.symm hx)), ⟨rfl, rfl⟩, ((hengine e).trans (if_pos rfl)).trans hbegun, fun _ => rfl,
      fun hstale htest => ?_⟩
    simp [hstale, htest] at hnow
  | true =>
    obtain ⟨m, heq⟩ := (s.modEngine e fun x => x.beginSlot true).restoreTrims_eq e
    rw [if_pos rfl, heq]
    refine ⟨fun x hx => (hengine x).trans (if_neg (Ne.symm hx)), ⟨rfl, rfl⟩, ((hengine e).trans (if_pos rfl)).trans hbegun, fun hstale => ?_,
      fun _ _ c => ?_⟩
    · simp [hstale] at hnow
    · refine (CoefSet.get_filter _ (fun c => !(coefIsTrim c && coefEngine c == e)) s.cal.active c rfl).trans ?_
      by_cases h : coefIsTrim c = true ∧ coefEngine c = e
      · rw [if_pos h, if_neg (by simp [h])]
      · rw [if_neg h, if_pos (by simpa [Classical.or_iff_not_imp_left] using h)]

/-- TONE_CHECK_COMPLETE in a slot, with the modulator row in order. -/
theorem does_toneCheck_calib (s : State) (e : Nat) (r : List CheckReading) (l : List BankShift) (hruns : s.runs .twilight = true)
    (hlock : (s.engine e).lock = .calib) (hl : s.checkShifts e true r = some l) :
    Does (.toneCheckComplete e r true) s fun t => (t.cluster (e / 4)).modFails = 0 ∧ (t.engine e).lock = .calib ∧ s.sameMem t ∧
      (wrongBanks l ≠ [] → (s.engine e).lossSince = false → ∀ id j, id ∈ (s.engine e).usedBy → s.job? id = some j → j.open' = true →
        ∃ j', t.job? id = some j' ∧ j'.flags.lockExcursion = true) ∧
      ((∀ b ∈ l, b.shift = some 0) → (t.engine e).lastPass = s.frame.counter ∧ (t.engine e).usedBy = [] ∧
        (t.engine e).lossSince = false ∧ t.jobs = s.jobs) ∧
      ∀ x, x ≠ e → t.engine x = s.engine x := by
  refine ⟨_, execToneCheck_calib hruns hlock hl, ?_⟩
  have hpasses := s.modRowCheck_passes (e / 4)
  obtain ⟨m, c, f, heq, -⟩ := s.modRowCheck_eq (e / 4) true
  rw [heq] at hpasses ⊢
  obtain ⟨hlock', hclusters, hmem, hother, -, hflags, hpass⟩ := State.slotCheck_spec { s with clusters := m, centres := c, failing := f } e l
  refine ⟨?_, hlock'.trans hlock, hmem, hflags, hpass, hother⟩
  unfold State.cluster at hpasses ⊢
  rw [hclusters]
  exact hpasses

/-- CALIB_SLOT_END while Twilight is stopped: the engine is HELD, with the coefficients as they were. -/
theorem does_calibSlotEnd_held (s : State) (e : Nat) (obs : CalibObs) (hlock : (s.engine e).lock = .calib)
    (hframe : s.frame.counter % 16 = 0) (hruns : s.runs .twilight = false) :
    Does (.calibSlotEnd e obs) s fun t => (∀ x, x ≠ e → t.engine x = s.engine x) ∧ t = { s with engines := t.engines, slews := t.slews } ∧
      t.engine e = { s.engine e with lock := .held, bankA := {}, bankB := {}, wbufs := [], staged := [],
                                     heldLoss := (s.engine e).lossEvent.isSome, lossEvent := none } ∧
      ∀ c, (s.slews.any fun x => x.1 == c) = true → 32832 ≤ c → (c - 32832) / 8192 = e → (t.slew c).target = (s.slewRest c).target := by
  refine ⟨_, execCalibSlotEnd_held hlock hframe hruns, ?_⟩
  have htarget := s.revertTrims_target e
  obtain ⟨m, heq⟩ := s.revertTrims_eq e
  rw [heq] at htarget ⊢
  refine ⟨fun x hx => (State.engine_modEngine ..).trans (if_neg (Ne.symm hx)), rfl, (State.engine_modEngine ..).trans (if_pos rfl), htarget⟩

/-- Settles O32: a slot's check marks its engine alone, its results reach the residual window, and its staged coefficients are put once
each. -/
theorem calibrationSlotsTakeAndReturnTheEngine : Obligations.CalibrationSlotsTakeAndReturnTheEngine := by
  unfold Obligations.CalibrationSlotsTakeAndReturnTheEngine
  refine ⟨does_calibSlotStart, does_toneCheck_calib, ?_, does_calibSlotEnd, does_calibSlotEnd_held⟩
  intro s e r l hruns hfails hmapped hlock hl
  refine ⟨_, execToneCheck_calib hruns hlock hl, ?_⟩
  obtain ⟨c, hc⟩ := s.modRowCheck_fails (e / 4) hfails hmapped
  obtain ⟨-, -, -, -, hkept, -, -⟩ := (s.modRowCheck (e / 4) false).slotCheck_spec e l
  exact ⟨c, hkept _ hc⟩

end Sys2Proof.Machine
end

section
/-! PROOFS. Mapping out failed units (16 R722 to R727, R734; 05 R257, R259), and the statement `FailedUnitsAreMappedOut`. -/

namespace Sys2Proof.Machine

/-! ## Units, and kernels that end -/

/-- The units that are mapped out, and those that are declared failed. -/
def State.units (s : State) : List Unit' × List (Unit' × Nat) := (s.mapped, s.failing)

theorem State.units_of_offPath {s t : State} (h : t.offPath = s.offPath) : t.units = s.units := by
  have := congrArg State.units h
  exact this

@[simp] theorem State.logError_units (s : State) (code cls kind unit aux detail : Nat) :
    (s.logError code cls kind unit aux detail).units = s.units := by
  rw [s.logError_eq]
  rfl

@[simp] theorem State.write_units (s : State) (a : Nat) (bs : List Byte) : (s.write a bs).units = s.units := by
  unfold State.write
  split <;> rfl

@[simp] theorem State.haWrite_units (s : State) (session a : Nat) (data : List Byte) (use : HaUse) :
    (s.haWrite session a data use).units = s.units := by
  unfold State.haWrite State.request State.sendRequest
  dsimp only
  split
  · rfl
  · rw [State.send_eq]
    rfl

@[simp] theorem State.finishStores_units (s : State) (k : Kernel) : (s.finishStores k).units = s.units := by
  refine forEach_same State.units k.late _ (fun t x _ => ?_) s
  split
  · split
    · rfl
    · exact t.write_units ..
  · split
    · exact t.haWrite_units ..
    · rfl
  · rfl

@[simp] theorem State.endKernel_units (s : State) (k : Kernel) (st : Status) : (s.endKernel k st).units = s.units :=
  s.finishStores_units k

/-- A kernel without stores that wait for a frame ends without a write. -/
theorem State.endKernel_mem (s : State) (k : Kernel) (st : Status) (h : k.late = []) : (s.endKernel k st).mem = s.mem := by
  have hstores : s.finishStores k = s := by
    unfold State.finishStores
    rw [h]
    rfl
  change (s.finishStores k).mem = s.mem
  rw [hstores]

/-! ## Engines that are mapped out -/

/-- The engine as it is mapped out in a frame (05 R259, R276). -/
def Engine.mapAway (x : Engine) (frame : Nat) : Engine :=
  { x.parked with lock := .mappedOut, relock := {}, lossEvent := none, discards := false, checkDue := false, toneRelock := false, staged := []
                  outAt := frame }

/-- Mapping out an engine changes engines and sectors alone. -/
theorem State.mapEngine_eq (s : State) (e : Nat) : ∃ m k, s.mapEngine e = { s with engines := m, sectors := k } := by
  unfold State.mapEngine
  split
  · exact ⟨_, _, rfl⟩
  · exact ⟨_, _, rfl⟩

theorem State.mapEngine_engine (s : State) (e x : Nat) (h : (s.engine e).lock ≠ .mappedOut) :
    (s.mapEngine e).engine x = if e = x then (s.engine e).mapAway s.frame.counter else s.engine x := by
  unfold State.mapEngine
  rw [if_neg (by simpa [State.engineOut] using h), State.settled_engine, State.engine_modEngine]
  rfl

theorem State.mapEngines_eq (s : State) (l : List Nat) : ∃ m k, s.mapEngines l = { s with engines := m, sectors := k } := by
  refine forEach_keeps (fun t => ∃ m k, t = { s with engines := m, sectors := k }) l _ (fun t e _ ⟨m, k, ht⟩ => ?_) s ⟨_, _, rfl⟩
  obtain ⟨m', k', h⟩ := t.mapEngine_eq e
  rw [h, ht]
  exact ⟨_, _, rfl⟩

theorem State.mapEngine_kernels (s : State) (e : Nat) : (s.mapEngine e).kernels = s.kernels := by
  obtain ⟨m, k, h⟩ := s.mapEngine_eq e
  rw [h]

theorem State.mapEngine_log (s : State) (e : Nat) : (s.mapEngine e).log = s.log := by
  obtain ⟨m, k, h⟩ := s.mapEngine_eq e
  rw [h]

theorem State.mapEngines_kernels (s : State) (l : List Nat) : (s.mapEngines l).kernels = s.kernels := by
  obtain ⟨m, k, h⟩ := s.mapEngines_eq l
  rw [h]

/-! ## What mapping out a unit keeps -/

/-- From `s` to `t` units have been mapped out: none has come back, the list of failing units is the same, and memory, but for stores
that waited for a frame. -/
structure State.MapsOut (s t : State) : Prop where
  mapped : ∀ v ∈ s.mapped, v ∈ t.mapped
  failing : t.failing = s.failing
  mem : (∀ k ∈ s.kernels, k.late = []) → t.mem = s.mem

/-- What has the same units and the same memory. -/
theorem State.MapsOut.of_same {s t : State} (hunits : t.units = s.units) (hmem : t.mem = s.mem) : s.MapsOut t where
  mapped v hv := by
    have hmapped := congrArg Prod.fst hunits
    change t.mapped = s.mapped at hmapped
    rwa [hmapped]
  failing := congrArg Prod.snd hunits
  mem _ := hmem

theorem State.MapsOut.mapEngine (s : State) (e : Nat) : s.MapsOut (s.mapEngine e) := by
  obtain ⟨m, k, h⟩ := s.mapEngine_eq e
  rw [h]
  exact .of_same rfl rfl

theorem State.MapsOut.mapEngines (s : State) (l : List Nat) : s.MapsOut (s.mapEngines l) := by
  obtain ⟨m, k, h⟩ := s.mapEngines_eq l
  rw [h]
  exact .of_same rfl rfl

theorem State.MapsOut.logError (s : State) (code cls kind unit aux detail : Nat) :
    s.MapsOut (s.logError code cls kind unit aux detail) := .of_same (s.logError_units ..) (s.logError_mem ..)

/-- Mapping out on, from a state with the same kernels. -/
theorem State.MapsOut.trans {s t u : State} (h : s.MapsOut t) (hk : t.kernels = s.kernels) (k : t.MapsOut u) : s.MapsOut u where
  mapped v hv := k.mapped v (h.mapped v hv)
  failing := k.failing.trans h.failing
  mem hlate := (k.mem (by rwa [hk])).trans (h.mem hlate)

theorem State.MapsOut.append (s t : State) (l : List Unit') (h : s.MapsOut t) : s.MapsOut { t with mapped := s.mapped ++ l } where
  mapped _ hv := List.mem_append_left _ hv
  failing := h.failing
  mem := h.mem

/-- Kernels that end, of those that the state holds. -/
theorem State.MapsOut.endKernels (s : State) (p : Kernel → Bool) (st : Status) :
    s.MapsOut (forEach (s.kernels.filter p) (fun s k => s.endKernel k st) s) := by
  have hunits := forEach_same State.units (s.kernels.filter p) (fun s k => s.endKernel k st) (fun t k _ => t.endKernel_units k st) s
  have hmapped := congrArg Prod.fst hunits
  refine ⟨fun v hv => ?_, congrArg Prod.snd hunits, fun hlate => ?_⟩
  · change State.mapped _ = s.mapped at hmapped
    rwa [hmapped]
  · exact forEach_same State.mem _ _ (fun t k hk => t.endKernel_mem k st (hlate k (List.mem_filter.mp hk).1)) s

/-! ## Banks and rows -/

/-- The engine that goes on without a bank (05 R257). -/
def Engine.loseBank (x : Engine) (isB : Bool) : Engine :=
  { (x.setBank isB {}) with
    bankAFailed := x.bankAFailed || !isB
    bankBFailed := x.bankBFailed || isB
    activeB := !isB
    undecided := x.undecided.filter fun k => k.2 != isB
    searched := x.searched.filter fun k => k.2 != isB
    invalid := x.invalid.filter fun k => k.2 != isB
    beyond := x.beyond.filter fun k => k.2 != isB
    relock := { x.relock with search := x.relock.search.filter fun k => k.2.1 != isB } }

/-- The state whose engine has lost a bank, which is logged. -/
def State.loseBank (s : State) (e : Nat) (isB : Bool) : State :=
  (s.logError 0x0100 2 1 e (b2n isB) 0).modEngine e fun x => x.loseBank isB

/-- The state whose engine is mapped out beside what has failed of it, which is logged. -/
def State.alsoEngine (s : State) (e aux : Nat) : State :=
  { (s.logError 0x0101 2 1 e aux 0).mapEngine e with mapped := s.mapped ++ [.engine e] }

theorem State.alsoEngine_engine (s : State) (e aux : Nat) (h : (s.engine e).lock ≠ .mappedOut) :
    (s.alsoEngine e aux).engine e = (s.engine e).mapAway s.frame.counter := by
  have hout := (s.logError 0x0101 2 1 e aux 0).mapEngine_engine e e (by rwa [State.logError_engine])
  rwa [if_pos rfl, State.logError_engine, State.logError_frame] at hout

theorem State.mapBank_eq (s : State) (e : Nat) (isB : Bool) : s.mapBank e isB =
    if ((s.loseBank e isB).engine e).bankAFailed && ((s.loseBank e isB).engine e).bankBFailed then (s.loseBank e isB).alsoEngine e 1
    else s.loseBank e isB := rfl

theorem State.loseBank_engine (s : State) (e : Nat) (isB : Bool) : (s.loseBank e isB).engine e = (s.engine e).loseBank isB := by
  unfold State.loseBank
  rw [State.engine_modEngine, if_pos rfl, State.logError_engine]

theorem State.MapsOut.loseBank (s : State) (e : Nat) (isB : Bool) : s.MapsOut (s.loseBank e isB) :=
  .of_same (s.logError_units ..) (s.logError_mem ..)

theorem State.loseBank_kernels (s : State) (e : Nat) (isB : Bool) : (s.loseBank e isB).kernels = s.kernels := s.logError_kernels ..

theorem State.MapsOut.alsoEngine (s : State) (e aux : Nat) : s.MapsOut (s.alsoEngine e aux) :=
  .append s _ _ ((State.MapsOut.logError ..).trans (s.logError_kernels ..) (.mapEngine ..))

theorem State.MapsOut.mapBank (s : State) (e : Nat) (isB : Bool) : s.MapsOut (s.mapBank e isB) := by
  rw [s.mapBank_eq]
  split
  · exact (State.MapsOut.loseBank s e isB).trans (s.loseBank_kernels ..) (.alsoEngine ..)
  · exact .loseBank ..

/-- Masking a row changes commands and engines alone. -/
theorem State.maskRow_offPath (s : State) (e row : Nat) : (s.maskRow e row).offPath = s.offPath := by
  unfold State.maskRow
  refine forEach_same State.offPath s.jobs _ (fun t j _ => ?_) s
  split
  · rfl
  · split
    · rfl
    · exact forEach_same State.offPath _ _ (fun u x _ => u.splitRows_offPath ..) t

theorem State.MapsOut.maskRow (s : State) (e row : Nat) : s.MapsOut (s.maskRow e row) :=
  .of_same (State.units_of_offPath (s.maskRow_offPath e row)) (State.sameMem_of_offPath (s.maskRow_offPath e row)).1

theorem State.MapsOut.mapRow (s : State) (e row cause : Nat) : s.MapsOut (s.mapRow e row cause) := by
  unfold State.mapRow
  extract_lets u other
  have hkernels := congrArg State.kernels ((s.logError 0x0102 2 4 e row 0).maskRow_offPath e row)
  have hu : s.MapsOut u := (State.MapsOut.logError ..).trans (s.logError_kernels ..) (.maskRow ..)
  split
  · exact hu.trans (hkernels.trans (s.logError_kernels ..)) (.alsoEngine ..)
  · exact hu

/-! ## Every unit -/

/-- The state whose commands with values on an engine's tiles fail their stage, as a failure of its accumulators makes them. -/
def State.failValues (s : State) (e : Nat) : State :=
  forEach s.jobs (fun s j => if j.live && j.valuesOn e then s.modJob j.id fun c => c.failStage .unitFailed else s) s

theorem State.MapsOut.failValues (s : State) (e : Nat) : s.MapsOut (s.failValues e) := by
  have hpath : (s.failValues e).offPath = s.offPath := by
    refine forEach_same State.offPath s.jobs _ (fun t j _ => ?_) s
    split <;> rfl
  exact .of_same (State.units_of_offPath hpath) (State.sameMem_of_offPath hpath).1

theorem State.MapsOut.mapOut (s : State) (u : Unit') (cause : Nat) : s.MapsOut (s.mapOut u cause) := by
  have hlog (code cls kind unit aux detail : Nat) (t : State) (h : (s.logError code cls kind unit aux detail).MapsOut t) : s.MapsOut t :=
    (State.MapsOut.logError ..).trans (s.logError_kernels ..) h
  cases u <;> unfold State.mapOut <;> dsimp only
  case engine e => exact hlog 0x0101 2 1 e cause 0 _ (.mapEngine ..)
  case accFile e =>
    have hout : s.MapsOut ((s.logError 0x0101 2 1 e 2 0).mapEngine e) := hlog _ _ _ _ _ _ _ (.mapEngine ..)
    exact hout.trans ((State.mapEngine_kernels ..).trans (s.logError_kernels ..)) (.failValues ..)
  case bank e isB => exact .mapBank ..
  case rowAdc e row => exact .mapRow ..
  case modulator c line => exact hlog 0x0101 2 3 c 5 line _ (.mapEngines ..)
  case comb c =>
    have hcomb (t : State) (f : Comb → Comb) : t.MapsOut (t.modComb c f) := .of_same rfl rfl
    exact hlog 0x0101 2 2 c 4 0 _ ((hcomb _ _).trans rfl (.mapEngines ..))
  case core n => exact hlog 0x0101 2 5 n cause 0 _ (.endKernels ..)
  case sram c a =>
    have hout : s.MapsOut ((s.logError 0x0101 2 6 c 6 a).mapEngines ((List.range 4).map fun i => 4 * c + i)) :=
      hlog _ _ _ _ _ _ _ (.mapEngines ..)
    exact hout.trans ((State.mapEngines_kernels ..).trans (s.logError_kernels ..)) (.endKernels ..)
  case lane i tx => exact hlog 0x0103 2 8 i 0 0 _ (.of_same rfl rfl)
  case stack n => exact hlog 0x0105 2 7 n (if cause = 7 then 1 else 0) 0 _ (.of_same rfl rfl)
  case monitor k => exact hlog 0x0104 2 9 k 0 0 _ (.of_same rfl rfl)

/-! ## Work that moves off the unit -/

/-- The work of the clusters `p` carries the flag, and moves off engines that are mapped out where it can. -/
def State.remapWork (s : State) (p : Nat → Bool) : State := (s.flagRemapped p).displace.failStranded

@[simp] theorem State.failStranded_offPath (s : State) : s.failStranded.offPath = s.offPath := by
  refine forEach_same State.offPath s.jobs _ (fun t j _ => ?_) s
  split
  · split <;> rfl
  · rfl

@[simp] theorem State.failStranded_engines (s : State) : s.failStranded.engines = s.engines := by
  refine forEach_same State.engines s.jobs _ (fun t j _ => ?_) s
  split
  · split <;> rfl
  · rfl

theorem State.remapWork_offPath (s : State) (p : Nat → Bool) : (s.remapWork p).offPath = s.offPath :=
  (State.failStranded_offPath _).trans (State.displace_offPath _)

theorem State.remapWork_engines (s : State) (p : Nat → Bool) : (s.remapWork p).engines = s.engines :=
  (State.failStranded_engines _).trans (State.displace_engines _)

theorem State.engine_of_engines {s t : State} (h : t.engines = s.engines) (x : Nat) : t.engine x = s.engine x := by
  unfold State.engine
  rw [h]

theorem State.stackBad_of_offPath {s t : State} (h : t.offPath = s.offPath) : t.stackBad = s.stackBad := by
  have := congrArg State.stackBad h
  exact this

theorem State.lane_of_offPath {s t : State} (h : t.offPath = s.offPath) (i : Nat) : t.lane i = s.lane i := by
  have := congrArg (fun t : State => t.lane i) h
  exact this

/-! ## UNIT_MAP_OUT -/

/-- The state in which unit `u` is mapped out and no longer failing. -/
def State.markMapped (s : State) (u : Unit') : State :=
  { s with failing := s.failing.filter fun y => y.1 != u, mapped := s.mapped ++ [u] }

theorem execUnitMapOut_some {s : State} {u : Unit'} {cause : Nat} (h : s.failing.find? (fun x => x.1 == u) = some (u, cause)) :
    exec (.unitMapOut u) s = .next (((s.markMapped u).mapOut u cause).remapWork fun c => (unitClusters u).contains c) := by
  change execUnitMapOut u s = _
  unfold execUnitMapOut
  rw [h]
  rfl

theorem Engine.loseBank_lock (x : Engine) (isB : Bool) : (x.loseBank isB).lock = x.lock := by
  unfold Engine.loseBank Engine.setBank
  split <;> rfl

theorem Engine.loseBank_failed (x : Engine) (isB : Bool) :
    (if isB then (x.loseBank isB).bankBFailed else (x.loseBank isB).bankAFailed) = true := by
  unfold Engine.loseBank
  cases isB <;> simp

/-- With a bank lost, an engine has lost both exactly where the other one had failed. -/
theorem Engine.loseBank_both (x : Engine) (isB : Bool) :
    ((x.loseBank isB).bankAFailed && (x.loseBank isB).bankBFailed) = if isB then x.bankAFailed else x.bankBFailed := by
  unfold Engine.loseBank
  cases isB <;> simp

/-- What becomes of the engine of a bank that is mapped out. -/
theorem State.mapBank_spec (s : State) (e : Nat) (isB : Bool) (hlock : (s.engine e).lock ≠ .mappedOut) :
    (if isB then ((s.mapBank e isB).engine e).bankBFailed else ((s.mapBank e isB).engine e).bankAFailed) = true ∧
      ((if isB then (s.engine e).bankAFailed else (s.engine e).bankBFailed) = false →
        ((s.mapBank e isB).engine e).lock = (s.engine e).lock ∧ ((s.mapBank e isB).engine e).activeB = !isB) ∧
      ((if isB then (s.engine e).bankAFailed else (s.engine e).bankBFailed) = true →
        ((s.mapBank e isB).engine e).lock = .mappedOut ∧ Unit'.engine e ∈ (s.mapBank e isB).mapped) := by
  have hlost := s.loseBank_engine e isB
  rw [s.mapBank_eq, hlost, Engine.loseBank_both]
  by_cases hother : (if isB then (s.engine e).bankAFailed else (s.engine e).bankBFailed) = true
  · rw [if_pos hother]
    have hmapped := (s.loseBank e isB).alsoEngine_engine e 1 (by rwa [hlost, Engine.loseBank_lock])
    rw [hlost] at hmapped
    have hA := congrArg Engine.bankAFailed hmapped
    have hB := congrArg Engine.bankBFailed hmapped
    have hout := congrArg Engine.lock hmapped
    refine ⟨?_, fun h => absurd hother (by simp [h]), fun _ => ⟨hout, List.mem_append_right _ (List.mem_singleton_self _)⟩⟩
    refine Eq.trans ?_ ((s.engine e).loseBank_failed isB)
    cases isB
    · exact hA
    · exact hB
  · rw [if_neg hother, hlost]
    exact ⟨Engine.loseBank_failed .., fun _ => ⟨Engine.loseBank_lock .., rfl⟩, fun h => absurd h hother⟩

/-- Settles O34: work that moves off the unit leaves the path's engines and everything off it as mapping out has made them. -/
theorem failedUnitsAreMappedOut : Obligations.FailedUnitsAreMappedOut := by
  unfold Obligations.FailedUnitsAreMappedOut
  intro s u cause hfailing
  refine ⟨_, execUnitMapOut_some hfailing, ?_⟩
  have houts := State.MapsOut.mapOut (s.markMapped u) u cause
  generalize hp : (fun c => (unitClusters u).contains c) = p
  have hpath := ((s.markMapped u).mapOut u cause).remapWork_offPath p
  have hengines := ((s.markMapped u).mapOut u cause).remapWork_engines p
  have hengine (x : Nat) : (((s.markMapped u).mapOut u cause).remapWork p).engine x = ((s.markMapped u).mapOut u cause).engine x :=
    State.engine_of_engines hengines x
  generalize ((s.markMapped u).mapOut u cause).remapWork p = t at hpath hengines hengine ⊢
  have hlogs {code unit aux detail : Nat} (h : (s.markMapped u).logs ((s.markMapped u).mapOut u cause) code unit aux detail) :
      s.logs t code unit aux detail := State.logs_congr rfl rfl (State.log_of_offPath hpath) h
  refine ⟨?_, ?_, ?_, ?_, ?_, ?_, ?_⟩
  · rw [State.mapped_of_offPath hpath]
    exact houts.mapped u (List.mem_append_right _ (List.mem_singleton_self u))
  · intro c hc
    have hlist : t.failing = s.failing.filter fun y => y.1 != u :=
      (congrArg Prod.snd (State.units_of_offPath hpath)).trans houts.failing
    rw [hlist] at hc
    simp at hc
  · intro hlate
    exact ((State.sameMem_of_offPath hpath).1.trans (houts.mem hlate)).symm
  · rintro e rfl hlock
    have hout (x : Nat) : t.engine x = if e = x then (s.engine e).mapAway s.frame.counter else s.engine x := by
      rw [hengine]
      unfold State.mapOut
      dsimp only
      rw [State.mapEngine_engine _ _ _ (by rwa [State.logError_engine]), State.logError_engine, State.logError_engine,
        State.logError_frame]
      rfl
    have hself := (hout e).trans (if_pos rfl)
    refine ⟨congrArg Engine.lock hself, congrArg Engine.bankA hself, congrArg Engine.bankB hself, hlogs ?_, fun x hx =>
      (hout x).trans (if_neg (Ne.symm hx))⟩
    exact State.logs_congr rfl rfl (State.mapEngine_log ..) (State.logs_logError ..)
  · rintro n rfl
    refine ⟨(State.stackBad_of_offPath hpath).trans ?_, hengines.trans (State.logError_engines ..), _, hlogs (State.logs_logError ..)⟩
    exact congrArg (insertNat n) ((s.markMapped (.stack n)).logError_stackBad ..)
  · rintro i tx rfl
    refine ⟨hlogs (State.logs_logError ..), (State.lane_of_offPath hpath i).trans ?_⟩
    unfold State.mapOut
    dsimp only
    rw [State.lane_modLane, if_pos rfl, State.logError_lane]
    rfl
  · rintro e isB rfl hlock
    have hspec := (s.markMapped (.bank e isB)).mapBank_spec e isB hlock
    rw [hengine, State.mapped_of_offPath hpath]
    exact hspec

end Sys2Proof.Machine
end

section
/-! PROOFS. The loss locator and the ageing record (06 R328 to R335). -/

namespace Sys2Proof.Machine

/-! ## Monitor converters -/

@[simp] theorem State.monitor_modMonitor (s : State) (k x : Nat) (f : Monitor → Monitor) :
    (s.modMonitor k f).monitor x = if k = x then f (s.monitor k) else s.monitor x := Sparse.get_modify ..

@[simp] theorem State.logError_monitor (s : State) (code cls kind unit aux detail k : Nat) :
    (s.logError code cls kind unit aux detail).monitor k = s.monitor k := by
  unfold State.monitor
  rw [s.logError_monitors]

/-! ## What the locator reads -/

/-- What the paths are read from, and what the locator leaves as it was. -/
def State.readings (s : State) : Sparse Monitor × Sparse Comb × Sparse Byte × List Nat := (s.monitors, s.combs, s.mem, s.poison)

theorem State.readings_eq {s t : State} (h : t.readings = s.readings) :
    t.monitors = s.monitors ∧ t.combs = s.combs ∧ s.sameMem t := by
  have hmonitors := congrArg (fun x => x.1) h
  have hcombs := congrArg (fun x => x.2.1) h
  have hmem := congrArg (fun x => x.2.2.1) h
  have hpoison := congrArg (fun x => x.2.2.2) h
  exact ⟨hmonitors, hcombs, hmem, hpoison⟩

theorem State.monitor_of_readings {s t : State} (h : t.readings = s.readings) (k : Nat) : t.monitor k = s.monitor k := by
  unfold State.monitor
  rw [(State.readings_eq h).1]

theorem State.combOn_of_readings {s t : State} (h : t.readings = s.readings) (e : Nat) : t.combOn e = s.combOn e := by
  unfold State.combOn State.comb
  rw [(State.readings_eq h).2.1]

@[simp] theorem State.logError_readings (s : State) (code cls kind unit aux detail : Nat) :
    (s.logError code cls kind unit aux detail).readings = s.readings := by
  unfold State.readings
  rw [s.logError_monitors, s.logError_combs, s.logError_mem, s.logError_poison]

/-- A tap's power is read off the converter's results. -/
theorem State.tapDbm_congr {s t : State} {k : Nat} (h : (t.monitor k).results = (s.monitor k).results) (key : Nat) :
    t.tapDbm k key = s.tapDbm k key := by
  unfold State.tapDbm
  rw [h]

/-- An engine's path is read off the converter's results and the combs. -/
theorem State.enginePath_congr {s t : State} {k : Nat} (h : (t.monitor k).results = (s.monitor k).results) (hc : t.combs = s.combs)
    (i : Nat) : t.enginePath k i = s.enginePath k i := by
  have htap : t.tapDbm k = s.tapDbm k := funext (State.tapDbm_congr h)
  have hline : t.lineDbm k = s.lineDbm k := funext fun key => congrArg (· - 1806) (State.tapDbm_congr h key)
  have hfull : t.fullScaleDbm k = s.fullScaleDbm k := by
    funext l
    unfold State.fullScaleDbm
    rw [htap, h]
  have hrow : t.rowDbm k i = s.rowDbm k i := by
    funext r
    unfold State.rowDbm
    rw [hline, h]
  have hcomb (c : Nat) : t.comb c = s.comb c := by
    unfold State.comb
    rw [hc]
  unfold State.enginePath
  dsimp only
  rw [htap, hline, hfull, hrow, hcomb]

/-- A lane's path is read off the converter's results and the lane. -/
theorem State.lanePath_congr {s t : State} {d i : Nat} (h : (t.monitor (64 + d)).results = (s.monitor (64 + d)).results)
    (hl : t.lane i = s.lane i) : t.lanePath d i = s.lanePath d i := by
  have htap : t.tapDbm (64 + d) = s.tapDbm (64 + d) := funext (State.tapDbm_congr h)
  unfold State.lanePath
  dsimp only
  rw [htap, hl]

/-! ## One engine's path -/

section
variable (s : State) (k i : Nat)

theorem State.locateEngine_off (h : s.combOn (4 * k + i) = false) : s.locateEngine k i = s := by
  unfold State.locateEngine
  simp [h]

@[simp] theorem State.locateEngine_readings : (s.locateEngine k i).readings = s.readings := by
  unfold State.locateEngine
  dsimp only
  split
  · rfl
  · split
    · rfl
    · exact State.logError_readings ..

theorem State.locateEngine_other (x : Nat) (h : 4 * k + i ≠ x) : (s.locateEngine k i).engine x = s.engine x := by
  unfold State.locateEngine
  dsimp only
  split
  · rfl
  · split
    · rw [State.engine_modEngine, if_neg h]
    · rw [State.logError_engine, State.engine_modEngine, if_neg h]

theorem State.locateEngine_stage (h : s.combOn (4 * k + i) = true) :
    ((s.locateEngine k i).engine (4 * k + i)).lossStage = firstLoss (s.enginePath k i).1 := by
  unfold State.locateEngine
  rw [if_neg (by simp [h])]
  dsimp only
  split
  · rw [State.engine_modEngine, if_pos rfl]
  · rw [State.logError_engine, State.engine_modEngine, if_pos rfl]

theorem State.locateEngine_log
    (h : s.combOn (4 * k + i) = true → (s.engine (4 * k + i)).lossStage = firstLoss (s.enginePath k i).1) :
    (s.locateEngine k i).log = s.log := by
  by_cases hon : s.combOn (4 * k + i) = true
  · unfold State.locateEngine
    rw [if_neg (by simp [hon])]
    dsimp only
    rw [if_pos (h hon).symm]
    rfl
  · rw [s.locateEngine_off k i (by simpa using hon)]

end

/-! ## The engines of a converter -/

/-- The locator on every engine of cluster `k`. -/
def State.locateEngines (s : State) (k : Nat) : State := forEach [0, 1, 2, 3] (fun s i => s.locateEngine k i) s

theorem State.locateEngines_readings (s : State) (k : Nat) : (s.locateEngines k).readings = s.readings :=
  forEach_same State.readings _ (fun s i => s.locateEngine k i) (fun t i _ => t.locateEngine_readings k i) s

theorem State.locateEngines_other (s : State) (k x : Nat) (h : x / 4 ≠ k) : (s.locateEngines k).engine x = s.engine x := by
  refine forEach_same (fun t => t.engine x) _ (fun s i => s.locateEngine k i) (fun t i hi => t.locateEngine_other k i x ?_) s
  simp only [List.mem_cons, List.not_mem_nil, or_false] at hi
  omega

theorem mem_quad {i : Nat} (h : i < 4) : i ∈ [0, 1, 2, 3] := List.mem_range.mpr h

/-- The turn of an engine's path leaves its figures to that engine alone, and reads what the loop began with. -/
theorem State.locateEngines_stage (s : State) (k i : Nat) (hi : i < 4) (hon : s.combOn (4 * k + i) = true) :
    ((s.locateEngines k).engine (4 * k + i)).lossStage = firstLoss (s.enginePath k i).1 := by
  refine forEach_passes (fun t => t.readings = s.readings) (fun t => (t.engine (4 * k + i)).lossStage = firstLoss (s.enginePath k i).1)
    [0, 1, 2, 3] (by decide) (fun s i => s.locateEngine k i) i (mem_quad hi) (fun t b _ ht => (t.locateEngine_readings k b).trans ht)
    (fun t ht => ?_) (fun t b hb ht => ?_) s rfl
  · have hmonitor := State.monitor_of_readings ht k
    rw [t.locateEngine_stage k i ((State.combOn_of_readings ht _).trans hon),
      State.enginePath_congr (congrArg Monitor.results hmonitor) (State.readings_eq ht).2.1]
  · rw [t.locateEngine_other k b _ (by omega)]
    exact ht

theorem State.locateEngines_off (s : State) (k i : Nat) (hoff : s.combOn (4 * k + i) = false) :
    (s.locateEngines k).engine (4 * k + i) = s.engine (4 * k + i) := by
  refine (forEach_keeps (fun t => t.readings = s.readings ∧ t.engine (4 * k + i) = s.engine (4 * k + i)) _
    (fun s i => s.locateEngine k i) (fun t b _ ⟨ht, hself⟩ => ⟨(t.locateEngine_readings k b).trans ht, ?_⟩) s ⟨rfl, rfl⟩).2
  by_cases hb : 4 * k + b = 4 * k + i
  · rw [t.locateEngine_off k b (by rw [hb, State.combOn_of_readings ht, hoff]), hself]
  · rw [t.locateEngine_other k b _ hb, hself]

/-- With every result as it was, nothing is logged. -/
theorem State.locateEngines_log (s : State) (k : Nat)
    (h : ∀ i < 4, s.combOn (4 * k + i) = true → (s.engine (4 * k + i)).lossStage = firstLoss (s.enginePath k i).1) :
    (s.locateEngines k).log = s.log := by
  refine (forEach_keeps (fun t => t.readings = s.readings ∧ (∀ x, (t.engine x).lossStage = (s.engine x).lossStage) ∧ t.log = s.log) _
    (fun s i => s.locateEngine k i) (fun t b hb ⟨ht, hstage, hlog⟩ => ?_) s ⟨rfl, fun _ => rfl, rfl⟩).2.2
  have hb4 : b < 4 := List.mem_range.mp hb
  have hpath := State.enginePath_congr (congrArg Monitor.results (State.monitor_of_readings ht k)) (State.readings_eq ht).2.1 b
  have hsame (hon : t.combOn (4 * k + b) = true) : (t.engine (4 * k + b)).lossStage = firstLoss (t.enginePath k b).1 := by
    rw [hstage, hpath]
    exact h b hb4 ((State.combOn_of_readings ht _).symm.trans hon)
  refine ⟨(t.locateEngine_readings k b).trans ht, fun x => ?_, (t.locateEngine_log k b hsame).trans hlog⟩
  by_cases hx : 4 * k + b = x
  · subst hx
    by_cases hon : t.combOn (4 * k + b) = true
    · rw [t.locateEngine_stage k b hon, ← hsame hon, hstage]
    · rw [t.locateEngine_off k b (by simpa using hon), hstage]
  · rw [t.locateEngine_other k b x hx, hstage]

/-! ## The lanes of a hub converter -/

/-- The locator leaves a lane's results as they stand. -/
def Lane.standing (l : Lane) : Prop := l.tx = 1 ∨ l.tx = 4 ∨ l.tx = 5

section
variable (s : State) (d i : Nat)

theorem State.locateLane_standing (h : (s.lane i).standing) : s.locateLane d i = s := if_pos h

theorem State.locateLane_same : (s.locateLane d i).readings = s.readings ∧ (s.locateLane d i).engines = s.engines ∧
    ∀ x, i ≠ x → (s.locateLane d i).lane x = s.lane x := by
  unfold State.locateLane
  dsimp only
  split
  · exact ⟨rfl, rfl, fun _ _ => rfl⟩
  · split
    · exact ⟨rfl, rfl, fun x hx => by rw [State.lane_modLane, if_neg hx]⟩
    · exact ⟨State.logError_readings .., State.logError_engines .., fun x hx => by
        rw [State.logError_lane, State.lane_modLane, if_neg hx]⟩

theorem State.locateLane_stage (h : ¬(s.lane i).standing) : ((s.locateLane d i).lane i).lossStage = firstLoss (s.lanePath d i) := by
  unfold State.locateLane
  have hnot : ¬((s.lane i).tx = 1 ∨ (s.lane i).tx = 4 ∨ (s.lane i).tx = 5) := h
  dsimp only
  rw [if_neg hnot]
  split
  · rw [State.lane_modLane, if_pos rfl]
  · rw [State.logError_lane, State.lane_modLane, if_pos rfl]

end

/-- The locator on every lane of hub converter H`d`. -/
def State.locateLanes (s : State) (d : Nat) : State := forEach (lanesOf d) (fun s i => s.locateLane d i) s

theorem State.locateLanes_readings (s : State) (d : Nat) : (s.locateLanes d).readings = s.readings :=
  forEach_same State.readings _ (fun s i => s.locateLane d i) (fun t i _ => (t.locateLane_same d i).1) s

theorem State.locateLanes_engines (s : State) (d : Nat) : (s.locateLanes d).engines = s.engines :=
  forEach_same State.engines _ (fun s i => s.locateLane d i) (fun t i _ => (t.locateLane_same d i).2.1) s

/-- A lane that no turn is about, or whose results stand, stays. -/
theorem State.locateLanes_kept (s : State) (d i : Nat) (h : i ∉ lanesOf d ∨ (s.lane i).standing) :
    (s.locateLanes d).lane i = s.lane i := by
  refine forEach_keeps (fun t => t.lane i = s.lane i) _ (fun s i => s.locateLane d i) (fun t b hb ht => ?_) s rfl
  by_cases hbi : b = i
  · subst hbi
    have hstanding : (t.lane b).standing := by
      rw [ht]
      exact h.resolve_left fun hn => hn hb
    rw [t.locateLane_standing d b hstanding, ht]
  · rw [(t.locateLane_same d b).2.2 i hbi, ht]

theorem lanesOf_nodup (d : Nat) : (lanesOf d).Nodup := by
  have hmap : ((List.range 64).map fun i => 64 * d + i).Nodup :=
    (List.nodup_range).map fun a b h => by simpa using h
  unfold lanesOf
  split
  · refine hmap.append (by decide) ?_
    intro a ha hb
    simp only [List.mem_map, List.mem_range] at ha
    simp only [List.mem_cons, List.not_mem_nil, or_false] at hb
    omega
  · simpa using hmap

theorem State.locateLanes_stage (s : State) {d i : Nat} (hi : i ∈ lanesOf d) (hstanding : ¬(s.lane i).standing) :
    ((s.locateLanes d).lane i).lossStage = firstLoss (s.lanePath d i) := by
  refine forEach_passes (fun t => t.readings = s.readings ∧ t.lane i = s.lane i)
    (fun t => (t.lane i).lossStage = firstLoss (s.lanePath d i)) (lanesOf d) (lanesOf_nodup d) (fun s i => s.locateLane d i) i hi
    (fun t b hb ⟨ht, hl⟩ => ?_) (fun t ⟨ht, hl⟩ => ?_) (fun t b hb ht => ?_) s ⟨rfl, rfl⟩
  · obtain ⟨hread, -, hlane⟩ := t.locateLane_same d b
    exact ⟨hread.trans ht, (hlane i hb).trans hl⟩
  · rw [t.locateLane_stage d i (by rwa [hl])]
    exact congrArg firstLoss (State.lanePath_congr (congrArg Monitor.results (State.monitor_of_readings ht _)) hl)
  · rw [(t.locateLane_same d b).2.2 i hb]
    exact ht

/-! ## LOSS_LOCATOR_RUN -/

/-- The state whose converter has no scan cycle that the locator still has to read. -/
def State.cycleRead (s : State) (c : Nat) : State := s.modMonitor c fun m => { m with cycled := false }

theorem State.cycleRead_monitor (s : State) (c : Nat) : ((s.cycleRead c).monitor c).results = (s.monitor c).results ∧
    ((s.cycleRead c).monitor c).failed = (s.monitor c).failed ∧ ((s.cycleRead c).monitor c).cycled = false := by
  unfold State.cycleRead
  rw [State.monitor_modMonitor, if_pos rfl]
  exact ⟨rfl, rfl, rfl⟩

theorem State.cycleRead_lane (s : State) (c i : Nat) : (s.cycleRead c).lane i = s.lane i := rfl

theorem execLossLocatorRun_reads {s : State} {hub : Bool} {k c : Nat} (hc : c = if hub then 64 + k else k)
    (hk : k < if hub then 4 else 64) (hruns : s.runs .twilight = true) (hcycled : (s.monitor c).cycled = true)
    (hfailed : (s.monitor c).failed = false) :
    exec (.lossLocatorRun hub k) s = .next (if hub then (s.cycleRead c).locateLanes k else (s.cycleRead c).locateEngines k) := by
  have hstill := (s.cycleRead_monitor c).2.1.trans hfailed
  change execLossLocatorRun hub k s = _
  unfold execLossLocatorRun
  dsimp only
  rw [← hc, if_neg (by simp [hruns, hcycled]; omega)]
  change (if ((s.cycleRead c).monitor c).failed = true then _ else _) = _
  rw [hstill, if_neg nofun]
  cases hub <;> rfl

/-- LOSS_LOCATOR_RUN of a quad's converter. -/
theorem does_lossLocator_quad (s : State) (k : Nat) (hk : k < 64) (hruns : s.runs .twilight = true)
    (hcycled : (s.monitor k).cycled = true) (hfailed : (s.monitor k).failed = false) :
    Does (.lossLocatorRun false k) s fun t => s.sameMem t ∧ (t.monitor k).cycled = false ∧
      (∀ i < 4, s.combOn (4 * k + i) = true → (t.engine (4 * k + i)).lossStage = firstLoss (s.enginePath k i).1) ∧
      (∀ i < 4, s.combOn (4 * k + i) = false → t.engine (4 * k + i) = s.engine (4 * k + i)) ∧
      (∀ x, x / 4 ≠ k → t.engine x = s.engine x) ∧
      ((∀ i < 4, s.combOn (4 * k + i) = true → (s.engine (4 * k + i)).lossStage = firstLoss (s.enginePath k i).1) → t.log = s.log) := by
  refine ⟨_, execLossLocatorRun_reads (hub := false) (c := k) (if_neg nofun).symm (by simpa using hk) hruns hcycled hfailed, ?_⟩
  have hread := (s.cycleRead k).locateEngines_readings k
  have hpath := State.enginePath_congr (t := s.cycleRead k) (s.cycleRead_monitor k).1 rfl
  refine ⟨(State.readings_eq hread).2.2, ?_, fun i hi hon => ?_, fun i _ hoff => State.locateEngines_off _ k i hoff,
    State.locateEngines_other _ k, fun h => ?_⟩
  · exact (congrArg Monitor.cycled (State.monitor_of_readings hread k)).trans (s.cycleRead_monitor k).2.2
  · rw [← hpath]
    exact (s.cycleRead k).locateEngines_stage k i hi hon
  · refine (s.cycleRead k).locateEngines_log k fun i hi hon => ?_
    rw [hpath]
    exact h i hi hon

/-- LOSS_LOCATOR_RUN of a hub converter. -/
theorem does_lossLocator_hub (s : State) (d : Nat) (hd : d < 4) (hruns : s.runs .twilight = true)
    (hcycled : (s.monitor (64 + d)).cycled = true) (hfailed : (s.monitor (64 + d)).failed = false) :
    Does (.lossLocatorRun true d) s fun t => s.sameMem t ∧ t.engines = s.engines ∧
      (∀ i ∈ lanesOf d, (s.lane i).tx ≠ 1 → (s.lane i).tx ≠ 4 → (s.lane i).tx ≠ 5 → (t.lane i).lossStage = firstLoss (s.lanePath d i)) ∧
      (∀ i, i ∉ lanesOf d ∨ (s.lane i).tx = 1 ∨ (s.lane i).tx = 4 ∨ (s.lane i).tx = 5 → t.lane i = s.lane i) := by
  refine ⟨_, execLossLocatorRun_reads (hub := true) (c := 64 + d) (if_pos rfl).symm (by simpa using hd) hruns hcycled hfailed, ?_⟩
  have hread := (s.cycleRead (64 + d)).locateLanes_readings d
  refine ⟨(State.readings_eq hread).2.2, (s.cycleRead (64 + d)).locateLanes_engines d, fun i hi h1 h4 h5 => ?_, fun i hi =>
    ((s.cycleRead (64 + d)).locateLanes_kept d i hi).trans (s.cycleRead_lane (64 + d) i)⟩
  have hpath := State.lanePath_congr (t := s.cycleRead (64 + d)) (s.cycleRead_monitor (64 + d)).1 (s.cycleRead_lane (64 + d) i)
  rw [← hpath]
  refine (s.cycleRead (64 + d)).locateLanes_stage hi ?_
  rintro (h | h | h)
  · exact h1 h
  · exact h4 h
  · exact h5 h

/-! ## AGEING_RECORD_WRITE -/

/-- The record with the bias of the twelve combs in front. -/
def State.newRecord (s : State) : List (Nat × List Nat) := (s.poweredHours, (List.range 12).map s.biasOf) :: s.cal.ageing

/-- The state with the new record. -/
def State.putRecord (s : State) : State :=
  { s with cal := { s.cal with ageing := s.newRecord, sinceRecord := s.cal.sinceRecord % framesHour } }

/-- The estimate of a comb's remaining life follows a record. -/
def State.estimateLife (s : State) (rec' : List (Nat × List Nat)) (j : Nat) : State :=
  let e := lifeEst rec' j (s.biasOf j)
  if j < 8 then s.modComb j fun x => { x with lifeEst := e }
  else { s with link := { s.link with linkCombs := s.link.linkCombs.modify {} (j - 8) fun x => { x with lifeEst := e } } }

theorem State.estimateLife_eq (s : State) (rec' : List (Nat × List Nat)) (j : Nat) :
    ∃ c l, s.estimateLife rec' j = { s with combs := c, link := l } := by
  unfold State.estimateLife
  dsimp only
  split
  · exact ⟨_, _, rfl⟩
  · exact ⟨_, _, rfl⟩

/-- The comb with its estimate after a record. -/
def Comb.estimated (x : Comb) (rec' : List (Nat × List Nat)) (c : Nat) : Comb := { x with lifeEst := Machine.lifeEst rec' c x.bias }

theorem State.estimateLife_comb (s : State) (rec' : List (Nat × List Nat)) (j c : Nat) :
    (s.estimateLife rec' j).comb c = if j = c ∧ c < 8 then (s.comb c).estimated rec' c else s.comb c := by
  unfold State.estimateLife
  dsimp only
  split
  · next hj =>
    rw [State.comb_modComb]
    by_cases h : j = c
    · subst h
      rw [if_pos rfl, if_pos ⟨rfl, hj⟩]
      unfold State.biasOf
      rw [if_pos hj]
      rfl
    · rw [if_neg h, if_neg fun ⟨h', _⟩ => h h']
  · next hj =>
    rw [if_neg (by omega)]
    rfl

/-- The estimates of the twelve combs follow a record. -/
def State.estimateLives (s : State) (rec' : List (Nat × List Nat)) : State :=
  forEach (List.range 12) (fun s j => s.estimateLife rec' j) s

theorem State.estimateLives_eq (s : State) (rec' : List (Nat × List Nat)) :
    ∃ c l, s.estimateLives rec' = { s with combs := c, link := l } := by
  refine forEach_keeps (fun t => ∃ c l, t = { s with combs := c, link := l }) _ (fun s j => s.estimateLife rec' j)
    (fun t j _ ⟨c, l, ht⟩ => ?_) s ⟨_, _, rfl⟩
  obtain ⟨c', l', h⟩ := t.estimateLife_eq rec' j
  rw [h, ht]
  exact ⟨_, _, rfl⟩

theorem State.estimateLives_comb (s : State) (rec' : List (Nat × List Nat)) (c : Nat) :
    (s.estimateLives rec').comb c = if c < 8 then (s.comb c).estimated rec' c else s.comb c := by
  by_cases hc : c < 8
  · rw [if_pos hc]
    refine forEach_once (fun t => t.comb c) (fun x => x.estimated rec' c) (fun s j => s.estimateLife rec' j) (a := c)
      (List.mem_range.mpr (by omega)) List.nodup_range (fun t => ?_) (fun t j _ hj => ?_) s
    · exact (t.estimateLife_comb rec' c c).trans (if_pos ⟨rfl, hc⟩)
    · exact (t.estimateLife_comb rec' j c).trans (if_neg fun ⟨h, _⟩ => hj h)
  · rw [if_neg hc]
    exact forEach_same (fun t => t.comb c) _ (fun s j => s.estimateLife rec' j)
      (fun t j _ => (t.estimateLife_comb rec' j c).trans (if_neg fun ⟨_, h⟩ => hc h)) s

theorem execAgeingRecordWrite_due {s : State} (hruns : s.runs .dawn = true) (hdue : frames24h ≤ s.cal.sinceRecord) :
    exec (.ageingRecordWrite s.poweredHours) s =
      .next (if s.runs .twilight then s.putRecord.estimateLives s.newRecord else s.putRecord) := by
  change execAgeingRecordWrite s.poweredHours s = _
  unfold execAgeingRecordWrite
  rw [if_neg (by simp [hruns]; omega)]
  change (if (!s.runs .twilight) = true then _ else _) = _
  cases s.runs .twilight <;> rfl

/-- AGEING_RECORD_WRITE: the record grows, and the estimates of the combs follow it. -/
theorem does_ageingRecordWrite (s : State) (hours : Nat) (hruns : s.runs .dawn = true) (hdue : frames24h ≤ s.cal.sinceRecord)
    (hhours : hours = s.poweredHours) :
    Does (.ageingRecordWrite hours) s fun t =>
      t.cal.ageing = (((s.cal.ageing.head?.map (·.1)).getD 0) + s.cal.sinceRecord / framesHour, (List.range 12).map s.biasOf) ::
        s.cal.ageing ∧
      t.cal.sinceRecord = s.cal.sinceRecord % framesHour ∧ s.sameMem t ∧
      (∀ c, (t.comb c).bias = (s.comb c).bias) ∧ t.engines = s.engines ∧
      (s.runs .twilight = true → ∀ c < 8, (t.comb c).lifeEst = lifeEst t.cal.ageing c (s.comb c).bias) := by
  subst hhours
  refine ⟨_, execAgeingRecordWrite_due hruns hdue, ?_⟩
  cases s.runs .twilight with
  | false => exact ⟨rfl, rfl, ⟨rfl, rfl⟩, fun _ => rfl, rfl, nofun⟩
  | true =>
    have hcomb := s.putRecord.estimateLives_comb s.newRecord
    obtain ⟨m, l, heq⟩ := s.putRecord.estimateLives_eq s.newRecord
    rw [if_pos rfl]
    rw [heq] at hcomb ⊢
    refine ⟨rfl, rfl, ⟨rfl, rfl⟩, fun c => ?_, rfl, fun _ c hc => ?_⟩
    · refine (congrArg Comb.bias (hcomb c)).trans ?_
      split <;> rfl
    · exact congrArg Comb.lifeEst ((hcomb c).trans (if_pos hc))

end Sys2Proof.Machine
end

section
/-! PROOFS. Residual windows, patrol scrub, limiters, tones and converters (05 R296; 06 R304 to R324; 09 R448 to R453), and the statement
`RecordsFiguresAndScrub`. -/

namespace Sys2Proof.Machine

/-! ## Maps over sparse tables, and registers that are shown -/

/-- A table whose every value goes through a function that keeps the default. -/
theorem Sparse.get_map {α : Type} (d : α) (f : α → α) (hd : f d = d) (m : Sparse α) (k : Nat) :
    Sparse.get d (m.map fun x => (x.1, f x.2)) k = f (Sparse.get d m k) := by
  induction m with
  | nil => exact hd.symm
  | cons x m ih =>
    obtain ⟨j, v⟩ := x
    simp only [Sparse.get, List.map_cons] at ih ⊢
    split
    · rfl
    · exact ih

theorem State.showReg_eq (s : State) (o v : Nat) : ∃ m, s.showReg o v = { s with shown := m } := by
  unfold State.showReg
  split
  · exact ⟨_, rfl⟩
  · exact ⟨_, rfl⟩

theorem State.showReg_stopped {s : State} (h : s.runs .twilight = false) (o v : Nat) : s.showReg o v = s := by
  unfold State.showReg
  rw [h]
  rfl

theorem shownReset_lt (o : Nat) : shownReset o < 2 ^ 32 := by
  unfold shownReset
  split
  · decide
  · split
    · decide
    · split
      · decide
      · split <;> decide

/-- What Twilight shows is what the register reads; the other registers stay. -/
theorem State.shownValue_showReg {s : State} (h : s.runs .twilight = true) (o v p : Nat) :
    (s.showReg o v).shownValue p = if o = p then v % 2 ^ 32 else s.shownValue p := by
  unfold State.showReg State.shownValue
  rw [if_pos h]
  dsimp only
  rw [Sparse.get_set]
  split
  · next hp =>
    subst hp
    rw [BitVec.toNat_ofNat, Nat.xor_mod_two_pow, Nat.mod_eq_of_lt (shownReset_lt o), Nat.xor_assoc, Nat.xor_self, Nat.xor_zero]
  · rfl

/-! ## RESID_WINDOW_END -/

/-- An engine at the end of its window, whose figures stand when it is a whole one with samples (05 R296). -/
def Engine.endWindow (x : Engine) (whole : Bool) : Engine :=
  { x with residRms := if 0 < x.samples ∧ whole = true then rms88 x.sumSq x.samples else x.residRms
           residPeak := if 0 < x.samples ∧ whole = true then peak88 x.peakAbs else x.residPeak
           sumSq := Dy.zero, peakAbs := Dy.zero, samples := 0 }

/-- The windows of all engines end. -/
def State.endWindows (s : State) : State :=
  { s with
    cal := { s.cal with windowCut := false }
    engines := s.engines.map fun x => (x.1, x.2.endWindow (s.runs .twilight && !s.cal.windowCut)) }

/-- The figures of engines are shown. -/
def State.showResids (s : State) (l : List (Nat × Engine)) : State :=
  forEach l (fun s y => s.showReg (0x20500 + 4 * y.1) y.2.residWord) s

theorem execResidWindowEnd_ends {s : State} (h : s.frame.counter % 128 = 0) :
    exec .residWindowEnd s = .next (s.endWindows.showResids s.endWindows.engines) := by
  change execResidWindowEnd s = _
  unfold execResidWindowEnd
  rw [if_neg (not_not_intro h)]
  rfl

theorem State.endWindows_engine (s : State) (e : Nat) :
    s.endWindows.engine e = (s.engine e).endWindow (s.runs .twilight && !s.cal.windowCut) :=
  Sparse.get_map ({} : Engine) (fun x => x.endWindow (s.runs .twilight && !s.cal.windowCut)) rfl s.engines e

theorem State.showResids_eq (s : State) (l : List (Nat × Engine)) : ∃ m, s.showResids l = { s with shown := m } := by
  refine forEach_keeps (fun t => ∃ m, t = { s with shown := m }) l _ (fun t y _ ⟨_, ht⟩ => ?_) s ⟨_, rfl⟩
  obtain ⟨m, h⟩ := t.showReg_eq (0x20500 + 4 * y.1) y.2.residWord
  rw [h, ht]
  exact ⟨_, rfl⟩

theorem State.showResids_stopped {s : State} (h : s.runs .twilight = false) (l : List (Nat × Engine)) : s.showResids l = s :=
  forEach_keeps (fun t => t = s) l _ (fun t y _ ht => by rw [ht, State.showReg_stopped h]) s rfl

/-- With every engine listed once, each register shows its engine's figures. -/
theorem State.showResids_shown {s : State} (h : s.runs .twilight = true) {l : List (Nat × Engine)} (hl : (l.map (·.1)).Nodup)
    {x : Nat × Engine} (hx : x ∈ l) : (s.showResids l).shownValue (0x20500 + 4 * x.1) = x.2.residWord % 2 ^ 32 := by
  have hkeys : ∀ a ∈ l, ∀ b ∈ l, a.1 = b.1 → a = b := fun a ha b hb hab => List.inj_on_of_nodup_map hl ha hb hab
  have hruns (t : State) (y : Nat × Engine) (ht : t.runs .twilight = true) :
      (t.showReg (0x20500 + 4 * y.1) y.2.residWord).runs .twilight = true := by
    obtain ⟨m, heq⟩ := t.showReg_eq (0x20500 + 4 * y.1) y.2.residWord
    rw [heq]
    exact ht
  obtain ⟨l₁, l₂, rfl⟩ := List.append_of_mem hx
  have hsplit : (s.showResids (l₁ ++ x :: l₂)) = ((s.showResids l₁).showReg (0x20500 + 4 * x.1) x.2.residWord).showResids l₂ :=
    forEach_append ..
  have hfirst : (s.showResids l₁).runs .twilight = true :=
    forEach_keeps (fun t => t.runs .twilight = true) l₁ _ (fun t y _ ht => hruns t y ht) s h
  have hnot : ∀ y ∈ l₂, y.1 ≠ x.1 := by
    intro y hy hxy
    have hmid := (List.nodup_middle.mp (by simpa using hl)).notMem
    exact hmid (List.mem_append_right _ (List.mem_map.mpr ⟨y, hy, hxy⟩))
  rw [hsplit]
  refine (forEach_keeps (fun t => t.runs .twilight = true ∧ t.shownValue (0x20500 + 4 * x.1) = x.2.residWord % 2 ^ 32) l₂ _
    (fun t y hy ⟨ht, hshown⟩ => ⟨hruns t y ht, ?_⟩) _ ⟨hruns _ x hfirst, ?_⟩).2
  · have hne := hnot y hy
    rw [State.shownValue_showReg ht, if_neg (by omega), hshown]
  · rw [State.shownValue_showReg hfirst, if_pos rfl]

/-- RESID_WINDOW_END: each window ends, and the figures of whole ones with samples are shown. -/
theorem does_residWindowEnd (s : State) (hframe : s.frame.counter % 128 = 0) : Does .residWindowEnd s fun t =>
    t = { s with engines := t.engines, cal := { s.cal with windowCut := false }, shown := t.shown } ∧
      (s.runs .twilight = true → (s.engines.map (·.1)).Nodup → ∀ x ∈ t.engines, t.shownValue (0x20500 + 4 * x.1) = x.2.residWord % 2 ^ 32) ∧
      (s.runs .twilight = false → t.shown = s.shown) ∧ ∀ e, (t.engine e).samples = 0 ∧
      (t.engine e).sumSq = Dy.zero ∧ (t.engine e).peakAbs = Dy.zero ∧
      (0 < (s.engine e).samples → s.runs .twilight = true → s.cal.windowCut = false →
        (t.engine e).residRms = rms88 (s.engine e).sumSq (s.engine e).samples ∧ (t.engine e).residPeak = peak88 (s.engine e).peakAbs) ∧
      ((s.engine e).samples = 0 ∨ s.runs .twilight = false ∨ s.cal.windowCut = true →
        (t.engine e).residRms = (s.engine e).residRms ∧ (t.engine e).residPeak = (s.engine e).residPeak) ∧
      (t.engine e).lock = (s.engine e).lock ∧ (t.engine e).bankA = (s.engine e).bankA := by
  refine ⟨_, execResidWindowEnd_ends hframe, ?_⟩
  have hengine := s.endWindows_engine
  have hshown (h : s.runs .twilight = true) (hl : (s.endWindows.engines.map (·.1)).Nodup) :=
    fun x => State.showResids_shown (s := s.endWindows) (x := x) h hl
  have hstopped (h : s.runs .twilight = false) := State.showResids_stopped (s := s.endWindows) h s.endWindows.engines
  obtain ⟨m, heq⟩ := s.endWindows.showResids_eq s.endWindows.engines
  rw [heq] at hshown hstopped ⊢
  refine ⟨rfl, fun h hl => hshown h ?_, fun h => (congrArg State.shown (hstopped h)).trans rfl, fun e => ?_⟩
  · simpa [State.endWindows, Function.comp_def] using hl
  · change (s.endWindows.engine e).samples = 0 ∧ (s.endWindows.engine e).sumSq = Dy.zero ∧ _
    refine ⟨congrArg Engine.samples (hengine e), congrArg Engine.sumSq (hengine e), congrArg Engine.peakAbs (hengine e),
      fun hsamples hruns hcut => ?_, fun hnone => ?_, (congrArg Engine.lock (hengine e)).trans rfl,
      (congrArg Engine.bankA (hengine e)).trans rfl⟩
    · have hwhole : 0 < (s.engine e).samples ∧ (s.runs .twilight && !s.cal.windowCut) = true := ⟨hsamples, by rw [hruns, hcut]; rfl⟩
      exact ⟨(congrArg Engine.residRms (hengine e)).trans (if_pos hwhole), (congrArg Engine.residPeak (hengine e)).trans (if_pos hwhole)⟩
    · have hnot : ¬(0 < (s.engine e).samples ∧ (s.runs .twilight && !s.cal.windowCut) = true) := by
        rintro ⟨hsamples, hwhole⟩
        rw [Bool.and_eq_true, Bool.not_eq_true'] at hwhole
        obtain ⟨hruns, hcut⟩ := hwhole
        rcases hnone with h | h | h
        · omega
        · exact absurd hruns (by simp [h])
        · exact absurd hcut (by simp [h])
      exact ⟨(congrArg Engine.residRms (hengine e)).trans (if_neg hnot), (congrArg Engine.residPeak (hengine e)).trans (if_neg hnot)⟩

/-! ## SCRUB_READ -/

/-- What a scrub read finds in a block (09 R450). -/
def State.scrubFinds (s : State) (a : Nat) (ecc : EccResult) : EccResult :=
  if s.poisoned a then .uncorrectable else if s.latent.contains (a / 64, false) && ecc == .clean then .corrected else ecc

/-- The state with the scrub of a stack at a position. -/
def State.scrubAt (s : State) (stack pos : Nat) : State := { s with scrubPos := s.scrubPos.set 0 stack pos }

/-- The state after a scrub read of block `a` of a stack has found `found`. -/
def State.scrubbed (s : State) (stack a : Nat) (found : EccResult) : State :=
  match found with
  | .clean => s
  | .corrected => { s with corrected := s.corrected.modify 0 stack fun n => n + 1, latent := s.latent.filter fun x => x != (a / 64, false) }
  | .uncorrectable => (s.foundBad a).logError 0x0200 3 7 stack 0 a

theorem execScrubRead_reads {s : State} {stack g b : Nat} (ecc : EccResult) (hrun : s.power.state = .run) (hstack : stack < 12)
    (hg : g < 0x2000000) (hb : b < 32) (hout : s.stackOut stack = false) :
    exec (.scrubRead stack g b ecc) s = .next ((s.scrubAt stack (2048 * g + 64 * b)).scrubbed stack (s.granuleAddr stack g + 64 * b)
      (s.scrubFinds (s.granuleAddr stack g + 64 * b) ecc)) := by
  change execScrubRead stack g b ecc s = _
  unfold execScrubRead
  dsimp only
  rw [hrun, decide_eq_true hstack, decide_eq_true hg, decide_eq_true hb, hout, if_neg nofun]
  change (match s.scrubFinds (s.granuleAddr stack g + 64 * b) ecc with
    | .clean => _
    | .corrected => _
    | .uncorrectable => _) = _
  cases s.scrubFinds (s.granuleAddr stack g + 64 * b) ecc <;> rfl

/-- In a block that is not poisoned, what the code says is found, unless a correctable error waits for the read. -/
theorem State.scrubFinds_sound {s : State} {a : Nat} (h : s.poisoned a = false) (ecc : EccResult)
    (hwait : ecc = .clean → s.latent.contains (a / 64, false) = false) : s.scrubFinds a ecc = ecc := by
  unfold State.scrubFinds
  rw [h, if_neg nofun]
  cases ecc with
  | clean => rw [hwait rfl]; rfl
  | corrected => simp
  | uncorrectable => simp

/-- In a quiet block no error waits for a read. -/
theorem State.latent_of_quietAt {s : State} {a : Nat} (h : s.quietAt a 64 = true) (bad : Bool) : s.latent.contains (a / 64, bad) = false := by
  rw [Bool.eq_false_iff]
  intro hmem
  have hentry := List.all_eq_true.mp h _ (List.contains_iff_mem.mp hmem)
  simp at hentry
  omega

/-- What a scrub read leaves: memory, and the counts of the other stacks. -/
theorem State.scrubbed_frame (s : State) (stack a : Nat) (found : EccResult) :
    (s.scrubbed stack a found).mem = s.mem ∧ (s.scrubbed stack a found).scrubPos = s.scrubPos ∧
    ∀ x, x ≠ stack → (s.scrubbed stack a found).corrected.get 0 x = s.corrected.get 0 x := by
  cases found with
  | clean => exact ⟨rfl, rfl, fun _ _ => rfl⟩
  | corrected =>
    refine ⟨rfl, rfl, fun x hx => ?_⟩
    unfold State.scrubbed
    rw [Sparse.get_modify, if_neg (Ne.symm hx)]
  | uncorrectable =>
    unfold State.scrubbed
    rw [State.logError_eq]
    exact ⟨rfl, rfl, fun _ _ => rfl⟩

/-- SCRUB_READ of a block of a stack in service. -/
theorem does_scrubRead (s : State) (stack g b : Nat) (ecc : EccResult) (hrun : s.power.state = .run) (hstack : stack < 12)
    (hg : g < 0x2000000) (hb : b < 32) (hout : s.stackOut stack = false) :
    Does (.scrubRead stack g b ecc) s fun t => t.mem = s.mem ∧ t.scrubPos.get 0 stack = 2048 * g + 64 * b ∧
      (∀ x, x ≠ stack → t.scrubPos.get 0 x = s.scrubPos.get 0 x ∧ t.corrected.get 0 x = s.corrected.get 0 x) ∧
      (ecc = .clean → s.poisoned (s.granuleAddr stack g + 64 * b) = false → s.quietAt (s.granuleAddr stack g + 64 * b) 64 = true →
        t.corrected = s.corrected ∧ t.poison = s.poison ∧ t.log = s.log) ∧
      (ecc = .corrected → s.poisoned (s.granuleAddr stack g + 64 * b) = false →
        t.corrected.get 0 stack = s.corrected.get 0 stack + 1 ∧ t.poison = s.poison ∧ t.log = s.log) ∧
      (ecc = .uncorrectable ∨ s.poisoned (s.granuleAddr stack g + 64 * b) = true →
        t.poison = insertNat ((s.granuleAddr stack g + 64 * b) / 64) s.poison ∧
        s.logs t 0x0200 stack 0 (s.granuleAddr stack g + 64 * b)) := by
  refine ⟨_, execScrubRead_reads ecc hrun hstack hg hb hout, ?_⟩
  generalize s.granuleAddr stack g + 64 * b = a
  obtain ⟨hmem, hpos, hother⟩ := (s.scrubAt stack (2048 * g + 64 * b)).scrubbed_frame stack a (s.scrubFinds a ecc)
  have hat (x : Nat) : (s.scrubAt stack (2048 * g + 64 * b)).scrubPos.get 0 x = if stack = x then 2048 * g + 64 * b else s.scrubPos.get 0 x :=
    Sparse.get_set ..
  refine ⟨hmem, ?_, fun x hx => ⟨?_, hother x hx⟩, ?_, ?_, ?_⟩
  · rw [hpos, hat, if_pos rfl]
  · rw [hpos, hat, if_neg (Ne.symm hx)]
  · rintro rfl hsound hquiet
    rw [State.scrubFinds_sound hsound _ fun _ => State.latent_of_quietAt hquiet false]
    exact ⟨rfl, rfl, rfl⟩
  · rintro rfl hsound
    rw [State.scrubFinds_sound hsound .corrected nofun]
    refine ⟨?_, rfl, rfl⟩
    exact (Sparse.get_modify 0 s.corrected stack stack fun n => n + 1).trans (if_pos rfl)
  · intro hbad
    have hfound : s.scrubFinds a ecc = .uncorrectable := by
      by_cases hpoisoned : s.poisoned a = true
      · exact if_pos hpoisoned
      · obtain rfl := hbad.resolve_right hpoisoned
        exact State.scrubFinds_sound (by simpa using hpoisoned) .uncorrectable nofun
    rw [hfound]
    exact ⟨State.logError_poison .., State.logs_logError ..⟩

/-! ## SLEW_UPDATE -/

/-- From `s` to `t` limiters got new targets, and engines heater marks: no output has moved, and nothing else has changed. -/
def State.Aimed (s t : State) : Prop :=
  (∃ m k, t = { s with slews := m, engines := k }) ∧ ∀ c, (t.slew c).present = (s.slew c).present

theorem State.Aimed.refl (s : State) : s.Aimed s := ⟨⟨_, _, rfl⟩, fun _ => rfl⟩

theorem State.Aimed.trans {s t u : State} (h : s.Aimed t) (k : t.Aimed u) : s.Aimed u := by
  obtain ⟨⟨m, n, hst⟩, hpresent⟩ := h
  obtain ⟨⟨m', n', htu⟩, hpresent'⟩ := k
  refine ⟨⟨m', n', ?_⟩, fun c => (hpresent' c).trans (hpresent c)⟩
  rw [htu, hst]

theorem State.Aimed.modSlew (s : State) (chan : Nat) (f : Slew → Slew) (hf : ∀ x, (f x).present = x.present) :
    s.Aimed (s.modSlew chan f) := by
  refine ⟨⟨_, _, rfl⟩, fun c => ?_⟩
  rw [State.slew_modSlew]
  split
  · next h => rw [hf, h]
  · rfl

theorem State.Aimed.setBankHeater (s : State) (e row : Nat) (isB : Bool) (low high target : Int) :
    s.Aimed (s.setBankHeater e row isB low high target) := by
  refine ⟨⟨_, _, rfl⟩, fun c => ?_⟩
  rw [State.slew_setBankHeater]
  split <;> rfl

theorem State.Aimed.lockHeater (s : State) (e row : Nat) (isB : Bool) (target : Int) : s.Aimed (s.lockHeater e row isB target) := by
  unfold State.lockHeater
  dsimp only
  split
  · exact .setBankHeater ..
  · exact .setBankHeater ..

theorem State.Aimed.followIdle (s : State) (e row : Nat) (isB : Bool) : s.Aimed (s.followIdle e row isB) := by
  unfold State.followIdle
  dsimp only
  split
  · exact .refl s
  · exact .lockHeater ..

theorem State.Aimed.setTarget (s : State) (chan target : Nat) : s.Aimed (s.setTarget chan target) := by
  unfold State.setTarget
  split
  · exact .refl s
  · split
    · exact (State.Aimed.lockHeater ..).trans (.followIdle ..)
    · split
      · exact .modSlew _ _ _ fun _ => rfl
      · unfold State.setTrim
        dsimp only
        split
        · exact .modSlew _ _ _ fun _ => rfl
        · exact .refl s

/-- A limiter moves by at most 64. -/
theorem Slew.move_bounds (x : Slew) : x.move.present ≤ x.present + 64 ∧ x.present ≤ x.move.present + 64 := by
  have hstep : Nat.min 64 x.stepMax ≤ 64 := Nat.min_le_left ..
  unfold Slew.move
  dsimp only
  generalize Nat.min 64 x.stepMax = n at hstep ⊢
  split
  · have hle : Nat.min x.target (x.present + n) ≤ x.present + n := Nat.min_le_right ..
    have hge : x.present ≤ Nat.min x.target (x.present + n) := Nat.le_min.mpr ⟨by omega, by omega⟩
    omega
  · have hle : Nat.max x.target (x.present - n) ≤ x.present := Nat.max_le.mpr ⟨by omega, by omega⟩
    have hge : x.present - n ≤ Nat.max x.target (x.present - n) := Nat.le_max_right ..
    omega

/-- What Twilight may have written before the limiter moves. -/
def State.slewWritten (s : State) (chan : Nat) (w : Option SlewWrite) : State :=
  match w with
  | some w => if s.runs .twilight then
      match w.target with
      | some t => (s.modSlew chan fun x => x.set w).setTarget chan t
      | none => s.modSlew chan fun x => x.set w
    else s
  | none => s

theorem execSlewUpdate_eq (s : State) (chan : Nat) (w : Option SlewWrite) :
    exec (.slewUpdate chan w) s = .next ((s.slewWritten chan w).modSlew chan Slew.move) := by
  cases w with
  | none => rfl
  | some w =>
    change execSlewUpdate chan (some w) s = _
    unfold execSlewUpdate State.slewWritten
    cases s.runs .twilight with
    | false => rfl
    | true => cases w.target <;> rfl

theorem State.Aimed.slewWritten (s : State) (chan : Nat) (w : Option SlewWrite) : s.Aimed (s.slewWritten chan w) := by
  have hset (w : SlewWrite) : s.Aimed (s.modSlew chan fun x => x.set w) := .modSlew _ _ _ fun _ => rfl
  unfold State.slewWritten
  split
  · split
    · split
      · exact (hset _).trans (.setTarget ..)
      · exact hset _
    · exact .refl s
  · exact .refl s

/-- SLEW_UPDATE completes in every state. -/
theorem execSlewUpdate_total (s : State) (chan : Nat) (w : Option SlewWrite) : ∃ t, exec (.slewUpdate chan w) s = .next t ∧
    t = { s with slews := t.slews, engines := t.engines } ∧ (t.slew chan).present ≤ (s.slew chan).present + 64 ∧
    (s.slew chan).present ≤ (t.slew chan).present + 64 := by
  refine ⟨_, execSlewUpdate_eq s chan w, ?_⟩
  obtain ⟨⟨m, k, heq⟩, hpresent⟩ := State.Aimed.slewWritten s chan w
  have hmove := ((s.slewWritten chan w).slew chan).move_bounds
  rw [hpresent] at hmove
  rw [State.slew_modSlew, if_pos rfl]
  refine ⟨?_, hmove⟩
  rw [heq]
  rfl

/-! ## TONE_OSCILLATOR_CYCLE -/

/-- TONE_OSCILLATOR_CYCLE completes in every state. -/
theorem execToneOscillatorCycle_total (s : State) (currents : List (Nat × Int)) : ∃ t, exec (.toneOscillatorCycle currents) s = .next t ∧
    t = { s with oscCycles := s.oscCycles + 1, detect := t.detect } := by
  refine ⟨_, rfl, ?_⟩
  refine forEach_keeps (fun t => t = { s with oscCycles := s.oscCycles + 1, detect := t.detect }) _ _ (fun t x _ ht => ?_) _ rfl
  unfold State.detectOne
  split
  · exact ht
  · rw [ht]

/-! ## MONITOR_OUTPUT and MONITOR_SELFCAL_COMPLETE -/

/-- From `s` to `t` converter `k` has worked: memory, commands and the other converters are as they were. -/
structure State.Samples (k : Nat) (s t : State) : Prop where
  mem : t.mem = s.mem
  jobs : t.jobs = s.jobs
  other : ∀ x, x ≠ k → t.monitor x = s.monitor x

theorem State.Samples.refl (k : Nat) (s : State) : s.Samples k s := ⟨rfl, rfl, fun _ _ => rfl⟩

theorem State.Samples.trans {k : Nat} {s t u : State} (h : s.Samples k t) (g : t.Samples k u) : s.Samples k u :=
  ⟨g.mem.trans h.mem, g.jobs.trans h.jobs, fun x hx => (g.other x hx).trans (h.other x hx)⟩

theorem State.Samples.modMonitor (s : State) (k : Nat) (f : Monitor → Monitor) : s.Samples k (s.modMonitor k f) :=
  ⟨rfl, rfl, fun x hx => by rw [State.monitor_modMonitor, if_neg (Ne.symm hx)]⟩

theorem State.Samples.logError (k : Nat) (s : State) (code cls kind unit aux detail : Nat) :
    s.Samples k (s.logError code cls kind unit aux detail) :=
  ⟨s.logError_mem .., s.logError_jobs .., fun _ _ => s.logError_monitor ..⟩

theorem State.Samples.takeRxPower (s : State) (k : Nat) (m : Monitor) : s.Samples k (s.takeRxPower k m) := by
  unfold State.takeRxPower
  split
  · exact .refl k s
  · split
    · exact .refl k s
    · next i _ =>
      extract_lets p old u
      have hu : s.Samples k u := ⟨rfl, rfl, fun _ _ => rfl⟩
      split
      · exact hu
      · refine hu.trans ⟨State.event_mem .., State.event_jobs .., fun x _ => ?_⟩
        unfold State.monitor
        rw [State.event_monitors]

theorem State.Samples.maybeSelfcal (s : State) (k : Nat) : s.Samples k (s.maybeSelfcal k) := by
  unfold State.maybeSelfcal
  dsimp only
  split
  · exact .modMonitor ..
  · split
    · exact .modMonitor ..
    · exact .refl k s
  · exact .refl k s

theorem State.Samples.takeResult (s : State) (k : Nat) (raw : Int) : s.Samples k (s.takeResult k raw) := by
  unfold State.takeResult
  extract_lets m r m' u v
  have hu : s.Samples k u := .modMonitor ..
  have hv : u.Samples k v := by
    change u.Samples k (if k < 64 then u.modCluster k fun c => { c with short := [] } else u.takeRxPower k m)
    split
    · exact ⟨rfl, rfl, fun _ _ => rfl⟩
    · exact .takeRxPower ..
  split
  · exact (hu.trans hv).trans (.maybeSelfcal ..)
  · exact hu.trans hv

theorem State.Samples.chooseMode (s : State) (k : Nat) (c : MonChoice) : s.Samples k (s.chooseMode k c) := by
  unfold State.chooseMode
  split
  · exact .modMonitor ..
  · split
    · exact .modMonitor ..
    · exact .refl k s

/-- MONITOR_OUTPUT completes in every state. -/
theorem execMonitorOutput_total (s : State) (k : Nat) (o : MonOut) : ∃ t, exec (.monitorOutput k o) s = .next t ∧ s.Samples k t := by
  change ∃ t, execMonitorOutput k o s = .next t ∧ _
  unfold execMonitorOutput
  split
  · exact ⟨s, rfl, .refl k s⟩
  · extract_lets m u
    have hu : s.Samples k u := by
      change s.Samples k (if 0 < m.skip then s.modMonitor k fun m => { m with skip := m.skip - 1 }
        else if m.selfcal then s.modMonitor k fun m => m.selfcalOutput k o.raw else s.takeResult k o.raw)
      split
      · exact .modMonitor ..
      · split
        · exact .modMonitor ..
        · exact .takeResult ..
    split
    · split
      · exact ⟨_, rfl, hu.trans (.chooseMode ..)⟩
      · exact ⟨_, rfl, hu⟩
    · exact ⟨_, rfl, hu⟩

/-- MONITOR_SELFCAL_COMPLETE completes in every state. -/
theorem execMonitorSelfcalComplete_total (s : State) (k : Nat) (offsetUp gainUp ppmUp : Bool) :
    ∃ t, exec (.monitorSelfcalComplete k offsetUp gainUp ppmUp) s = .next t ∧ s.Samples k t := by
  change ∃ t, execMonitorSelfcalComplete k offsetUp gainUp ppmUp s = .next t ∧ _
  unfold execMonitorSelfcalComplete
  extract_lets m offset gain good u offsetFits v gap ref
  split
  · exact ⟨s, rfl, .refl k s⟩
  · have hu : s.Samples k u := .modMonitor ..
    have hv : u.Samples k v := by
      change u.Samples k (if good then u else u.logError ..)
      split
      · exact .refl k u
      · exact .logError ..
    refine ⟨_, rfl, ?_⟩
    split
    · exact (hu.trans hv).trans (.logError ..)
    · exact hu.trans hv

/-- Settles O36: the locator reads nothing that it changes, and every other command names what it changes. -/
theorem recordsFiguresAndScrub : Obligations.RecordsFiguresAndScrub := by
  unfold Obligations.RecordsFiguresAndScrub
  refine ⟨does_lossLocator_quad, does_lossLocator_hub, does_ageingRecordWrite, does_residWindowEnd, does_scrubRead, ?_,
    execSlewUpdate_total, execToneOscillatorCycle_total, fun s k o => ?_, fun s k offsetUp gainUp ppmUp => ?_⟩
  · intro s stack hstack hmapped hreleased
    refine ⟨s.declare (.stack stack) 0, ?_, s.declare_mem _ _ hmapped, ?_, State.declare_mapped ..⟩
    · change execHbmStackNoAnswer stack s = _
      unfold execHbmStackNoAnswer
      rw [if_neg (by simp [hreleased]; omega)]
      rfl
    · rw [(s.declare_eq _ _).1]
      exact ⟨rfl, rfl⟩
  · obtain ⟨t, hexec, h⟩ := execMonitorOutput_total s k o
    exact ⟨t, hexec, h.mem, h.jobs, h.other⟩
  · obtain ⟨t, hexec, h⟩ := execMonitorSelfcalComplete_total s k offsetUp gainUp ppmUp
    exact ⟨t, hexec, h.mem, h.jobs, h.other⟩

end Sys2Proof.Machine
end

section
/-! PROOFS. Lanes of the Fawell links (12 R558, R589 to R603; 05 R299), and the statement `LanesTrainServeAndFail`. -/

namespace Sys2Proof.Machine

/-! ## Credits and EVENTs -/

/-- The credits of a Rustra port (12 R608). -/
def State.credits (s : State) (p : Nat) : Nat × Nat := ((s.link.ports.get {} p).hostReq, (s.link.ports.get {} p).hostData)

@[simp] theorem State.send_credits (s : State) (o : Out) (p : Nat) : (s.send o).credits p = s.credits p := by
  unfold State.send State.credits
  dsimp only
  split
  · dsimp only
    rw [Sparse.get_modify]
    split
    · next h => subst h; rfl
    · rfl
  · rfl

@[simp] theorem State.event_credits (s : State) (k : Nat) (d : Word32) (p : Nat) : (s.event k d).credits p = s.credits p := by
  unfold State.event
  generalize s.openSessions = l
  generalize s.frame.counter = n
  induction l generalizing s with
  | nil => rfl
  | cons a l ih => exact (ih _).trans (s.send_credits ..)

/-! ## A lane changes, with its EVENT -/

section
variable (s : State) (i : Nat) (f : Lane → Lane)

/-- A lane that changes leaves everything but the lanes and what an EVENT changes. -/
theorem State.setLane_eq : ∃ o p m, s.setLane i f = { s with out := o, link := { s.link with ports := p, lanes := m } } := by
  unfold State.setLane
  extract_lets old u
  split
  · exact ⟨_, _, _, rfl⟩
  · unfold State.laneEvent
    rw [State.event_eq]
    exact ⟨_, _, _, rfl⟩

@[simp] theorem State.setLane_lane (x : Nat) : (s.setLane i f).lane x = if i = x then f (s.lane i) else s.lane x := by
  unfold State.setLane
  extract_lets old u
  split
  · exact State.lane_modLane ..
  · exact (State.event_lane ..).trans (State.lane_modLane ..)

@[simp] theorem State.setLane_jobs : (s.setLane i f).jobs = s.jobs := by
  obtain ⟨o, p, m, h⟩ := s.setLane_eq i f
  rw [h]

theorem State.setLane_sameMem : s.sameMem (s.setLane i f) := by
  obtain ⟨o, p, m, h⟩ := s.setLane_eq i f
  rw [h]
  exact ⟨rfl, rfl⟩

end

section
variable (s : State) (c : Nat) (f : Connector → Connector)

/-- A connector that changes leaves everything but the connectors and what an EVENT changes. -/
theorem State.modConn_eq : ∃ o p m, s.modConn c f = { s with out := o, link := { s.link with ports := p, conns := m } } := by
  unfold State.modConn
  extract_lets old src u now
  split
  · exact ⟨_, _, _, rfl⟩
  · rw [State.event_eq]
    exact ⟨_, _, _, rfl⟩

@[simp] theorem State.modConn_lane (x : Nat) : (s.modConn c f).lane x = s.lane x := by
  obtain ⟨o, p, m, h⟩ := s.modConn_eq c f
  rw [h]
  rfl

theorem State.modConn_log : (s.modConn c f).log = s.log := by
  obtain ⟨o, p, m, h⟩ := s.modConn_eq c f
  rw [h]

theorem State.modConn_jobs : (s.modConn c f).jobs = s.jobs := by
  obtain ⟨o, p, m, h⟩ := s.modConn_eq c f
  rw [h]

theorem State.modConn_sameMem : s.sameMem (s.modConn c f) := by
  obtain ⟨o, p, m, h⟩ := s.modConn_eq c f
  rw [h]
  exact ⟨rfl, rfl⟩

theorem State.modConn_credits (p : Nat) : (s.modConn c f).credits p = s.credits p := by
  unfold State.modConn
  extract_lets old src u now
  split
  · rfl
  · exact u.event_credits ..

end

theorem State.sameMem.trans {s t u : State} (h : s.sameMem t) (k : t.sameMem u) : s.sameMem u := by
  obtain ⟨hmem, hpoison⟩ := h
  obtain ⟨kmem, kpoison⟩ := k
  exact ⟨kmem.trans hmem, kpoison.trans hpoison⟩

theorem State.logError_sameMem (s : State) (code cls kind unit aux detail : Nat) :
    s.sameMem (s.logError code cls kind unit aux detail) := ⟨s.logError_mem .., s.logError_poison ..⟩

/-! ## Training -/

/-- LANE_TRAINING_START: a lit lane at probe power trains in the directions that the plan lets (12 R589, R595). -/
theorem does_laneTrainingStart (s : State) (i : Nat) (hi : i < 258) (hlit : s.laneLit i = true) (htx : (s.lane i).tx = 1)
    (hplan : s.txHeard i = true ∨ s.rxOn i = true) :
    Does (.laneTrainingStart i) s fun t =>
      t.lane i = { s.lane i with tx := if s.txHeard i then 2 else 1, rx := if s.rxOn i then 2 else (s.lane i).rx } ∧
      (∀ x, x ≠ i → t.lane x = s.lane x) ∧ s.sameMem t ∧ t.jobs = s.jobs := by
  refine ⟨s.setLane i fun l => { l with tx := if s.txHeard i then 2 else 1, rx := if s.rxOn i then 2 else l.rx }, ?_, ?_⟩
  · change execLaneTrainingStart i s = _
    unfold execLaneTrainingStart
    dsimp only
    rw [if_pos (by simp [hi, hlit, htx, hplan])]
    rfl
  · exact ⟨by rw [State.setLane_lane, if_pos rfl], fun x hx => by rw [State.setLane_lane, if_neg (Ne.symm hx)],
      State.setLane_sameMem .., State.setLane_jobs ..⟩

/-- A lane that has failed (12 R590). -/
def Lane.failed (l : Lane) : Lane := { l with tx := 5, rx := 5, fails := 0 }

/-- A lane that enters FAILED is logged, and leaves the other lanes as they were. -/
theorem State.laneFails_spec (s : State) (i cause uid : Nat) :
    (∀ x, (s.laneFails i cause uid).lane x = if i = x then (s.lane i).failed else s.lane x) ∧ s.sameMem (s.laneFails i cause uid) ∧
    s.logs (s.laneFails i cause uid) 0x0103 i cause uid := by
  unfold State.laneFails
  extract_lets u c
  have hlane (x : Nat) : u.lane x = if i = x then (s.lane i).failed else s.lane x :=
    (State.logError_lane ..).trans (s.setLane_lane i Lane.failed x)
  have hmem : s.sameMem u := (s.setLane_sameMem i Lane.failed).trans (State.logError_sameMem ..)
  have hlogs : s.logs u 0x0103 i cause uid := by
    change s.logs ((s.setLane i Lane.failed).logError 0x0103 2 8 i cause uid) _ _ _ _
    obtain ⟨o, p, m, h⟩ := s.setLane_eq i Lane.failed
    rw [h]
    exact State.logs_congr rfl rfl rfl (State.logs_logError ..)
  split
  · exact ⟨fun x => (State.modConn_lane ..).trans (hlane x), hmem.trans (State.modConn_sameMem ..),
      State.logs_congr rfl rfl (State.modConn_log ..) hlogs⟩
  · exact ⟨hlane, hmem, hlogs⟩

/-- A step table that has ended, on a lane that trains. -/
theorem execLaneTrained_ends {s : State} {i : Nat} (h : (s.lane i).tx = 2 ∨ (s.lane i).rx = 2) (r : TrainResult) :
    exec (.laneTrained i r) s = .next (match r with
      | .failed => if 2 ≤ (s.lane i).fails then s.laneFails i 0 0 else s.modLane i fun l => { l with fails := (s.lane i).fails + 1 }
      | .trained w bond node req data => if decide (i < 256) && !s.identityOk i w then s.laneFails i 1 w.uid.toNat
          else s.laneUp i bond node req data) := by
  change execLaneTrained i r s = _
  unfold execLaneTrained
  rw [if_neg (by omega)]
  cases r with
  | failed =>
    by_cases hfails : 2 ≤ (s.lane i).fails
    · dsimp only
      rw [if_pos hfails, if_pos (by omega)]
      rfl
    · dsimp only
      rw [if_neg hfails, if_neg (by omega)]
      rfl
  | trained w bond node req data =>
    dsimp only
    split <;> rfl

/-- LANE_TRAINED without success: the third failure in a row fails the lane (12 R590). -/
theorem does_laneTrained_failed (s : State) (i : Nat) (h : (s.lane i).tx = 2 ∨ (s.lane i).rx = 2) :
    Does (.laneTrained i .failed) s fun t => (∀ x, x ≠ i → t.lane x = s.lane x) ∧
      ((s.lane i).fails ≤ 1 → t.lane i = { s.lane i with fails := (s.lane i).fails + 1 } ∧ t.log = s.log) ∧
      (2 ≤ (s.lane i).fails → t.lane i = { s.lane i with tx := 5, rx := 5, fails := 0 } ∧ s.logs t 0x0103 i 0 0) := by
  refine ⟨_, execLaneTrained_ends h .failed, ?_⟩
  dsimp only
  split
  · next hfails =>
    obtain ⟨hlane, -, hlogs⟩ := s.laneFails_spec i 0 0
    exact ⟨fun x hx => (hlane x).trans (if_neg (Ne.symm hx)), fun hle => absurd hfails (by omega), fun _ => ⟨(hlane i).trans (if_pos rfl), hlogs⟩⟩
  · next hfails =>
    exact ⟨fun x hx => by rw [State.lane_modLane, if_neg (Ne.symm hx)], fun _ => ⟨by rw [State.lane_modLane, if_pos rfl], rfl⟩,
      fun hge => absurd hge hfails⟩

/-! ## A lane comes into service -/

/-- A lane that has trained, in service from frame `next` (12 R589, R592). -/
def Lane.up (l : Lane) (bond : Bool) (node next : Nat) : Lane :=
  { l with
    tx := if l.tx = 2 then 3 else l.tx, rx := if l.rx = 2 then 3 else l.rx, fails := 0, bond := bond, node := node, trainedPower := l.rxPower
    txLines := if l.tx = 2 then insertNat l.txLine l.txLines else l.txLines
    rxLines := if l.rx = 2 then insertNat l.rxLine l.rxLines else l.rxLines
    noSlotsUntil := if l.tx = 2 then Nat.max l.noSlotsUntil next else l.noSlotsUntil
    noRxUntil := if l.rx = 2 then Nat.max l.noRxUntil next else l.noRxUntil }

/-- A Rustra port has the credits of its training (12 R602, R608). -/
def State.trainedPort (s : State) (i req data : Nat) : State :=
  { s with link := { s.link with
      ports := s.link.ports.set {} (i - 256) { hostReq := req, hostData := data }
      retrained := insertNat i s.link.retrained } }

/-- A Rustra port whose mode and messages follow its training (12 R602, R608). -/
def State.portUp (s : State) (i req data : Nat) : State := (s.trainedPort i req data).rustraMode.pump (i - 256)

/-- A connector whose lanes are all in service after its cycle (12 R600). -/
def State.connUp (s : State) (c : Nat) : State :=
  let up := (connLanes c).all fun k => ((s.lane k).tx == 3 || !s.txHeard k) && ((s.lane k).rx == 3 || !s.rxOn k)
  if (((s.conn c).attn && (s.conn c).dark) || (s.conn c).replugged) && up then s.modConn c fun _ => {} else s

theorem State.laneUp_eq (s : State) (i : Nat) (bond : Bool) (node req data : Nat) : s.laneUp i bond node req data =
    (if i < 256 then s.setLane i fun l => l.up bond node (s.frame.counter + 1)
      else (s.setLane i fun l => l.up bond node (s.frame.counter + 1)).portUp i req data).connUp (connOf i) := rfl

theorem State.connUp_spec (s : State) (c : Nat) :
    (∀ x, (s.connUp c).lane x = s.lane x) ∧ s.sameMem (s.connUp c) ∧ ∀ p, (s.connUp c).credits p = s.credits p := by
  unfold State.connUp
  extract_lets up
  split
  · exact ⟨s.modConn_lane c _, State.modConn_sameMem .., s.modConn_credits c _⟩
  · exact ⟨fun _ => rfl, ⟨rfl, rfl⟩, fun _ => rfl⟩

/-- With no request held, credits send nothing. -/
theorem State.pump_idle {s : State} (h : ∀ r ∈ s.ha, r.held = false) (port : Nat) : s.pump port = s := by
  unfold State.pump
  generalize s.ha = l at h
  induction l with
  | nil => rfl
  | cons r l ih =>
    unfold State.pumpFrom
    rw [if_pos (by simp [h r List.mem_cons_self])]
    exact ih fun x hx => h x (List.mem_cons_of_mem r hx)

/-- The port's mode changes sessions, and the marks of the link. -/
theorem State.rustraMode_eq (s : State) :
    ∃ m b r, s.rustraMode = { s with sessions := m, link := { s.link with bonded := b, retrained := r } } := by
  have hloop (t : State) (l : List Nat) : ∃ m, forEach l (fun s n => s.modSession n fun x => { x with port := 0 }) t = { t with sessions := m } :=
    forEach_keeps (fun u => ∃ m, u = { t with sessions := m }) l _ (fun u n _ ⟨_, hu⟩ => hu ▸ ⟨_, rfl⟩) t ⟨_, rfl⟩
  unfold State.rustraMode
  extract_lets a b bonded src u
  split
  · exact ⟨_, _, _, rfl⟩
  · split
    · obtain ⟨m, h⟩ := hloop u u.openSessions
      rw [h]
      exact ⟨_, _, _, rfl⟩
    · exact ⟨_, _, _, rfl⟩

/-- A port with no request held takes the credits of its training. -/
theorem State.portUp_spec {s : State} (h : ∀ r ∈ s.ha, r.held = false) (i req data : Nat) :
    (s.portUp i req data).credits (i - 256) = (req, data) ∧ ∀ x, (s.portUp i req data).lane x = s.lane x := by
  unfold State.portUp
  obtain ⟨m, b, r, hmode⟩ := (s.trainedPort i req data).rustraMode_eq
  have hidle := State.pump_idle (s := (s.trainedPort i req data).rustraMode) (by rw [hmode]; exact h) (i - 256)
  rw [hidle, hmode]
  refine ⟨?_, fun _ => rfl⟩
  have hport : (s.trainedPort i req data).link.ports.get {} (i - 256) = { hostReq := req, hostData := data } :=
    (Sparse.get_set ..).trans (if_pos rfl)
  unfold State.credits
  dsimp only
  rw [hport]

theorem State.hostCredits {t : State} {i p req data : Nat} (hcredits : t.credits p = (req, data)) (hfails : (t.lane i).fails = 0) :
    (t.link.ports.get {} p).hostReq = req ∧ (t.link.ports.get {} p).hostData = data ∧ (t.lane i).fails = 0 :=
  ⟨congrArg Prod.fst hcredits, congrArg Prod.snd hcredits, hfails⟩

/-- LANE_TRAINED on a Rustra port. -/
theorem does_laneTrained_port (s : State) (i node req data : Nat) (w : LaneIdent) (bond : Bool) (hi : 256 ≤ i) (_ : i < 258)
    (h : (s.lane i).tx = 2 ∨ (s.lane i).rx = 2) (hha : ∀ r ∈ s.ha, r.held = false) :
    Does (.laneTrained i (.trained w bond node req data)) s fun t =>
      (t.link.ports.get {} (i - 256)).hostReq = req ∧ (t.link.ports.get {} (i - 256)).hostData = data ∧ (t.lane i).fails = 0 := by
  refine ⟨_, execLaneTrained_ends h _, ?_⟩
  have hup : ∀ r ∈ (s.setLane i fun l => l.up bond node (s.frame.counter + 1)).ha, r.held = false := by
    obtain ⟨o, p, m, heq⟩ := s.setLane_eq i fun l => l.up bond node (s.frame.counter + 1)
    rw [heq]
    exact hha
  obtain ⟨hcredits, hlane⟩ := State.portUp_spec hup i req data
  obtain ⟨klane, -, kcredits⟩ :=
    ((s.setLane i fun l => l.up bond node (s.frame.counter + 1)).portUp i req data).connUp_spec (connOf i)
  dsimp only
  rw [if_neg (by simp; omega), State.laneUp_eq, if_neg (by omega)]
  refine State.hostCredits ((kcredits (i - 256)).trans hcredits) ?_
  rw [klane, hlane, State.setLane_lane, if_pos rfl]
  rfl

theorem mem_insertNat_self (n : Nat) (l : List Nat) : n ∈ insertNat n l := by
  induction l with
  | nil => exact List.mem_singleton_self n
  | cons m l ih =>
    unfold insertNat
    split
    · exact List.mem_cons_self
    · split
      · next h => exact h ▸ List.mem_cons_self
      · exact List.mem_cons_of_mem m ih

/-- LANE_TRAINED on a Fawell lane: it is in service with the identity of its peer records, and fails with another (12 R589, R590). -/
theorem does_laneTrained_lane (s : State) (i node req data : Nat) (w : LaneIdent) (bond : Bool)
    (h : (s.lane i).tx = 2 ∨ (s.lane i).rx = 2) (hi : i < 256) :
    Does (.laneTrained i (.trained w bond node req data)) s fun t => (∀ x, x ≠ i → t.lane x = s.lane x) ∧ s.sameMem t ∧
      (s.identityOk i w = true → (t.lane i).tx = (if (s.lane i).tx = 2 then 3 else (s.lane i).tx) ∧
        (t.lane i).rx = (if (s.lane i).rx = 2 then 3 else (s.lane i).rx) ∧ (t.lane i).fails = 0 ∧
        ((s.lane i).tx = 2 → s.frame.counter + 1 ≤ (t.lane i).noSlotsUntil ∧ (s.lane i).txLine ∈ (t.lane i).txLines) ∧
        ((s.lane i).rx = 2 → s.frame.counter + 1 ≤ (t.lane i).noRxUntil ∧ (s.lane i).rxLine ∈ (t.lane i).rxLines)) ∧
      (s.identityOk i w = false → (t.lane i).tx = 5 ∧ (t.lane i).rx = 5 ∧ s.logs t 0x0103 i 1 w.uid.toNat) := by
  refine ⟨_, execLaneTrained_ends h _, ?_⟩
  dsimp only
  cases hident : s.identityOk i w with
  | false =>
    rw [if_pos (by simp [hi])]
    obtain ⟨hlane, hmem, hlogs⟩ := s.laneFails_spec i 1 w.uid.toNat
    have hself := (hlane i).trans (if_pos rfl)
    exact ⟨fun x hx => (hlane x).trans (if_neg (Ne.symm hx)), hmem, nofun, fun _ =>
      ⟨congrArg Lane.tx hself, congrArg Lane.rx hself, hlogs⟩⟩
  | true =>
    rw [if_neg (by simp), State.laneUp_eq, if_pos hi]
    obtain ⟨klane, kmem, -⟩ := (s.setLane i fun l => l.up bond node (s.frame.counter + 1)).connUp_spec (connOf i)
    have hself : ((s.setLane i fun l => l.up bond node (s.frame.counter + 1)).connUp (connOf i)).lane i =
        (s.lane i).up bond node (s.frame.counter + 1) := by
      rw [klane, State.setLane_lane, if_pos rfl]
    refine ⟨fun x hx => by rw [klane, State.setLane_lane, if_neg (Ne.symm hx)], (s.setLane_sameMem ..).trans kmem, fun _ => ?_, nofun⟩
    rw [hself]
    refine ⟨rfl, rfl, rfl, fun htx => ?_, fun hrx => ?_⟩
    · unfold Lane.up
      dsimp only
      rw [if_pos htx, if_pos htx]
      exact ⟨Nat.le_max_right .., mem_insertNat_self ..⟩
    · unfold Lane.up
      dsimp only
      rw [if_pos hrx, if_pos hrx]
      exact ⟨Nat.le_max_right .., mem_insertNat_self ..⟩

/-! ## Commands whose link work moves -/

/-- A running command whose link work moves from the next boundary (12 R591; 11 R542). -/
def Job.relinked (j : Job) (next : Nat) : Job :=
  { j with flags := { j.flags with remapped := true }, guardFrom := some (j.guardFrom.getD next) }

/-- A command has link work on the transmit lane of a plan's entry. -/
def State.linksBy (s : State) (p : PlanLane) (j : Job) : Bool := j.open' && j.phase == .running && j.peersNamed.any (s.goesBy p.txPeer)

theorem State.flagLane_none {s : State} {i : Nat} (h : s.planLane i = none) : s.flagLane i = s := by
  unfold State.flagLane
  rw [h]

theorem State.flagLane_some {s : State} {i : Nat} {p : PlanLane} (h : s.planLane i = some p) : s.flagLane i =
    { s with jobs := s.jobs.map fun j => if s.linksBy p j then j.relinked (s.frame.counter + 1) else j } := by
  unfold State.flagLane
  rw [h]
  rfl

theorem State.flagLane_eq (s : State) (i : Nat) : ∃ m, s.flagLane i = { s with jobs := m } := by
  cases h : s.planLane i with
  | none => exact ⟨s.jobs, State.flagLane_none h⟩
  | some p => exact ⟨_, State.flagLane_some h⟩

theorem State.flagLane_job? {s : State} {i : Nat} {p : PlanLane} (h : s.planLane i = some p) (id : Nat) :
    (s.flagLane i).job? id = (s.job? id).map fun j => if s.linksBy p j then j.relinked (s.frame.counter + 1) else j := by
  rw [State.flagLane_some h]
  exact s.job?_mapJobs _ (fun j => by split <;> rfl) id

@[simp] theorem State.flagLane_lane (s : State) (i x : Nat) : (s.flagLane i).lane x = s.lane x := by
  obtain ⟨m, h⟩ := s.flagLane_eq i
  rw [h]
  rfl

theorem State.flagLane_sameMem (s : State) (i : Nat) : s.sameMem (s.flagLane i) := by
  obtain ⟨m, h⟩ := s.flagLane_eq i
  rw [h]
  exact ⟨rfl, rfl⟩

/-- A command is as it was, but that its link work may have moved. -/
def Job.Relinks (j j' : Job) : Prop :=
  { j' with flags := j.flags, guardFrom := j.guardFrom } = j ∧ (j' = j ∨ j'.flags = { j.flags with remapped := true })

theorem Job.Relinks.trans {j j' j'' : Job} (h : j.Relinks j') (k : j'.Relinks j'') : j.Relinks j'' := by
  obtain ⟨hsame, hflags⟩ := h
  obtain ⟨ksame, kflags⟩ := k
  refine ⟨(congrArg (fun x : Job => { x with flags := j.flags, guardFrom := j.guardFrom }) ksame).trans hsame, ?_⟩
  rcases kflags with rfl | kflags
  · exact hflags
  · right
    rcases hflags with rfl | hflags
    · exact kflags
    · rw [kflags, hflags]

/-- From `s` to `t` commands are as they were, but that their link work may have moved. -/
def State.Relinks (s t : State) : Prop := ∀ id j, s.job? id = some j → ∃ j', t.job? id = some j' ∧ j.Relinks j'

theorem State.Relinks.of_jobs {s t : State} (h : t.jobs = s.jobs) : s.Relinks t :=
  fun id j hj => ⟨j, (State.job?_congr h id).trans hj, rfl, .inl rfl⟩

theorem State.Relinks.trans {s t u : State} (h : s.Relinks t) (k : t.Relinks u) : s.Relinks u := by
  intro id j hj
  obtain ⟨j', hj', hrel⟩ := h id j hj
  obtain ⟨j'', hj'', krel⟩ := k id j' hj'
  exact ⟨j'', hj'', hrel.trans krel⟩

theorem State.Relinks.flagLane (s : State) (i : Nat) : s.Relinks (s.flagLane i) := by
  cases h : s.planLane i with
  | none =>
    rw [State.flagLane_none h]
    exact .of_jobs rfl
  | some p =>
    intro id j hj
    refine ⟨_, (State.flagLane_job? h id).trans (congrArg _ hj), ?_⟩
    dsimp only
    split
    · exact ⟨rfl, .inr rfl⟩
    · exact ⟨rfl, .inl rfl⟩

/-! ## LOSS_OF_LIGHT -/

/-- A receiver without light; one that has failed stays so (12 R594). -/
def Lane.dim (l : Lane) : Lane := { l with rx := if l.rx = 5 then 5 else 1 }

/-- A transmitter that has no partner is back at probe power (12 R594). -/
def Lane.toProbe (l : Lane) : Lane := { l with tx := if l.tx = 2 ∨ l.tx = 3 then 1 else l.tx }

theorem Lane.toProbe_toProbe (l : Lane) : l.toProbe.toProbe = l.toProbe := by
  unfold Lane.toProbe
  by_cases h : l.tx = 2 ∨ l.tx = 3
  · simp [h]
  · simp [h]

/-- The turn of a paired transmit lane when light is lost (12 R594, R603). -/
def State.probeLane (s : State) (k : Nat) : State := (if (s.lane k).tx = 3 then s.flagLane k else s).setLane k Lane.toProbe

theorem State.probeLane_spec (s : State) (k : Nat) :
    (∀ x, (s.probeLane k).lane x = if k = x then (s.lane k).toProbe else s.lane x) ∧ s.sameMem (s.probeLane k) ∧
      s.Relinks (s.probeLane k) := by
  unfold State.probeLane
  split
  · exact ⟨fun x => by rw [State.setLane_lane, State.flagLane_lane, State.flagLane_lane],
      (s.flagLane_sameMem k).trans (State.setLane_sameMem ..), (State.Relinks.flagLane s k).trans (.of_jobs (State.setLane_jobs ..))⟩
  · exact ⟨fun x => State.setLane_lane .., State.setLane_sameMem .., .of_jobs (State.setLane_jobs ..)⟩

/-- The turns of all lanes of a list. -/
def State.probeLanes (s : State) (l : List Nat) : State := forEach l (fun s k => s.probeLane k) s

theorem State.probeLanes_frame (s : State) (l : List Nat) : s.sameMem (s.probeLanes l) ∧ s.Relinks (s.probeLanes l) := by
  refine forEach_keeps (fun t => s.sameMem t ∧ s.Relinks t) l (fun s k => s.probeLane k) (fun t k _ ⟨hmem, hjobs⟩ => ?_) s
    ⟨⟨rfl, rfl⟩, .of_jobs rfl⟩
  obtain ⟨-, kmem, kjobs⟩ := t.probeLane_spec k
  exact ⟨hmem.trans kmem, hjobs.trans kjobs⟩

theorem State.probeLanes_out (s : State) (l : List Nat) {x : Nat} (h : x ∉ l) : (s.probeLanes l).lane x = s.lane x :=
  forEach_same (fun t => t.lane x) l (fun s k => s.probeLane k)
    (fun t k hk => by rw [(t.probeLane_spec k).1 x, if_neg (ne_of_mem_of_not_mem hk h)]) s

/-- A lane of the list is at probe power, however often it stands there. -/
theorem State.probeLanes_in (s : State) (l : List Nat) {x : Nat} (h : x ∈ l) : (s.probeLanes l).lane x = (s.lane x).toProbe := by
  have hstep (t : State) (k : Nat) : (t.probeLane k).lane x = if k = x then (t.lane x).toProbe else t.lane x := by
    rw [(t.probeLane_spec k).1 x]
    by_cases hk : k = x
    · rw [if_pos hk, if_pos hk, hk]
    · rw [if_neg hk, if_neg hk]
  refine forEach_reaches (fun t => (t.lane x).toProbe = (s.lane x).toProbe) (fun t => t.lane x = (s.lane x).toProbe) l
    (fun s k => s.probeLane k) x h (fun t k ht => ?_) (fun t ht => ?_) (fun t k ht => ?_) s rfl
  · rw [hstep]
    split
    · rw [Lane.toProbe_toProbe, ht]
    · exact ht
  · rw [hstep, if_pos rfl, ht]
  · rw [hstep, ht]
    split
    · exact Lane.toProbe_toProbe _
    · rfl

theorem State.markDark_spec (s : State) (c : Nat) :
    (∀ x, (s.markDark c).lane x = s.lane x) ∧ s.sameMem (s.markDark c) ∧ s.Relinks (s.markDark c) := by
  unfold State.markDark
  split
  · exact ⟨s.modConn_lane c _, State.modConn_sameMem .., .of_jobs (State.modConn_jobs ..)⟩
  · exact ⟨fun _ => rfl, ⟨rfl, rfl⟩, .of_jobs rfl⟩

theorem State.pairedTx_setLane (s : State) (i : Nat) (f : Lane → Lane) (x : Nat) : (s.setLane i f).pairedTx x = s.pairedTx x := by
  obtain ⟨o, p, m, h⟩ := s.setLane_eq i f
  rw [h]
  rfl

theorem execLossOfLight_eq {s : State} {i : Nat} (hi : i < 258) :
    exec (.lossOfLight i) s = .next (((s.setLane i Lane.dim).probeLanes (s.pairedTx i)).markDark (connOf i)) := by
  change execLossOfLight i s = _
  unfold execLossOfLight
  dsimp only
  rw [if_neg (by omega), if_neg (by omega)]
  change Host.Outcome.next (((s.setLane i Lane.dim).probeLanes ((s.setLane i Lane.dim).pairedTx i)).markDark (connOf i)) = _
  rw [State.pairedTx_setLane]

/-- LOSS_OF_LIGHT: the lane is dark, and the transmitters paired with it are at probe power (12 R594). -/
theorem does_lossOfLight (s : State) (i : Nat) (hi : i < 258) : Does (.lossOfLight i) s fun t => s.sameMem t ∧
    (∀ id j, s.job? id = some j → ∃ j', t.job? id = some j' ∧ { j' with flags := j.flags, guardFrom := j.guardFrom } = j ∧
      (j' = j ∨ j'.flags = { j.flags with remapped := true })) ∧
    (t.lane i).rx = (if (s.lane i).rx = 5 then 5 else 1) ∧
    (∀ k ∈ s.pairedTx i, (t.lane k).tx = if (s.lane k).tx = 2 ∨ (s.lane k).tx = 3 then 1 else (s.lane k).tx) ∧
    (∀ k, k ∉ s.pairedTx i → (t.lane k).tx = (s.lane k).tx) ∧ (∀ k, k ≠ i → (t.lane k).rx = (s.lane k).rx) := by
  refine ⟨_, execLossOfLight_eq hi, ?_⟩
  obtain ⟨hlane, hmem, hjobs⟩ := ((s.setLane i Lane.dim).probeLanes (s.pairedTx i)).markDark_spec (connOf i)
  obtain ⟨kmem, kjobs⟩ := (s.setLane i Lane.dim).probeLanes_frame (s.pairedTx i)
  have hin {k : Nat} (hk : k ∈ s.pairedTx i) := (hlane k).trans ((s.setLane i Lane.dim).probeLanes_in _ hk)
  have hout {k : Nat} (hk : k ∉ s.pairedTx i) := (hlane k).trans ((s.setLane i Lane.dim).probeLanes_out _ hk)
  have htx (k : Nat) : ((s.setLane i Lane.dim).lane k).tx = (s.lane k).tx := by
    rw [State.setLane_lane]
    split
    · next h => exact h ▸ rfl
    · rfl
  have hrx (k : Nat) :
      ((((s.setLane i Lane.dim).probeLanes (s.pairedTx i)).markDark (connOf i)).lane k).rx = ((s.setLane i Lane.dim).lane k).rx := by
    by_cases hk : k ∈ s.pairedTx i
    · rw [hin hk]
      rfl
    · rw [hout hk]
  refine ⟨((s.setLane_sameMem ..).trans kmem).trans hmem, ((State.Relinks.of_jobs (s.setLane_jobs ..)).trans kjobs).trans hjobs, ?_,
    fun k hk => ?_, fun k hk => ?_, fun k hk => ?_⟩
  · rw [hrx, State.setLane_lane, if_pos rfl]
    rfl
  · rw [hin hk, ← htx k]
    rfl
  · rw [hout hk, htx]
  · rw [hrx, State.setLane_lane, if_neg (Ne.symm hk)]

/-! ## A lane in service retrains -/

/-- A lane that leaves service trains again (12 R591). -/
def Lane.retrain (l : Lane) : Lane := { l with tx := if l.tx = 3 then 2 else l.tx, rx := 2 }

theorem State.laneLeaves_lane (s : State) (i x : Nat) : (s.laneLeaves i).lane x = if i = x then (s.lane i).retrain else s.lane x := by
  have hset := (s.flagLane i).setLane_lane i Lane.retrain x
  rwa [State.flagLane_lane, State.flagLane_lane] at hset

theorem State.laneLeaves_sameMem (s : State) (i : Nat) : s.sameMem (s.laneLeaves i) :=
  (s.flagLane_sameMem i).trans (State.setLane_sameMem ..)

theorem State.laneLeaves_runs (s : State) (i : Nat) (p : Proc) : (s.laneLeaves i).runs p = s.runs p := by
  obtain ⟨m, h⟩ := s.flagLane_eq i
  obtain ⟨o, q, l, k⟩ := (s.flagLane i).setLane_eq i Lane.retrain
  change ((s.flagLane i).setLane i Lane.retrain).runs p = _
  rw [k, h]
  rfl

/-- LANE_FEC_FAILURE: the lane retrains, and the running commands that it serves have their link work moved (12 R591). -/
theorem does_laneFecFailure (s : State) (i : Nat) (hrx : (s.lane i).rx = 3) : Does (.laneFecFailure i) s fun t =>
    t.lane i = { s.lane i with tx := if (s.lane i).tx = 3 then 2 else (s.lane i).tx, rx := 2 } ∧
    (∀ x, x ≠ i → t.lane x = s.lane x) ∧ s.sameMem t ∧
    ∀ p id j n, s.planLane i = some p → s.job? id = some j → j.phase = .running → n ∈ j.peersNamed → s.goesBy p.txPeer n = true →
      ∃ j', t.job? id = some j' ∧ j'.flags.remapped = true ∧ j'.guardFrom = some (j.guardFrom.getD (s.frame.counter + 1)) := by
  refine ⟨s.laneLeaves i, if_pos hrx, (s.laneLeaves_lane i i).trans (if_pos rfl), fun x hx => (s.laneLeaves_lane i x).trans
    (if_neg (Ne.symm hx)), s.laneLeaves_sameMem i, ?_⟩
  intro p id j n hplan hj hrunning hn hgoes
  have hlinks : s.linksBy p j = true := by
    have hopen : j.open' = true := by
      unfold Job.open'
      rw [hrunning]
    unfold State.linksBy
    rw [hopen, hrunning, List.any_eq_true.mpr ⟨n, hn, hgoes⟩]
    rfl
  refine ⟨j.relinked (s.frame.counter + 1), ?_, rfl, rfl⟩
  refine (State.job?_congr ((s.flagLane i).setLane_jobs ..) id).trans ((State.flagLane_job? hplan id).trans ?_)
  rw [hj, Option.map_some, if_pos hlinks]

/-! ## LANE_WINDOW_END -/

/-- The state with a lane's figures of a window, whose lane retrains with too many errors (05 R299; 12 R591). -/
def State.figureLane (s : State) (f : LaneFigures) (high : Bool) : State :=
  let u := s.modLane f.lane fun l => { l with width := f.width, height := f.height, ber := f.ber }
  if high && (u.lane f.lane).rx == 3 then u.laneLeaves f.lane else u

/-- A lane's registers show its figures. -/
def State.showLane (s : State) (i : Nat) : State :=
  (s.showReg (0x21000 + 4 * i) (s.lane i).eyeWord).showReg (0x21800 + 4 * i) (s.lane i).shownBer.toNat

theorem execLaneWindowEnd_one {s : State} {f : LaneFigures} {b : Bool} {m : Nat} {x : Int} (hframe : s.frame.counter % 128 = 0)
    (hlane : f.lane < 258) (hber : fp32.decode f.ber.toNat = .fin b m x) : exec (.laneWindowEnd [f]) s =
      .next ((s.figureLane f ((Dy.ofInt 2).lt ((⟨m, x⟩ : Dy).mul (Dy.ofInt 10000)))).showLane f.lane) := by
  change execLaneWindowEnd [f] s = _
  unfold execLaneWindowEnd
  rw [if_neg (not_not_intro hframe)]
  change ok (if 258 ≤ f.lane then s else _) = _
  rw [if_neg (by omega), hber]
  rfl

theorem State.figureLane_spec (s : State) (f : LaneFigures) (high : Bool) : s.sameMem (s.figureLane f high) ∧
    (∀ p, (s.figureLane f high).runs p = s.runs p) ∧ ((s.figureLane f high).lane f.lane).width = f.width ∧
    ((s.figureLane f high).lane f.lane).height = f.height ∧ ((s.figureLane f high).lane f.lane).ber = f.ber ∧
    ((s.figureLane f high).lane f.lane).rxPower = (s.lane f.lane).rxPower ∧
    ((s.figureLane f high).lane f.lane).rx = if (s.lane f.lane).rx = 3 ∧ high = true then 2 else (s.lane f.lane).rx := by
  unfold State.figureLane
  extract_lets u
  have hself : u.lane f.lane = { s.lane f.lane with width := f.width, height := f.height, ber := f.ber } := by
    rw [State.lane_modLane, if_pos rfl]
  have hrx : (u.lane f.lane).rx = (s.lane f.lane).rx := by rw [hself]
  rw [hrx]
  by_cases hhigh : (s.lane f.lane).rx = 3 ∧ high = true
  · obtain ⟨h3, rfl⟩ := hhigh
    rw [if_pos (by simp [h3]), if_pos ⟨h3, rfl⟩, u.laneLeaves_lane, if_pos rfl, hself]
    exact ⟨u.laneLeaves_sameMem f.lane, u.laneLeaves_runs f.lane, rfl, rfl, rfl, rfl, rfl⟩
  · rw [if_neg (by simpa [and_comm] using hhigh), if_neg hhigh, hself]
    exact ⟨⟨rfl, rfl⟩, fun _ => rfl, rfl, rfl, rfl, rfl, rfl⟩

/-- LANE_WINDOW_END of one lane. -/
theorem does_laneWindowEnd (s : State) (f : LaneFigures) (b : Bool) (m : Nat) (x : Int) (hframe : s.frame.counter % 128 = 0)
    (hlane : f.lane < 258) (hber : fp32.decode f.ber.toNat = .fin b m x) :
    Does (.laneWindowEnd [f]) s fun t => (t.lane f.lane).width = f.width ∧ (t.lane f.lane).height = f.height ∧
      (t.lane f.lane).ber = f.ber ∧ (t.lane f.lane).rxPower = (s.lane f.lane).rxPower ∧ s.sameMem t ∧
      (s.runs .twilight = true → t.shownValue (0x21000 + 4 * f.lane) = (t.lane f.lane).eyeWord % 2 ^ 32) ∧
      (t.lane f.lane).rx = (if (s.lane f.lane).rx = 3 ∧ (Dy.ofInt 2).lt ((⟨m, x⟩ : Dy).mul (Dy.ofInt 10000)) = true then 2
        else (s.lane f.lane).rx) := by
  refine ⟨_, execLaneWindowEnd_one hframe hlane hber, ?_⟩
  obtain ⟨hmem, hruns, hwidth, hheight, hfigure, hpower, hrx⟩ :=
    s.figureLane_spec f ((Dy.ofInt 2).lt ((⟨m, x⟩ : Dy).mul (Dy.ofInt 10000)))
  generalize s.figureLane f _ = u at *
  have hshown (h : s.runs .twilight = true) :
      (u.showLane f.lane).shownValue (0x21000 + 4 * f.lane) = (u.lane f.lane).eyeWord % 2 ^ 32 := by
    have hu := (hruns .twilight).trans h
    have hv : (u.showReg (0x21000 + 4 * f.lane) (u.lane f.lane).eyeWord).runs .twilight = true := by
      obtain ⟨m, heq⟩ := u.showReg_eq (0x21000 + 4 * f.lane) (u.lane f.lane).eyeWord
      rw [heq]
      exact hu
    unfold State.showLane
    rw [State.shownValue_showReg hv, if_neg (by omega), State.shownValue_showReg hu, if_pos rfl]
  have hframe' : ∃ m, u.showLane f.lane = { u with shown := m } := by
    unfold State.showLane
    obtain ⟨m₁, h₁⟩ := u.showReg_eq (0x21000 + 4 * f.lane) (u.lane f.lane).eyeWord
    rw [h₁]
    obtain ⟨m₂, h₂⟩ := State.showReg_eq { u with shown := m₁ } (0x21800 + 4 * f.lane) (u.lane f.lane).shownBer.toNat
    exact ⟨m₂, h₂⟩
  obtain ⟨m', heq⟩ := hframe'
  rw [heq] at hshown ⊢
  exact ⟨hwidth, hheight, hfigure, hpower, hmem, hshown, hrx⟩

/-- Settles O40: a lane's turns change that lane and connectors alone, and a lane that leaves service marks the commands it serves. -/
theorem lanesTrainServeAndFail : Obligations.LanesTrainServeAndFail := by
  unfold Obligations.LanesTrainServeAndFail
  refine ⟨does_laneTrainingStart, does_laneTrained_failed, does_laneTrained_port, does_laneTrained_lane, does_lossOfLight, ?_,
    does_laneFecFailure, does_laneWindowEnd⟩
  intro s i hi hlit htx
  change execProbePulse i s = _
  unfold execProbePulse
  dsimp only
  rw [if_pos]
  · rfl
  · rcases htx with h | h | h <;> simp [hi, hlit, h]

end Sys2Proof.Machine
end

section
/-! PROOFS. The service commands (11 R537, R538; 05 R283 to R293; 16 R724, R731), and the statement `ServiceCommandsComplete`. -/

namespace Sys2Proof.Machine

/-! ## Areas and images -/

theorem nth_set {α : Type} (l : List (Option α)) (i a : Nat) (h : l.length ≤ i → a ≠ i) (v : Option α) :
    nth (l.set i v) a none = if a = i then v else nth l a none := by
  unfold nth
  rw [List.getD_eq_getElem?_getD, List.getD_eq_getElem?_getD, List.getElem?_set]
  by_cases hai : a = i
  · subst hai
    have hlen : a < l.length := by
      by_contra hle
      exact h (by omega) rfl
    rw [if_pos rfl, if_pos rfl, if_pos hlen]
    rfl
  · rw [if_neg (Ne.symm hai), if_neg hai]

/-- Emptying an area, of those that there are. -/
theorem nth_set_none {α : Type} (l : List (Option α)) (i a : Nat) : nth (l.set i none) a none = if a = i then none else nth l a none := by
  by_cases hlen : i < l.length
  · exact nth_set l i a (fun h => absurd hlen (by omega)) none
  · rw [List.set_eq_of_length_le (by omega)]
    split
    · next h =>
      subst h
      exact List.getD_eq_default _ _ (by omega)
    · rfl

/-- An image as Dawn writes it is valid (05 R291). -/
theorem CoefSet.image_valid (x : CoefSet) : x.image.valid = true := by
  have hlt : Config.devId < 2 ^ 32 := by
    have := Config.stepping.isLt
    unfold Config.devId
    omega
  unfold UserImage.valid CoefSet.image CoefSet.crc
  dsimp only
  rw [BitVec.toNat_ofNat, Nat.mod_eq_of_lt hlt, beq_self_eq_true, beq_self_eq_true, beq_self_eq_true]
  rfl

theorem CalSt.saveArea_lt {c : CalSt} (h : c.newest < 2) : c.saveArea < 2 := by
  unfold CalSt.saveArea
  dsimp only
  split
  · omega
  · split
    · exact h
    · omega

/-- A save goes to the area that does not hold the newest valid image (05 R291). -/
theorem CalSt.saveArea_valid {c : CalSt} {x : UserImage} (hx : nth c.areas c.newest none = some x) (hvalid : x.valid = true) :
    c.saveArea = 1 - c.newest := by
  unfold CalSt.saveArea
  dsimp only
  rw [if_pos]
  rw [hx]
  exact hvalid

theorem CalSt.userSet_newest {c : CalSt} {x : UserImage} (hx : nth c.areas c.newest none = some x) (hvalid : x.valid = true) :
    c.userSet = some x.set := by
  unfold CalSt.userSet
  rw [List.findSome?_cons, hx]
  dsimp only
  rw [if_pos hvalid]

/-! ## CALIBRATE -/

/-- A CALIBRATE with its section (11 R543). -/
def Job.calibReport (c : Job) : Job := { c with report := c.report ++ [calibSection c.calib] }

/-- A CALIBRATE with its section and with the set that its save writes (05 R284, R291). -/
def Job.calibSave (c : Job) (active : CoefSet) : Job :=
  { c with report := c.report ++ [calibSection c.calib], saveSet := some (c.saveSet.getD active) }

/-- The state in which Dawn writes a save of command `id`. -/
def State.saving (s : State) (id : Nat) : State :=
  { s with cal := { s.cal with saveBusy := true, saveJob := some id, areas := s.cal.areas.set s.cal.saveArea none } }

section
variable {s : State} {id engines : Nat} {j : Job}

theorem execCalibrate_ends (hw : s.works id 0x0E j) (hbody : j.body = .calibrate false engines)
    (hslots : s.slotsDone j engines false = true) :
    exec (.calibrate id) s = .next (((s.begin' j).modJob id Job.calibReport).finishJob id .done) := by
  change execCalibrate id s = _
  unfold execCalibrate
  rw [jobRun_works _ hw, hbody]
  dsimp only
  rw [if_neg (by rw [show (s.begin' j).slotsDone j engines false = true from hslots]; nofun)]
  rfl

theorem execCalibrate_saves (hw : s.works id 0x0E j) (hbody : j.body = .calibrate true engines)
    (hslots : s.slotsDone j engines true = true) (hjob : s.cal.saveJob ≠ some id) (hbusy : s.cal.saveBusy = false)
    (hruns : s.runs .dawn = true) :
    exec (.calibrate id) s = .next (((s.begin' j).modJob id fun c => c.calibSave s.cal.active).saving id) := by
  have hfree : ¬((s.begin' j).cal.saveJob = some id ∨ (s.begin' j).cal.saveBusy = true ∨ (s.begin' j).runs .dawn = false) := by
    rintro (h | h | h)
    · exact hjob h
    · exact absurd hbusy (by rw [show s.cal.saveBusy = true from h]; nofun)
    · exact absurd hruns (by rw [show s.runs .dawn = false from h]; nofun)
  change execCalibrate id s = _
  unfold execCalibrate
  rw [jobRun_works _ hw, hbody]
  dsimp only
  rw [if_neg (by rw [show (s.begin' j).slotsDone j engines true = true from hslots]; nofun), if_neg (by nofun), if_neg hfree]
  rfl

/-- CALIBRATE without SAVE: it completes at the end of its last slot. -/
theorem does_calibrate (s : State) (id : Nat) (j : Job) (engines : Nat) (hw : s.works id 0x0E j) (hbody : j.body = .calibrate false engines)
    (hslots : s.slotsDone j engines false = true) :
    Does (.calibrate id) s fun t => t.ended id .done ∧ t = { s with jobs := t.jobs } ∧
      ∃ j', t.job? id = some j' ∧ j'.report = j.report ++ [calibSection j.calib] := by
  refine ⟨_, execCalibrate_ends hw hbody hslots, ?_⟩
  have hreport := State.job?_modJob_some Job.calibReport (fun _ => rfl) hw.job?_begin'
  have hend := State.job?_finishJob .done hreport rfl
  exact ⟨⟨_, hend, rfl⟩, rfl, _, hend, rfl⟩

/-- CALIBRATE with SAVE: the save begins at the end of its last slot. -/
theorem does_calibrate_save (s : State) (id : Nat) (j : Job) (engines : Nat) (hw : s.works id 0x0E j)
    (hbody : j.body = .calibrate true engines) (hslots : s.slotsDone j engines true = true) (hjob : s.cal.saveJob ≠ some id)
    (hbusy : s.cal.saveBusy = false) (hruns : s.runs .dawn = true) :
    Does (.calibrate id) s fun t =>
      t = { s with jobs := t.jobs, cal := { s.cal with saveBusy := true, saveJob := some id, areas := t.cal.areas } } ∧
      (∀ a, nth t.cal.areas a none = if a = s.cal.saveArea then none else nth s.cal.areas a none) ∧
      ∃ j', t.job? id = some j' ∧ j'.phase = .running ∧ j'.report = j.report ++ [calibSection j.calib] ∧
        j'.saveSet = some (j.saveSet.getD s.cal.active) := by
  refine ⟨_, execCalibrate_saves hw hbody hslots hjob hbusy hruns, rfl, fun a => nth_set_none .., ?_⟩
  exact ⟨_, State.job?_modJob_some (fun c => c.calibSave s.cal.active) (fun _ => rfl) hw.job?_begin', rfl, rfl, rfl⟩

end

/-- The calibration state once a save has been written (05 R284, R291). -/
def CalSt.saved (c : CalSt) (set : CoefSet) : CalSt :=
  { c with saveBusy := false, saveJob := none, newest := c.saveArea, areas := c.areas.set c.saveArea (some set.image) }

theorem execFlashSaveComplete_ends {s : State} {id : Nat} {j : Job} {set : CoefSet} (hjob : s.cal.saveJob = some id)
    (hruns : s.runs .dawn = true) (hj : s.job? id = some j) (hset : j.saveSet = some set) :
    exec .flashSaveComplete s = .next ({ s with cal := s.cal.saved set }.finishJob id .done) := by
  change execFlashSaveComplete s = _
  unfold execFlashSaveComplete
  rw [hjob]
  dsimp only
  rw [hruns, if_neg nofun, hj, Option.bind_some, hset]
  rfl

/-- FLASH_SAVE_COMPLETE: the image is the newest valid one, beside the one before. -/
theorem does_flashSaveComplete (s : State) (id : Nat) (j : Job) (set : CoefSet) (hjob : s.cal.saveJob = some id)
    (hruns : s.runs .dawn = true) (hj : s.job? id = some j) (hrunning : j.phase = .running) (hset : j.saveSet = some set) :
    Does .flashSaveComplete s fun t => t.ended id .done ∧ t.cal.saveBusy = false ∧ t.cal.saveJob = none ∧
      (s.cal.areas.length = 2 → s.cal.newest < 2 → nth t.cal.areas t.cal.newest none = some set.image ∧ set.image.valid = true ∧
        t.cal.userSet = some set ∧
        (∀ x, nth s.cal.areas s.cal.newest none = some x → x.valid = true →
          t.cal.newest ≠ s.cal.newest ∧ nth t.cal.areas s.cal.newest none = some x)) ∧
      t = { s with jobs := t.jobs, cal := t.cal } := by
  refine ⟨_, execFlashSaveComplete_ends hjob hruns hj hset, ⟨_, State.job?_finishJob .done hj hrunning, rfl⟩, rfl, rfl, ?_, rfl⟩
  intro hlength hnewest
  have hlt := CalSt.saveArea_lt hnewest
  have hareas (a : Nat) : nth (s.cal.saved set).areas a none = if a = s.cal.saveArea then some set.image else nth s.cal.areas a none :=
    nth_set _ _ _ (fun h => absurd hlt (by omega)) _
  have hself : nth (s.cal.saved set).areas (s.cal.saved set).newest none = some set.image := (hareas _).trans (if_pos rfl)
  refine ⟨hself, set.image_valid, CalSt.userSet_newest hself set.image_valid, fun x hx hvalid => ?_⟩
  have harea := CalSt.saveArea_valid hx hvalid
  refine ⟨?_, (hareas _).trans ((if_neg (by omega)).trans hx)⟩
  change s.cal.saveArea ≠ s.cal.newest
  omega

/-! ## SELFTEST -/

/-- Exact tiles over all slots of engines change the accumulator files alone. -/
theorem State.selfTilesAll_eq (l : List Nat) (s : State) : ∃ n a c r t, forEach l (fun s e => s.selfTiles e) s =
    { s with free := n, acc := a, carries := c, accRuns := r, tiles := t } := by
  refine forEach_keeps (fun u => ∃ n a c r t, u = { s with free := n, acc := a, carries := c, accRuns := r, tiles := t }) l _
    (fun u e _ ⟨_, _, _, _, _, hu⟩ => ?_) s ⟨_, _, _, _, _, rfl⟩
  obtain ⟨n, c, r, t, h⟩ := u.selfTiles_eq e
  rw [h, hu]
  exact ⟨_, _, _, _, _, rfl⟩

/-- Local store windows are undefined after a test of them (16 R730). -/
def State.clearStores (s : State) (tested : Bool) : State := if tested then { s with locals := [] } else s

/-- Accumulator slots are undefined after a test of them (16 R730). -/
def State.loseSlots (s : State) (tested : Bool) : State :=
  if tested then { s with acc := [], carries := [], accLost := s.accLost + 1 } else s

theorem State.clearStores_spec (s : State) (tested : Bool) :
    (s.clearStores tested).jobs = s.jobs ∧ (s.clearStores tested).cal = s.cal ∧ (s.clearStores tested).accLost = s.accLost ∧
    (tested = true → (s.clearStores tested).locals = []) := by
  cases tested
  · exact ⟨rfl, rfl, rfl, nofun⟩
  · exact ⟨rfl, rfl, rfl, fun _ => rfl⟩

theorem State.loseSlots_spec (s : State) (tested : Bool) :
    (s.loseSlots tested).jobs = s.jobs ∧ (s.loseSlots tested).cal = s.cal ∧ (s.loseSlots tested).locals = s.locals ∧
    (tested = true → (s.loseSlots tested).acc = [] ∧ (s.loseSlots tested).accLost = s.accLost + 1) := by
  cases tested
  · exact ⟨rfl, rfl, rfl, nofun⟩
  · exact ⟨rfl, rfl, rfl, fun _ => ⟨rfl, rfl⟩⟩

theorem State.testEffects_eq (s : State) (units engines : Nat) : s.testEffects units engines =
    if bit units 0 then forEach ((bitList 256 engines).filter fun e => !((s.clearStores (bit units 1)).loseSlots (bit units 3)).engineOut e)
      (fun s e => s.selfTiles e) ((s.clearStores (bit units 1)).loseSlots (bit units 3))
    else (s.clearStores (bit units 1)).loseSlots (bit units 3) := rfl

/-- What an exclusive test leaves of what it does not test. -/
theorem State.testEffects_spec (s : State) (units engines : Nat) :
    (s.testEffects units engines).jobs = s.jobs ∧ (s.testEffects units engines).cal = s.cal ∧
    (bit units 1 = true → (s.testEffects units engines).locals = []) ∧
    (bit units 3 = true → bit units 0 = false → (s.testEffects units engines).acc = [] ∧
      (s.testEffects units engines).accLost = s.accLost + 1) := by
  obtain ⟨hjobs, hcal, hlost, hlocals⟩ := s.clearStores_spec (bit units 1)
  obtain ⟨kjobs, kcal, klocals, kacc⟩ := (s.clearStores (bit units 1)).loseSlots_spec (bit units 3)
  rw [s.testEffects_eq]
  generalize (s.clearStores (bit units 1)).loseSlots (bit units 3) = v at *
  cases bit units 0 with
  | false =>
    refine ⟨kjobs.trans hjobs, kcal.trans hcal, fun h1 => klocals.trans (hlocals h1), fun h3 _ => ?_⟩
    obtain ⟨kempty, kcount⟩ := kacc h3
    exact ⟨kempty, kcount.trans (congrArg (· + 1) hlost)⟩
  | true =>
    rw [if_pos rfl]
    obtain ⟨n, a, c, r, t, h⟩ := State.selfTilesAll_eq ((bitList 256 engines).filter fun e => !v.engineOut e) v
    rw [h]
    exact ⟨kjobs.trans hjobs, kcal.trans hcal, fun h1 => klocals.trans (hlocals h1), fun _ h0 => nomatch h0⟩

/-- The state in which an exclusive test has paused the rotation (05 R286). -/
def State.pauseRotation (s : State) : State := { s with cal := { s.cal with selftest := true, rotating := false, resumeDue := false } }

/-- A command whose result names failed units. -/
def Job.foundBad (c : Job) : Job := { c with flags := { c.flags with remapped := true } }

/-- A test of command `id` has found these units failed (16 R724, R731). -/
def State.testFound (s : State) (id : Nat) (bad : List Unit') : State :=
  let u := { s with failing := s.failing ++ bad.map fun u => (u, 3) }
  if bad.isEmpty then u else u.modJob id Job.foundBad

/-- The rotation resumes after an exclusive test (05 R282). -/
def State.resumeRotation (s : State) (excl : Bool) : State :=
  if excl then { s with cal := { s.cal with selftest := false, resumeDue := true } } else s

section
variable {s : State} {id units engines : Nat} {j : Job} {excl : Bool}

theorem execSelftest_begins (failed : List Unit') (hj : s.job? id = some j) (hbody : j.body = .selftest excl units engines)
    (hstart : s.mayStart j = true) : exec (.selftest id failed) s = .next
      (if excl then (s.begin' j).pauseRotation.testEffects units engines else s.begin' j) := by
  change execSelftest id failed s = _
  unfold execSelftest
  rw [hj]
  dsimp only
  rw [hbody]
  dsimp only
  rw [if_pos hstart]
  cases excl <;> rfl

theorem execSelftest_ends (failed : List Unit') (hj : s.job? id = some j) (hbody : j.body = .selftest excl units engines)
    (hstart : s.mayStart j = false) (hrunning : j.phase = .running) (hover : s.testOver j excl units engines = true)
    (hstopped : j.stopped = false) : exec (.selftest id failed) s = .next
      (((s.testFound id (failed.filter (selftestCovers units engines))).resumeRotation excl).finishJob id .done) := by
  change execSelftest id failed s = _
  unfold execSelftest
  rw [hj]
  dsimp only
  rw [hbody]
  dsimp only
  rw [if_neg (by rw [hstart]; nofun), if_pos ⟨hrunning, hover, by rw [hstopped]; rfl⟩]
  rfl

end

theorem State.testFound_spec {s : State} {id : Nat} {j : Job} (bad : List Unit') (hj : s.job? id = some j) (hrunning : j.phase = .running) :
    (∃ k, (s.testFound id bad).job? id = some k ∧ k.phase = .running) ∧ (s.testFound id bad).cal = s.cal ∧
    (s.testFound id bad).failing = s.failing ++ bad.map fun u => (u, 3) := by
  unfold State.testFound
  dsimp only
  split
  · exact ⟨⟨j, hj, hrunning⟩, rfl, rfl⟩
  · exact ⟨⟨_, State.job?_modJob_some (s := { s with failing := s.failing ++ bad.map fun u => (u, 3) }) Job.foundBad (fun _ => rfl) hj,
      hrunning⟩, rfl, rfl⟩

theorem State.resumeRotation_jobs (s : State) (excl : Bool) : (s.resumeRotation excl).jobs = s.jobs := by cases excl <;> rfl
theorem State.resumeRotation_failing (s : State) (excl : Bool) : (s.resumeRotation excl).failing = s.failing := by cases excl <;> rfl

/-- A command that may start is under way once it has begun. -/
theorem State.job?_begin' {s : State} {id : Nat} {j : Job} (hj : s.job? id = some j) :
    (s.begin' j).job? id = some (j.execute s.frame) := by
  obtain rfl := State.job?_id hj
  exact State.job?_modJob_some (fun k => k.execute s.frame) (fun _ => rfl) hj

/-- SELFTEST begins and ends. -/
theorem does_selftest (s : State) (id units engines : Nat) (j : Job) (excl : Bool) (failed : List Unit') (hj : s.job? id = some j)
    (hbody : j.body = .selftest excl units engines) :
    (s.mayStart j = true → Does (.selftest id failed) s fun t =>
      (∃ j', t.job? id = some j' ∧ j'.phase = .running) ∧
      (excl = true → t.cal = { s.cal with selftest := true, rotating := false, resumeDue := false } ∧
        (bit units 1 = true → t.locals = []) ∧ (bit units 3 = true → bit units 0 = false → t.acc = [] ∧ t.accLost = s.accLost + 1)) ∧
      (excl = false → t = { s with jobs := t.jobs })) ∧
    (j.phase = .running → s.testOver j excl units engines = true → s.mayStart j = false → j.stopped = false → Does (.selftest id failed) s fun t =>
      t.ended id .done ∧ t.failing = s.failing ++ (failed.filter (selftestCovers units engines)).map (fun u => (u, 3)) ∧
      (excl = true → t.cal = { s.cal with selftest := false, resumeDue := true }) ∧ (excl = false → t.cal = s.cal)) := by
  refine ⟨fun hstart => ⟨_, execSelftest_begins failed hj hbody hstart, ?_⟩, fun hrunning hover hstart hstopped =>
    ⟨_, execSelftest_ends failed hj hbody hstart hrunning hover hstopped, ?_⟩⟩
  · have hbegun := State.job?_begin' hj
    cases excl with
    | false => exact ⟨⟨_, hbegun, rfl⟩, nofun, fun _ => rfl⟩
    | true =>
      obtain ⟨hjobs, hcal, hlocals, hacc⟩ := (s.begin' j).pauseRotation.testEffects_spec units engines
      exact ⟨⟨_, (State.job?_congr hjobs id).trans hbegun, rfl⟩, fun _ => ⟨hcal, hlocals, hacc⟩, nofun⟩
  · obtain ⟨⟨k, hk, hphase⟩, hcal, hfailing⟩ := State.testFound_spec (failed.filter (selftestCovers units engines)) hj hrunning
    have hresumed := (State.job?_congr (State.resumeRotation_jobs _ excl) id).trans hk
    refine ⟨⟨_, State.job?_finishJob .done hresumed hphase, rfl⟩, (State.resumeRotation_failing _ excl).trans hfailing, ?_, ?_⟩
    · rintro rfl
      exact congrArg (fun c : CalSt => { c with selftest := false, resumeDue := true }) hcal
    · rintro rfl
      exact hcal

/-! ## RESTORE_FACTORY -/

/-- A set that keeps the ring trims of another, over the factory values of a blob (05 R293). -/
def CoefSet.trimsOver (x : CoefSet) (blob : Bool) : CoefSet := { blob := blob, vals := x.vals.filter fun v => coefIsTrim v.1 }

theorem CoefSet.get_trimsOver (x : CoefSet) (blob : Bool) (c : Coef) : (x.trimsOver blob).get c =
    if coefIsTrim c = true ∧ x.vals.any (fun v => v.1 == c) = true then x.get c else coefClamp c (Config.factoryCoef blob c) := by
  unfold CoefSet.trimsOver CoefSet.get
  rw [find?_filter_coef]
  by_cases htrim : coefIsTrim c = true
  · rw [if_pos htrim]
    cases hfind : x.vals.find? fun v => v.1 == c with
    | some v =>
      have hany : x.vals.any (fun v => v.1 == c) = true :=
        List.any_eq_true.mpr ⟨v, List.mem_of_find?_eq_some hfind, List.find?_some (p := fun v : Coef × Int => v.1 == c) hfind⟩
      rw [if_pos ⟨htrim, hany⟩]
    | none =>
      have hnone : ¬x.vals.any (fun v => v.1 == c) = true := by
        intro h
        obtain ⟨v, hv, hvc⟩ := List.any_eq_true.mp h
        exact List.find?_eq_none.mp hfind v hv hvc
      rw [if_neg fun h => hnone h.2]
  · rw [if_neg htrim, if_neg fun h => htrim h.1]

/-- An engine whose ring trims return to their factory values in its next slot (05 R293). -/
def Engine.staleTrims (x : Engine) : Engine := if x.lock = .mappedOut then x else { x with trimsStale := true }

/-- A change of each entry of a list that stands in it once. -/
theorem Sparse.get_modifyAll {α : Type} [DecidableEq α] (d : α) (f : α → α) (l : List Nat) (hl : l.Nodup) (m : Sparse α) (k : Nat) :
    Sparse.get d (l.foldl (fun m e => m.modify d e f) m) k = if k ∈ l then f (Sparse.get d m k) else Sparse.get d m k := by
  induction l generalizing m with
  | nil => rfl
  | cons e l ih =>
    obtain ⟨he, hl⟩ := List.nodup_cons.mp hl
    rw [List.foldl_cons, ih hl, Sparse.get_modify]
    by_cases hek : e = k
    · subst hek
      rw [if_neg he, if_pos rfl, if_pos List.mem_cons_self]
    · rw [if_neg hek]
      by_cases hk : k ∈ l
      · rw [if_pos hk, if_pos (List.mem_cons_of_mem e hk)]
      · rw [if_neg hk, if_neg (by simp [hk, Ne.symm hek])]

/-- The engines of the device, once their ring trims are marked (05 R293). -/
def staleAll (m : Sparse Engine) : Sparse Engine := (List.range 256).foldl (fun m e => m.modify {} e Engine.staleTrims) m

theorem staleAll_get (m : Sparse Engine) {e : Nat} (he : e < 256) : Sparse.get {} (staleAll m) e = (Sparse.get {} m e).staleTrims := by
  unfold staleAll
  rw [Sparse.get_modifyAll {} Engine.staleTrims _ List.nodup_range, if_pos (List.mem_range.mpr he)]

/-- The state in which the factory values are in force, but for the ring trims (05 R293). -/
def State.restored (s : State) (id : Nat) : State :=
  { s with
    cal := { s.cal with userLoaded := false, restoreJob := some id, active := s.cal.active.trimsOver s.fw.factoryOk }
    engines := staleAll s.engines }

theorem State.restored_eq (s : State) (id : Nat) : ∃ m, s.restored id = { s with
    cal := { s.cal with userLoaded := false, restoreJob := some id, active := s.cal.active.trimsOver s.fw.factoryOk }
    engines := m } := ⟨_, rfl⟩

theorem State.restored_engine (s : State) (id : Nat) {e : Nat} (he : e < 256) : (s.restored id).engine e = (s.engine e).staleTrims := by
  unfold State.restored State.engine
  dsimp only
  rw [staleAll_get s.engines he]

theorem execRestoreFactory_begins {s : State} {id : Nat} {j : Job} (hj : s.job? id = some j) (hop : j.hdr.opcode = 0x10)
    (hstart : s.mayStart j = true) : exec (.restoreFactory id) s = .next ((s.begin' j).restored id) := by
  change execRestoreFactory id s = _
  unfold execRestoreFactory
  rw [hj]
  dsimp only
  rw [if_pos ⟨hop, hstart⟩]
  rfl

/-- RESTORE_FACTORY begins. -/
theorem does_restoreFactory (s : State) (id : Nat) (j : Job) (hj : s.job? id = some j) (hop : j.hdr.opcode = 0x10)
    (hstart : s.mayStart j = true) :
    Does (.restoreFactory id) s fun t =>
      t.cal = { s.cal with userLoaded := false, restoreJob := some id, active := t.cal.active } ∧
      (∀ c, t.cal.active.get c = if coefIsTrim c = true ∧ s.cal.active.vals.any (fun v => v.1 == c) = true then s.cal.active.get c
        else coefClamp c (Config.factoryCoef s.fw.factoryOk c)) ∧
      (∃ j', t.job? id = some j' ∧ j'.phase = .running) ∧
      (∀ e < 256, t.engine e = if (s.engine e).lock = .mappedOut then s.engine e else { s.engine e with trimsStale := true }) ∧
      t = { s with jobs := t.jobs, cal := t.cal, engines := t.engines } := by
  refine ⟨_, execRestoreFactory_begins hj hop hstart, ?_⟩
  have hengine (e : Nat) (he : e < 256) := (s.begin' j).restored_engine id he
  obtain ⟨m, heq⟩ := (s.begin' j).restored_eq id
  rw [heq] at hengine ⊢
  exact ⟨rfl, s.cal.active.get_trimsOver s.fw.factoryOk, ⟨_, State.job?_begin' hj, rfl⟩, hengine, rfl⟩

/-- RESTORE_FACTORY_WRITE_COMPLETE: both areas are invalid, and the command ends. -/
theorem does_restoreFactoryWriteComplete (s : State) (id : Nat) (j : Job) (hjob : s.cal.restoreJob = some id) (hj : s.job? id = some j)
    (hrunning : j.phase = .running) : Does .restoreFactoryWriteComplete s fun t => t.ended id .done ∧
      t = { s with jobs := t.jobs, cal := { s.cal with areas := [none, none], restoreJob := none } } := by
  refine ⟨{ s with cal := { s.cal with areas := [none, none], restoreJob := none } }.finishJob id .done, ?_,
    ⟨_, State.job?_finishJob .done hj hrunning, rfl⟩, rfl⟩
  change execRestoreFactoryWriteComplete s = _
  unfold execRestoreFactoryWriteComplete
  rw [hjob]
  rfl

/-! ## QUERY -/

/-- The bytes of a snapshot from a descriptor's RESUME on, each an element (08 R430; 11 R538). -/
def snapshotElems (d : TDesc) (bs : List Byte) : List (Nat × List Byte) :=
  ((List.range bs.length).zip bs).filter (fun x => decide (d.resume ≤ x.1)) |>.map fun x => (x.1, [x.2])

/-- QUERY: the snapshot is written, and the command ends. -/
theorem does_query (s : State) (id item : Nat) (j : Job) (d : TDesc) (bs : List Byte) (hw : s.works id 0x11 j)
    (hbody : j.body = .query item d) (hsnapshot : j.snapshot = some bs) (hstorable : s.storable d (snapshotElems d bs)) :
    Does (.query id) s fun t => t.ended id .done ∧ t = { s with mem := t.mem, poison := t.poison, latent := t.latent, jobs := t.jobs } ∧
      t.mem = writeEach s.mem d (snapshotElems d bs) := by
  obtain ⟨u, hwrite, hstored⟩ := State.writeElems_storable (s := s.begin' j) j hstorable
  refine ⟨u.finishJob id .done, ?_, ?_⟩
  · change execQuery id s = _
    unfold execQuery
    rw [jobRun_works _ hw]
    dsimp only
    rw [hbody, hsnapshot]
    dsimp only
    unfold snapshotElems at hwrite
    rw [hwrite]
  · have hjob := (State.job?_congr hstored.jobs id).trans hw.job?_begin'
    refine ⟨⟨_, State.job?_finishJob .done hjob rfl, rfl⟩, ?_, hstored.mem⟩
    obtain ⟨p, l, rfl⟩ := hstored
    rfl

/-- What a command becomes at a boundary that takes the snapshots of queries (11 R538). -/
def State.snapshotOf (s : State) (j : Job) : Job :=
  match j.body with
  | .query item _ => if j.live && j.snapshot.isNone && decide (j.decided + 1 ≤ s.frame.counter)
      then { j with snapshot := some (s.queryItem j.session item) } else j
  | _ => j

theorem State.snapshotOf_id (s : State) (j : Job) : (s.snapshotOf j).id = j.id := by
  unfold State.snapshotOf
  split
  · split <;> rfl
  · rfl

/-- At the boundary after its decision a QUERY takes its snapshot. -/
theorem takeSnapshots_query (s : State) (id item : Nat) (j : Job) (d : TDesc) (hj : s.job? id = some j) (hbody : j.body = .query item d)
    (hlive : j.live = true) (hnone : j.snapshot = none) (hdecided : j.decided + 1 ≤ s.frame.counter) :
    ∃ j', s.takeSnapshots.job? id = some j' ∧ j'.snapshot = some (s.queryItem j.session item) := by
  refine ⟨s.snapshotOf j, ?_, ?_⟩
  · exact (s.job?_mapJobs s.snapshotOf s.snapshotOf_id id).trans (congrArg _ hj)
  · unfold State.snapshotOf
    rw [hbody]
    dsimp only
    rw [hlive, hnone, if_pos (by simpa using hdecided)]

/-- Settles O20: a save goes to the other area, a test's tiles touch the accumulator files alone, and a snapshot's bytes are stored. -/
theorem serviceCommandsComplete : Obligations.ServiceCommandsComplete := by
  unfold Obligations.ServiceCommandsComplete
  exact ⟨does_calibrate, does_calibrate_save, does_flashSaveComplete, does_selftest, does_restoreFactory, does_restoreFactoryWriteComplete,
    does_query, takeSnapshots_query⟩

end Sys2Proof.Machine
end

section
/-! PROOFS. Slew limiters and heater targets (05 R240, R245, R246, R250, R278; 06 R304 to R307; 15 R685). -/

namespace Sys2Proof.Machine

/-! ## The range of a heater -/

/-- The lowest setting of a heater: clear of the DAC's end by its tone's amplitude, and within headroom of its centre, where it has
one (05 R240; 06 R305, R306). -/
def heaterLow (amp c : Nat) : Int := if c = 0 then amp else max amp ((c : Int) - headroomBits)
/-- The highest one. -/
def heaterHigh (amp c : Nat) : Int := if c = 0 then 65535 - amp else min (65535 - amp) ((c : Int) + headroomBits)
/-- A target held in that range. -/
def heaterTarget (amp c : Nat) (target : Int) : Nat := (clampInt (heaterLow amp c) (heaterHigh amp c) target).toNat

/-- A centre that is clear of the DAC ends leaves a range about it. -/
theorem heaterRange {amp c : Nat} (hamp : amp ≤ 32767) (hc : c = 0 ∨ (amp ≤ c ∧ c ≤ 65535 - amp)) :
    (amp : Int) ≤ heaterLow amp c ∧ heaterLow amp c ≤ heaterHigh amp c ∧ heaterHigh amp c ≤ 65535 - amp := by
  unfold heaterLow heaterHigh headroomBits
  split
  · omega
  · omega

theorem clampInt_bounds {lo hi : Int} (h : lo ≤ hi) (i : Int) : lo ≤ clampInt lo hi i ∧ clampInt lo hi i ≤ hi := by
  unfold clampInt
  split_ifs <;> omega

theorem heaterTarget_bounds {amp c : Nat} (hamp : amp ≤ 32767) (hc : c = 0 ∨ (amp ≤ c ∧ c ≤ 65535 - amp)) (target : Int) :
    heaterLow amp c ≤ heaterTarget amp c target ∧ (heaterTarget amp c target : Int) ≤ heaterHigh amp c := by
  obtain ⟨hlow, hrange, -⟩ := heaterRange hamp hc
  have hclamp := clampInt_bounds hrange target
  unfold heaterTarget
  omega

theorem heaterTarget_inside {amp c : Nat} {target : Int} (hlo : heaterLow amp c ≤ target) (hhi : target ≤ heaterHigh amp c) :
    heaterTarget amp c target = target.toNat := by
  unfold heaterTarget
  rw [clampInt_inside hlo hhi]

/-- The range in the words of the statement: clear of the DAC ends, within headroom of the centre, and a target in it stays. -/
theorem heaterTarget_spec {amp c : Nat} (hamp : amp ≤ 32767) (hc : c = 0 ∨ (amp ≤ c ∧ c ≤ 65535 - amp)) (target : Nat) :
    amp ≤ heaterTarget amp c target ∧ heaterTarget amp c target ≤ 65535 - amp ∧
    (c = 0 ∨ ((heaterTarget amp c target : Int) - c).natAbs ≤ headroomBits) ∧
    (amp ≤ target → target ≤ 65535 - amp → c = 0 ∨ ((target : Int) - c).natAbs ≤ headroomBits →
      heaterTarget amp c target = target) := by
  obtain ⟨hlow, -, hhigh⟩ := heaterRange hamp hc
  obtain ⟨hlo, hhi⟩ := heaterTarget_bounds hamp hc target
  refine ⟨by omega, by omega, ?_, fun h₁ h₂ h₃ => ?_⟩
  · by_cases h : c = 0
    · exact .inl h
    · unfold heaterLow at hlo
      unfold heaterHigh at hhi
      rw [if_neg h] at hlo hhi
      exact .inr (by omega)
  · refine (heaterTarget_inside ?_ ?_).trans (Int.toNat_natCast target)
    · unfold heaterLow
      split
      · omega
      · omega
    · unfold heaterHigh
      split
      · omega
      · omega

/-! ## Heater targets -/

/-- A bank heater's target, by its lock loop. -/
theorem State.lockHeater_eq (s : State) (e row : Nat) (isB : Bool) (target : Int) : ∃ low high, s.lockHeater e row isB target =
      s.setBankHeater e row isB low high target ∧
    max ((s.tones.get {} (heaterChan e row isB)).amp : Int) low =
      heaterLow (s.tones.get {} (heaterChan e row isB)).amp (s.centres.get 0 (heaterChan e row isB)) ∧
    min (65535 - ((s.tones.get {} (heaterChan e row isB)).amp : Int)) high =
      heaterHigh (s.tones.get {} (heaterChan e row isB)).amp (s.centres.get 0 (heaterChan e row isB)) := by
  unfold State.lockHeater heaterLow heaterHigh
  dsimp only
  split
  · exact ⟨0, 65535, rfl, by omega, by omega⟩
  · exact ⟨_, _, rfl, rfl, rfl⟩

@[simp] theorem State.slew_lockHeater (s : State) (e row : Nat) (isB : Bool) (target : Int) (c : Nat) :
    (s.lockHeater e row isB target).slew c = if heaterChan e row isB = c then
      { s.slew c with target := heaterTarget (s.tones.get {} (heaterChan e row isB)).amp (s.centres.get 0 (heaterChan e row isB)) target }
    else s.slew c := by
  obtain ⟨low, high, heq, hlow, hhigh⟩ := s.lockHeater_eq e row isB target
  rw [heq, State.slew_setBankHeater, hlow, hhigh]
  rfl

/-- A bank whose heater's target had to be moved into its range is beyond headroom (05 R246). -/
theorem State.lockHeater_beyond (s : State) (e row target : Nat) (isB : Bool)
    (h : heaterTarget (s.tones.get {} (heaterChan e row isB)).amp (s.centres.get 0 (heaterChan e row isB)) target ≠ target) :
    (row, isB) ∈ ((s.lockHeater e row isB target).engine e).beyond := by
  obtain ⟨low, high, heq, hlow, hhigh⟩ := s.lockHeater_eq e row isB target
  rw [heq]
  unfold State.setBankHeater
  extract_lets chan amp key t far u
  have hmoved : t ≠ target := by
    intro ht
    refine h ?_
    unfold heaterTarget
    rw [← hlow, ← hhigh]
    exact (congrArg Int.toNat ht).trans (Int.toNat_natCast target)
  have hfar : far = true := by
    change (t != target || _) = true
    rw [bne_iff_ne.mpr hmoved]
    rfl
  change (row, isB) ∈ (u.engine e).beyond
  have hu : (u.engine e).beyond = ((s.engine e).beyond.filter fun k => k != key) ++ [key] := by
    change ((s.modEngine e _).engine e).beyond = _
    rw [State.engine_modEngine, if_pos rfl, hfar]
    rfl
  rw [hu]
  exact List.mem_append_right _ List.mem_cons_self

/-- The mark of the bank stays when the idle bank's heater follows. -/
theorem State.followIdle_beyond (s : State) (e row : Nat) (isB : Bool) (h : (row, isB) ∈ (s.engine e).beyond) :
    (row, isB) ∈ ((s.followIdle e row isB).engine e).beyond := by
  unfold State.followIdle
  dsimp only
  split
  · exact h
  · obtain ⟨low, high, heq, -⟩ := s.lockHeater_eq e row (!isB)
      (((s.slew (heaterChan e row isB)).target : Int) + s.centres.get 0 (heaterChan e row (!isB)) - s.centres.get 0 (heaterChan e row isB))
    rw [heq]
    unfold State.setBankHeater
    extract_lets chan amp key t far u
    change (row, isB) ∈ (u.engine e).beyond
    have hother : (row, isB) ≠ (row, !isB) := by cases isB <;> simp
    have hkept : (row, isB) ∈ (s.engine e).beyond.filter fun k => k != key := List.mem_filter.mpr ⟨h, bne_iff_ne.mpr hother⟩
    have hu : (u.engine e).beyond = if far then ((s.engine e).beyond.filter fun k => k != key) ++ [key]
        else (s.engine e).beyond.filter fun k => k != key := by
      change ((s.modEngine e _).engine e).beyond = _
      rw [State.engine_modEngine, if_pos rfl]
    rw [hu]
    split
    · exact List.mem_append_left _ hkept
    · exact hkept

/-- What a bank heater's new target leaves: the tones, the centres, and which bank is active. -/
theorem State.lockHeater_frame (s : State) (e row : Nat) (isB : Bool) (target : Int) :
    (s.lockHeater e row isB target).tones = s.tones ∧ (s.lockHeater e row isB target).centres = s.centres ∧
    ((s.lockHeater e row isB target).engine e).activeB = (s.engine e).activeB := by
  obtain ⟨low, high, heq, -⟩ := s.lockHeater_eq e row isB target
  rw [heq]
  refine ⟨rfl, rfl, ?_⟩
  unfold State.setBankHeater
  extract_lets chan amp key t far u
  change (u.engine e).activeB = _
  change ((s.modEngine e _).engine e).activeB = _
  rw [State.engine_modEngine, if_pos rfl]

/-- The idle bank's heater when the active bank's has a new target (05 R250). -/
theorem State.followIdle_idle (s : State) {e row : Nat} {isB : Bool} (hactive : (s.engine e).activeB = isB)
    (ha : 0 < s.centres.get 0 (heaterChan e row isB)) (hb : 0 < s.centres.get 0 (heaterChan e row (!isB))) :
    s.followIdle e row isB = s.lockHeater e row (!isB)
      (((s.slew (heaterChan e row isB)).target : Int) + s.centres.get 0 (heaterChan e row (!isB)) - s.centres.get 0 (heaterChan e row isB)) := by
  unfold State.followIdle
  dsimp only
  rw [if_neg]
  simp [hactive]
  omega

/-! ## Which channel takes a target -/

theorem heaterChan_of_chan (chan : Nat) : heaterChan (chan / 128) (chan / 2 % 64) (chan % 2 == 1) = chan := by
  have hbit : b2n (chan % 2 == 1) = chan % 2 := by
    rcases Nat.mod_two_eq_zero_or_one chan with h | h <;> simp [h, b2n]
  unfold heaterChan
  rw [hbit]
  omega

/-- The engine, row and bank that a bank heater's channel stands for. -/
theorem chan_of_heaterChan {e row : Nat} (hrow : row < 64) (isB : Bool) : heaterChan e row isB / 128 = e ∧
    heaterChan e row isB / 2 % 64 = row ∧ (heaterChan e row isB % 2 == 1) = isB := by
  unfold heaterChan b2n
  cases isB <;> simp <;> omega

section
variable {s : State} {chan : Nat} (target : Nat)

theorem State.setTarget_held (h : s.heaterHeld chan = true) : s.setTarget chan target = s := by
  unfold State.setTarget
  rw [if_pos h]

theorem State.setTarget_bank (h : s.heaterHeld chan = false) (hchan : chan < 32768) : s.setTarget chan target =
    (s.lockHeater (chan / 128) (chan / 2 % 64) (chan % 2 == 1) target).followIdle (chan / 128) (chan / 2 % 64) (chan % 2 == 1) := by
  unfold State.setTarget
  rw [if_neg (by simp [h]), if_pos hchan]

/-- A target of a bank heater is held in its range. -/
theorem State.target_setTarget_bank (h : s.heaterHeld chan = false) (hchan : chan < 32768) :
    ((s.setTarget chan target).slew chan).target = heaterTarget (s.tones.get {} chan).amp (s.centres.get 0 chan) target := by
  have hfollow := (s.lockHeater (chan / 128) (chan / 2 % 64) (chan % 2 == 1) target).slew_followIdle (chan / 128) (chan / 2 % 64)
    (chan % 2 == 1)
  rw [heaterChan_of_chan] at hfollow
  rw [State.setTarget_bank target h hchan, hfollow, State.slew_lockHeater, heaterChan_of_chan, if_pos rfl]

theorem State.setTarget_modulator (h : s.heaterHeld chan = false) (hlo : 32768 ≤ chan) (hhi : chan < 32832) :
    s.setTarget chan target = s.modSlew chan fun x =>
      { x with target := heaterTarget (s.tones.get {} chan).amp (s.centres.get 0 chan) target } := by
  unfold State.setTarget
  rw [if_neg (by simp [h]), if_neg (by omega), if_pos hhi]
  rfl

/-- No heater's hold reaches a ring trim (02 R95). -/
theorem State.setTarget_trim (hchan : 32832 ≤ chan) : s.setTarget chan target = s.setTrim chan target := by
  have hfree : s.heaterHeld chan = false := by
    have hbank : ¬chan < 32768 := by omega
    have hheater : ¬chan < 32832 := by omega
    simp [State.heaterHeld, hbank, hheater]
  unfold State.setTarget
  rw [if_neg (by simp [hfree]), if_neg (by omega), if_neg (by omega)]

/-- Outside its engine's calibration slot a ring trim takes no target (05 R278). -/
theorem State.setTrim_outside (h : (s.engine ((chan - 32832) / 8192)).lock ≠ .calib) : s.setTrim chan target = s := by
  unfold State.setTrim
  dsimp only
  rw [if_neg (by simp [h])]

/-- In the slot it takes one, in frame 14 within 512 bits, and in frame 15 none (05 R278, R279). -/
theorem State.setTrim_slot (hlock : (s.engine ((chan - 32832) / 8192)).lock = .calib)
    (htest : s.slotTested ((chan - 32832) / 8192) (s.frame.counter - s.frame.counter % 16) = false) :
    s.setTrim chan target = if s.frame.counter % 16 < 14 ∨ s.frame.counter % 16 = 14 ∧
        ((target : Int) - (s.slew chan).target).natAbs ≤ 512 then s.modSlew chan fun x => { x with target := target % 65536 }
      else s := by
  unfold State.setTrim
  dsimp only
  rw [hlock, htest]
  refine if_congr ?_ rfl rfl
  simp

end

/-! ## SLEW_UPDATE -/

/-- The state in which Twilight has written a channel's target, before the limiter moves. -/
def State.retargeted (s : State) (chan target : Nat) : State :=
  (s.modSlew chan fun x => x.set { target := some target }).setTarget chan target

theorem execSlewUpdate_target {s : State} (h : s.runs .twilight = true) (chan target : Nat) :
    exec (.slewUpdate chan (some { target := some target })) s = .next ((s.retargeted chan target).modSlew chan Slew.move) := by
  rw [execSlewUpdate_eq]
  unfold State.slewWritten
  dsimp only
  rw [if_pos h]
  rfl

theorem execSlewUpdate_noWrite {s : State} {w : Option SlewWrite} (h : w = none ∨ s.runs .twilight = false) (chan : Nat) :
    exec (.slewUpdate chan w) s = .next (s.modSlew chan Slew.move) := by
  rw [execSlewUpdate_eq]
  unfold State.slewWritten
  cases w with
  | none => rfl
  | some w =>
    dsimp only
    rw [if_neg (by simp [h.resolve_left nofun])]

@[simp] theorem State.modSlew_engines (s : State) (chan : Nat) (f : Slew → Slew) : (s.modSlew chan f).engines = s.engines := rfl

/-- The limiter's move changes no target, and no other channel. -/
@[simp] theorem State.target_move (s : State) (chan c : Nat) : ((s.modSlew chan Slew.move).slew c).target = (s.slew c).target := by
  rw [State.slew_modSlew]
  split
  · next h => rw [h]; rfl
  · rfl

theorem State.slew_move_other (s : State) {chan x : Nat} (h : x ≠ chan) (f : Slew → Slew) : (s.modSlew chan f).slew x = s.slew x := by
  rw [State.slew_modSlew, if_neg (Ne.symm h)]

/-- Every update moves the output towards the target and never past it (06 R304). -/
theorem does_slewUpdate (s : State) (chan : Nat) (w : Option SlewWrite) : Does (.slewUpdate chan w) s fun t =>
    t = { s with slews := t.slews, engines := t.engines } ∧
    ((s.slew chan).present ≤ (t.slew chan).target →
      (t.slew chan).present = Nat.min (t.slew chan).target ((s.slew chan).present + Nat.min 64 (t.slew chan).stepMax)) ∧
    ((t.slew chan).target ≤ (s.slew chan).present →
      (t.slew chan).present = Nat.max (t.slew chan).target ((s.slew chan).present - Nat.min 64 (t.slew chan).stepMax)) := by
  refine ⟨_, execSlewUpdate_eq s chan w, ?_⟩
  obtain ⟨⟨m, k, heq⟩, hpresent⟩ := State.Aimed.slewWritten s chan w
  rw [State.slew_modSlew, if_pos rfl, ← hpresent chan]
  refine ⟨by rw [heq]; rfl, ?_⟩
  generalize (s.slewWritten chan w).slew chan = x
  unfold Slew.move
  dsimp only
  generalize Nat.min 64 x.stepMax = n
  simp only [Nat.min_def, Nat.max_def]
  split_ifs <;> omega

/-- Without a write the limiter alone moves. -/
theorem does_slewUpdate_noWrite (s : State) (chan : Nat) (w : Option SlewWrite) (h : w = none ∨ s.runs .twilight = false) :
    Does (.slewUpdate chan w) s fun t =>
    t = { s with slews := t.slews } ∧ (t.slew chan).target = (s.slew chan).target ∧ (t.slew chan).stepMax = (s.slew chan).stepMax ∧
    (t.slew chan).div = (s.slew chan).div ∧ ∀ x, x ≠ chan → t.slew x = s.slew x := by
  refine ⟨_, execSlewUpdate_noWrite h chan, rfl, State.target_move .., ?_, ?_, fun x hx => s.slew_move_other hx _⟩
  · rw [State.slew_modSlew, if_pos rfl]; rfl
  · rw [State.slew_modSlew, if_pos rfl]; rfl

/-- Twilight writes STEP_MAX and UPDATE_DIV. -/
theorem does_slewUpdate_step (s : State) (chan n d : Nat) (hruns : s.runs .twilight = true) (hn : n < 128) (hd : d < 16) :
    Does (.slewUpdate chan (some { stepMax := some n, div := some d })) s fun t => t = { s with slews := t.slews } ∧
      (t.slew chan).stepMax = n ∧ (t.slew chan).div = d ∧ (t.slew chan).target = (s.slew chan).target ∧
      ∀ x, x ≠ chan → t.slew x = s.slew x := by
  have hwritten : s.slewWritten chan (some { stepMax := some n, div := some d }) =
      s.modSlew chan fun x => x.set { stepMax := some n, div := some d } := if_pos hruns
  refine ⟨_, execSlewUpdate_eq .., ?_⟩
  rw [hwritten]
  beta_reduce
  have hslew : ((s.modSlew chan fun x => x.set { stepMax := some n, div := some d }).modSlew chan Slew.move).slew chan =
      ((s.slew chan).set { stepMax := some n, div := some d }).move := by
    rw [State.slew_modSlew, if_pos rfl, State.slew_modSlew, if_pos rfl]
  rw [hslew]
  exact ⟨rfl, Nat.mod_eq_of_lt hn, Nat.mod_eq_of_lt hd, rfl, fun x hx => (State.slew_move_other _ hx _).trans (s.slew_move_other hx _)⟩

/-- A heater that is held, and a ring trim outside its engine's calibration slot, takes no target. -/
theorem does_slewUpdate_held (s : State) (chan target : Nat)
    (h : s.heaterHeld chan = true ∨ (32832 ≤ chan ∧ (s.engine ((chan - 32832) / 8192)).lock ≠ .calib)) :
    Does (.slewUpdate chan (some { target := some target })) s fun t => t.engines = s.engines ∧
      (t.slew chan).target = (s.slew chan).target ∧ ∀ x, x ≠ chan → t.slew x = s.slew x := by
  cases hruns : s.runs .twilight with
  | false =>
    obtain ⟨t, hexec, heq, htarget, -, -, hother⟩ := does_slewUpdate_noWrite s chan (some { target := some target }) (.inr hruns)
    exact ⟨t, hexec, by rw [heq], htarget, hother⟩
  | true =>
    have hkept : s.retargeted chan target = s.modSlew chan fun x => x.set { target := some target } := by
      rcases h with h | ⟨hchan, hlock⟩
      · exact State.setTarget_held target h
      · exact (State.setTarget_trim target hchan).trans (State.setTrim_outside target hlock)
    refine ⟨_, execSlewUpdate_target hruns chan target, ?_⟩
    rw [hkept]
    refine ⟨by simp only [State.modSlew_engines], ?_, fun x hx => (State.slew_move_other _ hx _).trans (s.slew_move_other hx _)⟩
    rw [State.target_move, State.slew_modSlew, if_pos rfl]
    rfl

/-- A heater's target stays in its range; a bank whose target had to be moved is marked. -/
theorem does_slewUpdate_heater (s : State) (chan target amp c : Nat) (hruns : s.runs .twilight = true) (hfree : s.heaterHeld chan = false)
    (hchan : chan < 32832) (hampIs : amp = (s.tones.get {} chan).amp) (hamp : amp ≤ 32767) (hcIs : c = s.centres.get 0 chan)
    (hc : c = 0 ∨ (amp ≤ c ∧ c ≤ 65535 - amp)) :
    Does (.slewUpdate chan (some { target := some target })) s fun t =>
      amp ≤ (t.slew chan).target ∧ (t.slew chan).target ≤ 65535 - amp ∧
      (c = 0 ∨ (((t.slew chan).target : Int) - c).natAbs ≤ headroomBits) ∧
      (amp ≤ target → target ≤ 65535 - amp → c = 0 ∨ ((target : Int) - c).natAbs ≤ headroomBits → (t.slew chan).target = target) ∧
      (32768 ≤ chan → t.engines = s.engines ∧ ∀ x, x ≠ chan → t.slew x = s.slew x) ∧
      (chan < 32768 → (t.slew chan).target ≠ target → (chan / 2 % 64, chan % 2 == 1) ∈ (t.engine (chan / 128)).beyond) := by
  refine ⟨_, execSlewUpdate_target hruns chan target, ?_⟩
  beta_reduce
  rw [State.target_move]
  have hspec := heaterTarget_spec hamp hc target
  obtain hbank | hmod := Nat.lt_or_ge chan 32768
  · have hat := heaterChan_of_chan chan
    have hset : s.retargeted chan target = _ := State.setTarget_bank target hfree hbank
    have htarget : ((s.retargeted chan target).slew chan).target = heaterTarget amp c target := by
      rw [hampIs, hcIs]
      exact State.target_setTarget_bank target hfree hbank
    rw [htarget]
    obtain ⟨hlo, hhi, hnear, hinside⟩ := hspec
    refine ⟨hlo, hhi, hnear, hinside, fun h => absurd h (Nat.not_le.mpr hbank), fun _ hmoved => ?_⟩
    change _ ∈ ((s.retargeted chan target).engine (chan / 128)).beyond
    rw [hset]
    refine State.followIdle_beyond _ _ _ _ (State.lockHeater_beyond _ _ _ target _ ?_)
    rw [hat]
    subst hampIs hcIs
    exact hmoved
  · have hset : s.retargeted chan target = _ := State.setTarget_modulator target hfree hmod hchan
    have htarget : ((s.retargeted chan target).slew chan).target = heaterTarget amp c target := by
      rw [hset, State.slew_modSlew, if_pos rfl, hampIs, hcIs]
      rfl
    rw [htarget]
    obtain ⟨hlo, hhi, hnear, hinside⟩ := hspec
    refine ⟨hlo, hhi, hnear, hinside, fun _ => ?_, fun h => absurd h (Nat.not_lt.mpr hmod)⟩
    rw [hset]
    refine ⟨by simp only [State.modSlew_engines], fun x hx => ?_⟩
    rw [State.slew_move_other _ hx, State.slew_move_other _ hx, State.slew_move_other _ hx]

/-- The idle bank's heater follows the active bank's with the difference of their centres (05 R250). -/
theorem does_slewUpdate_idle (s : State) (e row target a b idle amp : Nat) (isB : Bool) (hruns : s.runs .twilight = true) (he : e < 256)
    (hrow : row < 64) (hfree : s.heaterHeld (heaterChan e row isB) = false) (hactive : (s.engine e).activeB = isB)
    (hidle : idle = heaterChan e row (!isB)) (ha : a = s.centres.get 0 (heaterChan e row isB)) (hb : b = s.centres.get 0 idle)
    (hapos : 0 < a) (hbpos : 0 < b) (hamp : amp = (s.tones.get {} idle).amp)
    (hlow : (s.tones.get {} (heaterChan e row isB)).amp ≤ a) (hhigh : a + (s.tones.get {} (heaterChan e row isB)).amp ≤ 65535) :
    Does (.slewUpdate (heaterChan e row isB) (some { target := some target })) s fun t =>
      a + amp ≤ (t.slew (heaterChan e row isB)).target + b → (t.slew (heaterChan e row isB)).target + b + amp ≤ a + 65535 →
      (t.slew idle).target + a = (t.slew (heaterChan e row isB)).target + b := by
  refine ⟨_, execSlewUpdate_target hruns _ target, ?_⟩
  beta_reduce
  rw [State.target_move, State.target_move]
  obtain ⟨heng, hrowIs, hbankIs⟩ := chan_of_heaterChan (e := e) hrow isB
  have hbank : heaterChan e row isB < 32768 := by
    have : b2n isB ≤ 1 := by cases isB <;> decide
    unfold heaterChan
    omega
  have hset : s.retargeted (heaterChan e row isB) target = _ := State.setTarget_bank target hfree hbank
  rw [heng, hrowIs, hbankIs] at hset
  obtain ⟨htones, hcentres, hactive'⟩ := (s.modSlew (heaterChan e row isB) fun x => x.set { target := some target }).lockHeater_frame
    e row isB target
  have hactiveSlew := State.slew_lockHeater (s.modSlew (heaterChan e row isB) fun x => x.set { target := some target }) e row isB target
    (heaterChan e row isB)
  generalize (s.modSlew (heaterChan e row isB) fun x => x.set { target := some target }).lockHeater e row isB target = u at *
  change u.tones = s.tones at htones
  change u.centres = s.centres at hcentres
  rw [if_pos rfl] at hactiveSlew
  have hT : (u.slew (heaterChan e row isB)).target = heaterTarget (s.tones.get {} (heaterChan e row isB)).amp a target := by
    rw [hactiveSlew, ha]
    rfl
  subst hidle
  have hfollows := u.followIdle_idle (e := e) (row := row) (isB := isB) (hactive'.trans hactive) (by rw [hcentres]; omega)
    (by rw [hcentres]; omega)
  rw [hset, State.slew_followIdle, hfollows, State.slew_lockHeater, if_pos rfl, htones, hcentres, ← ha, ← hb, ← hamp]
  obtain ⟨hlo, hhi⟩ := heaterTarget_bounds (target := target) (by omega) (.inr ⟨hlow, by omega⟩ : a = 0 ∨ _)
  rw [← hT] at hlo hhi
  unfold heaterLow at hlo
  unfold heaterHigh at hhi
  rw [if_neg (by omega)] at hlo hhi
  intro hroomLow hroomHigh
  have hinside := heaterTarget_inside (amp := amp) (c := b) (target := ((u.slew (heaterChan e row isB)).target : Int) + b - a)
    (by unfold heaterLow; rw [if_neg (by omega)]; omega) (by unfold heaterHigh; rw [if_neg (by omega)]; omega)
  dsimp only
  rw [hinside]
  omega

/-- A ring trim in its engine's calibration slot, which SELFTEST does not use (05 R278, R285). -/
theorem does_slewUpdate_trim (s : State) (chan target : Nat) (hruns : s.runs .twilight = true) (hchan : 32832 ≤ chan)
    (hlock : (s.engine ((chan - 32832) / 8192)).lock = .calib)
    (htest : s.slotTested ((chan - 32832) / 8192) (s.frame.counter - s.frame.counter % 16) = false) (htarget : target < 65536) :
    Does (.slewUpdate chan (some { target := some target })) s fun t => t.engines = s.engines ∧
      (s.frame.counter % 16 < 14 → (t.slew chan).target = target) ∧
      (s.frame.counter % 16 = 15 → (t.slew chan).target = (s.slew chan).target) ∧ ∀ x, x ≠ chan → t.slew x = s.slew x := by
  refine ⟨_, execSlewUpdate_target hruns chan target, ?_⟩
  beta_reduce
  rw [State.target_move]
  have hset : s.retargeted chan target = (s.modSlew chan fun x => x.set { target := some target }).setTrim chan target :=
    State.setTarget_trim target hchan
  have hslot := State.setTrim_slot (s := s.modSlew chan fun x => x.set { target := some target }) target hlock htest
  by_cases h : s.frame.counter % 16 < 14 ∨ s.frame.counter % 16 = 14 ∧
      ((target : Int) - ((s.modSlew chan fun x => x.set { target := some target }).slew chan).target).natAbs ≤ 512
  · rw [hset, hslot.trans (if_pos h)]
    refine ⟨by simp only [State.modSlew_engines], fun _ => ?_, fun h15 => absurd h (by omega), fun x hx => ?_⟩
    · rw [State.slew_modSlew, if_pos rfl]
      exact Nat.mod_eq_of_lt htarget
    · rw [State.slew_move_other _ hx, State.slew_move_other _ hx, State.slew_move_other _ hx]
  · rw [hset, hslot.trans (if_neg h)]
    refine ⟨by simp only [State.modSlew_engines], fun h14 => absurd (.inl h14) h, fun _ => ?_, fun x hx => ?_⟩
    · rw [State.slew_modSlew, if_pos rfl]
      rfl
    · rw [State.slew_move_other _ hx, State.slew_move_other _ hx]

end Sys2Proof.Machine
end

section
/-! PROOFS. Tone oscillators, lock detectors and monitor converters (05 R249, R289; 06 R308 to R327), and the statement
`SlewsTonesAndMonitors`. -/

namespace Sys2Proof.Machine

/-! ## TONE_OSCILLATOR_CYCLE -/

/-- A cycle adds the increment to an oscillator's phase (06 R308 to R310). -/
theorem ToneOsc.phaseAt_succ (o : ToneOsc) {n : Nat} (h : o.since ≤ n) :
    o.phaseAt (n + 1) = (o.phaseAt n + clampInc o.inc) % 2 ^ 32 := by
  unfold ToneOsc.phaseAt
  rw [Nat.succ_sub h, Nat.mul_succ, ← Nat.add_assoc, Nat.mod_add_mod]

/-- The sum of products does not depend on where it starts. -/
theorem foldl_products (l : List (Nat × Int)) (a : Int) :
    l.foldl (fun (n : Int) y => n + y.2) a = a + l.foldl (fun (n : Int) y => n + y.2) 0 := by
  induction l generalizing a with
  | nil => simp
  | cons y l ih =>
    rw [List.foldl_cons, List.foldl_cons, ih (a + y.2), ih (0 + y.2)]
    omega

/-- The state after an oscillator cycle, before the detectors multiply. -/
def State.oscillated (s : State) : State := { s with oscCycles := s.oscCycles + 1 }

/-- A detector that takes a current adds its product with the tone reference to the products of the trailing 4,096 cycles (05 R249). -/
theorem State.detected_detectOne (s : State) (d : Nat) (i : Int) (hd : d < 16448) : (s.detectOne (d, i)).detected d =
    i * s.toneOutput (s.reference d) +
      ((s.detect.get [] d).filter fun y => decide (s.oscCycles < y.1 + 4096)).foldl (fun (n : Int) y => n + y.2) 0 := by
  unfold State.detectOne State.detected
  rw [if_neg (by omega)]
  dsimp only
  rw [Sparse.get_modify, if_pos rfl, List.filter_append, List.filter_filter]
  simp only [Bool.and_self]
  rw [List.foldl_append, foldl_products]
  generalize i * s.toneOutput (s.reference d) = p
  split
  · next h => rw [h]; rfl
  · simp

/-- TONE_OSCILLATOR_CYCLE: oscillators advance, and detectors sum. -/
theorem does_toneOscillatorCycle (s : State) (currents : List (Nat × Int)) : Does (.toneOscillatorCycle currents) s fun t =>
    t = { s with oscCycles := s.oscCycles + 1, detect := t.detect } ∧
    (∀ chan, t.tonePhase chan < 2 ^ 32 ∧ ((s.tone chan).since ≤ s.oscCycles →
      t.tonePhase chan = (s.tonePhase chan + clampInc (s.tone chan).inc) % 2 ^ 32)) ∧
    (s.detecting = false → t.detect = s.detect) ∧
    (∀ d i, currents = [(d, i)] → d < 16448 → s.detecting = true → t.detected d = i * t.toneOutput (t.reference d) +
      ((s.detect.get [] d).filter fun y => decide (s.oscCycles + 1 < y.1 + 4096)).foldl (fun (n : Int) y => n + y.2) 0) := by
  obtain ⟨t, hexec, heq⟩ := execToneOscillatorCycle_total s currents
  have ht : forEach (if s.detecting then currents else []) (fun s x => s.detectOne x) s.oscillated = t := Host.Outcome.next.inj hexec
  refine ⟨t, hexec, heq, fun chan => ?_, fun hoff => ?_, ?_⟩
  · have hphase : t.tonePhase chan = (s.tone chan).phaseAt (s.oscCycles + 1) := by rw [heq]; rfl
    rw [hphase]
    exact ⟨Nat.mod_lt _ (by decide), fun h => (s.tone chan).phaseAt_succ h⟩
  · rw [hoff] at ht
    rw [← ht]
    rfl
  · rintro d i rfl hd hon
    rw [hon] at ht
    have hone : s.oscillated.detectOne (d, i) = t := ht
    have hsum := s.oscillated.detected_detectOne d i hd
    rw [hone] at hsum
    have href : t.toneOutput (t.reference d) = s.oscillated.toneOutput (s.oscillated.reference d) := by rw [heq]; rfl
    rw [href]
    exact hsum

/-! ## What a converter's output changes -/

/-- From `s` to `t` converters, clusters, links and what is sent have changed, and nothing else. -/
def State.Read (s t : State) : Prop := t = { s with monitors := t.monitors, clusters := t.clusters, link := t.link, out := t.out }

theorem State.Read.refl (s : State) : s.Read s := rfl

theorem State.Read.trans {s t u : State} (h : s.Read t) (k : t.Read u) : s.Read u := by
  unfold State.Read at h k ⊢
  rw [k, h]

theorem State.Read.modMonitor (s : State) (k : Nat) (f : Monitor → Monitor) : s.Read (s.modMonitor k f) := rfl
theorem State.Read.modCluster (s : State) (k : Nat) (f : Cluster → Cluster) : s.Read (s.modCluster k f) := rfl
theorem State.Read.modLane (s : State) (i : Nat) (f : Lane → Lane) : s.Read (s.modLane i f) := rfl
theorem State.Read.event (s : State) (k : Nat) (d : Word32) : s.Read (s.event k d) := by
  unfold State.Read
  rw [s.event_eq]

theorem State.Read.takeRxPower (s : State) (k : Nat) (m : Monitor) : s.Read (s.takeRxPower k m) := by
  unfold State.takeRxPower
  split
  · exact .refl s
  · split
    · exact .refl s
    · extract_lets p old u
      split
      · exact .modLane ..
      · exact (State.Read.modLane ..).trans (.event ..)

theorem State.Read.maybeSelfcal (s : State) (k : Nat) : s.Read (s.maybeSelfcal k) := by
  unfold State.maybeSelfcal
  dsimp only
  split
  · exact .modMonitor ..
  · split
    · exact .modMonitor ..
    · exact .refl s
  · exact .refl s

/-! ## A valid output -/

/-- A converter with the result of a valid output, `sum` the dwell's (06 R316, R324, R327). -/
def Monitor.withResult (m : Monitor) (k : Nat) (raw : Int) (sum : Dy) : Monitor :=
  { m with
    results := m.results.set (0, Dy.zero) m.key (correct m raw, sum)
    centre := if m.input = centreInput k then some (Config.diodeMilliC k (correct m raw)) else m.centre }

/-- The same, turned to its next input where it scans (06 R316). -/
def Monitor.taken (m : Monitor) (k : Nat) (raw : Int) (sum : Dy) : Monitor :=
  if m.dwell then m.withResult k raw sum else (m.withResult k raw sum).advance k

theorem Monitor.advance_results (m : Monitor) (k : Nat) : (m.advance k).results = m.results := by
  unfold Monitor.advance
  split <;> rfl

theorem Monitor.advance_turns (m : Monitor) (k : Nat) : (m.advance k).skip = m.order ∧ (m.advance k).centreNext = !m.centreNext := by
  unfold Monitor.advance
  split
  · next h => exact ⟨rfl, by rw [h]; rfl⟩
  · next h => exact ⟨rfl, by rw [Bool.eq_false_iff.mpr h]; rfl⟩

theorem Monitor.taken_results (m : Monitor) (k : Nat) (raw : Int) (sum : Dy) :
    (m.taken k raw sum).results = m.results.set (0, Dy.zero) m.key (correct m raw, sum) := by
  unfold Monitor.taken
  split
  · rfl
  · rw [Monitor.advance_results]; rfl

/-- The state in which a converter has taken a result. -/
def State.storeResult (s : State) (k : Nat) (raw : Int) : State :=
  s.modMonitor k fun _ => (s.monitor k).taken k raw (s.dwellSum k (s.monitor k))

/-- What a result is used for besides: a cluster's tap sums start again, or a lane's receive power is refreshed (06 R326, R327). -/
def State.useResult (s : State) (k : Nat) (m : Monitor) : State :=
  if k < 64 then s.modCluster k fun c => { c with short := [] } else s.takeRxPower k m

theorem State.takeResult_eq (s : State) (k : Nat) (raw : Int) : s.takeResult k raw =
    if (s.monitor k).input = centreInput k then ((s.storeResult k raw).useResult k (s.monitor k)).maybeSelfcal k
    else (s.storeResult k raw).useResult k (s.monitor k) := rfl

theorem State.Read.useResult (s : State) (k : Nat) (m : Monitor) : s.Read (s.useResult k m) := by
  unfold State.useResult
  split
  · exact .modCluster ..
  · exact .takeRxPower ..

theorem State.Read.takeResult (s : State) (k : Nat) (raw : Int) : s.Read (s.takeResult k raw) := by
  have huse : s.Read ((s.storeResult k raw).useResult k (s.monitor k)) := (State.Read.modMonitor ..).trans (.useResult ..)
  rw [State.takeResult_eq]
  split
  · exact huse.trans (.maybeSelfcal ..)
  · exact huse

theorem State.takeRxPower_monitors (s : State) (k : Nat) (m : Monitor) : (s.takeRxPower k m).monitors = s.monitors := by
  unfold State.takeRxPower
  split
  · rfl
  · split
    · rfl
    · extract_lets p old u
      split
      · rfl
      · exact State.event_monitors ..

theorem State.useResult_monitors (s : State) (k : Nat) (m : Monitor) : (s.useResult k m).monitors = s.monitors := by
  unfold State.useResult
  split
  · rfl
  · exact s.takeRxPower_monitors k m

theorem State.monitor_of_monitors {s t : State} (h : t.monitors = s.monitors) (k : Nat) : t.monitor k = s.monitor k := by
  unfold State.monitor
  rw [h]

/-- The converter behind a valid output, until a self-calibration that follows. -/
theorem State.useResult_monitor (s : State) (k : Nat) (raw : Int) :
    ((s.storeResult k raw).useResult k (s.monitor k)).monitor k = (s.monitor k).taken k raw (s.dwellSum k (s.monitor k)) := by
  rw [State.monitor_of_monitors (State.useResult_monitors ..)]
  unfold State.storeResult
  rw [State.monitor_modMonitor, if_pos rfl]

/-- A self-calibration that begins keeps the results. -/
theorem State.maybeSelfcal_results (s : State) (k : Nat) : ((s.maybeSelfcal k).monitor k).results = (s.monitor k).results := by
  unfold State.maybeSelfcal
  dsimp only
  split
  · rw [State.monitor_modMonitor, if_pos rfl]
  · split
    · rw [State.monitor_modMonitor, if_pos rfl]; rfl
    · rfl
  · rfl

/-- Nothing but converters changes when a self-calibration begins. -/
theorem State.maybeSelfcal_eq (s : State) (k : Nat) : s.maybeSelfcal k = { s with monitors := (s.maybeSelfcal k).monitors } := by
  unfold State.maybeSelfcal
  dsimp only
  split
  · rfl
  · split <;> rfl
  · rfl

/-- The links and what is sent after a valid output are those after its use. -/
theorem State.takeResult_link (s : State) (k : Nat) (raw : Int) :
    (s.takeResult k raw).link = ((s.storeResult k raw).useResult k (s.monitor k)).link ∧
    (s.takeResult k raw).out = ((s.storeResult k raw).useResult k (s.monitor k)).out := by
  rw [State.takeResult_eq]
  split
  · rw [State.maybeSelfcal_eq]
    exact ⟨rfl, rfl⟩
  · exact ⟨rfl, rfl⟩

/-- Without a receive tap, or without Twilight, the links stay as they are. -/
theorem State.useResult_link (s : State) {k : Nat} (m : Monitor) (h : k < 64 ∨ s.runs .twilight = false) :
    (s.useResult k m).link = s.link ∧ (s.useResult k m).out = s.out := by
  unfold State.useResult
  split
  · exact ⟨rfl, rfl⟩
  · unfold State.takeRxPower
    rw [if_pos h]
    exact ⟨rfl, rfl⟩

/-- A lane whose receive tap has read a power; light above −25 dBm makes the anchor's up (06 R326; 12 R562, R563; log 125). -/
def Lane.tapped (l : Lane) (i : Nat) (p : Int) : Lane :=
  { l with rxPower := p, rx := if i = 258 then (if -2500 < p then 3 else 1) else l.rx }

theorem State.lane_takeRxPower (s : State) {k : Nat} {m : Monitor} {i : Nat} (hk : 64 ≤ k) (hruns : s.runs .twilight = true)
    (hi : laneOfInput (k - 64) m.input = some i) (x : Nat) : (s.takeRxPower k m).lane x =
      if i = x then (s.lane i).tapped i (clampInt (-32767) 32767 (s.tapDbm k m.key)) else s.lane x := by
  refine Eq.trans ?_ (s.lane_modLane i x fun l => l.tapped i (clampInt (-32767) 32767 (s.tapDbm k m.key)))
  unfold State.takeRxPower
  rw [if_neg (by simp [hruns]; omega), hi]
  dsimp -zeta only
  extract_lets p old u
  split
  · rfl
  · exact State.event_lane ..

/-- The lane whose receive tap was read takes its power; the anchor's tells whether it is up (06 R326; 12 R562, R563; log 125). -/
theorem State.takeRxPower_lane (s : State) {k : Nat} {m : Monitor} {i : Nat} (hk : 64 ≤ k) (hruns : s.runs .twilight = true)
    (hi : laneOfInput (k - 64) m.input = some i) :
    ((s.takeRxPower k m).lane i).rxPower = clampInt (-32767) 32767 (s.tapDbm k m.key) ∧
    (i = 258 → (((s.takeRxPower k m).lane i).rx = 3 ↔ -2500 < ((s.takeRxPower k m).lane i).rxPower)) ∧
    ∀ x, x ≠ i → (s.takeRxPower k m).lane x = s.lane x := by
  have hlane := s.lane_takeRxPower hk hruns hi
  refine ⟨?_, fun hanchor => ?_, fun x hx => ?_⟩
  · rw [hlane, if_pos rfl]
    rfl
  · rw [hlane, if_pos rfl]
    unfold Lane.tapped
    dsimp only
    rw [if_pos hanchor]
    split
    · next h => exact iff_of_true rfl h
    · next h => exact iff_of_false (by decide) h
  · rw [hlane, if_neg (Ne.symm hx)]

/-! ## MONITOR_OUTPUT -/

/-- What the filter's output does, before Twilight chooses. -/
def State.takeOutput (s : State) (k : Nat) (raw : Int) : State :=
  if 0 < (s.monitor k).skip then s.modMonitor k fun m => { m with skip := m.skip - 1 }
  else if (s.monitor k).selfcal then s.modMonitor k fun m => m.selfcalOutput k raw
  else s.takeResult k raw

theorem execMonitorOutput_none {s : State} {k : Nat} (hk : k < 68) (raw : Int) :
    exec (.monitorOutput k { raw := raw }) s = .next (s.takeOutput k raw) := by
  change execMonitorOutput k { raw := raw } s = _
  unfold execMonitorOutput
  rw [if_neg (by omega)]
  rfl

theorem execMonitorOutput_choice {s : State} {k : Nat} (hk : k < 68) (raw : Int) (c : MonChoice) :
    exec (.monitorOutput k { raw := raw, choice := some c }) s = .next
      (if (s.takeOutput k raw).runs .twilight && !((s.takeOutput k raw).monitor k).selfcal then (s.takeOutput k raw).chooseMode k c
       else s.takeOutput k raw) := by
  change execMonitorOutput k { raw := raw, choice := some c } s = _
  unfold execMonitorOutput
  rw [if_neg (by omega)]
  exact (apply_ite Host.Outcome.next _ _ _).symm

theorem State.Read.takeOutput (s : State) (k : Nat) (raw : Int) : s.Read (s.takeOutput k raw) := by
  unfold State.takeOutput
  split
  · exact .modMonitor ..
  · split
    · exact .modMonitor ..
    · exact .takeResult ..

theorem State.Read.chooseMode (s : State) (k : Nat) (c : MonChoice) : s.Read (s.chooseMode k c) := by
  unfold State.chooseMode
  split
  · exact .modMonitor ..
  · split
    · exact .modMonitor ..
    · exact .refl s

/-- A command for a converter that the device does not have. -/
theorem execMonitorOutput_absent {s : State} {k : Nat} (hk : 68 ≤ k) (o : MonOut) : exec (.monitorOutput k o) s = .next s := by
  change execMonitorOutput k o s = _
  unfold execMonitorOutput
  rw [if_pos hk]
  rfl

/-- MONITOR_OUTPUT on all operands. -/
theorem does_monitorOutput (s : State) (k : Nat) (o : MonOut) : Does (.monitorOutput k o) s fun t => s.sameMem t ∧ t.jobs = s.jobs ∧
    t.engines = s.engines ∧ t.frame = s.frame ∧ (∀ x, x ≠ k → t.monitor x = s.monitor x) ∧ (68 ≤ k → t = s) := by
  obtain ⟨t, hexec, hsamples⟩ := execMonitorOutput_total s k o
  obtain hk | hk := Nat.lt_or_ge k 68
  · have hread : s.Read t := by
      obtain ⟨raw, choice⟩ := o
      cases choice with
      | none =>
        rw [execMonitorOutput_none hk] at hexec
        rw [← Host.Outcome.next.inj hexec]
        exact .takeOutput ..
      | some c =>
        rw [execMonitorOutput_choice hk] at hexec
        rw [← Host.Outcome.next.inj hexec]
        split
        · exact (State.Read.takeOutput ..).trans (.chooseMode ..)
        · exact .takeOutput ..
    unfold State.Read at hread
    refine ⟨t, hexec, ⟨hsamples.mem, by rw [hread]⟩, hsamples.jobs, by rw [hread], by rw [hread], hsamples.other, fun h => by omega⟩
  · exact ⟨s, execMonitorOutput_absent hk o, ⟨rfl, rfl⟩, rfl, rfl, rfl, fun _ _ => rfl, fun _ => rfl⟩

section
variable {s : State} {k : Nat}

/-- A valid output of a converter that works (06 R316, R318, R324 to R327). -/
theorem does_monitorOutput_valid (hk : k < 68) (raw : Int) (hskip : (s.monitor k).skip = 0) (hself : (s.monitor k).selfcal = false) :
    Does (.monitorOutput k { raw := raw }) s fun t =>
      t = { s with monitors := t.monitors, clusters := t.clusters, link := t.link, out := t.out } ∧
      (k < 64 ∨ s.runs .twilight = false → t.link = s.link ∧ t.out = s.out) ∧
      (∀ i, 64 ≤ k → s.runs .twilight = true → laneOfInput (k - 64) (s.monitor k).input = some i →
        (t.lane i).rxPower = clampInt (-32767) 32767 (Config.tapPower k (s.monitor k).key (correct (s.monitor k) raw)) ∧
        (i = 258 → ((t.lane i).rx = 3 ↔ -2500 < (t.lane i).rxPower)) ∧ ∀ x, x ≠ i → t.lane x = s.lane x) ∧
      (t.monitor k).results.get (0, Dy.zero) (s.monitor k).key = (correct (s.monitor k) raw, s.dwellSum k (s.monitor k)) ∧
      ((s.monitor k).input ≠ centreInput k → (s.monitor k).dwell = true → (t.monitor k).input = (s.monitor k).input) ∧
      ((s.monitor k).input ≠ centreInput k → (s.monitor k).dwell = false →
        (t.monitor k).skip = (s.monitor k).order ∧ (t.monitor k).centreNext = !(s.monitor k).centreNext) ∧
      ∀ x, x ≠ k → t.monitor x = s.monitor x := by
  have htake : s.takeOutput k raw = s.takeResult k raw := by
    unfold State.takeOutput
    rw [if_neg (by omega), if_neg (by simp [hself])]
  refine ⟨_, execMonitorOutput_none hk raw, ?_⟩
  rw [htake]
  obtain ⟨hlink, hout⟩ := s.takeResult_link k raw
  have hmonitor := s.useResult_monitor k raw
  have hresult : ((s.storeResult k raw).monitor k).results.get (0, Dy.zero) (s.monitor k).key =
      (correct (s.monitor k) raw, s.dwellSum k (s.monitor k)) := by
    unfold State.storeResult
    rw [State.monitor_modMonitor, if_pos rfl, Monitor.taken_results, Sparse.get_set, if_pos rfl]
  refine ⟨State.Read.takeResult .., fun h => ?_, fun i hk64 hruns hi => ?_, ?_, fun hinput hdwell => ?_, fun hinput hdwell => ?_,
    (State.Samples.takeResult s k raw).other⟩
  · rw [hlink, hout]
    exact State.useResult_link _ _ h
  · have huse : (s.storeResult k raw).useResult k (s.monitor k) = (s.storeResult k raw).takeRxPower k (s.monitor k) :=
      if_neg (by omega)
    have hlane (x : Nat) : (s.takeResult k raw).lane x = ((s.storeResult k raw).takeRxPower k (s.monitor k)).lane x := by
      unfold State.lane
      rw [hlink, huse]
    obtain ⟨hpower, hanchor, hother⟩ := (s.storeResult k raw).takeRxPower_lane hk64 hruns hi
    simp only [hlane]
    refine ⟨hpower.trans ?_, hanchor, hother⟩
    unfold State.tapDbm
    rw [hresult]
  · have hkept : ((s.takeResult k raw).monitor k).results = ((s.monitor k).taken k raw (s.dwellSum k (s.monitor k))).results := by
      rw [State.takeResult_eq]
      split
      · rw [State.maybeSelfcal_results, hmonitor]
      · rw [hmonitor]
    rw [hkept, Monitor.taken_results, Sparse.get_set, if_pos rfl]
  · rw [State.takeResult_eq, if_neg hinput, hmonitor]
    unfold Monitor.taken
    rw [if_pos hdwell]
    rfl
  · rw [State.takeResult_eq, if_neg hinput, hmonitor]
    unfold Monitor.taken
    rw [if_neg (by simp [hdwell])]
    exact Monitor.advance_turns _ k

/-- The fourth output of internal zero turns a self-calibration to the VREF_EXT copy (06 R314, R321). -/
theorem does_monitorOutput_selfcal (hk : k < 68) (raw : Int) (hself : (s.monitor k).selfcal = true) (hskip : (s.monitor k).skip = 0)
    (hstep : (s.monitor k).calStep = 0) (hn : (s.monitor k).calN = 3) : Does (.monitorOutput k { raw := raw }) s fun t =>
      (t.monitor k).calZero = (s.monitor k).calSum + raw ∧ (t.monitor k).calStep = 1 ∧ (t.monitor k).input = selfcalInput k 1 ∧
      (t.monitor k).skip = (s.monitor k).order := by
  refine ⟨_, execMonitorOutput_none hk raw, ?_⟩
  have htake : (s.takeOutput k raw).monitor k = (s.monitor k).selfcalOutput k raw := by
    unfold State.takeOutput
    rw [if_neg (by omega), if_pos hself, State.monitor_modMonitor, if_pos rfl]
  beta_reduce
  rw [htake]
  unfold Monitor.selfcalOutput
  dsimp only
  rw [hstep, hn]
  exact ⟨rfl, rfl, rfl, rfl⟩

/-- Twilight turns a converter to dwell mode (06 R314, R316). -/
theorem does_monitorOutput_dwell (hk : k < 68) (raw : Int) {input engine order decim : Nat} (hskip : 0 < (s.monitor k).skip)
    (hself : (s.monitor k).selfcal = false) (hruns : s.runs .twilight = true) (hinput : inputDefined k input = true) (horder : order < 4)
    (hlo : 4 ≤ decim) (hhi : decim ≤ 256) (hengine : engine < 4) :
    Does (.monitorOutput k { raw := raw, choice := some { dwell := some (input, engine, order, decim) } }) s fun t =>
      (t.monitor k).dwell = true ∧ (t.monitor k).input = input ∧ (t.monitor k).order = order ∧ (t.monitor k).decim16 = decim ∧
      (t.monitor k).skip = order := by
  refine ⟨_, execMonitorOutput_choice hk raw _, ?_⟩
  have htake : s.takeOutput k raw = s.modMonitor k fun m => { m with skip := m.skip - 1 } := if_pos hskip
  rw [htake, if_pos]
  · unfold State.chooseMode
    dsimp only
    rw [if_pos (by simp [hinput, horder, hlo, hhi, hengine]), State.monitor_modMonitor, if_pos rfl]
    exact ⟨rfl, rfl, rfl, rfl, rfl⟩
  · rw [State.monitor_modMonitor, if_pos rfl]
    change (s.runs .twilight && !(s.monitor k).selfcal) = true
    rw [hruns, hself]
    rfl

end

/-- MONITOR_OUTPUT of a converter in each of its modes. -/
theorem does_monitorOutput_modes (s : State) (k : Nat) (raw : Int) (m : Monitor) (hm : m = s.monitor k) (hk : k < 68) :
    (0 < m.skip → exec (.monitorOutput k { raw := raw }) s = .next (s.modMonitor k fun m => { m with skip := m.skip - 1 })) ∧
    (m.skip = 0 → m.selfcal = false → Does (.monitorOutput k { raw := raw }) s fun t =>
      t = { s with monitors := t.monitors, clusters := t.clusters, link := t.link, out := t.out } ∧
      (k < 64 ∨ s.runs .twilight = false → t.link = s.link ∧ t.out = s.out) ∧
      (∀ i, 64 ≤ k → s.runs .twilight = true → laneOfInput (k - 64) m.input = some i →
        (t.lane i).rxPower = clampInt (-32767) 32767 (Config.tapPower k m.key (correct m raw)) ∧
        (i = 258 → ((t.lane i).rx = 3 ↔ -2500 < (t.lane i).rxPower)) ∧ ∀ x, x ≠ i → t.lane x = s.lane x) ∧
      (t.monitor k).results.get (0, Dy.zero) m.key = (correct m raw, s.dwellSum k m) ∧
      (m.input ≠ centreInput k → m.dwell = true → (t.monitor k).input = m.input) ∧
      (m.input ≠ centreInput k → m.dwell = false → (t.monitor k).skip = m.order ∧ (t.monitor k).centreNext = !m.centreNext) ∧
      ∀ x, x ≠ k → t.monitor x = s.monitor x) ∧
    (m.selfcal = true → m.skip = 0 → m.calStep = 0 → m.calN = 3 → Does (.monitorOutput k { raw := raw }) s fun t =>
      (t.monitor k).calZero = m.calSum + raw ∧ (t.monitor k).calStep = 1 ∧ (t.monitor k).input = selfcalInput k 1 ∧
      (t.monitor k).skip = m.order) ∧
    (∀ input engine order decim, 0 < m.skip → m.selfcal = false → s.runs .twilight = true → inputDefined k input = true → order < 4 →
      4 ≤ decim → decim ≤ 256 → engine < 4 →
      Does (.monitorOutput k { raw := raw, choice := some { dwell := some (input, engine, order, decim) } }) s fun t =>
        (t.monitor k).dwell = true ∧ (t.monitor k).input = input ∧ (t.monitor k).order = order ∧ (t.monitor k).decim16 = decim ∧
        (t.monitor k).skip = order) := by
  subst hm
  refine ⟨fun hskip => ?_, does_monitorOutput_valid hk raw, does_monitorOutput_selfcal hk raw,
    fun input engine order decim => does_monitorOutput_dwell hk raw⟩
  rw [execMonitorOutput_none hk raw]
  exact congrArg Host.Outcome.next (if_pos hskip)

/-! ## MONITOR_SELFCAL_COMPLETE -/

/-- A converter whose self-calibration ends with these factors (06 R321 to R323). -/
def Monitor.endSelfcal (m : Monitor) (k : Nat) (offset gain : Int) : Monitor :=
  let good := m.fits offset gain
  let m := if good then { m with offset := offset, gain := gain } else m
  { (m.startScan k) with failed := !good, calTemp := m.centre }

theorem Monitor.endSelfcal_fits {m : Monitor} {offset gain : Int} (h : m.fits offset gain = true) (k : Nat) :
    m.endSelfcal k offset gain = { ({ m with offset := offset, gain := gain }.startScan k) with failed := false, calTemp := m.centre } := by
  unfold Monitor.endSelfcal
  rw [h]
  rfl

theorem Monitor.endSelfcal_fails {m : Monitor} {offset gain : Int} (h : m.fits offset gain = false) (k : Nat) :
    m.endSelfcal k offset gain = { (m.startScan k) with failed := true, calTemp := m.centre } := by
  unfold Monitor.endSelfcal
  rw [h]
  rfl

theorem execMonitorSelfcalComplete_idle {s : State} {k : Nat} (h : (s.monitor k).selfcal = false ∨ (s.monitor k).calStep ≠ 3)
    (offsetUp gainUp ppmUp : Bool) : exec (.monitorSelfcalComplete k offsetUp gainUp ppmUp) s = .next s := by
  change execMonitorSelfcalComplete k offsetUp gainUp ppmUp s = _
  unfold execMonitorSelfcalComplete
  exact if_pos h

/-- From `s` to `t` converters have changed, and what entries of the error log change. -/
def State.Logs (s t : State) : Prop := t = { s with monitors := t.monitors, link := t.link, log := t.log, out := t.out }

theorem State.Logs.logError {s t : State} (h : s.Logs t) (code cls kind unit aux detail : Nat) :
    s.Logs (t.logError code cls kind unit aux detail) := by
  unfold State.Logs at h ⊢
  rw [t.logError_eq, h]

/-- The end of a self-calibration changes its converter, and what entries of the error log change. -/
theorem execMonitorSelfcalComplete_ends {s : State} {k : Nat} (offsetUp gainUp ppmUp : Bool) (hself : (s.monitor k).selfcal = true)
    (hstep : (s.monitor k).calStep = 3) {offset gain : Int} (hoffset : offset = (s.monitor k).newOffset offsetUp)
    (hgain : gain = (s.monitor k).newGain offset gainUp) : ∃ t, exec (.monitorSelfcalComplete k offsetUp gainUp ppmUp) s = .next t ∧
    (∀ x, t.monitor x = (s.modMonitor k fun m => m.endSelfcal k offset gain).monitor x) ∧
    ((s.monitor k).fits offset gain = false → t.log.next = s.log.next + 1) ∧
    s.Logs t := by
  subst hoffset
  subst hgain
  change ∃ t, execMonitorSelfcalComplete k offsetUp gainUp ppmUp s = .next t ∧ _
  unfold execMonitorSelfcalComplete
  extract_lets m offset gain good u offsetFits v gap ref
  rw [if_neg (by change ¬((s.monitor k).selfcal = false ∨ (s.monitor k).calStep ≠ 3); simp [hself, hstep])]
  have hu (x : Nat) : u.monitor x = (s.modMonitor k fun m => m.endSelfcal k offset gain).monitor x := by
    change (s.modMonitor k _).monitor x = _
    rw [State.monitor_modMonitor, State.monitor_modMonitor]
    split <;> rfl
  have hv (x : Nat) : v.monitor x = u.monitor x := by
    change (if good then u else u.logError ..).monitor x = _
    split
    · rfl
    · exact State.logError_monitor ..
  have hframe : s.Logs v := by
    have hu : s.Logs u := rfl
    change s.Logs (if good then u else u.logError ..)
    split
    · exact hu
    · exact hu.logError ..
  refine ⟨_, rfl, fun x => ?_, fun hbad => ?_, ?_⟩
  · split
    · exact (State.logError_monitor ..).trans ((hv x).trans (hu x))
    · exact (hv x).trans (hu x)
  · have hgood : good = false := hbad
    rw [if_neg (by simp [hgood])]
    change (if good then u else u.logError ..).log.next = _
    rw [hgood]
    exact (State.logError_log ..).1
  · split
    · exact hframe.logError ..
    · exact hframe

/-- MONITOR_SELFCAL_COMPLETE on all operands. -/
theorem does_monitorSelfcalComplete (s : State) (k : Nat) (offsetUp gainUp ppmUp : Bool) :
    Does (.monitorSelfcalComplete k offsetUp gainUp ppmUp) s fun t =>
    s.sameMem t ∧ t.jobs = s.jobs ∧ t.engines = s.engines ∧ (∀ x, x ≠ k → t.monitor x = s.monitor x) ∧
    ((s.monitor k).selfcal = false ∨ (s.monitor k).calStep ≠ 3 → t = s) := by
  by_cases hidle : (s.monitor k).selfcal = false ∨ (s.monitor k).calStep ≠ 3
  · exact ⟨s, execMonitorSelfcalComplete_idle hidle .., ⟨rfl, rfl⟩, rfl, rfl, fun _ _ => rfl, fun _ => rfl⟩
  · obtain ⟨hself, hstep⟩ := not_or.mp hidle
    obtain ⟨t, hexec, hmonitor, -, hframe⟩ := execMonitorSelfcalComplete_ends offsetUp gainUp ppmUp (by simpa using hself)
      (by simpa using hstep) rfl rfl
    unfold State.Logs at hframe
    refine ⟨t, hexec, ⟨by rw [hframe], by rw [hframe]⟩, by rw [hframe], by rw [hframe], fun x hx => ?_, fun h => absurd h hidle⟩
    rw [hmonitor, State.monitor_modMonitor, if_neg (Ne.symm hx)]

/-- The end of a self-calibration, whose factors fit or not (06 R321 to R323). -/
theorem does_monitorSelfcalComplete_ends (s : State) (k : Nat) (m : Monitor) (offsetUp gainUp ppmUp good : Bool) (offset gain : Int)
    (hm : m = s.monitor k) (hself : m.selfcal = true) (hstep : m.calStep = 3) (hoffset : offset = m.newOffset offsetUp)
    (hgain : gain = m.newGain offset gainUp)
    (hgood : good = (decide (-2048 ≤ offset) && decide (offset < 2048) && decide (-2048 ≤ gain) && decide (gain < 2048) &&
      decide (0 < m.refSum offset))) :
    Does (.monitorSelfcalComplete k offsetUp gainUp ppmUp) s fun t => (t.monitor k).selfcal = false ∧ (t.monitor k).calTemp = m.centre ∧
      (good = true → (t.monitor k).offset = offset ∧ (t.monitor k).gain = gain ∧ (t.monitor k).failed = false) ∧
      (good = false → (t.monitor k).failed = true ∧ (t.monitor k).offset = m.offset ∧ (t.monitor k).gain = m.gain ∧
        t.log.next = s.log.next + 1) ∧
      ∀ x, x ≠ k → t.monitor x = s.monitor x := by
  subst hm
  obtain ⟨t, hexec, hmonitor, hlog, -⟩ := execMonitorSelfcalComplete_ends offsetUp gainUp ppmUp hself hstep hoffset hgain
  have hother (x : Nat) (hx : x ≠ k) : t.monitor x = s.monitor x := by
    rw [hmonitor, State.monitor_modMonitor, if_neg (Ne.symm hx)]
  have hend : t.monitor k = (s.monitor k).endSelfcal k offset gain := by
    rw [hmonitor, State.monitor_modMonitor, if_pos rfl]
  have hfits : good = (s.monitor k).fits offset gain := hgood
  refine ⟨t, hexec, ?_⟩
  beta_reduce
  rw [hend]
  cases hcase : (s.monitor k).fits offset gain with
  | true =>
    rw [Monitor.endSelfcal_fits hcase, hfits, hcase]
    exact ⟨rfl, rfl, fun _ => ⟨rfl, rfl, rfl⟩, nofun, hother⟩
  | false =>
    rw [Monitor.endSelfcal_fails hcase, hfits, hcase]
    exact ⟨rfl, rfl, nofun, fun _ => ⟨rfl, rfl, rfl, hlog hcase⟩, hother⟩

/-- Settles O35: the target that Twilight writes decides before the limiter moves, detectors sum over the trailing cycles, and each
converter's output is discarded, calibrates, or becomes a result. -/
theorem slewsTonesAndMonitors : Obligations.SlewsTonesAndMonitors := by
  unfold Obligations.SlewsTonesAndMonitors
  exact ⟨does_slewUpdate, does_slewUpdate_noWrite, does_slewUpdate_step, does_slewUpdate_held, does_slewUpdate_heater,
    does_slewUpdate_idle, does_slewUpdate_trim, does_toneOscillatorCycle, does_monitorOutput, does_monitorOutput_modes,
    does_monitorSelfcalComplete, does_monitorSelfcalComplete_ends⟩

end Sys2Proof.Machine
end

section
/-! PROOFS. What a frame boundary keeps (05 R242 to R276; 10 R470 to R482; 15 R695 to R706; 16 R722 to R727): the frame, queues, sessions,
configuration and memory through the work of Twilight, Noon and Dusk at the boundary. -/

namespace Sys2Proof.Machine

/-! ## What is looked at -/

/-- Of the state at a boundary: the frame, the completion queues, sessions and counters, the configuration with whether Noon runs, and
the shadow unit's registers. -/
structure FrameView where
  frame : FrameSt
  cqs : Sparse Cq
  sessions : Sparse (Option Session)
  counters : Sparse Nat
  cfg : CfgSt
  noon : Bool
  shadowNext : Option (Nat × Bool)
  log2N : Nat
  sampleEn : Bool

/-- That part of a state. -/
def State.frameView (s : State) : FrameView :=
  { frame := s.frame, cqs := s.cqs, sessions := s.sessions, counters := s.counters, cfg := s.cfg, noon := s.runs .noon,
    shadowNext := s.cal.shadowNext, log2N := s.cal.log2N, sampleEn := s.cal.sampleEn }

/-- What memory holds, and the requests of kernels that wait for a frame, by command. -/
def State.heldView (s : State) : Sparse Byte × List Nat × List (Nat × List (KernelReq × Nat)) :=
  (s.mem, s.poison, s.kernels.map fun k => (k.job, k.late))

/-- Both, which most of the boundary's work keeps. -/
def State.boundaryView (s : State) : FrameView × Sparse Byte × List Nat × List (Nat × List (KernelReq × Nat)) :=
  (s.frameView, s.heldView)

/-- The view when Noon has committed frames, while it runs (10 R479). -/
def FrameView.committed (v : FrameView) : FrameView :=
  { v with frame := { v.frame with committed := if v.noon then Nat.max v.frame.committed (v.frame.counter + 63) else v.frame.committed } }

/-- The view when SHADOW_CTRL has taken its written value (07 R378). -/
def FrameView.shadowed (v : FrameView) : FrameView :=
  { v with shadowNext := none, log2N := (v.shadowNext.getD (v.log2N, v.sampleEn)).1
           sampleEn := (v.shadowNext.getD (v.log2N, v.sampleEn)).2 }

theorem FrameView.shadowed_some {v : FrameView} {n : Nat} {en : Bool} (h : v.shadowNext = some (n, en)) :
    v.shadowed = { v with shadowNext := none, log2N := n, sampleEn := en } := by
  unfold FrameView.shadowed
  rw [h]
  rfl

theorem FrameView.shadowed_none {v : FrameView} (h : v.shadowNext = none) : v.shadowed = v := by
  unfold FrameView.shadowed
  obtain ⟨frame, cqs, sessions, counters, cfg, noon, next, log2N, sampleEn⟩ := v
  obtain rfl : next = none := h
  rfl

/-- The view with the committed frames moved where the counter is about to return to 0 (00 R15). -/
def FrameView.turned (v : FrameView) : FrameView :=
  { v with frame := { v.frame with
      committed := if v.frame.counter + 1 < 2 ^ 64 then v.frame.committed else shiftFrame (-(2 ^ 64)) v.frame.committed } }

/-- The view with another frame. -/
def FrameView.withFrame (f : FrameSt) (v : FrameView) : FrameView := { v with frame := f }
/-- The view with other completion queues. -/
def FrameView.withCqs (q : Sparse Cq) (v : FrameView) : FrameView := { v with cqs := q }

/-- No work of the light path reaches it. -/
theorem State.boundaryView_of_offPath {s t : State} (h : t.offPath = s.offPath) : t.boundaryView = s.boundaryView := by
  have hview := congrArg State.boundaryView h
  exact hview

section
variable (s : State)

@[simp] theorem State.modEngine_boundaryView (e : Nat) (f : Engine → Engine) : (s.modEngine e f).boundaryView = s.boundaryView := rfl
@[simp] theorem State.modSector_boundaryView (k : Nat) (f : Sector → Sector) : (s.modSector k f).boundaryView = s.boundaryView := rfl
@[simp] theorem State.modComb_boundaryView (c : Nat) (f : Comb → Comb) : (s.modComb c f).boundaryView = s.boundaryView := rfl
@[simp] theorem State.modCluster_boundaryView (c : Nat) (f : Cluster → Cluster) : (s.modCluster c f).boundaryView = s.boundaryView := rfl

@[simp] theorem State.send_boundaryView (o : Out) : (s.send o).boundaryView = s.boundaryView := by
  rw [s.send_eq]
  rfl

@[simp] theorem State.logError_boundaryView (code cls kind unit aux detail : Nat) :
    (s.logError code cls kind unit aux detail).boundaryView = s.boundaryView := by
  rw [s.logError_eq]
  rfl

/-! ## Twilight at a boundary -/

@[simp] theorem State.restartRelock_boundaryView (e : Nat) (recov : Bool) :
    (s.restartRelock e recov).boundaryView = s.boundaryView := rfl

@[simp] theorem State.relockRestarts_boundaryView : s.relockRestarts.boundaryView = s.boundaryView := by
  refine forEach_same State.boundaryView _ _ (fun t e _ => ?_) s
  dsimp only
  split <;> rfl

@[simp] theorem State.lossOn_boundaryView (e : Nat) (mod : Bool) : (s.lossOn e mod).boundaryView = s.boundaryView := by
  have hmark : (if mod then s.modEngine e fun x => { x with toneRelock := true } else s).boundaryView = s.boundaryView :=
    ite_both (P := fun (t : State) => t.boundaryView = s.boundaryView) (s.modEngine_boundaryView ..) rfl
  have hrelock (b : Bool) : (if b then (if mod then s.modEngine e fun x => { x with toneRelock := true } else s).restartRelock e false
      else if mod then s.modEngine e fun x => { x with toneRelock := true } else s).boundaryView = s.boundaryView :=
    ite_both (P := fun (t : State) => t.boundaryView = s.boundaryView) ((State.restartRelock_boundaryView ..).trans hmark) hmark
  unfold State.lossOn
  dsimp only
  cases (s.engine e).lock
  case search => exact hrelock _
  case verify => exact hrelock _
  case unlocked => exact hmark
  all_goals rfl

@[simp] theorem State.lockErrors_boundaryView : s.lockErrors.boundaryView = s.boundaryView := by
  unfold State.lockErrors
  dsimp only
  refine (forEach_same State.boundaryView _ _ (fun t d _ => ?_) _).trans
    ((forEach_same State.boundaryView _ _ (fun t d _ => t.lossOn_boundaryView ..) _).trans rfl)
  exact forEach_same State.boundaryView _ _ (fun u i _ => u.lossOn_boundaryView ..) t

@[simp] theorem State.heaterOffsets_boundaryView : s.heaterOffsets.boundaryView = s.boundaryView :=
  forEach_same State.boundaryView _ _ (fun t _ _ => t.modEngine_boundaryView ..) s

@[simp] theorem State.rateCounts_boundaryView : s.rateCounts.boundaryView = s.boundaryView :=
  forEach_same State.boundaryView _ _ (fun t _ _ => t.modSector_boundaryView ..) s

@[simp] theorem State.beginExcursion_boundaryView (k : Nat) (engines : List Nat) (headroom : Bool) :
    (s.beginExcursion k engines headroom).boundaryView = s.boundaryView := by
  unfold State.beginExcursion
  dsimp only
  rw [forEach_same State.boundaryView _ _ (fun t _ _ => t.modEngine_boundaryView ..), State.modSector_boundaryView]
  split
  · rfl
  · exact State.logError_boundaryView ..

@[simp] theorem State.headroom_boundaryView : s.headroom.boundaryView = s.boundaryView := by
  refine forEach_same State.boundaryView _ _ (fun t k _ => ?_) s
  dsimp only
  split
  · rfl
  · exact t.beginExcursion_boundaryView ..

@[simp] theorem State.stageFit_boundaryView (x : Fit) : (s.stageFit x).boundaryView = s.boundaryView := by
  unfold State.stageFit
  dsimp only
  split <;> rfl

@[simp] theorem State.combSample_boundaryView (c : CombSample) : (s.combSample c).boundaryView = s.boundaryView := by
  unfold State.combSample
  extract_lets old sp step bias raised atMax f src u
  have hu : u.boundaryView = s.boundaryView := by
    change (if c.comb < 8 then s.modComb c.comb f else if c.comb < 12 then _ else s).boundaryView = _
    split
    · rfl
    · split <;> rfl
  split
  · exact (u.logError_boundaryView ..).trans hu
  · exact hu

@[simp] theorem State.combTrack_boundaryView (c : Nat) : (s.combTrack c).boundaryView = s.boundaryView := by
  unfold State.combTrack
  dsimp only
  split <;> rfl

@[simp] theorem State.slotPatterns_boundaryView : s.slotPatterns.boundaryView = s.boundaryView := by
  unfold State.slotPatterns
  split <;> rfl

@[simp] theorem State.takeMeans_boundaryView : s.takeMeans.boundaryView = s.boundaryView := by
  unfold State.takeMeans
  split
  · rfl
  · exact forEach_same State.boundaryView _ _ (fun t _ _ => t.modSector_boundaryView ..) s

theorem State.twilightBoundary_boundaryView (o : BoundaryObs) (lit : Bool) : (s.twilightBoundary o lit).boundaryView = s.boundaryView := by
  unfold State.twilightBoundary
  extract_lets relocks locks offsets fits samples tracks works patterns n₀ done src sweeps src'
  have hrelocks : relocks.boundaryView = s.boundaryView := s.relockRestarts_boundaryView
  have hlocks : locks.boundaryView = s.boundaryView :=
    ite_both (P := fun (t : State) => t.boundaryView = s.boundaryView) (relocks.lockErrors_boundaryView.trans hrelocks) hrelocks
  have hoffsets : offsets.boundaryView = s.boundaryView := by
    refine Eq.trans ?_ hlocks
    simp only [offsets, State.headroom_boundaryView, State.rateCounts_boundaryView, State.heaterOffsets_boundaryView]
  have hfits : fits.boundaryView = s.boundaryView :=
    (forEach_same State.boundaryView o.fits _ (fun t x _ => t.stageFit_boundaryView x) offsets).trans hoffsets
  have hsamples : samples.boundaryView = s.boundaryView :=
    (forEach_same State.boundaryView o.combs _ (fun t c _ => t.combSample_boundaryView c) fits).trans hfits
  have htracks : tracks.boundaryView = s.boundaryView :=
    (forEach_same State.boundaryView _ _ (fun t c _ => t.combTrack_boundaryView c) samples).trans hsamples
  have hworks : works.boundaryView = s.boundaryView :=
    ite_both (P := fun (t : State) => t.boundaryView = s.boundaryView) hlocks
      ((forEach_same State.boundaryView _ _ (fun t _ _ => t.modComb_boundaryView ..) tracks).trans htracks)
  have hpatterns : patterns.boundaryView = s.boundaryView := (State.slotPatterns_boundaryView works.ageCalib).trans hworks
  have hsweeps : sweeps.boundaryView = s.boundaryView :=
    ite_both (P := fun (t : State) => t.boundaryView = s.boundaryView) hpatterns hpatterns
  exact ite_both (P := fun (t : State) => t.boundaryView = s.boundaryView) hsweeps hsweeps

/-! ## Noon and Dusk at a boundary -/

@[simp] theorem State.enter_boundaryView (j : Job) (lo hi : Nat) : (s.enter j lo hi).boundaryView = s.boundaryView := by
  refine forEach_same State.boundaryView _ _ (fun t f _ => ?_) s
  split
  · exact forEach_same State.boundaryView _ _ (fun u x _ => u.modCluster_boundaryView ..) t
  · rfl

theorem State.displaced_boundaryView : s.displace.failStranded.boundaryView = s.boundaryView :=
  State.boundaryView_of_offPath ((State.failStranded_offPath _).trans s.displace_offPath)

@[simp] theorem State.markHoldover_boundaryView : s.markHoldover.boundaryView = s.boundaryView := by
  unfold State.markHoldover
  dsimp only
  split <;> rfl

@[simp] theorem State.countUnreachable_boundaryView : s.countUnreachable.boundaryView = s.boundaryView := by
  unfold State.countUnreachable
  split <;> rfl

@[simp] theorem State.replanFloors_boundaryView : s.replanFloors.boundaryView = s.boundaryView := by
  unfold State.replanFloors
  dsimp only
  split_ifs <;> rfl

@[simp] theorem State.powerBoundary_boundaryView : s.powerBoundary.boundaryView = s.boundaryView := by
  unfold State.powerBoundary
  extract_lets f floors src cap sectors
  have hsectors : sectors.boundaryView = s.boundaryView :=
    (forEach_same State.boundaryView _ _ (fun t _ _ => t.modSector_boundaryView ..) cap).trans s.replanFloors_boundaryView
  exact ite_both (P := fun (t : State) => t.boundaryView = s.boundaryView)
    ((forEach_same State.boundaryView _ _ (fun t _ _ => t.modComb_boundaryView ..) sectors).trans hsectors) hsectors

theorem State.commitFrames_boundaryView (h : s.runs .noon = true) :
    s.commitFrames.boundaryView = s.boundaryView.map FrameView.committed id := by
  have hnoon : s.frameView.committed = { s.frameView with
      frame := { s.frame with committed := Nat.max s.frame.committed (s.frame.counter + 63) } } :=
    congrArg (fun c => FrameView.withFrame { s.frame with committed := c } s.frameView) (if_pos h)
  unfold State.commitFrames
  extract_lets n t src
  have ht : t.boundaryView = s.boundaryView := by
    refine forEach_same State.boundaryView s.jobs _ (fun u j _ => ?_) s
    split
    · exact u.enter_boundaryView ..
    · rfl
  obtain ⟨hframe, hheld⟩ := Prod.mk.inj ht
  refine Prod.ext (Eq.trans ?_ hnoon.symm) hheld
  have hsrc : src = s.frame := congrArg FrameView.frame hframe
  rw [hsrc]
  exact congrArg (FrameView.withFrame { s.frame with committed := n }) hframe

theorem State.commit_boundaryView : s.commit.boundaryView = s.boundaryView.map FrameView.committed id := by
  unfold State.commit
  cases h : s.runs .noon with
  | true => exact s.commitFrames_boundaryView h
  | false =>
    have hstays : s.frameView.committed = s.frameView :=
      congrArg (fun c => FrameView.withFrame { s.frame with committed := c } s.frameView) (if_neg (by change ¬s.runs .noon = true; simp [h]))
    exact Prod.ext hstays.symm rfl

/-! ## The shadow unit's registers -/

theorem State.shadowBoundary_boundaryView : s.shadowBoundary.boundaryView = s.boundaryView.map FrameView.shadowed id := by
  unfold State.shadowBoundary
  dsimp only
  split
  · next h =>
    have htaken := FrameView.shadowed_some (v := s.frameView) h
    exact Prod.ext htaken.symm rfl
  · next h =>
    have hkept := FrameView.shadowed_none (v := s.frameView) h
    exact Prod.ext hkept.symm rfl

/-! ## The frame that begins -/

@[simp] theorem State.takeDecay_boundaryView (l : List Decay) : (s.takeDecay l).boundaryView = s.boundaryView := by
  refine forEach_same State.boundaryView l _ (fun t d _ => ?_) s
  cases d
  · dsimp only
    split <;> rfl
  · dsimp only
    split <;> rfl

/-- Waits follow the counter's return to 0; the frame and the requests that wait stay. -/
theorem State.moveWaits_boundaryView (d : Int) : (s.moveWaits d).boundaryView = s.boundaryView := by
  refine Prod.ext rfl (Prod.ext rfl (Prod.ext rfl ?_))
  change ((s.kernels.map fun k => { k with start := shiftFrame d k.start }).map fun k => (k.job, k.late)) = _
  rw [List.map_map]
  rfl

/-- The committed frames keep their distance when the counter returns to 0 (00 R15). -/
theorem State.turnCounter_boundaryView : s.turnCounter.boundaryView = s.boundaryView.map FrameView.turned id := by
  have hturned : s.frameView.turned = FrameView.withFrame { s.frame with
    committed := if s.frame.counter + 1 < 2 ^ 64 then s.frame.committed else shiftFrame (-(2 ^ 64)) s.frame.committed } s.frameView := rfl
  refine Eq.trans ?_ (congrArg (fun v => (v, s.heldView)) hturned.symm)
  unfold State.turnCounter
  split
  · rfl
  · have hheld := congrArg Prod.snd (s.moveWaits_boundaryView (-(2 ^ 64)))
    exact Prod.ext rfl hheld

/-- The end of a holdover moves neither the counter nor the horizon. -/
theorem State.lockFrames_boundaryView : ∃ f : FrameSt, s.lockFrames.boundaryView = s.boundaryView.map (FrameView.withFrame f) id ∧
    f.counter = s.frame.counter ∧ f.symbol = s.frame.symbol ∧ f.markerSeen = s.frame.markerSeen ∧ f.committed = s.frame.committed := by
  unfold State.lockFrames
  extract_lets long ms src t
  refine ⟨t.frame, ?_, rfl, rfl, rfl, rfl⟩
  split
  · exact t.logError_boundaryView ..
  · rfl

/-- The next frame begins: the counter moves on by one and the symbol starts at 0 (00 R15; 10 R474). -/
theorem State.nextFrame_boundaryView : ∃ f : FrameSt, s.nextFrame.boundaryView = s.boundaryView.map (FrameView.withFrame f) id ∧
    f.counter = (s.frame.counter + 1) % 2 ^ 64 ∧ f.symbol = 0 ∧ f.markerSeen = false ∧ f.committed = s.frame.committed := by
  unfold State.nextFrame
  extract_lets f held n f' t
  split
  · obtain ⟨g, hview, hcounter, hsymbol, hseen, hcommitted⟩ := t.lockFrames_boundaryView
    exact ⟨g, hview, hcounter, hsymbol, hseen, hcommitted⟩
  · exact ⟨f', rfl, rfl, rfl, rfl, rfl⟩

end

/-! ## The completion queues -/

/-- What a boundary does for one completion queue (11 R520). -/
def State.notifyQueue (s : State) (c : Nat) : State :=
  let x := s.cq c
  if !x.wrote then s else
  let s := s.modCq c fun x => { x with wrote := false }
  if !(x.enable && x.notify) then s else
  match s.openSessions.find? fun n => (s.session n).any fun ss => ss.cqs.contains c with
  | some n => s.send (.event n 1 (BitVec.ofNat 32 (c + 256 * x.t)) s.frame.counter)
  | none => s

theorem State.notifyQueues_eq (s : State) : s.notifyQueues = forEach (List.range 16) State.notifyQueue s := by
  unfold State.notifyQueues State.notifyQueue
  rfl

theorem State.cqs_of_boundaryView {s t : State} (h : t.boundaryView = s.boundaryView) : t.cqs = s.cqs :=
  congrArg (fun v => FrameView.cqs v.1) h

/-- A queue in which nothing was written stays; another one begins the frame without records. -/
theorem State.notifyQueue_boundaryView (s : State) (c : Nat) : (s.cq c).wrote = false ∧ s.notifyQueue c = s ∨
    (s.notifyQueue c).boundaryView = (s.modCq c fun x => { x with wrote := false }).boundaryView := by
  unfold State.notifyQueue
  dsimp only
  split
  · next h => exact .inl ⟨by simpa using h, rfl⟩
  · refine .inr ?_
    split
    · rfl
    · split
      · exact State.send_boundaryView ..
      · rfl

theorem State.wrote_notifyQueue (s : State) (c x : Nat) : ((s.notifyQueue c).cq x).wrote = if c = x then false else (s.cq x).wrote := by
  obtain ⟨hwrote, hsame⟩ | hview := s.notifyQueue_boundaryView c
  · rw [hsame]
    split
    · next h => rw [← h, hwrote]
    · rfl
  · have hcq : (s.notifyQueue c).cq x = (s.modCq c fun x => { x with wrote := false }).cq x := by
      unfold State.cq
      rw [State.cqs_of_boundaryView hview]
    rw [hcq, State.cq_modCq]
    split
    · rfl
    · rfl

theorem State.modCq_boundaryView (s : State) (c : Nat) (f : Cq → Cq) :
    (s.modCq c f).boundaryView = s.boundaryView.map (FrameView.withCqs (s.modCq c f).cqs) id := rfl

/-- The queues change at most. -/
theorem State.notifyQueue_keeps (s : State) (c : Nat) :
    ∃ q : Sparse Cq, (s.notifyQueue c).boundaryView = s.boundaryView.map (FrameView.withCqs q) id := by
  obtain ⟨-, hsame⟩ | hturn := s.notifyQueue_boundaryView c
  · exact ⟨s.cqs, by rw [hsame]; rfl⟩
  · exact ⟨_, hturn.trans (s.modCq_boundaryView c _)⟩

theorem State.notifyQueues_keeps (s : State) :
    ∃ q : Sparse Cq, s.notifyQueues.boundaryView = s.boundaryView.map (FrameView.withCqs q) id := by
  rw [s.notifyQueues_eq]
  refine forEach_keeps (fun t => ∃ q : Sparse Cq, t.boundaryView = s.boundaryView.map (FrameView.withCqs q) id) _ _
    (fun t c _ ⟨q, ht⟩ => ?_) s ⟨s.cqs, rfl⟩
  obtain ⟨r, hr⟩ := t.notifyQueue_keeps c
  rw [ht] at hr
  exact ⟨r, hr⟩

/-- A boundary begins with no record written in any completion queue (11 R520). -/
theorem State.wrote_notifyQueues (s : State) {c : Nat} (hc : c < 16) : (s.notifyQueues.cq c).wrote = false := by
  rw [s.notifyQueues_eq]
  refine forEach_reaches (fun _ => True) (fun t => (t.cq c).wrote = false) _ _ c (List.mem_range.mpr hc) (fun _ _ _ => trivial)
    (fun t _ => ?_) (fun t d ht => ?_) s trivial
  · rw [State.wrote_notifyQueue, if_pos rfl]
  · rw [State.wrote_notifyQueue, ht, ite_self]

end Sys2Proof.Machine
end

section
/-! PROOFS. Requests of kernels that waited for the frame (07 R369), and the rest of a boundary (10 R474, R479; 13 R639 to R641), with the
statement `BoundariesBeginTheNextFrame`. -/

namespace Sys2Proof.Machine

/-! ## A request goes out -/

/-- From `s` to `t` the view of the frame is the same, and no kernel has come but those of one command. -/
structure State.Asks (job : Nat) (s t : State) : Prop where
  view : t.frameView = s.frameView
  kernels : ∀ k ∈ t.kernels, k.job = job ∨ k ∈ s.kernels

theorem State.Asks.refl (job : Nat) (s : State) : s.Asks job s := ⟨rfl, fun _ hk => .inr hk⟩

theorem State.Asks.trans {job : Nat} {s t u : State} (h : s.Asks job t) (g : t.Asks job u) : s.Asks job u where
  view := g.view.trans h.view
  kernels k hk := (g.kernels k hk).elim .inl (h.kernels k)

/-- What leaves the kernels as they are. -/
theorem State.Asks.of_same {s t : State} (job : Nat) (hview : t.frameView = s.frameView) (hkernels : t.kernels = s.kernels) :
    s.Asks job t :=
  ⟨hview, fun _ hk => .inr (hkernels ▸ hk)⟩

theorem State.Asks.modKernel (s : State) (job : Nat) (f : Kernel → Kernel) (hf : ∀ k, (f k).job = k.job) :
    s.Asks job (s.modKernel job f) where
  view := rfl
  kernels k hk := by
    obtain ⟨x, hx, rfl⟩ := List.mem_map.mp hk
    dsimp only
    split
    · next h => exact .inl ((hf x).trans (by simpa using h))
    · exact .inr hx

theorem State.Asks.logError (job : Nat) (s : State) (code cls kind unit aux detail : Nat) :
    s.Asks job (s.logError code cls kind unit aux detail) :=
  .of_same job (congrArg Prod.fst (s.logError_boundaryView ..)) (s.logError_kernels ..)

theorem State.Asks.send (job : Nat) (s : State) (o : Out) : s.Asks job (s.send o) :=
  .of_same job (congrArg Prod.fst (s.send_boundaryView o)) (by rw [s.send_eq])

theorem State.Asks.request (job : Nat) (s : State) (r : HaReq) : s.Asks job (s.request r) := by
  unfold State.request
  extract_lets wait u
  have hu : s.Asks job u := by
    refine ite_both (P := fun (t : State) => s.Asks job t) (.refl job s) ?_
    unfold State.sendRequest
    extract_lets src v
    have hv : s.Asks job v := .of_same job rfl rfl
    exact hv.trans (.send ..)
  exact hu.trans (.of_same job rfl rfl)

theorem State.Asks.write (job : Nat) (s : State) (a : Nat) (bs : List Byte) : s.Asks job (s.write a bs) := by
  unfold State.write
  split
  · exact .refl job s
  · exact .of_same job rfl rfl

theorem State.Asks.finishStores (job : Nat) (s : State) (k : Kernel) : s.Asks job (s.finishStores k) := by
  refine forEach_keeps (fun t => s.Asks job t) k.late _ (fun t x _ ht => ht.trans ?_) s (.refl job s)
  obtain ⟨r, cost⟩ := x
  cases r with
  | store thread a bs =>
    dsimp only
    split
    · exact .refl job t
    · exact .write ..
  | hostStore thread a bs =>
    dsimp only
    split
    · exact .request ..
    · exact .refl job t
  | granule | image | hostRead => exact .refl job t

theorem State.Asks.endKernel (job : Nat) (s : State) (k : Kernel) (st : Status) : s.Asks job (s.endKernel k st) :=
  (State.Asks.finishStores job s k).trans ⟨rfl, fun _ hx => .inr (List.mem_of_mem_filter hx)⟩

theorem State.Asks.stopKernel (job id : Nat) (s : State) (st : Status) : s.Asks job (s.stopKernel id st) := by
  unfold State.stopKernel
  split
  · exact .endKernel ..
  · exact .refl job s

theorem State.Asks.logXlat (job : Nat) (s : State) (session a : Nat) : s.Asks job (s.logXlat session a) := by
  unfold State.logXlat
  split
  · next e _ =>
    have hbad : s.Asks job (s.foundBad e) := .of_same job rfl rfl
    exact ite_both (P := fun (t : State) => s.Asks job t) (hbad.trans (.logError ..)) (.logError ..)
  · exact .refl job s

theorem State.Asks.perform (job : Nat) (s : State) (k : Kernel) (r : KernelReq) : s.Asks job (s.perform k r) := by
  cases r with
  | granule | image => exact .of_same job rfl rfl
  | hostRead t n lane sub a size =>
    exact ite_both (P := fun (t : State) => s.Asks job t) (.request ..) ((State.Asks.logXlat ..).trans (.stopKernel ..))
  | store t a bs => exact ite_both (P := fun (t : State) => s.Asks job t) (.stopKernel ..) (.write ..)
  | hostStore t a bs =>
    exact ite_both (P := fun (t : State) => s.Asks job t) (.request ..) ((State.Asks.logXlat ..).trans (.stopKernel ..))

/-- The requests of a command's kernel that waited go out as far as its rate reaches (07 R369). -/
theorem State.Asks.askLate (job : Nat) (l : List (KernelReq × Nat)) (s : State) : s.Asks job (State.askLate job l s) := by
  induction l generalizing s with
  | nil => exact .refl job s
  | cons x rest ih =>
    unfold State.askLate
    split
    · exact .refl job s
    · next k hk =>
      have hjob : k.job = job := by simpa using List.find?_some hk
      refine ite_both (P := fun (t : State) => s.Asks job t) ?_ (.refl job s)
      have hlate : s.Asks job (s.modKernel job fun k => { k with late := rest }) := .modKernel _ _ _ fun _ => rfl
      have hcount (t : State) : t.Asks job (t.count k x.2) := by
        unfold State.count
        rw [hjob]
        exact .modKernel _ _ _ fun _ => rfl
      exact ((hlate.trans (hcount _)).trans (.perform ..)).trans (ih _)

/-! ## The traffic of a frame starts from zero -/

/-- Every kernel with its traffic of the frame at zero. -/
def State.emptied (s : State) : State := { s with kernels := s.kernels.map fun (k : Kernel) => { k with inFrame := 0 } }

theorem State.refillKernels_eq (s : State) :
    s.refillKernels = forEach s.kernels (fun s k => State.askLate k.job k.late s) s.emptied := rfl

theorem State.refillKernels_view (s : State) : s.refillKernels.frameView = s.frameView := by
  rw [s.refillKernels_eq]
  exact forEach_same State.frameView s.kernels _ (fun t k _ => (State.Asks.askLate k.job k.late t).view) s.emptied

/-- Traffic in the frame is only that of kernels whose requests waited (07 R369). -/
theorem State.refillKernels_traffic (s : State) : ∀ k ∈ s.refillKernels.kernels,
    k.inFrame = 0 ∨ ∃ x ∈ s.kernels.map fun k => (k.job, k.late), x.1 = k.job ∧ x.2 ≠ [] := by
  rw [s.refillKernels_eq]
  refine forEach_keeps (fun t => ∀ k ∈ t.kernels, k.inFrame = 0 ∨ ∃ x ∈ s.kernels.map fun k => (k.job, k.late), x.1 = k.job ∧ x.2 ≠ [])
    s.kernels _ (fun t y hy ht k hk => ?_) s.emptied (fun k hk => ?_)
  · by_cases hlate : y.late = []
    · rw [hlate] at hk
      exact ht k hk
    · rcases (State.Asks.askLate y.job y.late t).kernels k hk with hjob | hkept
      · exact .inr ⟨_, List.mem_map.mpr ⟨y, hy, rfl⟩, hjob.symm, hlate⟩
      · exact ht k hkept
  · obtain ⟨x, -, rfl⟩ := List.mem_map.mp hk
    exact .inl rfl

/-- Without a request that waits, nothing goes out. -/
theorem State.refillKernels_idle (s : State) (h : ∀ k ∈ s.kernels, k.late = []) : s.refillKernels = s.emptied := by
  rw [s.refillKernels_eq]
  refine forEach_keeps (fun t => t = s.emptied) s.kernels _ (fun t k hk ht => ?_) s.emptied rfl
  rw [h k hk]
  exact ht

/-! ## The end of a boundary -/

/-- What a boundary does last (11 R538; 12 R574, R613; 13 R639). -/
def State.closeFrame (s : State) : State := s.refillSlots.cfgBoundary.refreshShown.takeSnapshots.settleEnded

section
variable (s : State)

theorem State.refillSlots_boundaryView : s.refillSlots.boundaryView = s.boundaryView := rfl
theorem State.refreshShown_boundaryView : s.refreshShown.boundaryView = s.boundaryView := rfl
theorem State.takeSnapshots_boundaryView : s.takeSnapshots.boundaryView = s.boundaryView := rfl
theorem State.settleEnded_boundaryView : s.settleEnded.boundaryView = s.boundaryView := rfl
theorem State.refillSlots_kernels : s.refillSlots.kernels = s.kernels := rfl
theorem State.refreshShown_kernels : s.refreshShown.kernels = s.kernels := rfl
theorem State.takeSnapshots_kernels : s.takeSnapshots.kernels = s.kernels := rfl
theorem State.settleEnded_kernels : s.settleEnded.kernels = s.kernels := rfl

/-- What the configuration check makes of its registers at a boundary (13 R639 to R641). -/
def CfgSt.atBoundary (c : CfgSt) (crc : Word32) : CfgSt :=
  let c := { c with crc := crc }
  let c := if c.commitDue then { c with ref := crc, armed := true, suspended := false, commitDue := false } else c
  let c := if c.suspendDue then { c with suspended := true, suspendDue := false } else c
  let bad := c.armed && !c.suspended && crc != c.ref
  let c := if bad then { c with mismatch := true, mismatches := Nat.min 0xFFFF (c.mismatches + 1) } else c
  { c with lastBad := bad }

/-- CFG_COMMIT takes the boundary's CRC as the reference, which it then matches (13 R639, R640). -/
theorem CfgSt.atBoundary_commits (c : CfgSt) (crc : Word32) (hdue : c.commitDue = true) :
    (c.atBoundary crc).ref = (c.atBoundary crc).crc ∧ (c.atBoundary crc).armed = true ∧ (c.atBoundary crc).commitDue = false ∧
    (c.atBoundary crc).mismatch = c.mismatch := by
  unfold CfgSt.atBoundary
  rw [hdue]
  cases c.suspendDue <;> simp

/-- The configuration check changes its registers, and writes an entry of the error log or not. -/
theorem State.cfgBoundary_eq (h : s.runs .noon = true) : ∃ (first : Bool) (detail : Nat), s.cfgBoundary =
    if first then ({ s with cfg := s.cfg.atBoundary (BitVec.ofNat 32 s.cfgCrc) } : State).logError 0x0601 7 0 0 0 detail
    else { s with cfg := s.cfg.atBoundary (BitVec.ofNat 32 s.cfgCrc) } := by
  unfold State.cfgBoundary
  rw [h]
  exact ⟨_, _, rfl⟩

/-- The view when Noon has checked the configuration, while it runs. -/
def FrameView.checked (crc : Word32) (v : FrameView) : FrameView := { v with cfg := if v.noon then v.cfg.atBoundary crc else v.cfg }

theorem FrameView.checked_running {v : FrameView} (h : v.noon = true) (crc : Word32) :
    v.checked crc = { v with cfg := v.cfg.atBoundary crc } := by
  unfold FrameView.checked
  rw [if_pos h]

theorem FrameView.checked_stopped {v : FrameView} (h : v.noon = false) (crc : Word32) : v.checked crc = v := by
  unfold FrameView.checked
  rw [if_neg (by simp [h])]

theorem State.cfgBoundary_boundaryView : s.cfgBoundary.boundaryView =
    s.boundaryView.map (FrameView.checked (BitVec.ofNat 32 s.cfgCrc)) id ∧ s.cfgBoundary.kernels = s.kernels := by
  cases hnoon : s.runs .noon with
  | false =>
    have hsame : s.cfgBoundary = s := by
      unfold State.cfgBoundary
      rw [hnoon]
      rfl
    have hview := FrameView.checked_stopped (v := s.frameView) hnoon (BitVec.ofNat 32 s.cfgCrc)
    rw [hsame]
    exact ⟨Prod.ext hview.symm rfl, rfl⟩
  | true =>
    obtain ⟨first, detail, heq⟩ := s.cfgBoundary_eq hnoon
    have hview := FrameView.checked_running (v := s.frameView) hnoon (BitVec.ofNat 32 s.cfgCrc)
    rw [heq]
    split
    · exact ⟨(State.logError_boundaryView ..).trans (Prod.ext hview.symm rfl), State.logError_kernels ..⟩
    · exact ⟨Prod.ext hview.symm rfl, rfl⟩

/-- The end of a boundary checks the configuration, and leaves the rest of the view and the kernels. -/
theorem State.closeFrame_boundaryView : ∃ crc : Word32,
    s.closeFrame.boundaryView = s.boundaryView.map (FrameView.checked crc) id ∧ s.closeFrame.kernels = s.kernels := by
  obtain ⟨hview, hkernels⟩ := s.refillSlots.cfgBoundary_boundaryView
  unfold State.closeFrame
  refine ⟨BitVec.ofNat 32 s.refillSlots.cfgCrc, ?_, ?_⟩
  · rw [State.settleEnded_boundaryView, State.takeSnapshots_boundaryView, State.refreshShown_boundaryView, hview,
      State.refillSlots_boundaryView]
  · rw [State.settleEnded_kernels, State.takeSnapshots_kernels, State.refreshShown_kernels, hkernels, State.refillSlots_kernels]

end

/-! ## FRAME_BOUNDARY -/

/-- One more frame of powered time (06 R334). -/
def State.aged (s : State) : State := { s with cal := { s.cal with sinceRecord := s.cal.sinceRecord + 1 } }

/-- The frame that begins, before the work of the processors. -/
def State.beginFrame (s : State) (o : BoundaryObs) : State := (s.takeDecay o.decay).notifyQueues.turnCounter.nextFrame.aged

/-- The work of the sequencers and the processors at the boundary. -/
def State.frameWork (s : State) (o : BoundaryObs) : State :=
  let s := s.clearQueues.commit.markHoldover.startReruns.parkIdle.shadowBoundary
  ((s.takeMeans.twilightBoundary o (s.power.state == .run)).displace.failStranded).countUnreachable.powerBoundary

theorem execFrameBoundary_begins {s : State} (h : s.power.refclkLost = false) (o : BoundaryObs) :
    exec (.frameBoundary o) s = .next ((s.beginFrame o).frameWork o).refillKernels.closeFrame := by
  change execFrameBoundary o s = _
  unfold execFrameBoundary State.closeFrame State.frameWork State.beginFrame State.aged ok
  rw [if_neg (by simp [h])]

theorem State.aged_boundaryView (s : State) : s.aged.boundaryView = s.boundaryView := rfl

theorem State.beginFrame_boundaryView (s : State) (o : BoundaryObs) : ∃ (f : FrameSt) (q : Sparse Cq),
    (s.beginFrame o).boundaryView = s.boundaryView.map (fun v => (v.withCqs q).withFrame f) id ∧
    f.counter = (s.frame.counter + 1) % 2 ^ 64 ∧ f.symbol = 0 ∧ f.markerSeen = false ∧
    f.committed = (if s.frame.counter + 1 < 2 ^ 64 then s.frame.committed else shiftFrame (-(2 ^ 64)) s.frame.committed) ∧
    ∀ c < 16, (q.get {} c).wrote = false := by
  unfold State.beginFrame
  have hwrote (c : Nat) (hc : c < 16) := (s.takeDecay o.decay).wrote_notifyQueues hc
  obtain ⟨q, hqueues⟩ := (s.takeDecay o.decay).notifyQueues_keeps
  rw [s.takeDecay_boundaryView] at hqueues
  generalize (s.takeDecay o.decay).notifyQueues = t at *
  obtain ⟨f, hnext, hcounter, hsymbol, hseen, hcommitted⟩ := t.turnCounter.nextFrame_boundaryView
  have hturn := t.turnCounter_boundaryView
  have hframe : t.turnCounter.frame = t.frameView.turned.frame := congrArg (fun v => FrameView.frame v.1) hturn
  have hsame : t.frame = s.frame := congrArg (fun v => FrameView.frame v.1) hqueues
  have hcqs : t.cqs = q := congrArg (fun v => FrameView.cqs v.1) hqueues
  rw [hturn, hqueues] at hnext
  rw [hframe] at hcounter hcommitted
  refine ⟨f, q, t.turnCounter.nextFrame.aged_boundaryView.trans hnext, ?_, hsymbol, hseen, ?_, fun c hc => ?_⟩
  · rw [hcounter, ← hsame]
    rfl
  · rw [hcommitted, ← hsame]
    rfl
  · rw [← hcqs]
    exact hwrote c hc

theorem State.frameWork_boundaryView (s : State) (o : BoundaryObs) :
    (s.frameWork o).boundaryView = s.boundaryView.map (fun v => v.committed.shadowed) id := by
  have hbefore (t : State) : t.startReruns.parkIdle.boundaryView = t.boundaryView := rfl
  have hcleared : s.clearQueues.boundaryView = s.boundaryView := rfl
  unfold State.frameWork
  dsimp only
  rw [State.powerBoundary_boundaryView, State.countUnreachable_boundaryView, State.displaced_boundaryView,
    State.twilightBoundary_boundaryView, State.takeMeans_boundaryView, State.shadowBoundary_boundaryView, hbefore,
    State.markHoldover_boundaryView, State.commit_boundaryView, hcleared]
  rfl

/-- The view after a boundary, in terms of the frame `f` and the completion queues `q` that it begins with. -/
def FrameView.next (f : FrameSt) (q : Sparse Cq) (crc : Word32) (v : FrameView) : FrameView :=
  ((v.withCqs q).withFrame f).committed.shadowed.checked crc

section
variable (f : FrameSt) (q : Sparse Cq) (crc : Word32) (v : FrameView)

theorem FrameView.next_frame : (v.next f q crc).frame = { f with
    committed := if v.noon then Nat.max f.committed (f.counter + 63) else f.committed } := rfl
theorem FrameView.next_cfg : (v.next f q crc).cfg = if v.noon then v.cfg.atBoundary crc else v.cfg := rfl
theorem FrameView.next_log2N : (v.next f q crc).log2N = (v.shadowNext.getD (v.log2N, v.sampleEn)).1 := rfl
theorem FrameView.next_sampleEn : (v.next f q crc).sampleEn = (v.shadowNext.getD (v.log2N, v.sampleEn)).2 := rfl

end

/-- FRAME_BOUNDARY as a whole, while REFCLK runs: the view after it, the kernels' traffic, and memory. -/
theorem execFrameBoundary_next {s : State} (h : s.power.refclkLost = false) (o : BoundaryObs) :
    ∃ (t : State) (f : FrameSt) (q : Sparse Cq) (crc : Word32), exec (.frameBoundary o) s = .next t ∧
      t.frameView = s.frameView.next f q crc ∧
      (f.counter = (s.frame.counter + 1) % 2 ^ 64 ∧ f.symbol = 0 ∧ f.markerSeen = false ∧
        f.committed = if s.frame.counter + 1 < 2 ^ 64 then s.frame.committed else shiftFrame (-(2 ^ 64)) s.frame.committed) ∧
      (∀ c < 16, (q.get {} c).wrote = false) ∧
      (∀ k ∈ t.kernels, k.inFrame = 0 ∨ ∃ x ∈ s.kernels.map fun k => (k.job, k.late), x.1 = k.job ∧ x.2 ≠ []) ∧
      ((∀ k ∈ s.kernels, k.late = []) → s.sameMem t) := by
  obtain ⟨f, q, hbegin, hcounter, hsymbol, hseen, hcommitted, hwrote⟩ := s.beginFrame_boundaryView o
  have hwork := (s.beginFrame o).frameWork_boundaryView o
  rw [hbegin] at hwork
  have hexec := execFrameBoundary_begins h o
  generalize (s.beginFrame o).frameWork o = u at *
  obtain ⟨hview, hheld⟩ := Prod.mk.inj hwork
  have hwaits : (u.kernels.map fun k => (k.job, k.late)) = s.kernels.map fun k => (k.job, k.late) := congrArg (fun x => x.2.2) hheld
  obtain ⟨crc, hend, hkernels⟩ := u.refillKernels.closeFrame_boundaryView
  obtain ⟨hendView, hendHeld⟩ := Prod.mk.inj hend
  refine ⟨_, f, q, crc, hexec, ?_, ⟨hcounter, hsymbol, hseen, hcommitted⟩, hwrote, ?_, fun hidle => ?_⟩
  · exact hendView.trans (congrArg (FrameView.checked crc) (u.refillKernels_view.trans hview))
  · rw [hkernels, ← hwaits]
    exact u.refillKernels_traffic
  · have hnone : ∀ k ∈ u.kernels, k.late = [] := by
      intro k hk
      have hmem : (k.job, k.late) ∈ s.kernels.map fun k => (k.job, k.late) := hwaits ▸ List.mem_map.mpr ⟨k, hk, rfl⟩
      obtain ⟨x, hx, hxk⟩ := List.mem_map.mp hmem
      rw [← (Prod.mk.inj hxk).2]
      exact hidle x hx
    have hmem : u.mem = s.mem := congrArg Prod.fst hheld
    have hpoison : u.poison = s.poison := congrArg (fun x => x.2.1) hheld
    have hendMem := congrArg Prod.fst hendHeld
    have hendPoison := congrArg (fun x => x.2.1) hendHeld
    rw [u.refillKernels_idle hnone] at hendMem hendPoison ⊢
    exact ⟨hendMem.trans hmem, hendPoison.trans hpoison⟩

/-- FRAME_BOUNDARY while REFCLK runs. -/
theorem does_frameBoundary (s : State) (o : BoundaryObs) (h : s.power.refclkLost = false) : Does (.frameBoundary o) s fun t =>
    t.frame.counter = (s.frame.counter + 1) % 2 ^ 64 ∧ t.frame.symbol = 0 ∧ t.frame.markerSeen = false ∧
    ((∀ k ∈ s.kernels, k.late = []) → s.sameMem t) ∧
    (∀ n, n = (if s.frame.counter + 1 < 2 ^ 64 then s.frame.committed else shiftFrame (-(2 ^ 64)) s.frame.committed) →
      t.frame.committed = if s.runs .noon then Nat.max n ((s.frame.counter + 1) % 2 ^ 64 + 63) else n) ∧
    (∀ k ∈ t.kernels, k.inFrame = 0 ∨ ∃ x ∈ s.kernels, x.job = k.job ∧ x.late ≠ []) ∧ t.cal.shadowNext = none ∧
    (∀ n b, s.cal.shadowNext = some (n, b) → t.cal.log2N = n ∧ t.cal.sampleEn = b) ∧
    (s.cal.shadowNext = none → t.cal.log2N = s.cal.log2N ∧ t.cal.sampleEn = s.cal.sampleEn) ∧
    (s.runs .noon = true → s.cfg.commitDue = true → t.cfg.ref = t.cfg.crc ∧ t.cfg.armed = true ∧ t.cfg.commitDue = false ∧
      t.cfg.mismatch = s.cfg.mismatch) ∧
    (∀ c < 16, (t.cq c).wrote = false) ∧ t.sessions = s.sessions ∧ t.counters = s.counters := by
  obtain ⟨t, f, q, crc, hexec, hview, ⟨hcounter, hsymbol, hseen, hcommitted⟩, hwrote, htraffic, hmem⟩ := execFrameBoundary_next h o
  have hframe : t.frame = { f with committed := if s.runs .noon then Nat.max f.committed (f.counter + 63) else f.committed } :=
    (congrArg FrameView.frame hview).trans (FrameView.next_frame ..)
  have hlog2N : t.cal.log2N = (s.cal.shadowNext.getD (s.cal.log2N, s.cal.sampleEn)).1 :=
    (congrArg FrameView.log2N hview).trans (FrameView.next_log2N ..)
  have hsampleEn : t.cal.sampleEn = (s.cal.shadowNext.getD (s.cal.log2N, s.cal.sampleEn)).2 :=
    (congrArg FrameView.sampleEn hview).trans (FrameView.next_sampleEn ..)
  have hcfg : t.cfg = if s.runs .noon then s.cfg.atBoundary crc else s.cfg :=
    (congrArg FrameView.cfg hview).trans (FrameView.next_cfg ..)
  have hcqs : t.cqs = q := congrArg FrameView.cqs hview
  have hshadow : t.cal.shadowNext = none := congrArg FrameView.shadowNext hview
  have hsessions : t.sessions = s.sessions := congrArg FrameView.sessions hview
  have hcounters : t.counters = s.counters := congrArg FrameView.counters hview
  refine ⟨t, hexec, ?_, ?_, ?_, hmem, fun n hn => ?_, fun k hk => ?_, hshadow, fun n b hnext => ?_, fun hnext => ?_,
    fun hnoon hdue => ?_, fun c hc => ?_, hsessions, hcounters⟩
  · rw [hframe]
    exact hcounter
  · rw [hframe]
    exact hsymbol
  · rw [hframe]
    exact hseen
  · rw [hframe, hn, ← hcommitted, ← hcounter]
  · rcases htraffic k hk with hzero | ⟨x, hx, hjob, hlate⟩
    · exact .inl hzero
    · obtain ⟨y, hy, rfl⟩ := List.mem_map.mp hx
      exact .inr ⟨y, hy, hjob, hlate⟩
  · rw [hlog2N, hsampleEn, hnext]
    exact ⟨rfl, rfl⟩
  · rw [hlog2N, hsampleEn, hnext]
    exact ⟨rfl, rfl⟩
  · rw [hcfg, if_pos hnoon]
    exact s.cfg.atBoundary_commits crc hdue
  · unfold State.cq
    rw [hcqs]
    exact hwrote c hc

/-- Settles O38: the boundary's work is followed on what the statement looks at; only requests that waited reach memory or a kernel's
traffic. -/
theorem boundariesBeginTheNextFrame : Obligations.BoundariesBeginTheNextFrame := by
  unfold Obligations.BoundariesBeginTheNextFrame
  refine ⟨does_frameBoundary, fun s o h => ?_⟩
  change execFrameBoundary o s = _
  unfold execFrameBoundary
  exact if_pos h

end Sys2Proof.Machine
end

section
/-! PROOFS. The words of vector core instructions (07 R353 to R355): each field of an encoded instruction stands where its format
puts it, and the statement `CoreWordsRoundTrip`. -/

namespace Sys2Proof.Machine

/-! ## The fields of an encoded instruction -/

/-- The OP byte stands in bits [31:24] of the first word in every format (07 R353). -/
theorem encodeCore_op (c : CoreInstr) : (encodeCore c).extractLsb' 24 8 = c.op := by
  obtain ⟨op, fields⟩ := c
  cases fields <;> (ext i hi; simp only [encodeCore, BitVec.getElem_extractLsb', BitVec.getLsbD_append]; grind)

/-- The fields of format V, which are those of the first word of a VX (07 R353). -/
theorem encodeCore_v (op : BitVec 8) (f : FV) :
    (encodeCore ⟨op, .v f⟩).extractLsb' 18 6 = f.vd ∧ (encodeCore ⟨op, .v f⟩).extractLsb' 12 6 = f.va ∧
    (encodeCore ⟨op, .v f⟩).extractLsb' 6 6 = f.vb ∧ (encodeCore ⟨op, .v f⟩).extractLsb' 3 3 = f.p ∧
    (encodeCore ⟨op, .v f⟩).extractLsb' 0 3 = f.t := by
  refine ⟨?_, ?_, ?_, ?_, ?_⟩ <;> (ext i hi; simp only [encodeCore, BitVec.getElem_extractLsb', BitVec.getLsbD_append]; grind)

/-- The second word of format VX: VC, RND, SAT and zeros (07 R353). -/
theorem encodeCore_vx (op : BitVec 8) (f : FV) :
    (encodeCore ⟨op, .v f⟩).extractLsb' 32 6 = f.vc ∧ (encodeCore ⟨op, .v f⟩).extractLsb' 38 2 = f.rnd ∧
    (encodeCore ⟨op, .v f⟩).getLsbD 40 = f.sat ∧ (encodeCore ⟨op, .v f⟩).extractLsb' 41 23 = 0#23 := by
  refine ⟨?_, ?_, ?_, ?_⟩
  · ext i hi; simp only [encodeCore, BitVec.getElem_extractLsb', BitVec.getLsbD_append]; grind
  · ext i hi; simp only [encodeCore, BitVec.getElem_extractLsb', BitVec.getLsbD_append]; grind
  · simp only [encodeCore, BitVec.getLsbD_append]; simp
  · ext i hi; simp only [encodeCore, BitVec.getElem_extractLsb', BitVec.getLsbD_append]; grind

/-- The fields of format S (07 R353). -/
theorem encodeCore_s (op : BitVec 8) (f : FS) :
    (encodeCore ⟨op, .s f⟩).extractLsb' 19 5 = f.sd ∧ (encodeCore ⟨op, .s f⟩).extractLsb' 14 5 = f.sa ∧
    (encodeCore ⟨op, .s f⟩).extractLsb' 9 5 = f.sb ∧ (encodeCore ⟨op, .s f⟩).extractLsb' 0 9 = f.imm := by
  refine ⟨?_, ?_, ?_, ?_⟩ <;> (ext i hi; simp only [encodeCore, BitVec.getElem_extractLsb', BitVec.getLsbD_append]; grind)

/-- Format E has the words of format S. -/
theorem encodeCore_e (op : BitVec 8) (f : FS) : encodeCore ⟨op, .e f⟩ = encodeCore ⟨op, .s f⟩ := rfl

/-- The fields of format SI (07 R353). -/
theorem encodeCore_si (op : BitVec 8) (f : FSI) :
    (encodeCore ⟨op, .si f⟩).extractLsb' 19 5 = f.sd ∧ (encodeCore ⟨op, .si f⟩).extractLsb' 32 32 = f.imm ∧
    (encodeCore ⟨op, .si f⟩).extractLsb' 0 19 = 0#19 := by
  refine ⟨?_, ?_, ?_⟩ <;> (ext i hi; simp only [encodeCore, BitVec.getElem_extractLsb', BitVec.getLsbD_append]; grind)

/-- The fields of the first word of format M (07 R353). -/
theorem encodeCore_m (op : BitVec 8) (f : FM) :
    (encodeCore ⟨op, .m f⟩).extractLsb' 18 6 = f.vd ∧ (encodeCore ⟨op, .m f⟩).extractLsb' 13 5 = f.sa ∧
    (encodeCore ⟨op, .m f⟩).extractLsb' 7 6 = f.vi ∧ (encodeCore ⟨op, .m f⟩).extractLsb' 4 3 = f.p ∧
    (encodeCore ⟨op, .m f⟩).getLsbD 3 = f.sp ∧ (encodeCore ⟨op, .m f⟩).extractLsb' 1 2 = f.w ∧
    (encodeCore ⟨op, .m f⟩).getLsbD 0 = false := by
  refine ⟨?_, ?_, ?_, ?_, ?_, ?_, ?_⟩
  · ext i hi; simp only [encodeCore, BitVec.getElem_extractLsb', BitVec.getLsbD_append]; grind
  · ext i hi; simp only [encodeCore, BitVec.getElem_extractLsb', BitVec.getLsbD_append]; grind
  · ext i hi; simp only [encodeCore, BitVec.getElem_extractLsb', BitVec.getLsbD_append]; grind
  · ext i hi; simp only [encodeCore, BitVec.getElem_extractLsb', BitVec.getLsbD_append]; grind
  · simp only [encodeCore, BitVec.getLsbD_append]; simp
  · ext i hi; simp only [encodeCore, BitVec.getElem_extractLsb', BitVec.getLsbD_append]; grind
  · simp only [encodeCore, BitVec.getLsbD_append]; simp

/-- The second word of format M: OFS24, SB and zeros (07 R353). -/
theorem encodeCore_m2 (op : BitVec 8) (f : FM) :
    (encodeCore ⟨op, .m f⟩).extractLsb' 32 24 = f.ofs ∧ (encodeCore ⟨op, .m f⟩).extractLsb' 56 5 = f.sb ∧
    (encodeCore ⟨op, .m f⟩).extractLsb' 61 3 = 0#3 := by
  refine ⟨?_, ?_, ?_⟩ <;> (ext i hi; simp only [encodeCore, BitVec.getElem_extractLsb', BitVec.getLsbD_append]; grind)

/-- The fields of format B (07 R353). -/
theorem encodeCore_b (op : BitVec 8) (f : FB) :
    (encodeCore ⟨op, .b f⟩).extractLsb' 21 3 = f.p ∧ (encodeCore ⟨op, .b f⟩).extractLsb' 0 21 = f.ofs := by
  refine ⟨?_, ?_⟩ <;> (ext i hi; simp only [encodeCore, BitVec.getElem_extractLsb', BitVec.getLsbD_append]; grind)

/-- The fields of format BC (07 R353). -/
theorem encodeCore_bc (op : BitVec 8) (f : FBC) :
    (encodeCore ⟨op, .bc f⟩).extractLsb' 19 5 = f.sa ∧ (encodeCore ⟨op, .bc f⟩).extractLsb' 14 5 = f.sb ∧
    (encodeCore ⟨op, .bc f⟩).extractLsb' 0 14 = f.ofs := by
  refine ⟨?_, ?_, ?_⟩ <;> (ext i hi; simp only [encodeCore, BitVec.getElem_extractLsb', BitVec.getLsbD_append]; grind)

/-! ## Decoding what was encoded -/

/-- The decoder gives back a well-formed instruction from its words. -/
theorem decodeCore_encodeCore (c : CoreInstr) (h : c.wf = true) : decodeCore (encodeCore c) = some c := by
  have hop := encodeCore_op c
  obtain ⟨op, fields⟩ := c
  unfold CoreInstr.wf at h
  unfold decodeCore
  dsimp only at h hop ⊢
  rw [hop]
  split at h
  case h_1 f hfmt =>
    obtain ⟨hvd, hva, hvb, hp, ht⟩ := encodeCore_v op f
    obtain ⟨vd, va, vb, p, t, x, vc, rnd, sat⟩ := f
    simp only [Bool.and_eq_true, Bool.not_eq_true', beq_iff_eq] at h
    obtain ⟨⟨⟨⟨rfl, rfl⟩, rfl⟩, rfl⟩, htype⟩ := h
    simp only [hfmt, hvd, hva, hvb, hp, ht, htype, if_true]
  case h_2 f hfmt =>
    obtain ⟨hvd, hva, hvb, hp, ht⟩ := encodeCore_v op f
    obtain ⟨hvc, hrnd, hsat, hzero⟩ := encodeCore_vx op f
    obtain ⟨vd, va, vb, p, t, x, vc, rnd, sat⟩ := f
    simp only [Bool.and_eq_true] at h
    obtain ⟨rfl, htype⟩ := h
    simp only [hfmt, hvd, hva, hvb, hp, ht, hvc, hrnd, hsat, hzero, htype, beq_self_eq_true, Bool.and_self, if_true]
  case h_3 f hfmt =>
    obtain ⟨hsd, hsa, hsb, himm⟩ := encodeCore_s op f
    simp only [hfmt, hsd, hsa, hsb, himm]
  case h_4 f hfmt =>
    obtain ⟨hsd, hsa, hsb, himm⟩ := encodeCore_s op f
    simp only [encodeCore_e, hfmt, hsd, hsa, hsb, himm]
  case h_5 f hfmt =>
    obtain ⟨hsd, himm, hzero⟩ := encodeCore_si op f
    simp only [hfmt, hsd, himm, hzero, beq_self_eq_true, if_true]
  case h_6 f hfmt =>
    obtain ⟨hvd, hsa, hvi, hp, hsp, hw, h0⟩ := encodeCore_m op f
    obtain ⟨hofs, hsb, hzero⟩ := encodeCore_m2 op f
    have hw3 : (f.w != 3#2) = true := h
    simp only [hfmt, hvd, hsa, hvi, hp, hsp, hw, h0, hofs, hsb, hzero, hw3, Bool.not_false, beq_self_eq_true, Bool.and_self, if_true]
  case h_7 f hfmt =>
    obtain ⟨hp, hofs⟩ := encodeCore_b op f
    simp only [hfmt, hp, hofs]
  case h_8 f hfmt =>
    obtain ⟨hsa, hsb, hofs⟩ := encodeCore_bc op f
    simp only [hfmt, hsa, hsb, hofs]
  case h_9 => cases h

/-! ## The length of an instruction -/

/-- Bit 31 of the first word is bit 7 of the OP byte, and names the length (07, before R353). -/
theorem coreLen_encodeCore (c : CoreInstr) : coreLen ((encodeCore c).extractLsb' 0 32) = c.len := by
  have hbit : ((encodeCore c).extractLsb' 0 32).getLsbD 31 = c.op.getLsbD 7 := by
    rw [← encodeCore_op c]
    simp
  unfold coreLen CoreInstr.len
  rw [hbit]

/-- The formats of two words have opcodes from 0x80 (07 R353, R355). -/
theorem two_words_of_fmtOf (op : BitVec 8) (h : fmtOf op = some .vx ∨ fmtOf op = some .si ∨ fmtOf op = some .m) :
    op.getLsbD 7 = true := by
  have hge : 128 ≤ op.toNat := by
    unfold fmtOf at h
    dsimp only at h
    split_ifs at h <;> simp_all <;> omega
  have hmsb : op.msb = true := by simp [BitVec.msb_eq_decide, hge]
  simpa [BitVec.msb_eq_getLsbD_last] using hmsb

/-- An instruction of one word leaves the second word zero. -/
theorem encodeCore_second_word (c : CoreInstr) (h : c.wf = true) (hlen : c.len = 4) : (encodeCore c).extractLsb' 32 32 = 0 := by
  obtain ⟨op, fields⟩ := c
  have hone : op.getLsbD 7 = false := by
    unfold CoreInstr.len at hlen
    split at hlen
    · simp at hlen
    · next hn => simpa using hn
  have htwo := two_words_of_fmtOf op
  rw [hone] at htwo
  unfold CoreInstr.wf at h
  dsimp only at h
  split at h
  case h_1 f hfmt =>
    obtain ⟨vd, va, vb, p, t, x, vc, rnd, sat⟩ := f
    simp only [Bool.and_eq_true, Bool.not_eq_true', beq_iff_eq] at h
    obtain ⟨⟨⟨⟨rfl, rfl⟩, rfl⟩, rfl⟩, -⟩ := h
    ext i hi
    simp only [encodeCore, BitVec.getElem_extractLsb', BitVec.getLsbD_append]
    grind
  case h_2 hfmt => exact absurd (htwo (.inl hfmt)) (by simp)
  case h_3 => ext i hi; simp only [encodeCore, BitVec.getElem_extractLsb', BitVec.getLsbD_append]; grind
  case h_4 => ext i hi; simp only [encodeCore, BitVec.getElem_extractLsb', BitVec.getLsbD_append]; grind
  case h_5 hfmt => exact absurd (htwo (.inr (.inl hfmt))) (by simp)
  case h_6 hfmt => exact absurd (htwo (.inr (.inr hfmt))) (by simp)
  case h_7 => ext i hi; simp only [encodeCore, BitVec.getElem_extractLsb', BitVec.getLsbD_append]; grind
  case h_8 => ext i hi; simp only [encodeCore, BitVec.getElem_extractLsb', BitVec.getLsbD_append]; grind
  case h_9 => cases h

/-- Settles O60: the decoder reads each field where the encoder of the format put it, and bit 31 of the first word is bit 7 of the OP. -/
theorem coreWordsRoundTrip : Obligations.CoreWordsRoundTrip := by
  unfold Obligations.CoreWordsRoundTrip
  intro c hc
  exact ⟨decodeCore_encodeCore c hc, coreLen_encodeCore c, encodeCore_second_word c hc⟩

end Sys2Proof.Machine
end

section
/-! PROOFS. The registers of a thread (07 R340, R341), what an instruction leaves of the loads that are outstanding (07 R339), and how
an instruction that only changes its thread's registers runs. -/

namespace Sys2Proof.Machine

/-! ## Registers (07 R340) -/

@[simp] theorem Thread.sreg_setS (th : Thread) (n m : BitVec 5) (v : Word64) :
    (th.setS n v).sreg m = if m = n then (if n = 0 then 0 else v) else th.sreg m := by
  unfold Thread.sreg Thread.setS
  by_cases hmn : m = n
  · subst hmn
    by_cases hm : m = 0
    · simp only [hm, if_true]
    · simp only [hm, if_true, if_false, Sparse.get_set]
  · by_cases hn : n = 0
    · simp only [hn, if_true]
      exact (if_neg (hn ▸ hmn)).symm
    · have hne : n.toNat ≠ m.toNat := fun h => hmn (BitVec.eq_of_toNat_eq h.symm)
      simp only [hn, hmn, if_false, Sparse.get_set, hne]

/-- A scalar register is written among the scalar registers alone. -/
theorem Thread.setS_eq (th : Thread) (n : BitVec 5) (v : Word64) : th.setS n v = { th with s := (th.setS n v).s } := by
  unfold Thread.setS
  split <;> rfl

@[simp] theorem Thread.preg_setP (th : Thread) (p q : BitVec 3) (v : BitVec 32) :
    (th.setP p v).preg q = if q = p then (if p = 0 then BitVec.allOnes 32 else v) else th.preg q := by
  unfold Thread.preg Thread.setP
  by_cases hqp : q = p
  · subst hqp
    by_cases hq : q = 0
    · simp only [hq, if_true]
    · simp only [hq, if_true, if_false, Sparse.get_set]
  · by_cases hp : p = 0
    · simp only [hp, if_true]
      exact (if_neg (hp ▸ hqp)).symm
    · have hne : p.toNat ≠ q.toNat := fun h => hqp (BitVec.eq_of_toNat_eq h.symm)
      simp only [hp, hqp, if_false, Sparse.get_set, hne]

/-- A predicate register is written among the predicate registers alone. -/
theorem Thread.setP_eq (th : Thread) (p : BitVec 3) (v : BitVec 32) : th.setP p v = { th with p := (th.setP p v).p } := by
  unfold Thread.setP
  split <;> rfl

/-- A write of lane `i` of `v` is read in that lane alone. -/
theorem Thread.lane_setLane (th : Thread) {v u : BitVec 6} {i j : Nat} (w : Word64) (hi : i < 32) (hj : j < 32) :
    (th.setLane v i w).lane u j = if u = v ∧ j = i then w else th.lane u j := by
  have hkey : 32 * v.toNat + i = 32 * u.toNat + j ↔ u = v ∧ j = i := by
    rw [← BitVec.toNat_inj]
    omega
  simp [Thread.lane, Thread.setLane, hkey]

@[simp] theorem Thread.raise_zero (th : Thread) : th.raise 0#5 = th := by
  simp [Thread.raise]

@[simp] theorem Thread.raise_noFlags (th a : Thread) : th.raise (noFlags a) = th := th.raise_zero

theorem mem_activeLanes (th : Thread) (p : BitVec 3) (l : Nat) : l ∈ activeLanes th p ↔ l < 32 ∧ th.active p l = true := by
  simp [activeLanes, lanes]

/-! ## Loads that are outstanding (07 R339) -/

/-- What an instruction takes from the outstanding loads rests on the thread's loads and predicates alone. -/
theorem Thread.loadsAfter_congr {a b : Thread} (hl : a.loads = b.loads) (hp : a.p = b.p) (c : CoreInstr) :
    a.loadsAfter c = b.loadsAfter c := by
  have hactive : ∀ p l, a.active p l = b.active p l := by
    intro p l
    simp [Thread.active, Thread.preg, hp]
  have hwrites : ∀ v l, a.writesLane c v l = b.writesLane c v l := by
    intro v l
    simp [Thread.writesLane, hactive]
  simp [Thread.loadsAfter, LoadDest.without, hl, hwrites]

/-- An instruction that writes neither a scalar nor a vector register takes nothing from the outstanding loads. -/
theorem Thread.loadsAfter_of_no_writes {c : CoreInstr} (hs : coreWrites c = []) (hv : ∀ (th : Thread) v l, th.writesLane c v l = false)
    (th : Thread) : th.loadsAfter c = th.loads := by
  have hdest : ∀ d : LoadDest, d.without th c = d := by
    intro d
    cases d with
    | scalar sd v => simp [LoadDest.without, hs]
    | vec vd l =>
      have hzip : ((List.range l.length).zip l).map (fun x => x.2) = l := List.map_snd_zip (by simp)
      simp [LoadDest.without, hv, hzip]
  simp [Thread.loadsAfter, hdest]

/-- The thread behind an instruction that has changed scalar and vector registers and FPSTAT. -/
theorem Thread.next_write (th : Thread) (c : CoreInstr) (s v : Sparse Word64) (fl : BitVec 5) :
    ({ th with s := s, v := v, fpstat := fl } : Thread).next c =
      { th with s := s, v := v, fpstat := fl, pc := th.pc + c.len, st := .ready, loads := th.loadsAfter c } := by
  unfold Thread.next
  rw [Thread.loadsAfter_congr (a := { th with s := s, v := v, fpstat := fl }) (b := th) rfl rfl]

/-- `th'` is `th` with other scalar registers and other conditions. -/
def Thread.WritesScalars (th th' : Thread) : Prop := th' = { th with s := th'.s, fpstat := th'.fpstat }

theorem Thread.WritesScalars.refl (th : Thread) : th.WritesScalars th := rfl

theorem Thread.WritesScalars.setS {th th' : Thread} (h : th.WritesScalars th') (n : BitVec 5) (v : Word64) :
    th.WritesScalars (th'.setS n v) := by
  unfold Thread.WritesScalars Thread.setS
  split
  · exact h
  · exact congrArg (fun a : Thread => { a with s := th'.s.set 0 n.toNat v }) h

theorem Thread.WritesScalars.raise {th th' : Thread} (h : th.WritesScalars th') (fl : BitVec 5) : th.WritesScalars (th'.raise fl) :=
  show ({ th' with fpstat := th'.fpstat ||| fl } : Thread) = _ from congrArg (fun a : Thread => { a with fpstat := th'.fpstat ||| fl }) h

/-- The thread behind an instruction that has written scalar registers and conditions. -/
theorem Thread.WritesScalars.next {th th' : Thread} (h : th.WritesScalars th') (c : CoreInstr) :
    th'.next c = { th with s := th'.s, fpstat := th'.fpstat, pc := th.pc + c.len, st := .ready, loads := th.loadsAfter c } := by
  unfold Thread.WritesScalars at h
  generalize th'.s = s, th'.fpstat = fl at h ⊢
  rw [h]
  exact Thread.next_write th c s th.v fl

/-! ## Running an instruction (07 R337, R339) -/

theorem coreRun_issuing {t : Nat} {c : CoreInstr} {s : State} {k : Kernel} (h : s.issuing t c = some k) (f : Kernel → State → State) :
    coreRun t c s f = .next (f k s) := by
  simp [coreRun, h, ok]

/-- An instruction that can issue and only changes registers leaves its thread behind it, with the changed registers. -/
theorem regOp_issuing {t : Nat} {c : CoreInstr} {s : State} {k : Kernel} (h : s.issuing t c = some k) (f : Thread → Thread) :
    regOp t c s f = .next (s.modThread t fun _ => (f (s.thread t)).next c) := by
  rw [regOp, coreRun_issuing h]
  exact congrArg _ (State.modThread_congr _ _ _ _ rfl)

end Sys2Proof.Machine
end

section
/-! PROOFS. The vector, predicate and scalar instructions that only change registers (07 R341, R353 to R359), and the statements
`VectorArithmeticWorksLaneByLane`, `VectorMovesPlaceTheLanes`, `ComparesAndPredicateLogic`, `ReductionsWriteTheirScalars` and
`ScalarInstructionsWriteOneRegister`. -/

namespace Sys2Proof.Machine

/-! ## Lanes (07 R341) -/

/-- A loop of writes to lanes of `v` leaves the written lanes their values and every other lane as it was. -/
theorem foldl_setLane_lane {v : BitVec 6} {g : Nat → Word64} {step : Thread → Nat → Thread}
    (hstep : ∀ a i, (step a i).v = (a.setLane v i (g i)).v) (l : List Nat) (hl : ∀ i ∈ l, i < 32) (th : Thread) {u : BitVec 6} {j : Nat}
    (hj : j < 32) : (l.foldl step th).lane u j = if u = v ∧ j ∈ l then g j else th.lane u j := by
  induction l generalizing th with
  | nil => simp
  | cons i l ih =>
    have hread : (step th i).lane u j = (th.setLane v i (g i)).lane u j := by
      unfold Thread.lane
      rw [hstep]
    rw [List.foldl_cons, ih (fun x hx => hl x (List.mem_cons_of_mem i hx)), hread,
      Thread.lane_setLane _ _ (hl i List.mem_cons_self) hj]
    by_cases hji : j = i
    · subst hji
      by_cases hu : u = v <;> simp [hu]
    · simp [hji]

/-- The turn of `Thread.mapLanes` at a lane. -/
def Thread.putLane (v : BitVec 6) (g : Nat → Word64 × BitVec 5) (th : Thread) (i : Nat) : Thread :=
  (th.setLane v i (g i).1).raise (g i).2

theorem foldl_putLane_fpstat (v : BitVec 6) (g : Nat → Word64 × BitVec 5) (l : List Nat) (th : Thread) :
    (l.foldl (Thread.putLane v g) th).fpstat = l.foldl (fun fl i => fl ||| (g i).2) th.fpstat := by
  induction l generalizing th with
  | nil => rfl
  | cons i l ih => exact ih _

/-- A loop of writes to lanes changes the vector registers and FPSTAT alone. -/
theorem foldl_putLane_eq (v : BitVec 6) (g : Nat → Word64 × BitVec 5) (l : List Nat) (th : Thread) :
    l.foldl (Thread.putLane v g) th =
      { th with v := (l.foldl (Thread.putLane v g) th).v, fpstat := (l.foldl (Thread.putLane v g) th).fpstat } := by
  induction l generalizing th with
  | nil => rfl
  | cons i l ih =>
    rw [List.foldl_cons, ih]
    rfl

/-- An instruction that runs as `Thread.mapLanes` works lane by lane. -/
theorem laneWise_of_mapLanes {t : Nat} {c : CoreInstr} {i : Instr} {f : FV} {g : Thread → Nat → Word64 × BitVec 5}
    (h : ∀ s, exec i s = regOp t c s fun th => th.mapLanes f (g th)) : LaneWise t c i f g := by
  intro s k hk
  set th := s.thread t
  have heq : th.mapLanes f (g th) = { th with v := (th.mapLanes f (g th)).v, fpstat := (th.mapLanes f (g th)).fpstat } :=
    foldl_putLane_eq f.vd (g th) (activeLanes th f.p) th
  have hlane : ∀ (u : BitVec 6) l, l < 32 → (th.mapLanes f (g th)).lane u l =
      if u = f.vd ∧ l ∈ activeLanes th f.p then (g th l).1 else th.lane u l := fun u l hl =>
    foldl_setLane_lane (step := Thread.putLane f.vd (g th)) (g := fun i => (g th i).1) (fun _ _ => rfl) _
      (fun x hx => ((mem_activeLanes th f.p x).mp hx).1) th hl
  refine ⟨_, (h s).trans (regOp_issuing hk _), fun l hl => ?_, fun v l hl hv => ?_, ?_, ?_⟩
  · refine (hlane f.vd l hl).trans ?_
    simp [mem_activeLanes, hl]
  · exact (hlane v l hl).trans (by simp [hv])
  · exact foldl_putLane_fpstat f.vd (g th) (activeLanes th f.p) th
  · generalize (th.mapLanes f (g th)).v = v', (th.mapLanes f (g th)).fpstat = fl' at heq
    rw [heq, Thread.next_write]

theorem foldl_setLane_eq (v : BitVec 6) (g : Nat → Word64) (l : List Nat) (th : Thread) :
    l.foldl (fun a i => a.setLane v i (g i)) th = { th with v := (l.foldl (fun a i => a.setLane v i (g i)) th).v } := by
  induction l generalizing th with
  | nil => rfl
  | cons i l ih =>
    rw [List.foldl_cons, ih]
    rfl

/-- An instruction that runs as a write of every lane writes every lane of VD. -/
theorem everyLane_of_setLanes {t : Nat} {c : CoreInstr} {i : Instr} {f : FV} {g : Thread → Nat → Word64}
    (h : ∀ s, exec i s = regOp t c s fun th => lanes.foldl (fun a l => a.setLane f.vd l (g th l)) th) : EveryLane t c i f g := by
  intro s k hk
  set th := s.thread t
  set th' := lanes.foldl (fun a l => a.setLane f.vd l (g th l)) th with hth'
  have heq : th' = { th with v := th'.v } := foldl_setLane_eq f.vd (g th) lanes th
  have hlane : ∀ (u : BitVec 6) l, l < 32 → th'.lane u l = if u = f.vd ∧ l ∈ lanes then g th l else th.lane u l := fun u l hl =>
    foldl_setLane_lane (fun _ _ => rfl) _ (fun x hx => List.mem_range.mp hx) th hl
  refine ⟨th'.next c, (h s).trans (regOp_issuing hk _), fun l hl => ?_, fun v l hl hv => ?_, ?_⟩
  · exact (hlane f.vd l hl).trans (by simp [lanes, hl])
  · exact (hlane v l hl).trans (by simp [hv])
  · generalize th'.v = v' at heq
    rw [heq, Thread.next_write]

/-- Settles O2: each instruction runs as a write of the active lanes from the elements of its operands. -/
theorem vectorArithmeticWorksLaneByLane : Obligations.VectorArithmeticWorksLaneByLane := by
  unfold Obligations.VectorArithmeticWorksLaneByLane
  intro t f
  refine ⟨?_, ?_, ?_, ?_, ?_, ?_, ?_, ?_, ?_, ?_, ?_, ?_, ?_, ?_, ?_, ?_, ?_, ?_⟩ <;> exact laneWise_of_mapLanes fun _ => rfl

/-- Settles O3: the moves run as writes of the active lanes, VSEL and VCOMP as writes of every lane. -/
theorem vectorMovesPlaceTheLanes : Obligations.VectorMovesPlaceTheLanes := by
  unfold Obligations.VectorMovesPlaceTheLanes
  intro t f
  refine ⟨?_, ?_, ?_, ?_, ?_, ?_, ?_, ?_, ?_, ?_⟩
  case refine_9 => exact everyLane_of_setLanes fun _ => rfl
  case refine_10 => exact everyLane_of_setLanes fun _ => rfl
  all_goals exact laneWise_of_mapLanes fun _ => rfl

/-! ## Predicate registers (07 R340, R355) -/

theorem bit_eq_testBit (n i : Nat) : bit n i = n.testBit i := by
  rw [Nat.testBit_eq_decide_div_mod_eq]
  rfl

/-- To set a bit that is clear changes no other bit. -/
theorem testBit_add_two_pow (n i j : Nat) (h : n.testBit j = false) : (n + 2 ^ j).testBit i = (n.testBit i || decide (i = j)) := by
  rcases Nat.lt_trichotomy i j with hij | rfl | hij
  · rw [Nat.add_comm, Nat.testBit_two_pow_add_gt hij]
    simp [Nat.ne_of_lt hij]
  · rw [Nat.add_comm, Nat.testBit_two_pow_add_eq, h]
    simp
  · have heven : n / 2 ^ j % 2 = 0 := by
      rw [Nat.testBit_eq_decide_div_mod_eq] at h
      have := of_decide_eq_false h
      omega
    have hhigh : (n + 2 ^ j) / 2 ^ (j + 1) = n / 2 ^ (j + 1) := by
      rw [Nat.pow_succ, ← Nat.div_div_eq_div_mul, ← Nat.div_div_eq_div_mul, Nat.add_div_right _ (Nat.two_pow_pos j)]
      omega
    obtain ⟨d, rfl⟩ : ∃ d, i = j + 1 + d := ⟨i - (j + 1), by omega⟩
    rw [Nat.add_comm (j + 1) d, ← Nat.testBit_div_two_pow, hhigh, Nat.testBit_div_two_pow]
    simp [Nat.ne_of_gt (Nat.lt_add_left d (Nat.lt_succ_self j))]

/-- The bits of the number whose set bits are listed are those listed. -/
theorem testBit_ofBitList (l : List Nat) (i : Nat) : (ofBitList l).testBit i = decide (i ∈ l) := by
  have hfold : ∀ n : Nat, (l.foldl (fun n i => if bit n i then n else n + 2 ^ i) n).testBit i = (n.testBit i || decide (i ∈ l)) := by
    induction l with
    | nil => simp
    | cons j l ih =>
      intro n
      have hturn : (if bit n j then n else n + 2 ^ j).testBit i = (n.testBit i || decide (i = j)) := by
        rw [bit_eq_testBit]
        cases hb : n.testBit j
        · exact testBit_add_two_pow n i j hb
        · by_cases hij : i = j
          · subst hij; simp [hb]
          · simp [hij]
      rw [List.foldl_cons, ih, hturn]
      simp [Bool.or_assoc]
  simpa [ofBitList] using hfold 0

/-- The predicate register whose set bits are listed. -/
theorem getLsbD_ofBitList (l : List Nat) {i : Nat} (hi : i < 32) : (BitVec.ofNat 32 (ofBitList l)).getLsbD i = decide (i ∈ l) := by
  rw [BitVec.getLsbD_ofNat, testBit_ofBitList, decide_eq_true hi, Bool.true_and]

/-- An instruction that runs as a write of one predicate register, and writes no other register, has that result. -/
theorem predicateResult_of_setP {t : Nat} {c : CoreInstr} {i : Instr} {d : BitVec 3} {w : Thread → BitVec 32} {g : Thread → Nat → Bool}
    {fl : Thread → BitVec 5} (h : ∀ s, exec i s = regOp t c s fun th => (th.setP d (w th)).raise (fl th))
    (hw : ∀ th l, l < 32 → (w th).getLsbD l = g th l) (hs : coreWrites c = []) (hv : ∀ (th : Thread) v l, th.writesLane c v l = false) :
    PredicateResult t c i d g fl := by
  intro s k hk
  set th := s.thread t
  refine ⟨_, (h s).trans (regOp_issuing hk _), fun l hl => ?_, fun p hp => ?_, ?_, ?_⟩
  · refine (congrArg (·.getLsbD l) (th.preg_setP d d (w th))).trans ?_
    rw [if_pos rfl]
    split
    · rw [BitVec.getLsbD_allOnes, decide_eq_true hl]
    · exact hw th l hl
  · exact (th.preg_setP d p (w th)).trans (if_neg hp)
  · show (th.setP d (w th)).fpstat ||| fl th = th.fpstat ||| fl th
    rw [Thread.setP_eq]
  · simp only [Thread.next, Thread.loadsAfter_of_no_writes hs hv, Thread.raise]
    rw [Thread.setP_eq]

/-- A compare instruction that runs as `cmpOp` has the result of a comparison. -/
theorem compares_of_cmpOp {t : Nat} {op : BitVec 8} {i : Instr} {f : FV} {lt eq : Bool}
    (h : ∀ s, exec i s = cmpOp t op f s lt eq) (hop : op = 0x08 ∨ op = 0x09 ∨ op = 0x0A) : Compares t op i f lt eq := by
  refine predicateResult_of_setP (w := fun th => BitVec.ofNat 32 (ofBitList (lanes.filter fun l =>
      if th.active f.p l then (compared op.toNat lt eq f th l).1 else (th.preg (lowP f.vd)).getLsbD l))) h (fun th l hl => ?_) ?_ ?_
  · rw [getLsbD_ofBitList _ hl]
    simp only [List.mem_filter, lanes, List.mem_range, hl, true_and, Bool.decide_eq_true]
  · rcases hop with rfl | rfl | rfl <;> rfl
  · intro th v l
    rcases hop with rfl | rfl | rfl <;> simp [Thread.writesLane]

/-- A predicate instruction that runs as `predOp` has the result that `g` has on the bits. -/
theorem predicateResult_of_predOp {t : Nat} {op : BitVec 8} {i : Instr} {f : FV} {w : BitVec 32 → BitVec 32 → BitVec 32}
    {g : Thread → Nat → Bool} (h : ∀ s, exec i s = predOp t op f s w)
    (hw : ∀ th l, l < 32 → (w (th.preg (lowP f.va)) (th.preg (lowP f.vb))).getLsbD l = g th l)
    (hop : op = 0x3C ∨ op = 0x3D ∨ op = 0x3E ∨ op = 0x3F) : PredicateResult t ⟨op, .v f⟩ i (lowP f.vd) g noFlags := by
  refine predicateResult_of_setP (w := fun th => w (th.preg (lowP f.va)) (th.preg (lowP f.vb))) (fun s => ?_) hw ?_ ?_
  · simp only [Thread.raise_noFlags]
    exact h s
  · rcases hop with rfl | rfl | rfl | rfl <;> rfl
  · intro th v l
    rcases hop with rfl | rfl | rfl | rfl <;> simp [Thread.writesLane]

/-- Settles O4: a compare writes the bits that its comparisons list, and predicate logic is logic on the bits. -/
theorem comparesAndPredicateLogic : Obligations.ComparesAndPredicateLogic := by
  unfold Obligations.ComparesAndPredicateLogic
  intro t f
  refine ⟨?_, ?_, ?_, ?_, ?_, ?_, ?_⟩
  · exact compares_of_cmpOp (fun _ => rfl) (.inl rfl)
  · exact compares_of_cmpOp (fun _ => rfl) (.inr (.inl rfl))
  · exact compares_of_cmpOp (fun _ => rfl) (.inr (.inr rfl))
  · exact predicateResult_of_predOp (fun _ => rfl) (fun _ _ _ => BitVec.getLsbD_and) (.inl rfl)
  · exact predicateResult_of_predOp (fun _ => rfl) (fun _ _ _ => BitVec.getLsbD_or) (.inr (.inl rfl))
  · exact predicateResult_of_predOp (fun _ => rfl) (fun _ _ _ => BitVec.getLsbD_xor) (.inr (.inr (.inl rfl)))
  · exact predicateResult_of_predOp (w := fun a _ => ~~~a) (fun _ => rfl) (fun _ _ hl => by rw [BitVec.getLsbD_not, decide_eq_true hl, Bool.true_and])
      (.inr (.inr (.inr rfl)))

/-! ## Scalar registers (07 R340, R355) -/

/-- An instruction that runs as a write of one scalar register has that result. -/
theorem scalarResult_of_setS {t : Nat} {c : CoreInstr} {i : Instr} {d : BitVec 5} {g : Thread → Word64} {fl : Thread → BitVec 5}
    (h : ∀ s, exec i s = regOp t c s fun th => (th.setS d (g th)).raise (fl th)) : ScalarResult t c i d g fl := by
  intro s k hk
  set th := s.thread t
  refine ⟨_, (h s).trans (regOp_issuing hk _), ?_, fun n hn => ?_, ?_, ?_⟩
  · exact (th.sreg_setS d d (g th)).trans (if_pos rfl)
  · exact (th.sreg_setS d n (g th)).trans (if_neg hn)
  · show (th.setS d (g th)).fpstat ||| fl th = th.fpstat ||| fl th
    rw [Thread.setS_eq]
  · have hwrites : th.WritesScalars ((th.setS d (g th)).raise (fl th)) := ((Thread.WritesScalars.refl th).setS d (g th)).raise (fl th)
    rw [hwrites.next]

/-- The same of an instruction that raises no condition. -/
theorem scalarResult_of_quiet {t : Nat} {c : CoreInstr} {i : Instr} {d : BitVec 5} {g : Thread → Word64}
    (h : ∀ s, exec i s = regOp t c s fun th => th.setS d (g th)) : ScalarResult t c i d g noFlags :=
  scalarResult_of_setS fun s => by simpa only [Thread.raise_noFlags] using h s

/-- SFCMPLT writes whether the comparison says less, and an unordered comparison is invalid. -/
theorem sfcmplt_runs (t : Nat) (f : FS) (s : State) : exec (.sfcmplt t f) s = regOp t ⟨0x4B, .s f⟩ s fun th =>
    (th.setS f.sd (if fpCmp (fp64.decode (th.sreg f.sa).toNat) (fp64.decode (th.operand f).toNat) = some .lt then 1 else 0)).raise
      (if fpCmp (fp64.decode (th.sreg f.sa).toNat) (fp64.decode (th.operand f).toNat) = none then flInvalid else 0) := by
  change execSfcmplt t f s = _
  unfold execSfcmplt
  congr 1
  funext th
  cases fpCmp (fp64.decode (th.sreg f.sa).toNat) (fp64.decode (th.operand f).toNat) with
  | none => simp
  | some o => cases o <;> simp

/-- Settles O7: each instruction runs as a write of its destination register. -/
theorem scalarInstructionsWriteOneRegister : Obligations.ScalarInstructionsWriteOneRegister := by
  unfold Obligations.ScalarInstructionsWriteOneRegister
  intro t f g
  refine ⟨?_, ?_, ?_, ?_, ?_, ?_, ?_, ?_, ?_, ?_, ?_, ?_, ?_, ?_⟩
  case refine_9 => exact scalarResult_of_setS fun _ => rfl
  case refine_10 => exact scalarResult_of_setS fun _ => rfl
  case refine_11 => exact scalarResult_of_setS fun _ => rfl
  case refine_12 => exact scalarResult_of_setS (sfcmplt_runs t f)
  all_goals exact scalarResult_of_quiet fun _ => rfl

/-! ## Reductions (07 R359) -/

/-- An instruction that runs as a write of scalar registers leaves the thread behind it with those registers. -/
theorem runs_writesScalars {t : Nat} {c : CoreInstr} {i : Instr} {w : Thread → Thread} {s : State} {k : Kernel} {n : Nat}
    (h : exec i s = regOp t c s w) (hw : (s.thread t).WritesScalars (w (s.thread t))) (hk : s.issuing t c = some k) (hlen : c.len = n) :
    exec i s = .next (s.modThread t fun _ => { s.thread t with
      s := (w (s.thread t)).s, fpstat := (w (s.thread t)).fpstat, pc := (s.thread t).pc + n, st := .ready
      loads := (s.thread t).loadsAfter c }) := by
  rw [h, regOp_issuing hk, hw.next, hlen]

/-- What VRSUM reduces: the sums of the active lanes (07 R359). -/
def Thread.sums (th : Thread) (f : FV) : List (Option (Nat × BitVec 5)) :=
  lanes.map fun l => if th.active f.p l then some (laneSum (vty f.t) (th.lane f.va l)) else none

/-- What VRSUM makes of its thread. -/
def Thread.vrsum (f : FV) (th : Thread) : Thread :=
  match treeFold (sumPair (vty f.t)) (th.sums f) with
  | some (n, fl) => (th.setS (lowS f.vd) (scalarOf 0x38 (vty f.t) ((vty f.t).canonNan n))).raise fl
  | none => th.setS (lowS f.vd) (Config.vectorValue 0x38 (vty f.t).code 0 0)

theorem vrsum_runs (t : Nat) (f : FV) (s : State) : exec (.vrsum t f) s = regOp t ⟨0x38, .v f⟩ s (Thread.vrsum f) := rfl

theorem Thread.writesScalars_vrsum (th : Thread) (f : FV) : th.WritesScalars (th.vrsum f) := by
  unfold Thread.vrsum
  split
  · exact ((WritesScalars.refl th).setS _ _).raise _
  · exact (WritesScalars.refl th).setS _ _

theorem Thread.sreg_vrsum_ne (th : Thread) (f : FV) {r : BitVec 5} (hr : r ≠ lowS f.vd) : (th.vrsum f).sreg r = th.sreg r := by
  unfold Thread.vrsum
  split <;> exact (th.sreg_setS _ r _).trans (if_neg hr)

theorem Thread.vrsum_of_sum (th : Thread) (f : FV) {n : Nat} {fl : BitVec 5} (h : treeFold (sumPair (vty f.t)) (th.sums f) = some (n, fl)) :
    th.vrsum f = (th.setS (lowS f.vd) (scalarOf 0x38 (vty f.t) ((vty f.t).canonNan n))).raise fl := by
  simp only [Thread.vrsum, h]

/-- What VRMAX and VRMIN make of their thread (07 R359). -/
def Thread.vreduce (op : BitVec 8) (big : Bool) (f : FV) (th : Thread) : Thread :=
  let free := Config.vectorValue op.toNat (vty f.t).code (th.lane f.va 0) 0
  let th' := match winner big (vty f.t) (candidates th f) with
    | some (n, i) => (th.setS (lowS f.vd) (scalarOf op.toNat (vty f.t) n)).setS (lowS f.vb) (BitVec.ofNat 64 i)
    | none => (th.setS (lowS f.vd) free).setS (lowS f.vb) (Config.vectorValue op.toNat (vty f.t).code 0 1)
  if lowS f.vd = lowS f.vb then th'.setS (lowS f.vd) free else th'

theorem vreduce_runs (t : Nat) (f : FV) (big : Bool) (s : State) : exec (if big then .vrmax t f else .vrmin t f) s =
    regOp t ⟨if big then 0x39 else 0x3A, .v f⟩ s (Thread.vreduce (if big then 0x39 else 0x3A) big f) := by
  cases big <;> rfl

theorem vreduce_len (f : FV) (big : Bool) : CoreInstr.len ⟨if big then 0x39 else 0x3A, .v f⟩ = 4 := by
  cases big <;> simp [CoreInstr.len]

theorem vrsum_len (f : FV) : CoreInstr.len ⟨0x38, .v f⟩ = 4 := by
  simp [CoreInstr.len]

theorem Thread.writesScalars_vreduce (op : BitVec 8) (big : Bool) (f : FV) (th : Thread) : th.WritesScalars (th.vreduce op big f) := by
  have htwo : ∀ a b, th.WritesScalars ((th.setS (lowS f.vd) a).setS (lowS f.vb) b) := fun a b => ((WritesScalars.refl th).setS _ a).setS _ b
  unfold Thread.vreduce
  extract_lets free th'
  have h : th.WritesScalars th' := by
    unfold th'
    split <;> exact htwo _ _
  split
  · exact h.setS _ _
  · exact h

theorem Thread.fpstat_setS (th : Thread) (n : BitVec 5) (v : Word64) : (th.setS n v).fpstat = th.fpstat := by
  rw [Thread.setS_eq]

/-- VRMAX and VRMIN raise no condition. -/
theorem Thread.fpstat_vreduce (op : BitVec 8) (big : Bool) (f : FV) (th : Thread) : (th.vreduce op big f).fpstat = th.fpstat := by
  unfold Thread.vreduce
  dsimp only
  split <;> split <;> simp only [Thread.fpstat_setS]

theorem Thread.sreg_vreduce_ne (op : BitVec 8) (big : Bool) (f : FV) (th : Thread) {r : BitVec 5} (hd : r ≠ lowS f.vd) (hb : r ≠ lowS f.vb) :
    (th.vreduce op big f).sreg r = th.sreg r := by
  unfold Thread.vreduce
  dsimp only
  split <;> split <;> simp only [Thread.sreg_setS, hd, hb, if_false]

theorem Thread.vreduce_of_winner (op : BitVec 8) (big : Bool) (f : FV) (th : Thread) {n i : Nat}
    (h : winner big (vty f.t) (candidates th f) = some (n, i)) (hne : lowS f.vd ≠ lowS f.vb) :
    th.vreduce op big f = (th.setS (lowS f.vd) (scalarOf op.toNat (vty f.t) n)).setS (lowS f.vb) (BitVec.ofNat 64 i) := by
  simp only [Thread.vreduce, h, hne, if_false]

/-- Settles O5: a reduction writes the scalars that its result names, and whatever its operands are no other register. -/
theorem reductionsWriteTheirScalars : Obligations.ReductionsWriteTheirScalars := by
  unfold Obligations.ReductionsWriteTheirScalars
  intro t f s k
  set th := s.thread t
  refine ⟨fun hk n fl hsum => ?_, fun big hk n i hwin hne => ?_, fun hk => ?_, fun big hk => ?_⟩
  · have hrun := th.vrsum_of_sum f hsum
    refine ⟨_, runs_writesScalars (vrsum_runs t f s) (Thread.writesScalars_vrsum _ f) hk (vrsum_len f), ?_, fun r hr => th.sreg_vrsum_ne f hr, ?_⟩
    · show (th.vrsum f).sreg (lowS f.vd) = _
      rw [hrun]
      exact (Thread.sreg_setS _ _ _ _).trans (if_pos rfl)
    · have hfl : (th.vrsum f).fpstat = th.fpstat ||| fl := by
        rw [hrun, Thread.raise, Thread.fpstat_setS]
      simp only [th] at hfl
      rw [hfl]
  · have hrun := th.vreduce_of_winner (if big then 0x39 else 0x3A) big f hwin hne
    refine ⟨_, runs_writesScalars (vreduce_runs t f big s) (Thread.writesScalars_vreduce _ big f _) hk (vreduce_len f big), ?_, ?_,
      fun r hd hb => th.sreg_vreduce_ne _ big f hd hb, ?_⟩
    · show (th.vreduce _ big f).sreg (lowS f.vd) = _
      rw [hrun]
      cases big <;> simp [hne]
    · show (th.vreduce _ big f).sreg (lowS f.vb) = _
      rw [hrun]
      exact (Thread.sreg_setS _ _ _ _).trans (if_pos rfl)
    · rw [Thread.fpstat_vreduce]
  · refine ⟨_, runs_writesScalars (vrsum_runs t f s) (Thread.writesScalars_vrsum _ f) hk (vrsum_len f), fun r hr => th.sreg_vrsum_ne f hr, rfl⟩
  · refine ⟨_, runs_writesScalars (vreduce_runs t f big s) (Thread.writesScalars_vreduce _ big f _) hk (vreduce_len f big),
      fun r hd hb => th.sreg_vreduce_ne _ big f hd hb, ?_⟩
    rw [Thread.fpstat_vreduce]

end Sys2Proof.Machine
end

section
/-! PROOFS. NaN (07 R356 to R358): which codes of a format are NaN, that one rounding never makes one, and the statement
`NanResultsAreCanonical`. -/

namespace Sys2Proof.Machine

/-! ## The codes of a format -/

/-- A code is a NaN when its exponent field is all ones and its fraction is not zero. -/
theorem FpFmt.isNan_decode (f : FpFmt) (n : Nat) :
    (f.decode n).isNan = true ↔ bits n f.mbits f.ebits = 2 ^ f.ebits - 1 ∧ bits n 0 f.mbits ≠ 0 := by
  unfold FpFmt.decode
  dsimp only
  split_ifs <;> simp_all [Fv.isNan]

/-- The code of a sign, an exponent field and a fraction. -/
def FpFmt.code (f : FpFmt) (sign ex fr : Nat) : Nat := sign * 2 ^ (f.ebits + f.mbits) + ex * 2 ^ f.mbits + fr

theorem FpFmt.bits_code (f : FpFmt) {sign ex fr : Nat} (hex : ex < 2 ^ f.ebits) (hfr : fr < 2 ^ f.mbits) :
    bits (f.code sign ex fr) f.mbits f.ebits = ex ∧ bits (f.code sign ex fr) 0 f.mbits = fr := by
  have hcode : f.code sign ex fr = (sign * 2 ^ f.ebits + ex) * 2 ^ f.mbits + fr := by
    rw [FpFmt.code, Nat.pow_add]
    ring
  constructor
  · rw [hcode, bits, Nat.mul_comm, Nat.mul_add_div (Nat.two_pow_pos _), Nat.div_eq_of_lt hfr, Nat.add_zero, Nat.mul_comm,
      Nat.mul_add_mod, Nat.mod_eq_of_lt hex]
  · rw [hcode, bits, Nat.pow_zero, Nat.div_one, Nat.mul_comm, Nat.mul_add_mod, Nat.mod_eq_of_lt hfr]

/-- A code whose exponent field is not all ones, or whose fraction is zero, is no NaN. -/
theorem FpFmt.not_isNan_code (f : FpFmt) {sign ex fr : Nat} (hex : ex < 2 ^ f.ebits) (hfr : fr < 2 ^ f.mbits)
    (h : ex < 2 ^ f.ebits - 1 ∨ fr = 0) : (f.decode (f.code sign ex fr)).isNan = false := by
  obtain ⟨hbits, hfrac⟩ := f.bits_code (sign := sign) hex hfr
  rw [← Bool.not_eq_true, FpFmt.isNan_decode, hbits, hfrac]
  rintro ⟨h₁, h₂⟩
  omega

theorem FpFmt.not_isNan_infBits (f : FpFmt) (neg : Bool) : (f.decode (f.infBits neg)).isNan = false := by
  have h : f.infBits neg = f.code (b2n neg) (2 ^ f.ebits - 1) 0 := rfl
  rw [h]
  exact f.not_isNan_code (Nat.sub_one_lt (Nat.two_pow_pos _).ne') (Nat.two_pow_pos _) (.inr rfl)

theorem FpFmt.not_isNan_maxBits (f : FpFmt) (he : 0 < f.ebits) (neg : Bool) : (f.decode (f.maxBits neg)).isNan = false := by
  have hpow : 2 ≤ 2 ^ f.ebits := Nat.le_self_pow he.ne' 2
  have hm := Nat.two_pow_pos f.mbits
  have h : f.maxBits neg = f.code (b2n neg) (2 ^ f.ebits - 2) (2 ^ f.mbits - 1) := by
    obtain ⟨x, hx⟩ : ∃ x, 2 ^ f.ebits = x + 2 := ⟨2 ^ f.ebits - 2, by omega⟩
    unfold FpFmt.maxBits FpFmt.infBits FpFmt.code
    rw [show 2 ^ f.ebits - 1 = x + 1 by omega, show 2 ^ f.ebits - 2 = x by omega, Nat.add_mul, Nat.one_mul]
    omega
  rw [h]
  exact f.not_isNan_code (by omega) (by omega) (.inl (by omega))

/-! ## One rounding (07 R356) -/

/-- `log2Q` is the logarithm rounded down: the quotient stands below the next power of two. -/
theorem lt_two_pow_log2Q {num den : Nat} (hd : den ≠ 0) : (num : ℚ) < den * 2 ^ (log2Q num den + 1) := by
  have hlog : (num : ℚ) < den * 2 ^ ((num.log2 : Int) - den.log2 + 1) := by
    have hnum : (num : ℚ) < 2 ^ (num.log2 + 1) := by exact_mod_cast Nat.lt_log2_self
    have hden : (2 : ℚ) ^ den.log2 ≤ den := by exact_mod_cast Nat.log2_self_le hd
    calc (num : ℚ) < 2 ^ (num.log2 + 1) := hnum
      _ = 2 ^ den.log2 * 2 ^ ((num.log2 : Int) - den.log2 + 1) := by
        rw [← zpow_natCast, ← zpow_natCast, ← zpow_add₀ (by norm_num)]
        congr 1
        push_cast
        ring
      _ ≤ den * 2 ^ ((num.log2 : Int) - den.log2 + 1) := by gcongr
  unfold log2Q
  extract_lets l le
  split
  · exact hlog
  · next hle =>
    rw [Int.sub_add_cancel]
    unfold le at hle
    split at hle
    · next hl =>
      have h : num < den * 2 ^ l.toNat := by simpa using hle
      have hcast : ((2 : ℚ) ^ l) = 2 ^ l.toNat := by rw [← zpow_natCast, Int.toNat_of_nonneg hl]
      rw [hcast]
      exact_mod_cast h
    · next hl =>
      have h : num * 2 ^ (-l).toNat < den := by simpa using hle
      have hcast : ((2 : ℚ) ^ (-l)) = 2 ^ (-l).toNat := by rw [← zpow_natCast, Int.toNat_of_nonneg (by omega)]
      have h' : (num : ℚ) * 2 ^ (-l) < den := by
        rw [hcast]
        exact_mod_cast h
      rw [zpow_neg] at h'
      exact (mul_inv_lt_iff₀ (by positivity)).mp h'

/-- A quotient rounded at a place that leaves it `m + 1` bits is at most the next power of two. -/
theorem quantQ_le (rm : Rnd) (neg : Bool) {num den m : Nat} {e lsb : Int} (hlsb : log2Q num den + e - m ≤ lsb) :
    (quantQ rm neg num den e lsb).1 ≤ 2 ^ (m + 1) := by
  unfold quantQ
  extract_lets k n d q r
  have hup : b2n (roundUp rm neg (q % 2 == 1) (2 * r) d) ≤ 1 := by
    unfold b2n
    split <;> simp
  suffices hq : q < 2 ^ (m + 1) by
    dsimp only
    omega
  by_cases hd : den = 0
  · have hq : q = 0 := by simp [q, d, hd]
    rw [hq]
    exact Nat.two_pow_pos _
  have hlt := lt_two_pow_log2Q (num := num) hd
  have hratio : (n : ℚ) * den = num * 2 ^ k * d := by
    simp only [n, d]
    split
    · next hk =>
      push_cast
      rw [← zpow_natCast, Int.toNat_of_nonneg hk]
    · next hk =>
      push_cast
      rw [← zpow_natCast, Int.toNat_of_nonneg (by omega), zpow_neg]
      field_simp
  have hdpos : 0 < d := by
    simp only [d]
    split <;> positivity
  have hden : (0 : ℚ) < den := by exact_mod_cast Nat.pos_of_ne_zero hd
  have hn' : (n : ℚ) < d * 2 ^ (m + 1) := by
    refine lt_of_mul_lt_mul_right ?_ hden.le
    calc (n : ℚ) * den = num * 2 ^ k * d := hratio
      _ < den * 2 ^ (log2Q num den + 1) * 2 ^ k * d := by gcongr
      _ = d * 2 ^ (log2Q num den + 1 + k) * den := by
        rw [zpow_add₀ (by norm_num) (log2Q num den + 1) k]
        ring
      _ ≤ d * 2 ^ (m + 1) * den := by
        rw [← zpow_natCast 2 (m + 1)]
        gcongr
        · norm_num
        · simp only [k]
          push_cast
          omega
  exact (Nat.div_lt_iff_lt_mul hdpos).mpr (by rw [Nat.mul_comm]; exact_mod_cast hn')

/-- Rounding makes no NaN. -/
theorem FpFmt.not_isNan_round (f : FpFmt) (he : 0 < f.ebits) (rm : Rnd) (neg : Bool) (num den : Nat) (e : Int) :
    (f.decode (f.round rm neg num den e).1).isNan = false := by
  have hpow : 2 ≤ 2 ^ f.ebits := Nat.le_self_pow he.ne' 2
  have hm := Nat.two_pow_pos f.mbits
  have hfield : ∀ {ex fr : Nat}, ex < 2 ^ f.ebits - 1 → fr < 2 ^ f.mbits →
      (f.decode (b2n neg * 2 ^ (f.ebits + f.mbits) + ex * 2 ^ f.mbits + fr)).isNan = false := fun hex hfr =>
    f.not_isNan_code (by omega) hfr (.inl hex)
  unfold FpFmt.round
  extract_lets sgn ex lsb
  split
  · have h := hfield (ex := 0) (fr := 0) (by omega) hm
    simpa using h
  next hn =>
  have hle : (quantQ rm neg num den e lsb).1 ≤ 2 ^ (f.mbits + 1) := quantQ_le rm neg (le_max_left _ _)
  generalize quantQ rm neg num den e lsb = z at hle
  obtain ⟨q, exact'⟩ := z
  dsimp only at hle ⊢
  have hcarry : (if q = 2 ^ (f.mbits + 1) then (2 ^ f.mbits, lsb + 1) else (q, lsb)).1 < 2 ^ (f.mbits + 1) := by
    rw [Nat.pow_succ] at hle ⊢
    split
    · dsimp only; omega
    · dsimp only; omega
  generalize (if q = 2 ^ (f.mbits + 1) then (2 ^ f.mbits, lsb + 1) else (q, lsb)) = y at hcarry
  obtain ⟨q, lsb⟩ := y
  rw [Nat.pow_succ] at hcarry
  dsimp only at hcarry ⊢
  split
  · next hq =>
    have h := hfield (ex := 0) (by omega) hq
    simpa using h
  · split
    · next hq hb => exact hfield (by omega) (by omega)
    · dsimp only
      split
      · exact f.not_isNan_infBits neg
      · exact f.not_isNan_maxBits he neg

/-- The result of an operation in a format is a NaN only as the canonical one (07 R358). -/
theorem FpFmt.finish_canonical (f : FpFmt) (he : 0 < f.ebits) (rm : Rnd) (r : Ex × BitVec 5)
    (h : (f.decode (f.finish rm r).1).isNan = true) : (f.finish rm r).1 = f.qnan := by
  obtain ⟨x, fl⟩ := r
  cases x with
  | nan => rfl
  | inf neg => exact absurd h (by simp [FpFmt.finish, f.not_isNan_infBits])
  | rat neg num den e => exact absurd h (by simp [FpFmt.finish, f.not_isNan_round he])

/-! ## Elements of a type -/

/-- The format of a type's floating-point codes; BF16 has its own (07 R356). -/
def VTy.fmt : VTy → FpFmt
  | .f64 => fp64
  | .f32 => fp32
  | _ => bf16

theorem VTy.fmt_ebits (ty : VTy) : 0 < ty.fmt.ebits := by
  cases ty <;> decide

/-- BF16 as the upper half of binary32 has the NaNs of its own format. -/
theorem VTy.isNan_fp (ty : VTy) (n : Nat) : (ty.fp n).isNan = (ty.fmt.decode n).isNan := by
  have hbf : (fp32.decode (n * 65536)).isNan = (bf16.decode n).isNan := by
    rw [Bool.eq_iff_iff, FpFmt.isNan_decode, FpFmt.isNan_decode]
    simp only [bits, fp32, bf16]
    omega
  cases ty
  case f64 => rfl
  case f32 => rfl
  all_goals exact hbf

theorem VTy.qnan_fmt (ty : VTy) : ty.qnan = ty.fmt.qnan := by
  cases ty <;> rfl

/-- The rounded result in a type is a NaN only as the canonical one (07 R358). -/
theorem VTy.finish_canonical (ty : VTy) (rm : Rnd) (r : Ex × BitVec 5) (h : (ty.fp (ty.finish rm r).1).isNan = true) :
    (ty.finish rm r).1 = ty.qnan := by
  have hbf : ∀ {n : Nat} (_ : (bf16.decode n).isNan = true) (_ : n = (VTy.finish .bf rm r).1), n = bf16.qnan := by
    rintro n hnan rfl
    revert hnan
    simp only [VTy.finish]
    cases fp32.decode (fp32.finish rm r).1 with
    | nan _ => exact fun _ => rfl
    | inf s => exact fun hnan => absurd hnan (by simp [FpFmt.not_isNan_infBits])
    | fin s m e => exact fun hnan => absurd hnan (by simp [FpFmt.not_isNan_round bf16 (by decide)])
  rw [VTy.isNan_fp] at h
  cases ty
  case f64 => exact fp64.finish_canonical (by decide) rm r h
  case f32 => exact fp32.finish_canonical (by decide) rm r h
  all_goals exact hbf h rfl

theorem VTy.isNan_fp_iff (ty : VTy) (n : Nat) : (ty.fp n).isNan = true ↔
    bits n ty.fmt.mbits ty.fmt.ebits = 2 ^ ty.fmt.ebits - 1 ∧ bits n 0 ty.fmt.mbits ≠ 0 := by
  rw [VTy.isNan_fp, FpFmt.isNan_decode]

theorem VTy.isNan_maxBits (ty : VTy) (neg : Bool) : (ty.fp (ty.maxBits neg)).isNan = false := by
  have h : ty.maxBits neg = ty.fmt.maxBits neg := by cases ty <;> rfl
  rw [VTy.isNan_fp, h]
  exact ty.fmt.not_isNan_maxBits ty.fmt_ebits neg

/-- The sign bit does not make a code a NaN. -/
theorem VTy.isNan_sign (ty : VTy) (hfp : ty.isFp = true) {a b : Nat} (h : a % 2 ^ (ty.width - 1) = b % 2 ^ (ty.width - 1)) :
    (ty.fp a).isNan = (ty.fp b).isNan := by
  rw [Bool.eq_iff_iff, VTy.isNan_fp_iff, VTy.isNan_fp_iff]
  cases ty <;> simp only [VTy.isFp, Bool.false_eq_true] at hfp <;> simp only [bits, VTy.fmt, VTy.width, fp64, fp32, bf16] at h ⊢ <;> omega

theorem absEl_canonical {ty : VTy} (hfp : ty.isFp = true) (a : Nat) (h : (ty.fp (absEl ty a).1).isNan = true) :
    (absEl ty a).1 = ty.qnan := by
  simp only [absEl, hfp, if_true] at h ⊢
  by_cases ha : (ty.fp a).isNan = true
  · rw [if_pos ha]
  · rw [if_neg ha] at h
    exact absurd ((ty.isNan_sign hfp (Nat.mod_mod _ _)).symm.trans h) ha

theorem negEl_canonical {ty : VTy} (hfp : ty.isFp = true) {a : Nat} (hlt : a < 2 ^ ty.width) (h : (ty.fp (negEl ty a).1).isNan = true) :
    (negEl ty a).1 = ty.qnan := by
  have hwidth : 2 ^ ty.width = 2 * 2 ^ (ty.width - 1) := by cases ty <;> decide
  simp only [negEl, hfp, if_true] at h ⊢
  by_cases ha : (ty.fp a).isNan = true
  · rw [if_pos ha]
  · rw [if_neg ha] at h
    refine absurd ((ty.isNan_sign hfp ?_).trans h) ha
    split
    · rw [Nat.add_mod_right]
    · rw [← Nat.mod_eq_sub_mod (by omega)]

/-- VMIN and VMAX return the other operand where exactly one is NaN (07 R358). -/
theorem minMaxEl_one_nan (op : Nat) (big : Bool) {ty : VTy} (hfp : ty.isFp = true) (a b : Nat) :
    ((ty.fp a).isNan = true → (ty.fp b).isNan = false → (minMaxEl op big ty a b).1 = b) ∧
    ((ty.fp a).isNan = false → (ty.fp b).isNan = true → (minMaxEl op big ty a b).1 = a) := by
  constructor <;> intro ha hb <;> simp [minMaxEl, hfp, ha, hb]

/-- Of two numbers VMIN and VMAX return one. -/
theorem minMaxEl_mem (op : Nat) (big : Bool) {ty : VTy} {a b : Nat} (ha : (ty.fp a).isNan = false) (hb : (ty.fp b).isNan = false) :
    (minMaxEl op big ty a b).1 = a ∨ (minMaxEl op big ty a b).1 = b := by
  unfold minMaxEl
  simp only [ha, hb, Bool.and_self, Bool.false_eq_true, if_false]
  unfold freePick
  repeat' split
  all_goals simp

theorem minMaxEl_canonical (op : Nat) (big : Bool) {ty : VTy} (hfp : ty.isFp = true) (a b : Nat)
    (h : (ty.fp (minMaxEl op big ty a b).1).isNan = true) : (minMaxEl op big ty a b).1 = ty.qnan := by
  obtain ⟨hfirst, hsecond⟩ := minMaxEl_one_nan op big hfp a b
  cases ha : (ty.fp a).isNan <;> cases hb : (ty.fp b).isNan
  · rcases minMaxEl_mem op big ha hb with heq | heq <;> rw [heq] at h <;> simp_all
  · rw [hsecond ha hb] at h
    simp_all
  · rw [hfirst ha hb] at h
    simp_all
  · simp [minMaxEl, hfp, ha, hb]

/-- A conversion to a floating-point type makes no NaN but the canonical one. -/
theorem cvtEl_canonical (op : Nat) (src dst : VTy) (rm : Rnd) (sat : Bool) (a : Nat) (hfp : dst.isFp = true)
    (h : (dst.fp (cvtEl op src dst rm sat a).1).isNan = true) : (cvtEl op src dst rm sat a).1 = dst.qnan := by
  have hmax : ∀ (b : Bool) (neg : Bool) (r : Ex × BitVec 5), (dst.fp (if b then dst.maxBits neg else (dst.finish rm r).1)).isNan = true →
      (if b then dst.maxBits neg else (dst.finish rm r).1) = dst.qnan := by
    intro b neg r hnan
    cases b with
    | true => exact absurd hnan (by simp [VTy.isNan_maxBits])
    | false => exact dst.finish_canonical rm r hnan
  revert h
  unfold cvtEl
  simp only [hfp, if_true]
  cases src.isFp with
  | false => exact dst.finish_canonical rm _
  | true =>
    cases src.fp a with
    | nan sg => exact fun _ => rfl
    | inf neg => exact hmax sat neg _
    | fin neg m e => exact hmax _ neg _

/-- Settles O6: rounding makes no NaN, so a NaN result is the code that `finish` writes for one; the others pass numbers on. -/
theorem nanResultsAreCanonical : Obligations.NanResultsAreCanonical := by
  unfold Obligations.NanResultsAreCanonical
  refine ⟨by decide, fun ty rm op a b c n big hfp ha hb hn hnan => ?_, fun src dst rm sat a => cvtEl_canonical 0x18 src dst rm sat a,
    fun op big ty a b hfp => minMaxEl_one_nan op big hfp a b⟩
  have hcanon : (ty.fp (ty.canonNan a)).isNan = true → ty.canonNan a = ty.qnan := by
    unfold VTy.canonNan
    cases h : (ty.fp a).isNan <;> simp [hfp, h]
  simp only [List.map_cons, List.map_nil, List.cons_append, List.nil_append, List.mem_cons, List.not_mem_nil, or_false, addEl, subEl,
    mulEl, hfp, if_true] at hn
  rcases hn with rfl | rfl | rfl | rfl | rfl | rfl | rfl | rfl | rfl | rfl | rfl | rfl | rfl | rfl | rfl
  case inr.inr.inr.inl => exact absEl_canonical hfp a hnan
  case inr.inr.inr.inr.inl => exact negEl_canonical hfp ha hnan
  case inr.inr.inr.inr.inr.inl => exact minMaxEl_canonical op big hfp a b hnan
  case inr.inr.inr.inr.inr.inr.inr.inr.inr.inr.inr.inr.inr.inr => exact hcanon hnan
  all_goals exact ty.finish_canonical _ _ hnan

end Sys2Proof.Machine
end

section
/-! PROOFS. The branches (07 R355) and the statement `BranchesSetTheProgramCounter`. -/

namespace Sys2Proof.Machine

theorem CoreInstr.len_word {op : BitVec 8} (hop : op.getLsbD 7 = false) (fs : Fields) : (⟨op, fs⟩ : CoreInstr).len = 4 := by
  rw [CoreInstr.len, hop]
  rfl

theorem branchOp_issuing {t : Nat} {c : CoreInstr} {s : State} {k : Kernel} (h : s.issuing t c = some k) (taken : Thread → Bool)
    (ofs : Int) : branchOp t c s taken ofs false = .next (s.modThread t fun _ =>
      if taken (s.thread t) then { (s.thread t).next c with pc := toBits ((s.thread t).pc + 4 * ofs) 64 } else (s.thread t).next c) := by
  rw [branchOp, coreRun_issuing h]
  exact congrArg _ (State.modThread_congr _ _ _ _ rfl)

/-- An instruction of one word that writes no register and runs as `branchOp` branches. -/
theorem branches_of_branchOp {t : Nat} {op : BitVec 8} {fs : Fields} {i : Instr} {ofs : Int} {taken taken' : Thread → Bool}
    (hop : op.getLsbD 7 = false) (hs : coreWrites ⟨op, fs⟩ = []) (hv : ∀ (th : Thread) v l, th.writesLane ⟨op, fs⟩ v l = false)
    (h : ∀ s, exec i s = branchOp t ⟨op, fs⟩ s taken' ofs false) (htaken : ∀ th, taken' th = taken th) : Branches t ⟨op, fs⟩ i ofs taken id := by
  intro s k hk
  have hnext : (s.thread t).next ⟨op, fs⟩ = { s.thread t with pc := (s.thread t).pc + 4, st := .ready } := by
    rw [Thread.next, Thread.loadsAfter_of_no_writes hs hv, CoreInstr.len_word hop]
  refine ⟨_, (h s).trans (branchOp_issuing hk taken' ofs), ?_⟩
  rw [hnext, htaken]
  cases taken (s.thread t) with
  | true => exact ⟨rfl, rfl⟩
  | false => exact ⟨rfl, rfl⟩

/-! ## The conditions on a predicate register -/

theorem preg_any (x : BitVec 32) : (x != 0) = (List.range 32).any fun l => x.getLsbD l := by
  rw [Bool.eq_iff_iff, bne_iff_ne, List.any_eq_true]
  constructor
  · intro hne
    by_contra hno
    refine hne (BitVec.eq_of_getLsbD_eq fun i hi => ?_)
    refine (Bool.eq_false_iff.mpr fun hbit => hno ⟨i, List.mem_range.mpr hi, hbit⟩).trans BitVec.getLsbD_zero.symm
  · rintro ⟨i, -, hbit⟩ rfl
    exact Bool.noConfusion (BitVec.getLsbD_zero.symm.trans hbit)

theorem preg_none (x : BitVec 32) : (x == 0) = (List.range 32).all fun l => !x.getLsbD l := by
  rw [List.all_eq_not_any_not]
  simp only [Bool.not_not, ← preg_any, bne]

theorem preg_all (x : BitVec 32) : (x == BitVec.allOnes 32) = (List.range 32).all fun l => x.getLsbD l := by
  rw [Bool.eq_iff_iff, beq_iff_eq, List.all_eq_true]
  constructor
  · rintro rfl i hi
    rw [BitVec.getLsbD_allOnes, decide_eq_true (List.mem_range.mp hi)]
  · intro hbits
    refine BitVec.eq_of_getLsbD_eq fun i hi => ?_
    rw [BitVec.getLsbD_allOnes, hbits i (List.mem_range.mpr hi), decide_eq_true hi]

/-- CALL jumps and leaves its return address in s31 (07 R340). -/
theorem call_branches (t : Nat) (f : FB) : Branches t ⟨0x67, .b f⟩ (.call t f) f.ofs.toInt (fun _ => true)
    (fun th => { th.setS 31 (BitVec.ofNat 64 (th.pc + 4)) with loads := th.loadsAfter ⟨0x67, .b f⟩ }) := by
  intro s k hk
  have hrun : exec (.call t f) s = .next (s.modThread t fun _ =>
      { ((s.thread t).next ⟨0x67, .b f⟩).setS 31 (BitVec.ofNat 64 ((s.thread t).pc + 4)) with
        pc := toBits ((s.thread t).pc + 4 * f.ofs.toInt) 64 }) := by
    change branchOp t _ s (fun _ => true) f.ofs.toInt true = _
    rw [branchOp, coreRun_issuing hk]
    exact congrArg _ (State.modThread_congr _ _ _ _ rfl)
  exact ⟨_, hrun, rfl, rfl⟩

/-- Settles O12: each branch is `branchOp` with its condition, which reads the registers; only CALL writes one. -/
theorem branchesSetTheProgramCounter : Obligations.BranchesSetTheProgramCounter := by
  unfold Obligations.BranchesSetTheProgramCounter
  intro t f g e
  refine ⟨?_, call_branches t f, ?_, ?_, ?_, ?_, ?_, ?_, fun s k hk => ?_⟩
  · exact branches_of_branchOp (by decide) rfl (fun _ _ _ => rfl) (fun _ => rfl) fun _ => rfl
  · exact branches_of_branchOp (by decide) rfl (fun _ _ _ => rfl) (fun _ => rfl) fun _ => preg_any _
  · exact branches_of_branchOp (by decide) rfl (fun _ _ _ => rfl) (fun _ => rfl) fun _ => preg_all _
  · exact branches_of_branchOp (by decide) rfl (fun _ _ _ => rfl) (fun _ => rfl) fun _ => preg_none _
  · exact branches_of_branchOp (by decide) rfl (fun _ _ _ => rfl) (fun _ => rfl) fun _ => beq_eq_decide _ _
  · exact branches_of_branchOp (by decide) rfl (fun _ _ _ => rfl) (fun _ => rfl) fun _ => by simp [bne, beq_eq_decide]
  · exact branches_of_branchOp (by decide) rfl (fun _ _ _ => rfl) (fun _ => rfl) fun _ => rfl
  · change execRet t e s = _
    exact coreRun_issuing hk _

end Sys2Proof.Machine
end

section
/-! PROOFS. The statement `RefusedAccessesAreDiscardedOrStop` fails: a stop at a page whose table entry cannot be read finds the error
of the entry's block (09 R448, R457). -/

namespace Sys2Proof.Machine

open Sys2Proof.Tests

/-- A session whose host aperture table begins at address 0. -/
def tableSession : Session :=
  { port := 0, iface := 0, features := 0, sqs := [], cqs := [], ctrBase := 0, ctrCount := 0, table := 0, key := 0, graceMs := 0, reaperS := 0 }

/-- SLD from a host page whose first-level entry lies in block 0, which holds an uncorrectable error that nothing has read. -/
def latentEntry : State :=
  { issues kern ⟨0xA6, .m (fm 0)⟩ (pointing hostPage) with sessions := [(1, some tableSession)], latent := [(0, true)] }

/-- The stop finds the error, and the block is poisoned. -/
theorem latentEntry_poisons : (after (.sld 0 (fm 0)) latentEntry).poison = [0] := by
  decide +kernel

/-- What the statement asks of a load that meets a page which may not be read. -/
theorem latentEntry_meets :
    latentEntry.issuing 0 ⟨0xA6, .m (fm 0)⟩ = some kern ∧
    (let a := baseAddr (latentEntry.thread 0) (fm 0)
     latentEntry.target kern (fm 0).sp false a 8 = .host ∧ latentEntry.canRead kern.session a.toNat = false ∧
     kern.throttled (latentEntry.trafficOf kern (fm 0).sp false 8 [{ lane := 0, addr := a }]) = false) ∧
    latentEntry.job? kern.job = some kjob ∧ kjob.phase = .running := by
  decide +kernel

/-- Refutes O10: a load stops its kernel at the host page whose table entry lies in block 0, where a latent uncorrectable error is found
by reading the entry; block 0 becomes poisoned, so which blocks are poisoned is not as before. -/
theorem not_refusedAccessesAreDiscardedOrStop : ¬ Obligations.RefusedAccessesAreDiscardedOrStop := by
  unfold Obligations.RefusedAccessesAreDiscardedOrStop
  rintro ⟨-, hstop⟩
  obtain ⟨hissue, ⟨hhost, hread, hfree⟩, hjob, hrun⟩ := latentEntry_meets
  obtain ⟨u, hu, ⟨-, hpoison⟩, -⟩ :=
    hstop 0 (fm 0) latentEntry kern (.sld 0 (fm 0)) kjob (.inl ⟨rfl, hissue, hhost, hread, hfree⟩) hjob hrun
  have hafter : after (.sld 0 (fm 0)) latentEntry = u := by rw [after, hu]
  have hsame : [0] = ([] : List Nat) := latentEntry_poisons.symm.trans (hafter ▸ hpoison)
  exact absurd hsame (List.cons_ne_nil 0 [])

end Sys2Proof.Machine
end

section
/-! PROOFS. The atomic adds (07 R352) and the statement `AtomicAddsUpdateClusterSram`. -/

namespace Sys2Proof.Machine

theorem CoreInstr.len_pair {op : BitVec 8} (hop : op.getLsbD 7 = true) (fs : Fields) : (⟨op, fs⟩ : CoreInstr).len = 8 := by
  rw [CoreInstr.len, hop]
  rfl

/-! ## States that differ from another by writes to HBM and SRAM -/

/-- `u` is `s` after writes to memory: only bytes differ, and blocks that were poisoned and are no more. -/
def State.Wrote (s u : State) : Prop :=
  (∃ m p l, u = { s with mem := m, poison := p, latent := l }) ∧ ∀ a, s.poisoned a = false → u.poisoned a = false

theorem State.Wrote.refl (s : State) : s.Wrote s := ⟨⟨s.mem, s.poison, s.latent, rfl⟩, fun _ h => h⟩

/-- A write poisons no block. -/
theorem State.poisoned_write (s : State) (a : Nat) (bs : List Byte) {x : Nat} (h : s.poisoned x = false) :
    (s.write a bs).poisoned x = false := by
  unfold State.poisoned at h ⊢
  rw [Bool.or_eq_false_iff, List.contains_eq_mem, List.contains_eq_mem, decide_eq_false_iff_not, decide_eq_false_iff_not] at h ⊢
  obtain ⟨hpoison, hlatent⟩ := h
  unfold State.write
  split
  · exact ⟨hpoison, hlatent⟩
  · exact ⟨fun hmem => hpoison (List.mem_of_mem_filter hmem), fun hmem => hlatent (List.mem_of_mem_filter hmem)⟩

theorem State.Wrote.write {s u : State} (h : s.Wrote u) (a : Nat) (bs : List Byte) : s.Wrote (u.write a bs) := by
  obtain ⟨⟨m, p, l, rfl⟩, hpoison⟩ := h
  refine ⟨?_, fun x hx => State.poisoned_write _ a bs (hpoison x hx)⟩
  unfold State.write
  split
  · exact ⟨m, p, l, rfl⟩
  · exact ⟨_, _, _, rfl⟩

theorem State.Wrote.threads {s u : State} (h : s.Wrote u) : u.threads = s.threads := by
  obtain ⟨⟨m, p, l, rfl⟩, -⟩ := h
  rfl

theorem State.Wrote.remapped {s u : State} (h : s.Wrote u) : u.remapped = s.remapped := by
  obtain ⟨⟨m, p, l, rfl⟩, -⟩ := h
  rfl

theorem State.Wrote.onBadCluster {s u : State} (h : s.Wrote u) (a : Nat) : u.onBadCluster a = s.onBadCluster a := by
  obtain ⟨⟨m, p, l, rfl⟩, -⟩ := h
  rfl

/-- Whether a target is the local store or cluster SRAM rests on no byte of memory. -/
theorem State.target_near {s u : State} (hremapped : u.remapped = s.remapped) {k : Kernel} {device store : Bool} {a : Int} {n : Nat}
    {tg : Target} (ht : s.target k device store a n = tg) (hnear : tg = .local' ∨ ∃ c, tg = .sram c) : u.target k device store a n = tg := by
  have hspace : u.space a.toNat = s.space a.toNat := by
    unfold State.space
    rw [hremapped]
  have hne : tg ≠ .refused ∧ tg ≠ .hbm := by
    rcases hnear with rfl | ⟨c, rfl⟩ <;> exact ⟨nofun, nofun⟩
  unfold State.target at ht ⊢
  rw [hspace]
  by_cases hbad : a < 0 ∨ a % (n : Int) ≠ 0
  · rw [if_pos hbad] at ht
    exact absurd ht.symm hne.1
  rw [if_neg hbad] at ht ⊢
  cases device
  case false =>
    simp only [Bool.not_false, if_true] at ht ⊢
    exact ht
  case true =>
    simp only [Bool.not_true, Bool.false_eq_true, if_false] at ht ⊢
    generalize s.space a.toNat = sp at ht ⊢
    cases sp
    case hbm =>
      simp only at ht
      split at ht
      · exact absurd ht.symm hne.1
      · exact absurd ht.symm hne.2
    all_goals
      dsimp only at ht ⊢
      exact ht

@[simp] theorem length_leBytes (n v : Nat) : (leBytes n v).length = n := by
  induction n generalizing v with
  | zero => rfl
  | succ n ih => rw [leBytes, List.length_cons, ih]

/-- A byte outside a write is as before. -/
theorem State.byte_write_outside (s : State) (a : Nat) (bs : List Byte) {x : Nat} (h : x < a ∨ a + bs.length ≤ x) :
    (s.write a bs).byte x = s.byte x := by
  unfold State.write
  split
  · rfl
  · exact (writeMem_get s.mem a x bs).trans (if_neg (by omega))

/-! ## One atomic add -/

section
variable (k : Kernel) (device : Bool) (pc : Nat) (val : Nat → Word64)

/-- The turn of a loop of atomic adds at an element, on the state and the conditions raised. -/
def State.addAt (val : Nat → Word64) (u : State × BitVec 5) (e : Elem) : State × BitVec 5 :=
  (u.1.write e.addr.toNat (leBytes 8 (u.1.atomicSum e.addr.toNat (val e.lane)).1), u.2 ||| (u.1.atomicSum e.addr.toNat (val e.lane)).2)

/-- An atomic add to a word of cluster SRAM that can be accessed. -/
theorem atomicElem_sram {g : Gather} {e : Elem} {c : Nat} (hstop : g.stop = none) (ht : g.st.target k device true e.addr 8 = .sram c)
    (hbad : g.st.onBadCluster e.addr.toNat = false) (hpoison : g.st.poisoned e.addr.toNat = false) :
    atomicElem k device pc val g e = { g with
      st := (State.addAt val (g.st, g.fl) e).1, fl := (State.addAt val (g.st, g.fl) e).2
      vals := g.vals ++ [(e.lane, g.st.word e.addr.toNat 8)] } := by
  simp [atomicElem, hstop, ht, State.access, hbad, hpoison, State.addAt, State.atomicSum]

/-- A loop of atomic adds to cluster SRAM performs each on what the ones before left. -/
theorem foldl_atomicElem {s : State} (es : List Elem)
    (hes : ∀ e ∈ es, (∃ c, s.target k device true e.addr 8 = .sram c) ∧ s.onBadCluster e.addr.toNat = false ∧ s.poisoned e.addr.toNat = false)
    (g : Gather) (hstop : g.stop = none) (hg : s.Wrote g.st) :
    let r := es.foldl (atomicElem k device pc val) g
    r.stop = none ∧ (r.st, r.fl) = es.foldl (State.addAt val) (g.st, g.fl) ∧ s.Wrote r.st := by
  induction es generalizing g with
  | nil => exact ⟨hstop, rfl, hg⟩
  | cons e es ih =>
    obtain ⟨⟨c, ht⟩, hbad, hpoison⟩ := hes e List.mem_cons_self
    rw [List.foldl_cons, List.foldl_cons, atomicElem_sram k device pc val hstop (State.target_near hg.remapped ht (.inr ⟨c, rfl⟩))
      ((hg.onBadCluster _).trans hbad) (hg.2 _ hpoison)]
    exact ih (fun x hx => hes x (List.mem_cons_of_mem e hx)) _ hstop (hg.write _ _)

end

theorem foldl_addAt_byte (val : Nat → Word64) (es : List Elem) (u : State × BitVec 5) {a : Nat}
    (ha : ∀ e ∈ es, a < e.addr.toNat ∨ e.addr.toNat + 8 ≤ a) : (es.foldl (State.addAt val) u).1.byte a = u.1.byte a := by
  induction es generalizing u with
  | nil => rfl
  | cons e es ih =>
    rw [List.foldl_cons, ih _ fun x hx => ha x (List.mem_cons_of_mem e hx)]
    exact State.byte_write_outside _ _ _ (by rw [length_leBytes]; exact ha e List.mem_cons_self)

/-- The words of a cluster's SRAM, and their banks (09 R438, R454). -/
theorem space_sram (s : State) {c o : Nat} (hc : c < 64) (ho : o < 0x1000000) :
    s.space (0x100000000000 + c * 0x1000000 + o) = .sram c ∧ sramBank (0x100000000000 + c * 0x1000000 + o) = o / 64 % 64 ∧
      sramBank (0x100000000000 + c * 0x1000000 + o) < 64 := by
  refine ⟨?_, ?_, Nat.mod_lt _ (by decide)⟩
  · unfold State.space spaceAt
    rw [if_neg (by omega), if_pos (by omega), show (0x100000000000 + c * 0x1000000 + o - 0x100000000000) / 0x1000000 = c by omega]
  · unfold sramBank
    rw [show (0x100000000000 + c * 0x1000000 + o) % 0x1000000 = o by omega]

theorem aaddD_adds {t : Nat} {f : FM} {s : State} {k : Kernel} (hk : s.issuing t ⟨0xA8, .m f⟩ = some k)
    (hes : ∀ e ∈ indexed (s.thread t) f 8, (∃ c, s.target k f.sp true e.addr 8 = .sram c) ∧ s.onBadCluster e.addr.toNat = false ∧
      s.poisoned e.addr.toNat = false) :
    ∃ u, exec (.aaddD t f) s = .next (u.1.modThread t fun th =>
        { th with pc := th.pc + 8, st := .ready, fpstat := th.fpstat ||| u.2 }) ∧
      u = (indexed (s.thread t) f 8).foldl (State.addAt ((s.thread t).lane f.vd)) (s, 0) ∧ u.1.threads = s.threads := by
  obtain ⟨hstop, hu, hwrote⟩ := foldl_atomicElem k f.sp (s.thread t).pc ((s.thread t).lane f.vd) _ hes { st := s } rfl (.refl s)
  have hloads : ∀ th : Thread, th.loadsAfter ⟨0xA8, .m f⟩ = th.loads :=
    Thread.loadsAfter_of_no_writes rfl fun _ _ _ => rfl
  refine ⟨_, ?_, hu, hwrote.threads⟩
  change execAaddD t f s = _
  rw [execAaddD, coreRun_issuing hk]
  simp only [hstop, Thread.next, Thread.raise, hloads, CoreInstr.len_pair (op := 0xA8) (by decide)]

theorem saaddD_adds {t : Nat} {f : FM} {s : State} {k : Kernel} (hk : s.issuing t ⟨0xA9, .m f⟩ = some k) {c : Nat}
    (ht : s.target k f.sp true (baseAddr (s.thread t) f) 8 = .sram c) (hbad : s.onBadCluster (baseAddr (s.thread t) f).toNat = false)
    (hpoison : s.poisoned (baseAddr (s.thread t) f).toNat = false) :
    exec (.saaddD t f) s = .next ((s.write (baseAddr (s.thread t) f).toNat (leBytes 8
        (s.atomicSum (baseAddr (s.thread t) f).toNat ((s.thread t).sreg (lowS f.vd))).1)).modThread t fun th =>
      { th with pc := th.pc + 8, st := .ready, nextLoad := th.nextLoad + 1,
                fpstat := th.fpstat ||| (s.atomicSum (baseAddr (s.thread t) f).toNat ((s.thread t).sreg (lowS f.vd))).2,
                loads := th.loadsAfter ⟨0xA9, .m f⟩ ++ [⟨th.nextLoad, .scalar (lowS f.vd).toNat
                  (BitVec.ofNat 64 (s.word (baseAddr (s.thread t) f).toNat 8)), 0⟩] }) := by
  change execSaaddD t f s = _
  have hzero : ∀ fl : BitVec 5, 0 ||| fl = fl := fun _ => BitVec.zero_or
  rw [execSaaddD, coreRun_issuing hk]
  simp only [oneElem, List.foldl_cons, List.foldl_nil, atomicElem_sram k f.sp _ _ (g := { st := s }) (e := ⟨0, baseAddr (s.thread t) f, 0⟩) rfl ht hbad hpoison,
    State.addAt, hzero, Thread.next, Thread.raise, Thread.awaits, CoreInstr.len_pair (op := 0xA9) (by decide)]
  rfl

/-- Settles O11: writes to SRAM change no target, so each add meets a word that can be accessed and takes what the adds before it left. -/
theorem atomicAddsUpdateClusterSram : Obligations.AtomicAddsUpdateClusterSram := by
  unfold Obligations.AtomicAddsUpdateClusterSram
  intro t f s k
  refine ⟨fun c hc o ho => space_sram s hc ho, fun hk hes => ?_, fun hk ⟨c, ht⟩ hbad hpoison => saaddD_adds hk ht hbad hpoison⟩
  obtain ⟨u, hrun, hu, hthreads⟩ := aaddD_adds hk hes
  refine ⟨u, hrun, hu, hthreads, fun a ha => ?_⟩
  rw [hu]
  exact foldl_addAt_byte _ _ _ ha

end Sys2Proof.Machine
end

section
/-! PROOFS. Engine work and events of a kernel (07 R360 to R364) and the statement `KernelsPostAndSignal`. -/

namespace Sys2Proof.Machine

/-! ## The kernel of an instruction that issues, and its thread behind it -/

/-- The kernel whose instruction can issue is the kernel of its own job, and the thread's. -/
theorem issuing_kernel {s : State} {t : Nat} {c : CoreInstr} {k : Kernel} (h : s.issuing t c = some k) :
    s.kernel? k.job = some k ∧ k.job = (s.thread t).kernel := by
  unfold State.issuing at h
  cases hk : s.kernel? (s.thread t).kernel with
  | none => simp [hk] at h
  | some k' =>
    obtain rfl : k' = k := by
      rw [hk] at h
      dsimp only at h
      split at h
      · exact Option.some.inj h
      · cases h
    have hjob : k'.job = (s.thread t).kernel := by simpa using List.find?_some hk
    exact ⟨hjob ▸ hk, hjob⟩

@[simp] theorem Thread.pc_setS (th : Thread) (n : BitVec 5) (v : Word64) : (th.setS n v).pc = th.pc := by
  unfold Thread.setS
  split <;> rfl

@[simp] theorem Thread.sreg_next (th : Thread) (c : CoreInstr) (n : BitVec 5) : (th.next c).sreg n = th.sreg n := rfl

@[simp] theorem Thread.pc_next (th : Thread) (c : CoreInstr) : (th.next c).pc = th.pc + c.len := rfl

/-- An instruction of format E that writes no scalar register takes nothing from the outstanding loads. -/
theorem Thread.next_noWrite {op : BitVec 8} (hop : op.getLsbD 7 = false) {f : FS} (hs : coreWrites ⟨op, .e f⟩ = []) (th : Thread) :
    th.next ⟨op, .e f⟩ = { th with pc := th.pc + 4, st := .ready } := by
  rw [Thread.next, Thread.loadsAfter_of_no_writes hs (fun _ _ _ => rfl), CoreInstr.len_word hop]

theorem State.kernel?_modKernel_same {s : State} {n : Nat} {k : Kernel} {f : Kernel → Kernel} (hf : ∀ k, (f k).job = k.job)
    (hk : s.kernel? n = some k) : (s.modKernel n f).kernel? n = some (f k) := by
  rw [State.kernel?_modKernel s n n f hf, if_pos rfl, hk]
  rfl

/-! ## EPOST and EWAIT (07 R360 to R363) -/

/-- The thread behind an instruction that returns `r`. -/
theorem thread_returned {op : BitVec 8} (hop : op.getLsbD 7 = false) (u : State) (r : Word64) :
    ((u.modThread t fun th => (th.setS f.sd r).next ⟨op, .e f⟩).thread t).sreg f.sd = (if f.sd = 0 then 0 else r) ∧
      ((u.modThread t fun th => (th.setS f.sd r).next ⟨op, .e f⟩).thread t).pc = (u.thread t).pc + 4 := by
  rw [State.thread_modThread, if_pos rfl]
  exact ⟨(Thread.sreg_setS _ _ _ _).trans (if_pos rfl), congrArg₂ _ (Thread.pc_setS _ _ _) (CoreInstr.len_word hop _)⟩

/-- The kernel with the handle of one more post (07 R361). -/
def Kernel.takeHandle (k : Kernel) : Kernel :=
  { k with nextHandle := k.nextHandle + 1, handles := k.handles ++ [{ handle := k.nextHandle, result := none, job := none, done := none }] }

/-- The kernel without a handle (07 R362). -/
def Kernel.dropHandle (h : Nat) (k : Kernel) : Kernel := { k with handles := k.handles.filter fun x => x.handle != h }

section
variable {t : Nat} {f : FS} {s : State} {k : Kernel}

theorem epost_posts (hk : s.issuing t ⟨0x76, .e f⟩ = some k) (hfree : k.handles.length < 16) :
    Does (.epost t f) s fun u =>
      (∃ d, u.posted = s.posted ++ [⟨k.session, ((s.thread t).sreg f.sb).toNat % 64, k.nextHandle, t, k.job, d⟩] ∧
        ((s.isSram ((s.thread t).sreg f.sa).toNat && s.isSram (((s.thread t).sreg f.sa).toNat + 127) &&
            !s.onBadCluster ((s.thread t).sreg f.sa).toNat &&
            !(s.poisoned ((s.thread t).sreg f.sa).toNat || s.poisoned (((s.thread t).sreg f.sa).toNat + 64) ||
              s.poisoned (((s.thread t).sreg f.sa).toNat + 127))) = true →
          d = s.bytes ((s.thread t).sreg f.sa).toNat 128)) ∧
      (u.thread t).sreg f.sd = (if f.sd = 0 then 0 else BitVec.ofNat 64 k.nextHandle) ∧
      (∃ k', u.kernel? k.job = some k' ∧ k'.handles.length = k.handles.length + 1) ∧
      u = { s with posted := u.posted, kernels := u.kernels, threads := u.threads } := by
  obtain ⟨hkernel, -⟩ := issuing_kernel hk
  have hrun := execEpost.eq_def t f s
  simp only [coreRun_issuing hk] at hrun
  rw [if_neg (Nat.not_le.mpr hfree)] at hrun
  refine ⟨_, hrun, ⟨_, rfl, fun hread => if_pos hread⟩, (thread_returned (by decide) _ _).1, ?_, rfl⟩
  exact ⟨k.takeHandle, State.kernel?_modKernel_same (f := Kernel.takeHandle) (fun _ => rfl) hkernel, by simp [Kernel.takeHandle]⟩

/-- A thread that waits tries the instruction again (07 R339). -/
theorem epost_waits (hk : s.issuing t ⟨0x76, .e f⟩ = some k) (hfull : 16 ≤ k.handles.length) :
    exec (.epost t f) s = .next (s.threadWaits t) := by
  have hrun := execEpost.eq_def t f s
  simp only [coreRun_issuing hk] at hrun
  rwa [if_pos hfull] at hrun

theorem ewait_returns (hk : s.issuing t ⟨0x77, .e f⟩ = some k) {r : Word64}
    (hr : ewaitResult k ((s.thread t).sreg f.sa) (f.imm.getLsbD 0) = some r) :
    Does (.ewait t f) s fun u =>
      (u.thread t).sreg f.sd = (if f.sd = 0 then 0 else r) ∧ (u.thread t).pc = (s.thread t).pc + 4 ∧
      (∃ k', u.kernel? k.job = some k' ∧ k'.handles = if f.imm.getLsbD 0 then
        k.handles.filter fun x => x.handle != ((s.thread t).sreg f.sa).toNat else k.handles) ∧
      u = { s with kernels := u.kernels, threads := u.threads } := by
  obtain ⟨hkernel, -⟩ := issuing_kernel hk
  have hrun := execEwait.eq_def t f s
  simp only [coreRun_issuing hk] at hrun
  simp only [hr] at hrun
  cases hkind : f.imm.getLsbD 0 with
  | false =>
    rw [hkind] at hrun
    obtain ⟨hret, hpc⟩ := thread_returned (t := t) (f := f) (op := 0x77) (by decide) s r
    exact ⟨_, hrun, hret, hpc, ⟨k, hkernel, rfl⟩, rfl⟩
  | true =>
    rw [hkind] at hrun
    obtain ⟨hret, hpc⟩ := thread_returned (t := t) (f := f) (op := 0x77) (by decide)
      (s.modKernel k.job (Kernel.dropHandle ((s.thread t).sreg f.sa).toNat)) r
    exact ⟨_, hrun, hret, hpc, ⟨_, State.kernel?_modKernel_same (f := Kernel.dropHandle _) (fun _ => rfl) hkernel, rfl⟩, rfl⟩

/-- EWAIT that does not block returns 0xFF in the low byte while there is no result. -/
theorem ewait_polls (hk : s.issuing t ⟨0x77, .e f⟩ = some k)
    (hr : ewaitResult k ((s.thread t).sreg f.sa) (f.imm.getLsbD 0) = none) (hpoll : f.imm.getLsbD 1 = true) :
    Does (.ewait t f) s fun u =>
      ((u.thread t).sreg f.sd).toNat % 256 = (if f.sd = 0 then 0 else 0xFF) ∧ (u.thread t).pc = (s.thread t).pc + 4 ∧
      u = { s with threads := u.threads } := by
  have hrun := execEwait.eq_def t f s
  simp only [coreRun_issuing hk] at hrun
  simp only [hr, hpoll, if_true] at hrun
  obtain ⟨hret, hpc⟩ := thread_returned (t := t) (f := f) (op := 0x77) (by decide) s
    (BitVec.ofNat 64 (0xFF + 2 ^ 32 * ((Config.vectorValue 0x77 3 ((s.thread t).sreg f.sa) 1).toNat / 2 ^ 32)))
  refine ⟨_, hrun, ?_, hpc, rfl⟩
  rw [hret]
  split
  · rfl
  · rw [BitVec.toNat_ofNat]
    omega

theorem ewait_waits (hk : s.issuing t ⟨0x77, .e f⟩ = some k)
    (hr : ewaitResult k ((s.thread t).sreg f.sa) (f.imm.getLsbD 0) = none) (hpoll : f.imm.getLsbD 1 = false) :
    exec (.ewait t f) s = .next (s.threadWaits t) := by
  have hrun := execEwait.eq_def t f s
  simp only [coreRun_issuing hk] at hrun
  simp only [hr, hpoll, Bool.false_eq_true, if_false] at hrun
  exact hrun

/-! ## EVSIG and EVWAIT (07 R364) -/

/-- A signalled counter sticks at 0xFFFF_FFFF (11 R545), and no other counter changes. -/
theorem State.counter_raise (s : State) (c n m : Nat) :
    (s.raise c n).counter m = if m = c then Nat.min 0xFFFFFFFF (s.counter c + n) else s.counter m := by
  unfold State.raise State.counter
  rw [Sparse.get_modify]
  by_cases hm : m = c
  · rw [if_pos hm.symm, if_pos hm]
    change _ = min _ _
    split <;> omega
  · rw [if_neg fun h => hm h.symm, if_neg hm]

theorem evsig_signals (hk : s.issuing t ⟨0x78, .e f⟩ = some k) :
    Does (.evsig t f) s fun u =>
      u.counter (((s.thread t).sreg f.sa).toNat % 4096) =
        Nat.min 0xFFFFFFFF (s.counter (((s.thread t).sreg f.sa).toNat % 4096) + ((s.thread t).sreg f.sb).toNat) ∧
      (∀ c, c ≠ ((s.thread t).sreg f.sa).toNat % 4096 → u.counter c = s.counter c) ∧
      u = { s with counters := u.counters, threads := u.threads } ∧
      u.thread t = { s.thread t with pc := (s.thread t).pc + 4, st := .ready } := by
  have hrun := execEvsig.eq_def t f s
  simp only [coreRun_issuing hk] at hrun
  refine ⟨_, hrun, ?_, fun c hc => ?_, rfl, ?_⟩
  · exact (State.counter_raise s _ _ _).trans (if_pos rfl)
  · exact (State.counter_raise s _ _ _).trans (if_neg hc)
  · rw [State.thread_modThread, if_pos rfl, Thread.next_noWrite (by decide) rfl]
    rfl

theorem evwait_passes (hk : s.issuing t ⟨0x79, .e f⟩ = some k)
    (h : ((s.thread t).sreg f.sb).toNat ≤ s.counter (((s.thread t).sreg f.sa).toNat % 4096)) :
    exec (.evwait t f) s = .next (s.modThread t fun th => { th with pc := th.pc + 4, st := .ready }) := by
  have hrun := execEvwait.eq_def t f s
  simp only [coreRun_issuing hk] at hrun
  simp only [if_pos h, Thread.next_noWrite (f := f) (op := 0x79) (by decide) rfl] at hrun
  exact hrun

theorem evwait_waits (hk : s.issuing t ⟨0x79, .e f⟩ = some k)
    (h : s.counter (((s.thread t).sreg f.sa).toNat % 4096) < ((s.thread t).sreg f.sb).toNat) :
    exec (.evwait t f) s = .next (s.threadWaits t) := by
  have hrun := execEvwait.eq_def t f s
  simp only [coreRun_issuing hk] at hrun
  rwa [if_neg (Nat.not_le.mpr h)] at hrun

end

/-- Settles O14: each instruction runs on the kernel that issues it, and its cases are those of the manual. -/
theorem kernelsPostAndSignal : Obligations.KernelsPostAndSignal := by
  unfold Obligations.KernelsPostAndSignal
  intro t f s k
  exact ⟨epost_posts, epost_waits, fun hk => ⟨fun _ hr => ewait_returns hk hr, ewait_polls hk, ewait_waits hk⟩, evsig_signals,
    fun hk => ⟨evwait_passes hk, evwait_waits hk⟩⟩

end Sys2Proof.Machine
end

section
/-! PROOFS. The end of a kernel (07 R345, R370, R371): what it changes and what it leaves. -/

namespace Sys2Proof.Machine

/-! ## Requests of the host aperture -/

/-- `u` is `s` after requests of the host aperture went out or wait: only they, what the device has sent and the link differ. -/
def State.Requested (s u : State) : Prop := ∃ h n l o, u = { s with ha := h, nextTag := n, link := l, out := o }

theorem State.request_requested (s : State) (r : HaReq) : s.Requested (s.request r) := by
  unfold State.request State.sendRequest
  dsimp only
  split
  · exact ⟨_, _, _, _, rfl⟩
  · rw [State.send_eq]
    exact ⟨_, _, _, _, rfl⟩

/-! ## Stores that complete (07 R369, R370) -/

/-- `u` is `s` after writes of kernels to memory and the host aperture. -/
def State.Stores (s u : State) : Prop :=
  ∃ m p l h n k o, u = { s with mem := m, poison := p, latent := l, ha := h, nextTag := n, link := k, out := o }

theorem State.Stores.refl (s : State) : s.Stores s := ⟨_, _, _, _, _, _, _, rfl⟩

theorem State.Stores.write {s u : State} (h : s.Stores u) (a : Nat) (bs : List Byte) : s.Stores (u.write a bs) := by
  obtain ⟨m, p, l, h, n, k, o, rfl⟩ := h
  unfold State.write
  split
  · exact ⟨_, _, _, _, _, _, _, rfl⟩
  · exact ⟨_, _, _, _, _, _, _, rfl⟩

theorem State.Stores.haWrite {s u : State} (h : s.Stores u) (session a : Nat) (bs : List Byte) (use : HaUse) :
    s.Stores (u.haWrite session a bs use) := by
  obtain ⟨_, _, _, _, hrequest⟩ := u.request_requested
    { tag := u.nextTag, session := session, page := pageOf a, use := use, host := u.hostAddr session a, data := bs }
  obtain ⟨m, p, l, h, n, k, o, rfl⟩ := h
  rw [State.haWrite, hrequest]
  exact ⟨_, _, _, _, _, _, _, rfl⟩

theorem State.finishStores_stores (s : State) (k : Kernel) : s.Stores (s.finishStores k) := by
  refine forEach_keeps s.Stores k.late _ (fun u x _ hu => ?_) s (.refl s)
  split
  · exact ite_both hu (hu.write ..)
  · exact ite_both (hu.haWrite ..) hu
  · exact hu

/-- A kernel without stores that wait for a frame has none to complete. -/
theorem State.finishStores_of_late {s : State} {k : Kernel} (h : k.late = []) : s.finishStores k = s := by
  unfold State.finishStores
  rw [h]
  rfl

/-- What the completion of a kernel's stores leaves as it was. -/
theorem State.finishStores_keeps (s : State) (k : Kernel) :
    (s.finishStores k).threads = s.threads ∧ (s.finishStores k).kernels = s.kernels ∧ (s.finishStores k).jobs = s.jobs ∧
      (s.finishStores k).posted = s.posted := by
  obtain ⟨m, p, l, h, n, c, o, hstores⟩ := s.finishStores_stores k
  rw [hstores]
  exact ⟨rfl, rfl, rfl, rfl⟩

/-! ## The end of a kernel -/

theorem State.endKernel_posted (s : State) (k : Kernel) (st : Status) : (s.endKernel k st).posted = s.posted := by
  obtain ⟨-, -, -, hposted⟩ := s.finishStores_keeps k
  exact hposted

theorem State.endKernel_sameMem {s : State} {k : Kernel} (st : Status) (h : k.late = []) : s.sameMem (s.endKernel k st) := by
  change s.sameMem (s.finishStores k)
  rw [State.finishStores_of_late h]
  exact ⟨rfl, rfl⟩

/-- The threads of a kernel stop, and every other thread goes on. -/
theorem State.endKernel_thread (s : State) (k : Kernel) (st : Status) (x : Nat) :
    (s.endKernel k st).thread x = if x ∈ k.ids ∧ (s.thread x).kernel = k.job then {} else s.thread x := by
  obtain ⟨hthreads, -⟩ := s.finishStores_keeps k
  change Sparse.get {} (Sparse.keep (fun t => !(k.ids.contains t && (Sparse.get {} (s.finishStores k).threads t).kernel == k.job))
    (s.finishStores k).threads) x = _
  rw [Sparse.get_keep, hthreads]
  by_cases hx : x ∈ k.ids ∧ (s.thread x).kernel = k.job
  · obtain ⟨hid, -⟩ := hx
    simp [hid, State.thread]
  · rw [if_neg hx, if_pos]
    · rfl
    · simpa [State.thread, imp_iff_not_or] using hx

/-- The kernel of the job is gone, and every other kernel stays. -/
theorem State.endKernel_kernel? (s : State) (k : Kernel) (st : Status) (n : Nat) :
    (s.endKernel k st).kernel? n = if n = k.job then none else s.kernel? n := by
  obtain ⟨-, hkernels, -⟩ := s.finishStores_keeps k
  change ((s.finishStores k).kernels.filter fun x => x.job != k.job).find? (fun x => x.job == n) = _
  rw [hkernels, List.find?_filter]
  split
  · next hn =>
    subst hn
    exact List.find?_eq_none.mpr (by simp)
  · next hn =>
    refine congrArg (List.find? · s.kernels) (funext fun x => ?_)
    by_cases hx : x.job = n
    · simp [hx, hn]
    · simp [hx]

/-- What the end of its kernel does to a command: its status, its progress and its section of the report (07 R370; 11 R543). -/
def Job.kernelEnded (st : Status) (ofs : Nat) (sec : List Byte) (j : Job) : Job :=
  { j.finish st with faultOfs := ofs, report := j.report ++ [sec] }

theorem Job.kernelEnded_id (st : Status) (ofs : Nat) (sec : List Byte) (j : Job) : (j.kernelEnded st ofs sec).id = j.id := j.finish_id st

/-- The end of a kernel changes its own command alone. -/
theorem State.endKernel_jobs (s : State) (k : Kernel) (st : Status) : ∃ sec, (s.endKernel k st).jobs =
    (s.modJob k.job (Job.kernelEnded st (if st = .done then 0 else s.progressOf k) sec)).jobs := by
  obtain ⟨hthreads, -, hjobs, -⟩ := s.finishStores_keeps k
  have hprogress : (s.finishStores k).progressOf k = s.progressOf k := by
    unfold State.progressOf State.thread
    rw [hthreads]
  refine ⟨kernelSection k ((s.finishStores k).fpOr k), ?_⟩
  change mapIf _ (Job.kernelEnded st (if st = .done then 0 else (s.finishStores k).progressOf k) _) (s.finishStores k).jobs = _
  rw [hjobs, hprogress]
  rfl

theorem State.endKernel_job?_ne (s : State) (k : Kernel) (st : Status) {n : Nat} (h : n ≠ k.job) :
    (s.endKernel k st).job? n = s.job? n := by
  obtain ⟨sec, hjobs⟩ := s.endKernel_jobs k st
  exact (State.job?_congr hjobs n).trans ((State.job?_modJob s k.job n _ (Job.kernelEnded_id _ _ _)).trans (if_neg (Ne.symm h)))

/-- The command of a kernel that ends takes the status, and its progress but at DONE (07 R370, R371). -/
theorem State.endKernel_job? {s : State} {k : Kernel} (st : Status) {j : Job} (hj : s.job? k.job = some j) :
    ∃ j', (s.endKernel k st).job? k.job = some j' ∧ j'.phase = (j.finish st).phase ∧
      j'.faultOfs = if st = .done then 0 else s.progressOf k := by
  obtain ⟨sec, hjobs⟩ := s.endKernel_jobs k st
  exact ⟨_, (State.job?_congr hjobs k.job).trans (State.job?_modJob_some _ (Job.kernelEnded_id _ _ _) hj), rfl, rfl⟩

theorem State.endKernel_running {s : State} {k : Kernel} (st : Status) {j : Job} (hj : s.job? k.job = some j) (hrun : j.phase = .running) :
    ∃ j', (s.endKernel k st).job? k.job = some j' ∧ j'.phase = .finished st ∧ j'.faultOfs = if st = .done then 0 else s.progressOf k := by
  obtain ⟨j', hj', hphase, hofs⟩ := State.endKernel_job? st hj
  exact ⟨j', hj', hphase.trans (by rw [Job.finish_running st hrun]), hofs⟩

end Sys2Proof.Machine
end

section
/-! PROOFS. The release of barriers by the last thread that comes (07 R350; log 19). -/

namespace Sys2Proof.Machine

/-! ## The release of barriers (07 R350; log 19) -/

/-- The thread goes on behind its barrier. -/
def Thread.released (th : Thread) : Thread := { th with st := .ready }

/-- All of the threads, and at least one, wait at the barrier. -/
def State.allAt (s : State) (l : List Nat) (st : ThreadState) : Bool := !l.isEmpty && l.all fun t => (s.thread t).st == st

theorem foldl_release_thread (l : List Nat) (s : State) (x : Nat) :
    (l.foldl (fun s t => s.modThread t Thread.released) s).thread x = if x ∈ l then (s.thread x).released else s.thread x := by
  induction l generalizing s with
  | nil => simp
  | cons a l ih =>
    rw [List.foldl_cons, ih, State.thread_modThread]
    by_cases hax : a = x
    · subst hax
      by_cases hl : a ∈ l <;> simp [hl, Thread.released]
    · simp [hax, Ne.symm hax]

/-- A barrier at which all threads wait releases them. -/
theorem State.releaseBar_thread (s : State) (l : List Nat) (st : ThreadState) (x : Nat) :
    (s.releaseBar l st).thread x = if s.allAt l st = true ∧ x ∈ l then (s.thread x).released else s.thread x := by
  change (if s.allAt l st = true then l.foldl (fun s t => s.modThread t Thread.released) s else s).thread x = _
  by_cases h : s.allAt l st = true
  · rw [if_pos h]
    simpa [h] using foldl_release_thread l s x
  · rw [if_neg h, if_neg fun hx => h hx.1]

theorem mem_liveThreads (s : State) (k : Kernel) (core : Option Nat) (x : Nat) :
    x ∈ s.liveThreads k core ↔ x ∈ k.ids ∧ (s.thread x).st ≠ .ended ∧ ∀ c ∈ core, coreOf x = c := by
  cases core <;> simp [State.liveThreads]

/-- A barrier of a kernel is complete: some thread is live there, and every live one has come. -/
theorem State.allAt_liveThreads (s : State) (k : Kernel) (core : Option Nat) (st : ThreadState) :
    s.allAt (s.liveThreads k core) st = true ↔ (∃ x, x ∈ s.liveThreads k core) ∧ ∀ x ∈ s.liveThreads k core, (s.thread x).st = st := by
  simp [State.allAt, List.eq_nil_iff_forall_not_mem]

/-- At a barrier of one core or of the kernel: every thread that is live there stands at it. -/
theorem State.allAt_of_mem {s : State} {k : Kernel} {core : Option Nat} {st : ThreadState} {x : Nat} (hx : x ∈ s.liveThreads k core)
    (h : ∀ y ∈ k.ids, (∀ c ∈ core, coreOf y = c) → (s.thread y).st = .ended ∨ (s.thread y).st = st) :
    s.allAt (s.liveThreads k core) st = true := by
  refine (s.allAt_liveThreads k core st).mpr ⟨⟨x, hx⟩, fun y hy => ?_⟩
  obtain ⟨hid, hlive, hcore⟩ := (mem_liveThreads s k core y).mp hy
  exact (h y hid hcore).resolve_left hlive

/-- A live thread that stands elsewhere holds the barrier. -/
theorem State.not_allAt_of_mem {s : State} {k : Kernel} {core : Option Nat} {st : ThreadState} {x : Nat} (hx : x ∈ s.liveThreads k core)
    (h : (s.thread x).st ≠ st) : ¬ s.allAt (s.liveThreads k core) st = true := fun hall =>
  h (((s.allAt_liveThreads k core st).mp hall).2 x hx)

/-- The turn of `State.releaseBars` at a core. -/
def State.releaseCore (k : Kernel) (s : State) (c : Nat) : State := s.releaseBar (s.liveThreads k (some c)) .barT

theorem State.releaseCore_thread (k : Kernel) (s : State) (c x : Nat) : (s.releaseCore k c).thread x =
    if s.allAt (s.liveThreads k (some c)) .barT = true ∧ x ∈ s.liveThreads k (some c) then (s.thread x).released else s.thread x :=
  s.releaseBar_thread _ _ _

theorem State.releaseCore_thread_ne (k : Kernel) (s : State) {c x : Nat} (h : coreOf x ≠ c) :
    (s.releaseCore k c).thread x = s.thread x := by
  rw [State.releaseCore_thread, if_neg]
  rintro ⟨-, hx⟩
  obtain ⟨-, -, hcore⟩ := (mem_liveThreads s k (some c) x).mp hx
  exact h (hcore c rfl)

/-- The barrier of a core rests on the core's threads alone. -/
theorem State.liveThreads_congr {s u : State} (k : Kernel) {c : Nat} (h : ∀ x, coreOf x = c → u.thread x = s.thread x) :
    u.liveThreads k (some c) = s.liveThreads k (some c) ∧
      u.allAt (s.liveThreads k (some c)) .barT = s.allAt (s.liveThreads k (some c)) .barT := by
  constructor
  · refine List.filter_congr fun x _ => ?_
    by_cases hx : coreOf x = c
    · rw [h x hx]
    · simp only [beq_eq_false_iff_ne.mpr hx, Bool.and_false]
  · unfold State.allAt
    congr 1
    rw [Bool.eq_iff_iff, List.all_eq_true, List.all_eq_true]
    refine forall₂_congr fun x hx => ?_
    obtain ⟨-, -, hcore⟩ := (mem_liveThreads s k (some c) x).mp hx
    rw [h x (hcore c rfl)]

/-- Over the cores of a kernel, a thread is released exactly where its own core's barrier is complete. -/
theorem foldl_releaseCore_thread (k : Kernel) (l : List Nat) (s : State) (x : Nat) :
    (l.foldl (State.releaseCore k) s).thread x =
      if coreOf x ∈ l ∧ s.allAt (s.liveThreads k (some (coreOf x))) .barT = true ∧ x ∈ s.liveThreads k (some (coreOf x)) then
        (s.thread x).released else s.thread x := by
  induction l generalizing s with
  | nil => simp
  | cons c l ih =>
    rw [List.foldl_cons, ih]
    by_cases hc : coreOf x = c
    case neg =>
      obtain ⟨hlive, hall⟩ := State.liveThreads_congr (s := s) (u := s.releaseCore k c) k (c := coreOf x)
        fun y hy => State.releaseCore_thread_ne k s (hy ▸ hc)
      rw [hlive, hall, State.releaseCore_thread_ne k s hc]
      simp only [List.mem_cons, hc, false_or]
    subst hc
    by_cases hdone : s.allAt (s.liveThreads k (some (coreOf x))) .barT = true
    case neg =>
      have hsame : s.releaseCore k (coreOf x) = s := if_neg hdone
      rw [hsame, if_neg fun h => hdone h.2.1, if_neg fun h => hdone h.2.1]
    have hstep := State.releaseCore_thread k s (coreOf x) x
    by_cases hx : x ∈ s.liveThreads k (some (coreOf x))
    · rw [if_pos ⟨hdone, hx⟩] at hstep
      refine (if_neg ?_).trans (hstep.trans (if_pos ⟨List.mem_cons_self, hdone, hx⟩).symm)
      rintro ⟨-, hagain, hx'⟩
      refine State.not_allAt_of_mem hx' ?_ hagain
      rw [hstep]
      exact nofun
    · rw [if_neg fun h => hx h.2] at hstep
      refine (if_neg ?_).trans (hstep.trans (if_neg fun h => hx h.2.2).symm)
      rintro ⟨-, -, hx'⟩
      refine hx ((mem_liveThreads s k _ x).mpr ?_)
      rw [← hstep]
      exact (mem_liveThreads _ k _ x).mp hx'

/-- The release of the cores' barriers changes a thread only where it waits at one. -/
theorem foldl_releaseCore_thread_cases (k : Kernel) (l : List Nat) (s : State) (x : Nat) :
    (l.foldl (State.releaseCore k) s).thread x = s.thread x ∨
      ((s.thread x).st = .barT ∧ (l.foldl (State.releaseCore k) s).thread x = (s.thread x).released) := by
  rw [foldl_releaseCore_thread]
  split
  · next h =>
    obtain ⟨-, hall, hx⟩ := h
    exact .inr ⟨((s.allAt_liveThreads k _ _).mp hall).2 x hx, rfl⟩
  · exact .inl rfl

/-- The barrier of the kernel is tried after those of its cores. -/
theorem State.releaseBars_thread (s : State) (k : Kernel) (x : Nat) :
    let u := k.cores.foldl (State.releaseCore k) s
    (s.releaseBars k).thread x = if u.allAt (u.liveThreads k none) .barK = true ∧ x ∈ u.liveThreads k none then (u.thread x).released
      else u.thread x :=
  State.releaseBar_thread _ _ _ _

/-- A live thread that does not wait at BAR.K holds the kernel's barrier. -/
theorem State.releaseBars_thread_of_live {s : State} {k : Kernel} {x : Nat}
    (hx : x ∈ (k.cores.foldl (State.releaseCore k) s).liveThreads k none)
    (hst : ((k.cores.foldl (State.releaseCore k) s).thread x).st ≠ .barK) (y : Nat) :
    (s.releaseBars k).thread y = (k.cores.foldl (State.releaseCore k) s).thread y := by
  rw [State.releaseBars_thread, if_neg]
  exact fun h => State.not_allAt_of_mem hx hst h.1

theorem State.releaseBars_pc (s : State) (k : Kernel) (x : Nat) : ((s.releaseBars k).thread x).pc = (s.thread x).pc := by
  have hcores : ((k.cores.foldl (State.releaseCore k) s).thread x).pc = (s.thread x).pc := by
    rcases foldl_releaseCore_thread_cases k k.cores s x with h | ⟨-, h⟩ <;> rw [h]
    rfl
  rw [State.releaseBars_thread]
  split
  · exact hcores
  · exact hcores

theorem State.releaseBar_eq (s : State) (l : List Nat) (st : ThreadState) : ∃ th, s.releaseBar l st = { s with threads := th } := by
  unfold State.releaseBar
  split
  · exact forEach_keeps (fun u => ∃ th, u = { s with threads := th }) l _ (fun u x _ hu => by obtain ⟨th, rfl⟩ := hu; exact ⟨_, rfl⟩) s ⟨_, rfl⟩
  · exact ⟨_, rfl⟩

/-- The release of barriers changes threads alone. -/
theorem State.releaseBars_eq (s : State) (k : Kernel) : ∃ th, s.releaseBars k = { s with threads := th } := by
  obtain ⟨th, hcores⟩ : ∃ th, k.cores.foldl (State.releaseCore k) s = { s with threads := th } :=
    forEach_keeps (fun u => ∃ th, u = { s with threads := th }) k.cores (State.releaseCore k) (fun u c _ hu => by
      obtain ⟨th, rfl⟩ := hu
      obtain ⟨th', h⟩ := State.releaseBar_eq { s with threads := th } (State.liveThreads { s with threads := th } k (some c)) .barT
      exact ⟨th', h⟩) s ⟨_, rfl⟩
  obtain ⟨th', hbar⟩ := State.releaseBar_eq (k.cores.foldl (State.releaseCore k) s)
    ((k.cores.foldl (State.releaseCore k) s).liveThreads k none) .barK
  refine ⟨th', hbar.trans ?_⟩
  rw [hcores]

/-! ## BAR.T and BAR.K -/

section
variable {t : Nat} {f : FS} {s : State} {k : Kernel}

/-- The state with thread `t` standing behind an instruction at a barrier. -/
def State.arrives (s : State) (t : Nat) (c : CoreInstr) (st : ThreadState) : State := s.modThread t fun th => { th.next c with st := st }

theorem State.arrives_st (s : State) (t : Nat) (c : CoreInstr) (st : ThreadState) (x : Nat) :
    ((s.arrives t c st).thread x).st = if x = t then st else (s.thread x).st := by
  unfold State.arrives
  rw [State.thread_modThread]
  by_cases hx : x = t
  · rw [if_pos hx.symm, if_pos hx]
  · rw [if_neg (Ne.symm hx), if_neg hx]

theorem State.arrives_pc (s : State) (t : Nat) {op : BitVec 8} (hop : op.getLsbD 7 = false) (fs : Fields) (st : ThreadState) :
    ((s.arrives t ⟨op, fs⟩ st).thread t).pc = (s.thread t).pc + 4 := by
  unfold State.arrives
  rw [State.thread_modThread, if_pos rfl]
  exact congrArg _ (CoreInstr.len_word hop fs)

theorem barOp_arrives {op : BitVec 8} {st : ThreadState} (hk : s.issuing t ⟨op, .e f⟩ = some k) (hdone : s.accessesDone k t = true) :
    barOp t op f s st = .next ((s.arrives t ⟨op, .e f⟩ st).releaseBars k) := by
  have hrun := barOp.eq_def t op f s st
  simp only [coreRun_issuing hk, if_pos hdone] at hrun
  exact hrun

theorem State.arrives_releaseBars_eq (s : State) (k : Kernel) (t : Nat) (c : CoreInstr) (st : ThreadState) :
    (s.arrives t c st).releaseBars k = { s with threads := ((s.arrives t c st).releaseBars k).threads } := by
  obtain ⟨th, h⟩ := (s.arrives t c st).releaseBars_eq k
  rw [h]
  rfl

/-- With every other live thread of the core at BAR.T, the last to come releases them all. -/
theorem barT_releases (ht : t ∈ k.ids) (hcore : coreOf t ∈ k.cores) (c : CoreInstr)
    (hall : ∀ x ∈ k.ids, x ≠ t → coreOf x = coreOf t → (s.thread x).st = .ended ∨ (s.thread x).st = .barT) :
    (((s.arrives t c .barT).releaseBars k).thread t).st = .ready ∧
      ∀ x ∈ k.ids, coreOf x = coreOf t → (s.thread x).st = .barT → (((s.arrives t c .barT).releaseBars k).thread x).st = .ready := by
  have hst := s.arrives_st t c .barT
  have hlive : ∀ x ∈ k.ids, coreOf x = coreOf t → ((s.arrives t c .barT).thread x).st = .barT →
      x ∈ (s.arrives t c .barT).liveThreads k (some (coreOf t)) := fun x hx hc h =>
    (mem_liveThreads _ k _ x).mpr ⟨hx, by rw [h]; decide, fun c hc' => by cases hc'; exact hc⟩
  have htst : ((s.arrives t c .barT).thread t).st = .barT := (hst t).trans (if_pos rfl)
  have hbar : (s.arrives t c .barT).allAt ((s.arrives t c .barT).liveThreads k (some (coreOf t))) .barT = true := by
    refine State.allAt_of_mem (hlive t ht rfl htst) fun y hy hc => ?_
    rw [hst]
    split
    · exact .inr rfl
    · next hne => exact hall y hy hne (hc _ rfl)
  have hready : ∀ x ∈ k.ids, coreOf x = coreOf t → ((s.arrives t c .barT).thread x).st = .barT →
      ((k.cores.foldl (State.releaseCore k) (s.arrives t c .barT)).thread x).st = .ready := fun x hx hc h => by
    rw [foldl_releaseCore_thread, if_pos ⟨hc ▸ hcore, hc ▸ hbar, hc ▸ hlive x hx hc h⟩]
    rfl
  have hkept := fun y => State.releaseBars_thread_of_live (s := s.arrives t c .barT) (k := k) (x := t)
    ((mem_liveThreads _ k none t).mpr ⟨ht, by rw [hready t ht rfl htst]; decide, fun _ h => nomatch h⟩)
    (by rw [hready t ht rfl htst]; decide) y
  refine ⟨(congrArg Thread.st (hkept t)).trans (hready t ht rfl htst), fun x hx hc h => ?_⟩
  refine (congrArg Thread.st (hkept x)).trans (hready x hx hc ?_)
  rw [hst, h, ite_self]

/-- A live thread of the core that has not come holds BAR.T. -/
theorem barT_holds (ht : t ∈ k.ids) (c : CoreInstr) {x : Nat} (hx : x ∈ k.ids) (hne : x ≠ t) (hc : coreOf x = coreOf t)
    (hlive : (s.thread x).st ≠ .ended) (hbar : (s.thread x).st ≠ .barT) :
    (((s.arrives t c .barT).releaseBars k).thread t).st = .barT := by
  have hst := s.arrives_st t c .barT
  have hxst : ((s.arrives t c .barT).thread x).st = (s.thread x).st := (hst x).trans (if_neg hne)
  have htst : ((s.arrives t c .barT).thread t).st = .barT := (hst t).trans (if_pos rfl)
  have hxlive : x ∈ (s.arrives t c .barT).liveThreads k (some (coreOf t)) :=
    (mem_liveThreads _ k _ x).mpr ⟨hx, hxst ▸ hlive, fun c hc' => by cases hc'; exact hc⟩
  have hsame : (k.cores.foldl (State.releaseCore k) (s.arrives t c .barT)).thread t = (s.arrives t c .barT).thread t := by
    rw [foldl_releaseCore_thread, if_neg]
    exact fun h => State.not_allAt_of_mem hxlive (hxst ▸ hbar) h.2.1
  rw [State.releaseBars_thread_of_live (x := t), hsame, htst]
  · exact (mem_liveThreads _ k none t).mpr ⟨ht, by rw [hsame, htst]; decide, fun _ h => nomatch h⟩
  · rw [hsame, htst]
    decide

/-- With every other live thread of the kernel at BAR.K, the last to come releases them all. -/
theorem barK_releases (ht : t ∈ k.ids) (c : CoreInstr)
    (hall : ∀ x ∈ k.ids, x ≠ t → (s.thread x).st = .ended ∨ (s.thread x).st = .barK) :
    (((s.arrives t c .barK).releaseBars k).thread t).st = .ready ∧
      ∀ x ∈ k.ids, (s.thread x).st = .barK → (((s.arrives t c .barK).releaseBars k).thread x).st = .ready := by
  have hst := s.arrives_st t c .barK
  have hcome : ∀ x ∈ k.ids, ((s.arrives t c .barK).thread x).st = .ended ∨ ((s.arrives t c .barK).thread x).st = .barK := by
    intro x hx
    rw [hst]
    split
    · exact .inr rfl
    · next hne => exact hall x hx hne
  have hsame : ∀ x ∈ k.ids, (k.cores.foldl (State.releaseCore k) (s.arrives t c .barK)).thread x = (s.arrives t c .barK).thread x := by
    intro x hx
    refine (foldl_releaseCore_thread_cases k k.cores (s.arrives t c .barK) x).resolve_right fun h => ?_
    rcases hcome x hx with h' | h' <;> exact ThreadState.noConfusion (h.1.symm.trans h')
  have hlive : ∀ x ∈ k.ids, ((s.arrives t c .barK).thread x).st = .barK →
      x ∈ (k.cores.foldl (State.releaseCore k) (s.arrives t c .barK)).liveThreads k none := fun x hx h =>
    (mem_liveThreads _ k none x).mpr ⟨hx, by rw [hsame x hx, h]; decide, fun _ h => nomatch h⟩
  have htst : ((s.arrives t c .barK).thread t).st = .barK := (hst t).trans (if_pos rfl)
  have hready : ∀ x ∈ k.ids, ((s.arrives t c .barK).thread x).st = .barK → (((s.arrives t c .barK).releaseBars k).thread x).st = .ready := by
    intro x hx h
    rw [State.releaseBars_thread, if_pos]
    · rfl
    · refine ⟨State.allAt_of_mem (hlive t ht htst) fun y hy _ => ?_, hlive x hx h⟩
      rw [hsame y hy]
      exact hcome y hy
  refine ⟨hready t ht htst, fun x hx h => hready x hx ?_⟩
  rw [hst, h, ite_self]

/-- A live thread of the kernel that has not come holds BAR.K. -/
theorem barK_holds (c : CoreInstr) {x : Nat} (hx : x ∈ k.ids) (hne : x ≠ t) (hlive : (s.thread x).st ≠ .ended)
    (hbar : (s.thread x).st ≠ .barK) : (((s.arrives t c .barK).releaseBars k).thread t).st = .barK := by
  have hst := s.arrives_st t c .barK
  have hxst : ((s.arrives t c .barK).thread x).st = (s.thread x).st := (hst x).trans (if_neg hne)
  have htst : ((s.arrives t c .barK).thread t).st = .barK := (hst t).trans (if_pos rfl)
  have hsame : (k.cores.foldl (State.releaseCore k) (s.arrives t c .barK)).thread t = (s.arrives t c .barK).thread t :=
    (foldl_releaseCore_thread_cases k k.cores (s.arrives t c .barK) t).resolve_right fun h =>
      ThreadState.noConfusion (h.1.symm.trans htst)
  have hxkept : ((k.cores.foldl (State.releaseCore k) (s.arrives t c .barK)).thread x).st ≠ .ended ∧
      ((k.cores.foldl (State.releaseCore k) (s.arrives t c .barK)).thread x).st ≠ .barK := by
    rcases foldl_releaseCore_thread_cases k k.cores (s.arrives t c .barK) x with h | ⟨-, h⟩ <;> rw [h]
    · exact hxst ▸ ⟨hlive, hbar⟩
    · exact ⟨nofun, nofun⟩
  rw [State.releaseBars_thread_of_live ((mem_liveThreads _ k none x).mpr ⟨hx, hxkept.1, fun _ h => nomatch h⟩) hxkept.2, hsame, htst]

end

end Sys2Proof.Machine
end

section
/-! PROOFS. END, MFENCE and the reads of progress and budgets (07 R350, R355, R357, R368, R371), and the statement
`BarriersEndsAndBudgets`. -/

namespace Sys2Proof.Machine

section
variable {t : Nat} {f : FS} {s : State} {k : Kernel}

/-- BAR.T with every earlier access of the thread complete. -/
theorem barT_spec (ht : t ∈ k.ids) (hk : s.issuing t ⟨0x70, .e f⟩ = some k) (hcore : coreOf t ∈ k.cores) (hdone : s.accessesDone k t = true) :
    Does (.barT t f) s fun u => (u.thread t).pc = (s.thread t).pc + 4 ∧ u = { s with threads := u.threads } ∧
      ((∀ x ∈ k.ids, x ≠ t → coreOf x = coreOf t → (s.thread x).st = .ended ∨ (s.thread x).st = .barT) →
        (u.thread t).st = .ready ∧ ∀ x ∈ k.ids, coreOf x = coreOf t → (s.thread x).st = .barT → (u.thread x).st = .ready) ∧
      ((∃ x ∈ k.ids, x ≠ t ∧ coreOf x = coreOf t ∧ (s.thread x).st ≠ .ended ∧ (s.thread x).st ≠ .barT) →
        (u.thread t).st = .barT) := by
  refine ⟨_, barOp_arrives hk hdone, ?_, s.arrives_releaseBars_eq k t _ _, barT_releases ht hcore _, ?_⟩
  · rw [State.releaseBars_pc, State.arrives_pc s t (by decide)]
  · rintro ⟨x, hx, hne, hc, hlive, hbar⟩
    exact barT_holds ht _ hx hne hc hlive hbar

/-- BAR.K with every earlier access of the thread complete. -/
theorem barK_spec (ht : t ∈ k.ids) (hk : s.issuing t ⟨0x71, .e f⟩ = some k) (hdone : s.accessesDone k t = true) :
    Does (.barK t f) s fun u => (u.thread t).pc = (s.thread t).pc + 4 ∧ u = { s with threads := u.threads } ∧
      ((∀ x ∈ k.ids, x ≠ t → (s.thread x).st = .ended ∨ (s.thread x).st = .barK) →
        (u.thread t).st = .ready ∧ ∀ x ∈ k.ids, (s.thread x).st = .barK → (u.thread x).st = .ready) ∧
      ((∃ x ∈ k.ids, x ≠ t ∧ (s.thread x).st ≠ .ended ∧ (s.thread x).st ≠ .barK) → (u.thread t).st = .barK) := by
  refine ⟨_, barOp_arrives hk hdone, ?_, s.arrives_releaseBars_eq k t _ _, barK_releases ht _, ?_⟩
  · rw [State.releaseBars_pc, State.arrives_pc s t (by decide)]
  · rintro ⟨x, hx, hne, hlive, hbar⟩
    exact barK_holds _ hx hne hlive hbar

/-- A load that is outstanding, or a write that is not answered, is an access that is not complete (07 R350). -/
theorem accessesDone_of_outstanding (h : (s.thread t).loads ≠ [] ∨ ∃ r ∈ s.ha, r.use = .write k.job (some t)) :
    s.accessesDone k t = false := by
  rcases h with h | ⟨r, hr, huse⟩
  · simp [State.accessesDone, h]
  · have hany : (s.ha.any fun r => r.use == .write k.job (some t)) = true := List.any_eq_true.mpr ⟨r, hr, by simp [huse]⟩
    simp [State.accessesDone, hany]

/-- BAR.T, BAR.K and MFENCE wait until the thread's earlier accesses are complete. -/
theorem fences_wait {i : Instr} {op : BitVec 8}
    (hi : (i, op) ∈ ([(.barT t f, 0x70), (.barK t f, 0x71), (.mfence t f, 0x72)] : List (Instr × BitVec 8)))
    (hk : s.issuing t ⟨op, .e f⟩ = some k) (hopen : s.accessesDone k t = false) : exec i s = .next (s.threadWaits t) := by
  have hbar : ∀ {op st}, s.issuing t ⟨op, .e f⟩ = some k → barOp t op f s st = .next (s.threadWaits t) := by
    intro op st hk
    have hrun := barOp.eq_def t op f s st
    simp only [coreRun_issuing hk, hopen, Bool.false_eq_true, if_false] at hrun
    exact hrun
  simp only [List.mem_cons, Prod.mk.injEq, List.not_mem_nil, or_false] at hi
  rcases hi with ⟨rfl, rfl⟩ | ⟨rfl, rfl⟩ | ⟨rfl, rfl⟩
  · exact hbar hk
  · exact hbar hk
  · have hrun := execMfence.eq_def t f s
    simp only [coreRun_issuing hk, hopen, Bool.false_eq_true, if_false] at hrun
    exact hrun

theorem mfence_passes (hk : s.issuing t ⟨0x72, .e f⟩ = some k) (hdone : s.accessesDone k t = true) :
    exec (.mfence t f) s = .next (s.modThread t fun th => { th with pc := th.pc + 4, st := .ready }) := by
  have hrun := execMfence.eq_def t f s
  simp only [coreRun_issuing hk, if_pos hdone, Thread.next_noWrite (f := f) (op := 0x72) (by decide) rfl] at hrun
  exact hrun

/-! ## END (07 R371) -/

/-- The state with thread `t` ended. -/
def State.endThread (s : State) (t : Nat) : State := s.modThread t fun th => { th with st := .ended }

theorem State.endThread_st (s : State) (t x : Nat) : ((s.endThread t).thread x).st = if x = t then .ended else (s.thread x).st := by
  unfold State.endThread
  rw [State.thread_modThread]
  by_cases hx : x = t
  · rw [if_pos hx.symm, if_pos hx]
  · rw [if_neg (Ne.symm hx), if_neg hx]

theorem State.endThread_kernel (s : State) (t x : Nat) : ((s.endThread t).thread x).kernel = (s.thread x).kernel := by
  unfold State.endThread
  rw [State.thread_modThread]
  split
  · next hx => rw [hx]
  · rfl

theorem execEndThread_issuing (hk : s.issuing t ⟨0x69, .e f⟩ = some k) : exec (.endThread t f) s = .next (
    if (k.ids.all fun x => ((s.endThread t).thread x).st == .ended) = true then (s.endThread t).endKernel k .done
    else (s.endThread t).releaseBars k) := by
  change execEndThread t f s = _
  exact coreRun_issuing hk _

/-- END of a thread that is not the last releases the barriers that it held. -/
theorem endThread_ends (hk : s.issuing t ⟨0x69, .e f⟩ = some k) (hlive : ∃ x ∈ k.ids, x ≠ t ∧ (s.thread x).st ≠ .ended) :
    Does (.endThread t f) s fun u => (u.thread t).st = .ended ∧ u = { s with threads := u.threads } := by
  obtain ⟨x, hx, hne, hst⟩ := hlive
  have hrun := execEndThread_issuing hk
  rw [if_neg] at hrun
  · refine ⟨_, hrun, ?_, ?_⟩
    · have hended : ((s.endThread t).thread t).st = .ended := (s.endThread_st t t).trans (if_pos rfl)
      have hsame : (k.cores.foldl (State.releaseCore k) (s.endThread t)).thread t = (s.endThread t).thread t :=
        (foldl_releaseCore_thread_cases k k.cores (s.endThread t) t).resolve_right fun h =>
          ThreadState.noConfusion (h.1.symm.trans hended)
      rw [State.releaseBars_thread, hsame, if_neg, hended]
      rintro ⟨-, hmem⟩
      obtain ⟨-, hlive, -⟩ := (mem_liveThreads _ k none t).mp hmem
      exact hlive (hsame ▸ hended)
    · obtain ⟨th, heq⟩ := (s.endThread t).releaseBars_eq k
      rw [heq]
      rfl
  · intro hall
    have h := List.all_eq_true.mp hall x hx
    rw [s.endThread_st, if_neg hne, beq_iff_eq] at h
    exact hst h

/-- END of the last thread completes the kernel with DONE. -/
theorem endThread_completes (hk : s.issuing t ⟨0x69, .e f⟩ = some k) {j : Job}
    (hall : ∀ x ∈ k.ids, x ≠ t → (s.thread x).st = .ended) (hj : s.job? k.job = some j) (hrunning : j.phase = .running) :
    Does (.endThread t f) s fun u => u.ended k.job .done ∧ u.kernel? k.job = none ∧ (k.late = [] → s.sameMem u) ∧
      ∀ x ∈ k.ids, (s.thread x).kernel = k.job → u.thread x = {} := by
  have hrun := execEndThread_issuing hk
  rw [if_pos] at hrun
  · obtain ⟨j', hj', hphase, -⟩ := State.endKernel_running (s := s.endThread t) (k := k) .done hj hrunning
    refine ⟨_, hrun, ⟨j', hj', hphase⟩, ?_, fun hlate => State.endKernel_sameMem (s := s.endThread t) .done hlate, fun x hx hkernel => ?_⟩
    · rw [State.endKernel_kernel?, if_pos rfl]
    · rw [State.endKernel_thread, if_pos ⟨hx, (s.endThread_kernel t x).trans hkernel⟩]
  · refine List.all_eq_true.mpr fun x hx => beq_iff_eq.mpr ?_
    rw [s.endThread_st]
    split
    · rfl
    · next hne => exact hall x hx hne

/-! ## Progress and budgets -/

theorem setprog_spec (hk : s.issuing t ⟨0x73, .e f⟩ = some k) :
    exec (.setprog t f) s = .next (s.modThread t fun th =>
      { th with progress := some ((th.sreg f.sa).toNat % 2 ^ 32), pc := th.pc + 4, st := .ready }) := by
  have hrun := execSetprog.eq_def t f s
  rw [regOp, coreRun_issuing hk] at hrun
  simp only [Thread.next_noWrite (f := f) (op := 0x73) (by decide) rfl] at hrun
  exact hrun

/-- The thread behind an instruction of format E that writes a scalar register. -/
theorem Thread.next_setS {op : BitVec 8} (hop : op.getLsbD 7 = false) (th : Thread) (n : BitVec 5) (v : Word64) :
    (th.setS n v).next ⟨op, .e f⟩ =
      { th.setS n v with pc := th.pc + 4, st := .ready, loads := th.loadsAfter ⟨op, .e f⟩ } := by
  have hset : (th.setS n v).loads = th.loads ∧ (th.setS n v).p = th.p := by
    unfold Thread.setS
    split <;> exact ⟨rfl, rfl⟩
  obtain ⟨hloads, hp⟩ := hset
  rw [Thread.next, Thread.pc_setS, CoreInstr.len_word hop, Thread.loadsAfter_congr hloads hp]

theorem rdcyc_spec (hk : s.issuing t ⟨0x74, .e f⟩ = some k) :
    exec (.rdcyc t f) s = .next (s.modThread t fun th =>
      { th.setS f.sd (BitVec.ofNat 64 ((s.frame.counter - k.start) * 16384 + s.frame.symbol * 4 / 25)) with
        pc := th.pc + 4, st := .ready, loads := th.loadsAfter ⟨0x74, .e f⟩ }) := by
  have hrun := execRdcyc.eq_def t f s
  simp only [coreRun_issuing hk, Thread.next_setS (f := f) (op := 0x74) (by decide)] at hrun
  exact hrun

theorem rdbud_spec (hk : s.issuing t ⟨0x75, .e f⟩ = some k) :
    exec (.rdbud t f) s = .next (s.modThread t fun th =>
      { th.setS f.sd (BitVec.ofNat 64 (k.budget - k.traffic)) with
        pc := th.pc + 4, st := .ready, loads := th.loadsAfter ⟨0x75, .e f⟩ }) := by
  have hrun := execRdbud.eq_def t f s
  simp only [coreRun_issuing hk, Thread.next_setS (f := f) (op := 0x75) (by decide)] at hrun
  exact hrun

/-- RDFPS returns FPSTAT, and clears it on request (07 R355). -/
theorem rdfps_spec (hk : s.issuing t ⟨0x7B, .e f⟩ = some k) :
    exec (.rdfps t f) s = .next (s.modThread t fun th =>
      { th.setS f.sd (th.fpstat.setWidth 64) with
        fpstat := if f.imm.getLsbD 0 then 0 else th.fpstat, pc := th.pc + 4, st := .ready,
        loads := th.loadsAfter ⟨0x7B, .e f⟩ }) := by
  have hrun := execRdfps.eq_def t f s
  rw [regOp, coreRun_issuing hk] at hrun
  refine hrun.trans (congrArg _ (State.modThread_congr _ _ _ _ ?_))
  have hnext := Thread.next_setS (f := f) (op := 0x7B) (by decide) (s.thread t) f.sd ((s.thread t).fpstat.setWidth 64)
  have hfp := Thread.fpstat_setS (s.thread t) f.sd ((s.thread t).fpstat.setWidth 64)
  cases f.imm.getLsbD 0 with
  | true => exact congrArg (fun a : Thread => { a with fpstat := 0 }) hnext
  | false =>
    refine hnext.trans ?_
    generalize (s.thread t).setS f.sd ((s.thread t).fpstat.setWidth 64) = th at hfp ⊢
    rw [← hfp]
    rfl

end

/-- Settles O13: a barrier releases its threads exactly when no live thread is missing, END of the last thread ends the kernel, and the
other instructions write their thread alone. -/
theorem barriersEndsAndBudgets : Obligations.BarriersEndsAndBudgets := by
  unfold Obligations.BarriersEndsAndBudgets
  intro t f s k ht
  exact ⟨barT_spec ht, barK_spec ht, fun _ _ hi hk h => fences_wait hi hk (accessesDone_of_outstanding h), mfence_passes,
    fun hk => ⟨endThread_ends hk, fun _ => endThread_completes hk⟩, setprog_spec, rdcyc_spec, rdbud_spec, rdfps_spec⟩

end Sys2Proof.Machine
end

section
/-! PROOFS. Reads that find correctable errors alone (09 R448, R449): what they change and what they leave. -/

namespace Sys2Proof.Machine

/-- `u` is `s` after reads that found correctable errors: only the errors still to be found and their counts differ, and every
uncorrectable one is still to be found. -/
def State.Softened (s u : State) : Prop :=
  ∃ l c, u = { s with latent := l, corrected := c } ∧ ∀ b, (b, true) ∈ l ↔ (b, true) ∈ s.latent

theorem State.Softened.refl (s : State) : s.Softened s := ⟨_, _, rfl, fun _ => Iff.rfl⟩

theorem State.Softened.trans {s t u : State} (h : s.Softened t) (h' : t.Softened u) : s.Softened u := by
  obtain ⟨l, c, rfl, hl⟩ := h
  obtain ⟨l', c', rfl, hl'⟩ := h'
  exact ⟨l', c', rfl, fun b => (hl' b).trans (hl b)⟩

/-- The same blocks can be read. -/
theorem State.Softened.poisoned {s u : State} (h : s.Softened u) (a : Nat) : u.poisoned a = s.poisoned a := by
  obtain ⟨l, c, rfl, hl⟩ := h
  simp only [State.poisoned, List.contains_eq_mem, hl]

theorem State.foundError_softened (s : State) {x : Nat × Bool} (hx : x.2 = false) : s.Softened (s.foundError x) := by
  have hkept : ∀ b, (b, true) ∈ s.latent.filter (fun y => y != x) ↔ (b, true) ∈ s.latent := by
    intro b
    have hne : (b, true) ≠ x := fun h => Bool.noConfusion ((congrArg Prod.snd h).trans hx)
    simp [hne]
  unfold State.foundError
  rw [hx, if_neg Bool.false_ne_true]
  dsimp only
  split
  · exact ⟨_, _, rfl, hkept⟩
  · exact ⟨_, _, rfl, hkept⟩

/-- A read of a range in which no error is uncorrectable. -/
theorem State.findIn_softened {s : State} {a n : Nat} (h : ∀ x ∈ s.latent, a / 64 ≤ x.1 → x.1 ≤ (a + n - 1) / 64 → x.2 = false) :
    s.Softened (s.findIn a n) := by
  refine forEach_keeps s.Softened _ State.foundError (fun u x hx hu => hu.trans (u.foundError_softened ?_)) s (.refl s)
  simp only [List.mem_filter, Bool.and_eq_true, decide_eq_true_eq] at hx
  obtain ⟨hmem, ⟨hlo, hhi⟩, -⟩ := hx
  exact h x hmem hlo hhi

/-- A block that can be read holds no uncorrectable error. -/
theorem State.latent_of_not_poisoned {s : State} {x : Nat × Bool} (hx : x ∈ s.latent) (h : s.poisoned (64 * x.1) = false) : x.2 = false := by
  unfold State.poisoned at h
  rw [Bool.or_eq_false_iff, List.contains_eq_mem, List.contains_eq_mem, decide_eq_false_iff_not, decide_eq_false_iff_not,
    Nat.mul_div_cancel_left _ (by decide)] at h
  refine Bool.eq_false_iff.mpr fun htrue => h.2 ?_
  rw [← htrue]
  exact hx

end Sys2Proof.Machine
end

section
/-! PROOFS. The start of a kernel (07 R342, R344, R366, R367): its image, its threads, and the kernels that stood on them. -/

namespace Sys2Proof.Machine

/-! ## The image -/

/-- The 64 B blocks of a kernel's image. -/
def Kernel.imageBlocks (k : Kernel) : List Nat :=
  (List.range ((k.image + k.size - 1) / 64 - k.image / 64 + 1)).map fun i => (k.image / 64 + i) * 64

/-- The image can be read: each of its blocks stands in memory in service and is not poisoned. -/
theorem State.imageStop_eq_none (s : State) (k : Kernel) : s.imageStop k = none ↔
    ∀ a ∈ k.imageBlocks, (s.onBadStack a = false ∧ s.onBadCluster a = false) ∧ s.poisoned a = false := by
  have hstop : s.imageStop k = if k.imageBlocks.any (fun a => s.onBadStack a || s.onBadCluster a) = true then some .unitFailed
      else if k.imageBlocks.any s.poisoned = true then some .dataUncorrectable else none := rfl
  rw [hstop, forall₂_and]
  generalize k.imageBlocks = l
  have hbad : (∀ a ∈ l, s.onBadStack a = false ∧ s.onBadCluster a = false) ↔ ¬ l.any (fun a => s.onBadStack a || s.onBadCluster a) = true := by
    simp
  have hpoison : (∀ a ∈ l, s.poisoned a = false) ↔ ¬ l.any s.poisoned = true := by simp
  rw [hbad, hpoison]
  split
  · simp_all
  · split <;> simp_all

theorem State.imageStop_softened {s u : State} {k : Kernel} (h : s.Softened u) (hk : s.imageStop k = none) : u.imageStop k = none := by
  rw [State.imageStop_eq_none] at hk ⊢
  intro a ha
  obtain ⟨hbad, hpoison⟩ := hk a ha
  have hp := (h.poisoned a).trans hpoison
  obtain ⟨l, c, rfl, -⟩ := h
  exact ⟨hbad, hp⟩

theorem State.findIn_image {s : State} {k : Kernel} (hk : s.imageStop k = none) : s.Softened (s.findIn k.image k.size) := by
  refine State.findIn_softened fun x hx hlo hhi => State.latent_of_not_poisoned hx ?_
  have hblock : 64 * x.1 ∈ k.imageBlocks :=
    List.mem_map.mpr ⟨x.1 - k.image / 64, List.mem_range.mpr (by omega), by omega⟩
  obtain ⟨-, hpoison⟩ := (s.imageStop_eq_none k).mp hk _ hblock
  exact hpoison

/-! ## Local store windows -/

theorem writeLocals_get (m : Sparse (Option Byte)) (k x : Nat) (bs : List Byte) :
    Sparse.get none (writeLocals m k bs) x = if k ≤ x ∧ x < k + bs.length then some (bs.getD (x - k) 0) else Sparse.get none m x := by
  induction bs generalizing m k with
  | nil => simp [writeLocals]
  | cons b bs ih =>
    rw [writeLocals, ih, Sparse.get_set, List.length_cons]
    by_cases hk : k = x
    · subst hk
      simp
    · by_cases hrest : k + 1 ≤ x ∧ x < k + 1 + bs.length
      · rw [if_pos hrest, if_pos (by omega), show x - k = (x - (k + 1)) + 1 by omega, List.getD_cons_succ]
      · rw [if_neg hrest, if_neg hk, if_neg (by omega)]

@[simp] theorem State.length_bytes (s : State) (a n : Nat) : (s.bytes a n).length = n := by
  induction n generalizing a with
  | zero => rfl
  | succ n ih => rw [State.bytes, List.length_cons, ih]

theorem State.getD_bytes (s : State) (a n : Nat) {i : Nat} (hi : i < n) : (s.bytes a n).getD i 0 = s.anyByte (a + i) := by
  induction n generalizing a i with
  | zero => exact absurd hi (Nat.not_lt_zero i)
  | succ n ih =>
    cases i with
    | zero => rfl
    | succ i => rw [State.bytes, List.getD_cons_succ, ih (a + 1) (by omega), Nat.add_assoc, Nat.add_comm 1 i]

theorem localKey_inside {job n a len : Nat} (ha : a < len) :
    (localKey job n 0 ≤ localKey job n a ∧ localKey job n a < localKey job n 0 + len) ∧ localKey job n a - localKey job n 0 = a := by
  unfold localKey
  omega

theorem localKey_outside {job m n a len : Nat} (ha : a < len) (hlen : len ≤ 0x80000) (h : n ≠ m) :
    ¬ (localKey job m 0 ≤ localKey job n a ∧ localKey job n a < localKey job m 0 + len) := by
  unfold localKey
  omega

/-- A write from offset 0 of a window is read there, and in no other core's window. -/
theorem State.localByte_writeLocal (s : State) (job m n : Nat) (bs : List Byte) {a : Nat} (ha : a < bs.length)
    (hlen : bs.length ≤ 0x80000) : (s.writeLocal job m 0 bs).localByte job n a = if n = m then bs.getD a 0 else s.localByte job n a := by
  unfold State.localByte State.writeLocal
  dsimp only
  rw [writeLocals_get]
  by_cases hnm : n = m
  · subst hnm
    obtain ⟨hin, hofs⟩ := localKey_inside (job := job) (n := n) ha
    rw [if_pos hin, hofs, if_pos rfl]
  · rw [if_neg (localKey_outside ha hlen hnm), if_neg hnm]

/-- The turn of a loop that copies an image to the windows of its cores. -/
def State.copyImage (job : Nat) (image : List Byte) (s : State) (n : Nat) : State := s.writeLocal job n 0 image

theorem foldl_copyImage (job : Nat) (image : List Byte) (l : List Nat) (hlen : image.length ≤ 0x80000) (s : State) {n a : Nat}
    (ha : a < image.length) : (l.foldl (State.copyImage job image) s).localByte job n a =
      if n ∈ l then image.getD a 0 else s.localByte job n a := by
  induction l generalizing s with
  | nil => simp
  | cons m l ih =>
    rw [List.foldl_cons, ih, State.copyImage,
      State.localByte_writeLocal s job m n image ha hlen]
    by_cases hmem : n ∈ l <;> simp [hmem]

theorem foldl_copyImage_eq (job : Nat) (image : List Byte) (l : List Nat) (s : State) :
    ∃ m, l.foldl (State.copyImage job image) s = { s with locals := m } :=
  forEach_keeps (fun u => ∃ m, u = { s with locals := m }) l (State.copyImage job image)
    (fun u n _ hu => by obtain ⟨m, rfl⟩ := hu; exact ⟨_, rfl⟩) s ⟨_, rfl⟩

end Sys2Proof.Machine
end

section
/-! PROOFS. KERNEL_START (07 R342 to R346, R366, R369): the threads of a kernel start, or its image is requested. -/

namespace Sys2Proof.Machine

/-! ## The threads start (07 R342) -/

/-- The turn of the loop that starts a kernel's threads. -/
def State.startAt (k : Kernel) (s : State) (i : Nat) : State := s.modThread (nth k.ids i 0) fun _ => startThread k (nth k.ids i 0) i k.ids.length

/-- The kernel runs. -/
def Kernel.begun (k : Kernel) : Kernel := { k with started := true, copying := false }

theorem nth_mem {l : List Nat} {i : Nat} (hi : i < l.length) : nth l i 0 ∈ l := by
  unfold nth
  rw [List.getD_eq_getElem _ _ hi]
  exact List.getElem_mem hi

theorem nth_inj {l : List Nat} (hl : l.Nodup) {i j : Nat} (hi : i < l.length) (hj : j < l.length) (h : nth l i 0 = nth l j 0) : i = j := by
  unfold nth at h
  rw [List.getD_eq_getElem _ _ hi, List.getD_eq_getElem _ _ hj] at h
  exact (List.Nodup.getElem_inj_iff hl).mp h

theorem foldl_startAt_thread {k : Kernel} (hids : k.ids.Nodup) (s : State) {i : Nat} (hi : i < k.ids.length) :
    ((List.range k.ids.length).foldl (State.startAt k) s).thread (nth k.ids i 0) = startThread k (nth k.ids i 0) i k.ids.length := by
  refine forEach_once (fun s => s.thread (nth k.ids i 0)) (fun _ => startThread k (nth k.ids i 0) i k.ids.length) (State.startAt k)
    (List.mem_range.mpr hi) List.nodup_range (fun u => ?_) (fun u j hj hne => ?_) s
  · exact (State.thread_modThread ..).trans (if_pos rfl)
  · exact (State.thread_modThread ..).trans (if_neg fun h => hne (nth_inj hids (List.mem_range.mp hj) hi h))

theorem foldl_startAt_thread_ne {k : Kernel} (s : State) {x : Nat} (hx : x ∉ k.ids) :
    ((List.range k.ids.length).foldl (State.startAt k) s).thread x = s.thread x := by
  refine forEach_same (fun s => s.thread x) _ (State.startAt k) (fun u i hi => ?_) s
  exact (State.thread_modThread ..).trans (if_neg fun (h : nth k.ids i 0 = x) => hx (h ▸ nth_mem (List.mem_range.mp hi)))

theorem foldl_startAt_eq (k : Kernel) (l : List Nat) (s : State) : ∃ m, l.foldl (State.startAt k) s = { s with threads := m } :=
  forEach_keeps (fun u => ∃ m, u = { s with threads := m }) l (State.startAt k)
    (fun u i _ hu => by obtain ⟨m, rfl⟩ := hu; exact ⟨_, rfl⟩) s ⟨_, rfl⟩

/-- A kernel whose cores are in service and whose image can be read begins. -/
theorem State.startThreads_eq {s : State} {k : Kernel} (hcores : ∀ n ∈ k.cores, s.mapped.contains (.core n) = false)
    (himage : s.imageStop k = none) : s.startThreads k =
      ((List.range k.ids.length).foldl (State.startAt k) (k.cores.foldl (State.copyImage k.job (s.bytes k.image k.size)) s)).modKernel
        k.job Kernel.begun := by
  have hany : (k.cores.any fun n => s.mapped.contains (.core n)) = false := by simpa using hcores
  unfold State.startThreads
  rw [if_neg (by rw [hany]; exact Bool.false_ne_true), himage]
  rfl

theorem State.startThreads_starts {s : State} {k : Kernel} (hk : s.kernel? k.job = some k)
    (hcores : ∀ n ∈ k.cores, s.mapped.contains (.core n) = false) (himage : s.imageStop k = none) (hids : k.ids.Nodup)
    (hsize : k.size ≤ 65536) :
    (∀ n ∈ k.cores, ∀ a < k.size, (s.startThreads k).localByte k.job n a = s.anyByte (k.image + a)) ∧
    (∀ i < k.ids.length, (s.startThreads k).thread (nth k.ids i 0) = startThread k (nth k.ids i 0) i k.ids.length) ∧
    (s.startThreads k).kernel? k.job = some k.begun ∧
    (∀ x, x ∉ k.ids → (s.startThreads k).thread x = s.thread x) ∧ s.sameMem (s.startThreads k) := by
  rw [State.startThreads_eq hcores himage]
  have hbytes := s.length_bytes k.image k.size
  have hget : ∀ a < k.size, (s.bytes k.image k.size).getD a 0 = s.anyByte (k.image + a) := fun a ha => s.getD_bytes k.image k.size ha
  generalize s.bytes k.image k.size = image at hbytes hget ⊢
  have hlocal : ∀ n ∈ k.cores, ∀ a < k.size,
      (k.cores.foldl (State.copyImage k.job image) s).localByte k.job n a = s.anyByte (k.image + a) := fun n hn a ha =>
    (foldl_copyImage k.job image k.cores (by omega) s (hbytes ▸ ha)).trans ((if_pos hn).trans (hget a ha))
  obtain ⟨l, hcopied⟩ := foldl_copyImage_eq k.job image k.cores s
  rw [hcopied] at hlocal ⊢
  have hstarted := fun i hi => foldl_startAt_thread (k := k) hids { s with locals := l } (i := i) hi
  have hother := fun x hx => foldl_startAt_thread_ne (k := k) { s with locals := l } (x := x) hx
  obtain ⟨m, hthreads⟩ := foldl_startAt_eq k (List.range k.ids.length) { s with locals := l }
  rw [hthreads] at hstarted hother ⊢
  exact ⟨hlocal, hstarted, State.kernel?_modKernel_same (s := { s with locals := l, threads := m }) (f := Kernel.begun) (fun _ => rfl) hk,
    hother, rfl, rfl⟩

/-- The registers of a thread at its start (07 R342). -/
theorem startThread_registers (k : Kernel) (x i n : Nat) :
    (startThread k x i n).pc = k.entry ∧ (startThread k x i n).st = .ready ∧
    (startThread k x i n).sreg 1 = BitVec.ofNat 64 i ∧ (startThread k x i n).sreg 2 = BitVec.ofNat 64 n ∧
    (startThread k x i n).sreg 3 = BitVec.ofNat 64 k.arg ∧ (startThread k x i n).sreg 4 = BitVec.ofNat 64 (x / 8) ∧
    (startThread k x i n).sreg 5 = BitVec.ofNat 64 k.lsBytes ∧
    (∀ r, r = 0 ∨ 6 ≤ r.toNat → (startThread k x i n).sreg r = 0) ∧
    (∀ v l, (startThread k x i n).lane v l = 0) ∧ (∀ p, p ≠ 0 → (startThread k x i n).preg p = 0) ∧
    (startThread k x i n).fpstat = 0 := by
  have hsreg : ∀ r, (startThread k x i n).sreg r = if r = 5 then BitVec.ofNat 64 k.lsBytes else if r = 4 then BitVec.ofNat 64 (x / 8)
      else if r = 3 then BitVec.ofNat 64 k.arg else if r = 2 then BitVec.ofNat 64 n else if r = 1 then BitVec.ofNat 64 i else 0 := by
    intro r
    have hfresh : ({ st := .ready, kernel := k.job, pc := k.entry } : Thread).sreg r = 0 := by
      unfold Thread.sreg
      split <;> rfl
    unfold startThread
    simp only [Thread.sreg_setS, hfresh]
    rfl
  refine ⟨rfl, rfl, hsreg 1, hsreg 2, hsreg 3, hsreg 4, hsreg 5, fun r hr => ?_, fun v l => rfl, fun p hp => if_neg hp, rfl⟩
  have hne : ∀ m : BitVec 5, 1 ≤ m.toNat → m.toNat ≤ 5 → r ≠ m := by
    rintro m hm hm' rfl
    rcases hr with rfl | hr
    · exact absurd hm (by decide)
    · omega
  rw [hsreg, if_neg (hne 5 (by decide) (by decide)), if_neg (hne 4 (by decide) (by decide)), if_neg (hne 3 (by decide) (by decide)),
    if_neg (hne 2 (by decide) (by decide)), if_neg (hne 1 (by decide) (by decide))]

/-! ## KERNEL_START -/

/-- A kernel that no other stands in the way of ends none. -/
theorem State.stopBefore_of_clear {s : State} {k : Kernel}
    (h : ∀ x ∈ s.kernels, x.job = k.job ∨ (x.started = false ∧ x.copying = false) ∨ ∀ i ∈ x.ids, i ∉ k.ids) : s.stopBefore k = s := by
  unfold State.stopBefore
  rw [List.filter_eq_nil_iff.mpr]
  · rfl
  · intro x hx
    rcases h x hx with h | ⟨h, h'⟩ | h
    · simp [h]
    · simp [h, h']
    · have hany : x.ids.any k.ids.contains = false := by simpa using h
      simp [hany]

/-- The state in which a kernel whose first frame has come reads its image: the kernels before it have ended and its command executes. -/
def State.readsImage (s : State) (k : Kernel) : State :=
  ((s.stopBefore k).findIn k.image k.size).modJob k.job fun j => j.execute s.frame

/-- The kernel reads its image. -/
def Kernel.copies (k : Kernel) : Kernel := { k with copying := true }

theorem execKernelStart_mayStart {s : State} {k : Kernel} (hk : s.kernel? k.job = some k) (hmay : s.kernelMayStart k = true) :
    exec (.kernelStart k.job) s = .next (if ((s.readsImage k).imageRequests k).isEmpty = true then (s.readsImage k).startThreads k
      else forEach ((s.readsImage k).imageRequests k) (fun s x => s.ask k.job x) ((s.readsImage k).modKernel k.job Kernel.copies)) := by
  have hrun := execKernelStart.eq_def k.job s
  simp only [hk, if_pos hmay] at hrun
  refine Eq.trans (b := execKernelStart k.job s) rfl (hrun.trans ?_)
  exact (apply_ite Host.Outcome.next _ _ _).symm

theorem execKernelStart_imageIn {s : State} {k : Kernel} (hk : s.kernel? k.job = some k)
    (hcopying : k.copying = true) (hin : s.imageIn k = true) :
    exec (.kernelStart k.job) s = .next ((s.findIn k.image k.size).startThreads k) := by
  have hrun := execKernelStart.eq_def k.job s
  have hmay : s.kernelMayStart k = false := by simp [State.kernelMayStart, hcopying]
  simp only [hk, hmay, hcopying, hin, Bool.false_eq_true, if_false, Bool.and_self, if_true] at hrun
  exact hrun

/-- The start's own view of the state is that of `s`, but for the errors that the reading of the image finds. -/
theorem State.readsImage_eq {s : State} {k : Kernel} (himage : s.imageStop k = none)
    (hclear : ∀ x ∈ s.kernels, x.job = k.job ∨ (x.started = false ∧ x.copying = false) ∨ ∀ i ∈ x.ids, i ∉ k.ids) :
    ∃ l c j, s.readsImage k = { s with latent := l, corrected := c, jobs := j } ∧ (s.readsImage k).imageStop k = none := by
  have hsoft := State.findIn_image himage
  have hstop := State.imageStop_softened hsoft himage
  unfold State.readsImage
  rw [State.stopBefore_of_clear hclear]
  obtain ⟨l, c, hfind, -⟩ := hsoft
  rw [hfind] at hstop ⊢
  exact ⟨_, _, _, rfl, hstop⟩

/-- The state in which the image of a kernel has come, before its threads start. -/
theorem kernelStart_reads {s : State} {k : Kernel} (hk : s.kernel? k.job = some k)
    (hwhen : (s.kernelMayStart k = true ∧ s.isHbm k.image = false) ∨ (k.started = false ∧ k.copying = true ∧ s.imageIn k = true))
    (himage : s.imageStop k = none)
    (hclear : ∀ x ∈ s.kernels, x.job = k.job ∨ (x.started = false ∧ x.copying = false) ∨ ∀ i ∈ x.ids, i ∉ k.ids) :
    ∃ l c j, let u : State := { s with latent := l, corrected := c, jobs := j }
      exec (.kernelStart k.job) s = .next (u.startThreads k) ∧ u.imageStop k = none := by
  rcases hwhen with ⟨hmay, hhbm⟩ | ⟨-, hcopying, hin⟩
  · have hrun := execKernelStart_mayStart hk hmay
    obtain ⟨l, c, j, heq, hstop⟩ := State.readsImage_eq himage hclear
    have hnone : (s.readsImage k).imageRequests k = [] := by
      unfold State.imageRequests
      rw [if_neg]
      rw [heq]
      exact fun h => Bool.noConfusion (hhbm.symm.trans h)
    simp only [hnone, List.isEmpty_nil, if_true] at hrun
    rw [heq] at hrun hstop
    exact ⟨l, c, j, hrun, hstop⟩
  · have hsoft := State.findIn_image himage
    have hstop := State.imageStop_softened hsoft himage
    have hrun := execKernelStart_imageIn hk hcopying hin
    obtain ⟨l, c, hfind, -⟩ := hsoft
    rw [hfind] at hrun hstop
    exact ⟨l, c, s.jobs, hrun, hstop⟩

/-- The threads of a kernel start when its image can be read at once, or has come. -/
theorem kernelStart_starts {s : State} {k : Kernel} (hk : s.kernel? k.job = some k)
    (hwhen : (s.kernelMayStart k = true ∧ s.isHbm k.image = false) ∨ (k.started = false ∧ k.copying = true ∧ s.imageIn k = true))
    (hcores : ∀ n ∈ k.cores, s.mapped.contains (.core n) = false) (himage : s.imageStop k = none) (hids : k.ids.Nodup)
    (hsize : k.size ≤ 65536)
    (hclear : ∀ x ∈ s.kernels, x.job = k.job ∨ (x.started = false ∧ x.copying = false) ∨ ∀ i ∈ x.ids, i ∉ k.ids) :
    Does (.kernelStart k.job) s fun t =>
      (∀ n ∈ k.cores, ∀ a < k.size, t.localByte k.job n a = s.anyByte (k.image + a)) ∧
      (∀ i < k.ids.length, t.thread (nth k.ids i 0) = startThread k (nth k.ids i 0) i k.ids.length) ∧
      (∃ k', t.kernel? k.job = some k' ∧ k'.started = true ∧ k'.copying = false ∧ k'.traffic = k.traffic) ∧
      (∀ x, x ∉ k.ids → t.thread x = s.thread x) ∧ s.sameMem t := by
  obtain ⟨l, c, j, hrun, hstop⟩ := kernelStart_reads hk hwhen himage hclear
  obtain ⟨hlocal, hthread, hkernel, hother, hsame⟩ := State.startThreads_starts
    (s := { s with latent := l, corrected := c, jobs := j }) hk hcores hstop hids hsize
  exact ⟨_, hrun, hlocal, hthread, ⟨_, hkernel, rfl, rfl, rfl⟩, hother, hsame⟩

/-! ## An image in HBM (07 R344, R346, R366, R369) -/

/-- A kernel that reads its image, with `r` granules requested and the requests `l` waiting. -/
def Kernel.asked (k : Kernel) (r : Nat) (l : List (KernelReq × Nat)) : Kernel :=
  { k with copying := true, traffic := k.traffic + 2048 * r, inFrame := k.inFrame + 2048 * r, late := l }

/-- The kernel with traffic counted. -/
def Kernel.counted (n : Nat) (k : Kernel) : Kernel := { k with traffic := k.traffic + n, inFrame := k.inFrame + n }

/-- The kernel with one more request that waits. -/
def Kernel.postponed (x : KernelReq × Nat) (k : Kernel) : Kernel := { k with late := k.late ++ [x] }

theorem Kernel.counted_asked (k : Kernel) (r : Nat) (l : List (KernelReq × Nat)) : (k.asked r l).counted 2048 = k.asked (r + 1) l := by
  unfold Kernel.counted Kernel.asked
  simp only [Nat.mul_add, Nat.mul_one, Nat.add_assoc]

theorem Kernel.asked_zero (k : Kernel) : k.asked 0 k.late = k.copies := rfl

/-- Only kernels and the reads of HBM differ. -/
def State.ReadsDiffer (s u : State) : Prop := u = { s with kernels := u.kernels, reads := u.reads, nextRead := u.nextRead }

theorem State.ReadsDiffer.modKernel {s u : State} (h : s.ReadsDiffer u) (n : Nat) (f : Kernel → Kernel) : s.ReadsDiffer (u.modKernel n f) := by
  unfold State.ReadsDiffer at h ⊢
  exact congrArg (fun v : State => { v with kernels := (u.modKernel n f).kernels }) h

theorem State.ReadsDiffer.readGranule {s u : State} (h : s.ReadsDiffer u) (job a : Nat) (use : ReadUse) :
    s.ReadsDiffer (u.readGranule job a use) := by
  unfold State.ReadsDiffer at h ⊢
  exact congrArg (fun v : State => { v with reads := (u.readGranule job a use).reads, nextRead := (u.readGranule job a use).nextRead }) h

theorem State.ReadsDiffer.keeps {s u : State} (h : s.ReadsDiffer u) : u.threads = s.threads ∧ u.locals = s.locals ∧ s.sameMem u := by
  unfold State.ReadsDiffer at h
  rw [h]
  exact ⟨rfl, rfl, rfl, rfl⟩

/-- `u` is `s` after `m` of the requests of a kernel's image went out or wait. -/
def State.Copying (s : State) (k : Kernel) (m : Nat) (u : State) : Prop :=
  s.ReadsDiffer u ∧ ∃ r l, u.kernel? k.job = some (k.asked r l) ∧ u.reads.length = s.reads.length + r ∧ r + l.length = m ∧
    (l = [] ∨ k.rate ≤ k.inFrame + 2048 * r)

/-- A request of the image goes out below TRAFFIC_RATE, and waits from there on. -/
theorem State.Copying.ask {s u : State} {k : Kernel} {m : Nat} (h : s.Copying k m u) (a : Nat) :
    s.Copying k (m + 1) (u.ask k.job (.image a, 2048)) := by
  obtain ⟨hdiffer, r, l, hk, hreads, hm, hlate⟩ := h
  have hask : u.ask k.job (.image a, 2048) = if (l.isEmpty && decide (k.inFrame + 2048 * r < k.rate)) = true then
      (u.count (k.asked r l) 2048).readGranule k.job a .image else u.modKernel k.job (Kernel.postponed (.image a, 2048)) := by
    unfold State.ask
    rw [hk]
    rfl
  rw [hask]
  by_cases hgo : l = [] ∧ k.inFrame + 2048 * r < k.rate
  · obtain ⟨rfl, hrate⟩ := hgo
    rw [if_pos (by simp [hrate])]
    have hcount := State.kernel?_modKernel_same (s := u) (f := Kernel.counted 2048) (fun _ => rfl) hk
    refine ⟨(hdiffer.modKernel ..).readGranule .., r + 1, [], hcount.trans (congrArg some (k.counted_asked r [])), ?_, ?_, .inl rfl⟩
    · exact (List.length_append ..).trans (congrArg (· + 1) hreads)
    · exact congrArg (· + 1) hm
  · rw [if_neg (by simpa using hgo)]
    refine ⟨hdiffer.modKernel .., r, l ++ [(.image a, 2048)], State.kernel?_modKernel_same (f := Kernel.postponed _) (fun _ => rfl) hk, hreads,
      ?_, .inr (hlate.elim (fun hl => Nat.le_of_not_lt fun h => hgo ⟨hl, h⟩) id)⟩
    rw [List.length_append, ← hm]
    rfl

theorem State.Copying.forEach {s u : State} {k : Kernel} {m : Nat} (h : s.Copying k m u) (l : List (KernelReq × Nat))
    (hl : ∀ x ∈ l, ∃ a, x = (.image a, 2048)) : s.Copying k (m + l.length) (forEach l (fun s x => s.ask k.job x) u) := by
  induction l generalizing u m with
  | nil => exact h
  | cons x l ih =>
    obtain ⟨a, rfl⟩ := hl x List.mem_cons_self
    have hrest := ih (h.ask a) fun x hx => hl x (List.mem_cons_of_mem _ hx)
    rwa [Nat.add_assoc, Nat.add_comm 1] at hrest

theorem State.imageRequests_image (s : State) (k : Kernel) : ∀ x ∈ s.imageRequests k, ∃ a, x = (.image a, 2048) := by
  intro x hx
  unfold State.imageRequests at hx
  split at hx
  · simp only [List.mem_flatMap, List.mem_map] at hx
    obtain ⟨-, -, i, -, rfl⟩ := hx
    exact ⟨_, rfl⟩
  · exact absurd hx List.not_mem_nil

theorem State.imageRequests_ne_nil {s : State} {k : Kernel} (hhbm : s.isHbm k.image = true) (hcores : k.cores ≠ []) :
    s.imageRequests k ≠ [] := by
  unfold State.imageRequests
  rw [if_pos hhbm]
  obtain ⟨n, hn⟩ := List.exists_mem_of_ne_nil _ hcores
  refine List.ne_nil_of_mem (List.mem_flatMap.mpr ⟨n, hn, List.mem_map.mpr ⟨0, List.mem_range.mpr (Nat.succ_pos _), rfl⟩⟩)

/-- An image in HBM is requested granule by granule, at TRAFFIC_RATE. -/
theorem kernelStart_asks {s : State} {k : Kernel} (hk : s.kernel? k.job = some k) (hmay : s.kernelMayStart k = true)
    (hhbm : s.isHbm k.image = true) (hcores : k.cores ≠ []) (himage : s.imageStop k = none) (hlate : k.late = [])
    (hclear : ∀ x ∈ s.kernels, x.job = k.job ∨ (x.started = false ∧ x.copying = false) ∨ ∀ i ∈ x.ids, i ∉ k.ids) :
    Does (.kernelStart k.job) s fun t => t.threads = s.threads ∧ t.locals = s.locals ∧ s.sameMem t ∧
      (∃ k', t.kernel? k.job = some k' ∧ k'.started = false ∧ k'.copying = true ∧
        t.reads.length + k'.late.length = s.reads.length + k.late.length + (s.imageRequests k).length ∧
        k'.traffic = k.traffic + 2048 * (t.reads.length - s.reads.length) ∧ (k'.late = [] ∨ k'.rate ≤ k'.inFrame)) := by
  have hrun := execKernelStart_mayStart hk hmay
  obtain ⟨l, c, j, heq, -⟩ := State.readsImage_eq himage hclear
  have hstarted : k.started = false := by
    by_contra h
    simp [State.kernelMayStart, h] at hmay
  rw [heq] at hrun
  set u : State := { s with latent := l, corrected := c, jobs := j } with hu
  have hrequests : u.imageRequests k = s.imageRequests k := rfl
  rw [hrequests, if_neg (by simpa using State.imageRequests_ne_nil hhbm hcores)] at hrun
  have hbegin : u.Copying k 0 (u.modKernel k.job Kernel.copies) :=
    ⟨rfl, 0, k.late, (State.kernel?_modKernel_same (s := u) (f := Kernel.copies) (fun _ => rfl) hk).trans (congrArg some k.asked_zero.symm), rfl,
      by rw [hlate]; rfl, .inl hlate⟩
  obtain ⟨hdiffer, r, late, hk', hreads, hcount, hrate⟩ := hbegin.forEach _ (s.imageRequests_image k)
  refine ⟨_, hrun, ?_⟩
  generalize forEach (s.imageRequests k) (fun s x => s.ask k.job x) (u.modKernel k.job Kernel.copies) = t at hdiffer hk' hreads
  obtain ⟨hthreads, hlocals, hsame⟩ := hdiffer.keeps
  refine ⟨hthreads, hlocals, hsame, _, hk', hstarted, rfl, ?_, ?_, hrate⟩
  · change t.reads.length + late.length = _
    have hreads' : t.reads.length = s.reads.length + r := hreads
    rw [hlate, List.length_nil]
    omega
  · rw [show t.reads.length - s.reads.length = r from by rw [hreads]; exact Nat.add_sub_cancel_left ..]
    rfl

end Sys2Proof.Machine
end

section
/-! PROOFS. VKERNEL, the kernels that a start ends, LOAD_RETURN and KERNEL_BUDGET_STOP (07 R339, R343, R344, R346, R351, R367, R368, R370), and
the statement `KernelsStartReturnAndStop`. -/

namespace Sys2Proof.Machine

/-! ## What the end or the start of one kernel leaves of another command -/

/-- A command and its kernel. -/
def State.commandOf (s : State) (n : Nat) : Option Job × Option Kernel := (s.job? n, s.kernel? n)

theorem State.stopKernel_commandOf (s : State) {id n : Nat} (h : n ≠ id) (st : Status) : (s.stopKernel id st).commandOf n = s.commandOf n := by
  unfold State.stopKernel
  split
  · next k hk =>
    have hjob : k.job = id := by simpa using List.find?_some hk
    have hne : n ≠ k.job := hjob ▸ h
    unfold State.commandOf
    rw [State.endKernel_job?_ne _ _ _ hne, State.endKernel_kernel?, if_neg hne]
  · rfl

theorem State.modKernel_commandOf (s : State) {id n : Nat} (h : n ≠ id) {f : Kernel → Kernel} (hf : ∀ k, (f k).job = k.job) :
    (s.modKernel id f).commandOf n = s.commandOf n := by
  unfold State.commandOf
  rw [State.kernel?_modKernel s id n f hf, if_neg (Ne.symm h)]
  rfl

theorem State.startThreads_commandOf (s : State) (k : Kernel) {n : Nat} (h : n ≠ k.job) : (s.startThreads k).commandOf n = s.commandOf n := by
  unfold State.startThreads
  split
  · exact State.stopKernel_commandOf s h _
  · split
    · exact State.stopKernel_commandOf s h _
    · obtain ⟨l, hcopied⟩ := foldl_copyImage_eq k.job (s.bytes k.image k.size) k.cores s
      obtain ⟨m, hthreads⟩ := foldl_startAt_eq k (List.range k.ids.length) { s with locals := l }
      change (((List.range k.ids.length).foldl (State.startAt k)
        (k.cores.foldl (State.copyImage k.job (s.bytes k.image k.size)) s)).modKernel k.job Kernel.begun).commandOf n = _
      rw [hcopied, hthreads]
      exact State.modKernel_commandOf { s with locals := l, threads := m } h fun _ => rfl

theorem State.askImage_commandOf (s : State) {job n : Nat} (h : n ≠ job) (a : Nat) :
    (s.ask job (.image a, 2048)).commandOf n = s.commandOf n := by
  unfold State.ask
  split
  · rfl
  · next k hk =>
    have hjob : k.job = job := by simpa using List.find?_some hk
    refine ite_both (P := fun t : State => t.commandOf n = s.commandOf n) ?_ (State.modKernel_commandOf s h fun _ => rfl)
    exact State.modKernel_commandOf s (f := Kernel.counted 2048) (hjob ▸ h) fun _ => rfl

theorem State.findIn_commandOf (s : State) (a len n : Nat) : (s.findIn a len).commandOf n = s.commandOf n := by
  refine forEach_same (fun t => t.commandOf n) _ State.foundError (fun u x _ => ?_) s
  have hjobs : (u.foundError x).jobs = u.jobs := congrArg Prod.snd (u.foundError_bytesAndJobs x)
  have hkernels : (u.foundError x).kernels = u.kernels := by
    unfold State.foundError
    extract_lets a i t
    exact ite_both (P := fun v : State => v.kernels = u.kernels) (by rw [State.logError_kernels]; rfl)
      (ite_both (P := fun v : State => v.kernels = u.kernels) rfl rfl)
  unfold State.commandOf State.job? State.kernel?
  rw [hjobs, hkernels]

/-! ## The kernels that still stand on the threads (07 R367, R370) -/

theorem Job.finish_finished {j : Job} {st : Status} (h : j.phase = .finished st) : (j.finish st).phase = .finished st := by
  unfold Job.finish
  rw [h]
  simp

/-- A kernel that still stands on a thread of one that may start ends BUDGET_EXHAUSTED. -/
theorem State.stopBefore_ends {s : State} {k k' : Kernel} {j : Job} {i : Nat} (hk' : k' ∈ s.kernels) (hne : k'.job ≠ k.job)
    (hstarted : k'.started = true) (hi : i ∈ k'.ids) (hi' : i ∈ k.ids) (hj : s.job? k'.job = some j) (hrunning : j.phase = .running) :
    (s.stopBefore k).ended k'.job .budgetExhausted ∧ (s.stopBefore k).kernel? k'.job = none := by
  have hends : ∀ {u : State} {j : Job} (b : Kernel), b.job = k'.job → u.job? k'.job = some j →
      j.phase = .running ∨ j.phase = .finished .budgetExhausted → (u.endKernel b .budgetExhausted).ended k'.job .budgetExhausted := by
    intro u j b hb hj hphase
    obtain ⟨j', hj', hphase', -⟩ := State.endKernel_job? (k := b) .budgetExhausted (hb ▸ hj)
    refine ⟨j', hb ▸ hj', hphase'.trans ?_⟩
    rcases hphase with h | h
    · rw [Job.finish_running _ h]
    · exact Job.finish_finished h
  refine forEach_reaches (fun u => ∃ j, u.job? k'.job = some j ∧ (j.phase = .running ∨ j.phase = .finished .budgetExhausted))
    (fun u => u.ended k'.job .budgetExhausted ∧ u.kernel? k'.job = none) _ (fun s x => s.endKernel x .budgetExhausted) k' ?_
    (fun u b hu => ?_) (fun u hu => ?_) (fun u b hu => ?_) s ⟨j, hj, .inl hrunning⟩
  · refine List.mem_filter.mpr ⟨hk', ?_⟩
    have hany : k'.ids.any k.ids.contains = true := List.any_eq_true.mpr ⟨i, hi, by simpa using hi'⟩
    simp [hne, hstarted, hany]
  · obtain ⟨j, hj, hphase⟩ := hu
    by_cases hb : b.job = k'.job
    · obtain ⟨j', hj', hphase'⟩ := hends b hb hj hphase
      exact ⟨j', hj', .inr hphase'⟩
    · exact ⟨j, (State.endKernel_job?_ne u b _ (Ne.symm hb)).trans hj, hphase⟩
  · obtain ⟨j, hj, hphase⟩ := hu
    exact ⟨hends k' rfl hj hphase, (State.endKernel_kernel? ..).trans (if_pos rfl)⟩
  · obtain ⟨⟨j, hj, hphase⟩, hnone⟩ := hu
    refine ⟨?_, by rw [State.endKernel_kernel?, hnone, ite_self]⟩
    by_cases hb : b.job = k'.job
    · exact hends b hb hj (.inr hphase)
    · exact ⟨j, (State.endKernel_job?_ne u b _ (Ne.symm hb)).trans hj, hphase⟩

theorem kernelStart_endsOthers {s : State} {k k' : Kernel} {j : Job} {i : Nat} (hk : s.kernel? k.job = some k)
    (hmay : s.kernelMayStart k = true) (hk' : k' ∈ s.kernels) (hne : k'.job ≠ k.job) (hstarted : k'.started = true) (hi : i ∈ k'.ids)
    (hi' : i ∈ k.ids) (hj : s.job? k'.job = some j) (hrunning : j.phase = .running) :
    Does (.kernelStart k.job) s fun t => t.ended k'.job .budgetExhausted ∧ t.kernel? k'.job = none := by
  obtain ⟨⟨j', hj', hphase⟩, hnone⟩ := State.stopBefore_ends hk' hne hstarted hi hi' hj hrunning
  have hreads : (s.readsImage k).commandOf k'.job = (s.stopBefore k).commandOf k'.job := by
    unfold State.readsImage
    rw [← State.findIn_commandOf (s.stopBefore k) k.image k.size]
    unfold State.commandOf
    rw [State.job?_modJob _ _ _ _ fun j => j.execute_id s.frame, if_neg (Ne.symm hne)]
    rfl
  have hstart : ∀ t : State, t.commandOf k'.job = (s.readsImage k).commandOf k'.job →
      t.ended k'.job .budgetExhausted ∧ t.kernel? k'.job = none := by
    intro t ht
    have hcommand := ht.trans hreads
    exact ⟨⟨j', (congrArg Prod.fst hcommand).trans hj', hphase⟩, (congrArg Prod.snd hcommand).trans hnone⟩
  refine ⟨_, execKernelStart_mayStart hk hmay, hstart _ (ite_both (P := fun t : State => t.commandOf k'.job = _) ?_ ?_)⟩
  · exact State.startThreads_commandOf _ k hne
  · refine (forEach_same (fun t => t.commandOf k'.job) _ _ (fun u x hx => ?_) _).trans (State.modKernel_commandOf _ hne fun _ => rfl)
    obtain ⟨a, rfl⟩ := State.imageRequests_image _ k x hx
    exact u.askImage_commandOf hne a

/-! ## VKERNEL, LOAD_RETURN and KERNEL_BUDGET_STOP -/

theorem vkernel_spec {s : State} {id : Nat} {j : Job} {c : Cost} {image size entry arg threads cores : Nat} {excl : Bool}
    (hj : s.job? id = some j) (hphase : j.phase = .planned) (hbody : j.body = .vkernel image size entry arg threads excl cores)
    (hcost : j.cost = some c) (hnone : s.kernel? id = none) (hstopped : j.stopped = false) :
    Does (.vkernel id) s fun t => t = { s with kernels := t.kernels } ∧
      ∃ k, t.kernels = s.kernels ++ [k] ∧ k.job = id ∧ k.session = j.session ∧ k.cores = bitList 256 cores ∧
        k.threads = threads ∧ k.ids = j.threadIds ∧ k.image = image ∧ k.size = size ∧ k.entry = entry ∧ k.arg = arg ∧ k.start = j.first ∧
        k.lsBytes = c.lsBytes ∧ k.cycles = c.cycles ∧ k.budget = c.traffic ∧ k.rate = c.rate ∧ k.started = false := by
  have hrun := execVkernel.eq_def id s
  simp only [hj, hphase, hbody, hcost, hstopped, hnone, Option.isSome_none, Bool.or_self, Bool.false_eq_true, if_false] at hrun
  exact ⟨_, hrun, rfl, _, rfl, rfl, rfl, rfl, rfl, rfl, rfl, rfl, rfl, rfl, rfl, rfl, rfl, rfl, rfl, rfl⟩

theorem loadReturn_spec {s : State} {t : Nat} {l : LoadOut} (hl : ((s.thread t).loads.find? fun x => x.waits == 0) = some l) :
    exec (.loadReturn t) s = .next (s.modThread t fun th => { th.deliver l.dest with loads := th.loads.filter fun x => x.n != l.n }) := by
  have hrun := execLoadReturn.eq_def t s
  simp only [hl] at hrun
  exact hrun

theorem kernelBudgetStop_spec {s : State} {k : Kernel} {j : Job} (hk : s.kernel? k.job = some k)
    (hruns : k.started = true ∨ k.copying = true) (hbudget : k.cycles ≤ s.cyclesUsed k ∨ k.budget ≤ k.traffic)
    (hj : s.job? k.job = some j) (hrunning : j.phase = .running) :
    Does (.kernelBudgetStop k.job) s fun t =>
      (∃ j', t.job? k.job = some j' ∧ j'.phase = .finished .budgetExhausted ∧ j'.faultOfs = s.progressOf k) ∧
      t.kernel? k.job = none ∧ (∀ x ∈ k.ids, (s.thread x).kernel = k.job → t.thread x = {}) ∧
      (∀ x, (x ∉ k.ids ∨ (s.thread x).kernel ≠ k.job) → t.thread x = s.thread x) ∧ (k.late = [] → s.sameMem t) ∧ t.posted = s.posted := by
  have hrun := execKernelBudgetStop.eq_def k.job s
  have hstops : ((k.started || k.copying) && (decide (k.cycles ≤ s.cyclesUsed k) || decide (k.budget ≤ k.traffic))) = true := by
    simpa using ⟨hruns, hbudget⟩
  simp only [hk, hstops, if_true] at hrun
  refine ⟨_, hrun, State.endKernel_running _ hj hrunning, (State.endKernel_kernel? ..).trans (if_pos rfl), fun x hx hkernel => ?_,
    fun x hx => ?_, State.endKernel_sameMem _, State.endKernel_posted ..⟩
  · rw [State.endKernel_thread, if_pos ⟨hx, hkernel⟩]
  · rw [State.endKernel_thread, if_neg (by tauto)]

/-- Settles O15: KERNEL_START ends the kernels in its way, then starts the threads or requests the image; the end of a kernel is
`State.endKernel`. -/
theorem kernelsStartReturnAndStop : Obligations.KernelsStartReturnAndStop := by
  unfold Obligations.KernelsStartReturnAndStop
  refine ⟨fun s id j c image size entry arg threads cores excl hj hphase hbody hcost hnone hstopped =>
      vkernel_spec hj hphase hbody hcost hnone hstopped,
    fun s k hk hwhen hcores himage hids _ _ hsize hclear => kernelStart_starts hk hwhen hcores himage hids hsize hclear,
    fun s k hk hmay hhbm hcores himage hlate hclear => kernelStart_asks hk hmay hhbm hcores himage hlate hclear,
    fun s k k' j i hk hmay _ hk' hne hstarted hi hi' hj hrunning => kernelStart_endsOthers hk hmay hk' hne hstarted hi hi' hj hrunning,
    startThread_registers, fun s t l hl => loadReturn_spec hl,
    fun s k j hk hruns hbudget hj hrunning => kernelBudgetStop_spec hk hruns hbudget hj hrunning⟩

end Sys2Proof.Machine
end

section
/-! PROOFS. The accesses of the vector cores (07 R346, R347, R349, R369): what their targets and outcomes rest on, and the requests of a kernel
that go out or wait. -/

namespace Sys2Proof.Machine

/-! ## Targets -/

/-- The target of a load rests on which stacks are remapped alone. -/
theorem State.target_load_congr {s u : State} (h : u.remapped = s.remapped) (k : Kernel) (device : Bool) (a : Int) (n : Nat) :
    u.target k device false a n = s.target k device false a n := by
  unfold State.target State.space
  rw [h]
  simp only [Bool.false_and, Bool.false_eq_true, if_false]

/-- An access that is not refused is aligned (07 R347). -/
theorem State.aligned_of_target {s : State} {k : Kernel} {device store : Bool} {a : Int} {n : Nat}
    (h : s.target k device store a n ≠ .refused) : 0 ≤ a ∧ a % (n : Int) = 0 := by
  unfold State.target at h
  by_contra hbad
  exact h (if_pos (by omega))

/-- The bytes of an aligned element lie in one 64 B block. -/
theorem block_of_aligned {n : Nat} (hn : n = 2 ∨ n = 4 ∨ n = 8) {a : Int} (h : 0 ≤ a ∧ a % (n : Int) = 0) :
    (a.toNat + n - 1) / 64 = a.toNat / 64 := by
  rcases hn with rfl | rfl | rfl <;> omega

/-! ## What a read leaves as it was -/

theorem State.bytes_congr {s u : State} (h : ∀ a, u.anyByte a = s.anyByte a) (a n : Nat) : u.bytes a n = s.bytes a n := by
  induction n generalizing a with
  | zero => rfl
  | succ n ih => rw [State.bytes, State.bytes, ih, h]

theorem State.localBytes_congr {s u : State} (h : u.locals = s.locals) (job core a n : Nat) :
    u.localBytes job core a n = s.localBytes job core a n := by
  induction n generalizing a with
  | zero => rfl
  | succ n ih => rw [State.localBytes, State.localBytes, ih, State.localByte, State.localByte, h]

/-- The tables of the host aperture say the same where the same entries can be read and hold the same. -/
theorem State.xlat_congr {s u : State} (hsessions : u.sessions = s.sessions) (hremapped : u.remapped = s.remapped)
    (hentry : ∀ a, u.hatEntry a = s.hatEntry a) (session a : Nat) : u.xlat session a = s.xlat session a := by
  have hpointer : ∀ n, pointerOk u n = pointerOk s n := by
    intro n
    unfold pointerOk State.isHbm State.space
    rw [hremapped]
  have hsession : u.session session = s.session session := by
    unfold State.session
    rw [hsessions]
  unfold State.xlat State.xlatMiddle State.xlatLeaf
  simp only [hsession, hentry, hpointer]

theorem State.Softened.hatEntry {s u : State} (h : s.Softened u) (a : Nat) : u.hatEntry a = s.hatEntry a := by
  have hpoison := h.poisoned a
  obtain ⟨l, c, rfl, -⟩ := h
  unfold State.hatEntry State.word
  rw [hpoison, State.bytes_congr fun _ => rfl]
  rfl

theorem State.Softened.canRead {s u : State} (h : s.Softened u) (session a : Nat) : u.canRead session a = s.canRead session a := by
  have hentry := h.hatEntry
  obtain ⟨l, c, rfl, -⟩ := h
  have hxlat := State.xlat_congr (s := s) (u := { s with latent := l, corrected := c }) rfl rfl hentry session a
  unfold State.canRead
  rw [hxlat]

theorem State.Softened.access {s u : State} (h : s.Softened u) (k : Kernel) (tg : Target) (a : Nat) :
    u.access k tg a true = s.access k tg a true := by
  have hpoison := h.poisoned a
  have hread := h.canRead k.session a
  unfold State.access
  simp only [hpoison, hread, if_true]
  obtain ⟨l, c, rfl, -⟩ := h
  rfl

/-! ## The elements of a load -/

section
variable {s : State} {k : Kernel} {t : Nat} {device : Bool} {n : Nat} {es : List Elem}

/-- An element that can be read, in HBM or SRAM, lies in a block that can be read. -/
theorem State.not_poisoned_of_fine {tg : Target} {a : Nat} (h : s.access k tg a true = .fine) (htg : tg = .hbm ∨ ∃ c, tg = .sram c) :
    s.poisoned a = false := by
  by_contra hp
  rw [Bool.not_eq_false] at hp
  rcases htg with rfl | ⟨c, rfl⟩
  · simp only [State.access, hp, Bool.and_self, if_true] at h
    split at h <;> exact Access.noConfusion h
  · simp only [State.access, hp, Bool.and_self, if_true] at h
    split at h <;> exact Access.noConfusion h

theorem State.findIn_elem (hn : n = 2 ∨ n = 4 ∨ n = 8) {a : Int} (htg : s.target k device false a n ≠ .refused)
    (hp : s.poisoned a.toNat = false) : s.Softened (s.findIn a.toNat n) := by
  refine State.findIn_softened fun x hx hlo hhi => State.latent_of_not_poisoned hx ?_
  rw [block_of_aligned hn (State.aligned_of_target htg)] at hhi
  have hblock : 64 * x.1 / 64 = a.toNat / 64 := by omega
  unfold State.poisoned at hp ⊢
  rwa [hblock]

/-- The reads of a load's elements find correctable errors alone. -/
theorem State.findElems_softened (hn : n = 2 ∨ n = 4 ∨ n = 8)
    (hfine : ∀ e ∈ es, s.access k (s.target k device false e.addr n) e.addr.toNat true = .fine) :
    s.Softened (s.findElems k device n es) := by
  refine forEach_keeps s.Softened es _ (fun u e he hu => ?_) s (.refl s)
  have hremapped : u.remapped = s.remapped := by
    obtain ⟨l, c, rfl, -⟩ := hu
    rfl
  have htarget := State.target_load_congr hremapped k device e.addr n
  have hread : ∀ tg, s.target k device false e.addr n = tg → (tg = .hbm ∨ ∃ c, tg = .sram c) → s.Softened (u.findIn e.addr.toNat n) := by
    rintro tg htg hmem
    have hp := State.not_poisoned_of_fine (htg ▸ hfine e he) hmem
    refine hu.trans (State.findIn_elem (k := k) (device := device) hn ?_ ((hu.poisoned _).trans hp))
    rw [htarget, htg]
    rcases hmem with rfl | ⟨c, rfl⟩ <;> exact nofun
  split
  · next h => exact hread .hbm (htarget.symm.trans h) (.inl rfl)
  · next c h => exact hread (.sram c) (htarget.symm.trans h) (.inr ⟨c, rfl⟩)
  · exact hu

/-- The value that an element brings to its lane. -/
def State.loadValue (s : State) (k : Kernel) (t : Nat) (device : Bool) (n : Nat) (e : Elem) : Nat × Nat :=
  (e.lane, match s.target k device false e.addr n with
    | .local' => 2 ^ (8 * e.sub) * ofLe (s.localBytes k.job (coreOf t) e.addr.toNat n)
    | .host => 0
    | .refused => 0
    | _ => 2 ^ (8 * e.sub) * s.word e.addr.toNat n)

/-- The gather with one more element that can be accessed. -/
def Gather.brings (k : Kernel) (t : Nat) (device : Bool) (n : Nat) (g : Gather) (e : Elem) : Gather :=
  { g with vals := g.vals ++ [g.st.loadValue k t device n e]
           done := if g.st.target k device false e.addr n = .local' then g.done else g.done ++ [e] }

theorem loadElem_fine {pc : Nat} {g : Gather} {e : Elem} (hstop : g.stop = none)
    (hfine : g.st.access k (g.st.target k device false e.addr n) e.addr.toNat true = .fine) :
    loadElem k t device n pc g e = g.brings k t device n e := by
  unfold loadElem
  rw [hstop, if_neg (by simp)]
  dsimp only
  rw [hfine]
  dsimp only
  unfold Gather.brings State.loadValue
  cases htg : g.st.target k device false e.addr n with
  | refused => rw [htg] at hfine; exact Access.noConfusion hfine
  | local' | sram c | hbm | host => simp [hstop]

/-- A load whose elements can all be accessed gathers the value of each, and asks for those outside the local store. -/
theorem foldl_loadElem (pc : Nat) (es : List Elem) (g : Gather) (hstop : g.stop = none)
    (hfine : ∀ e ∈ es, g.st.access k (g.st.target k device false e.addr n) e.addr.toNat true = .fine) :
    es.foldl (loadElem k t device n pc) g = { g with
      vals := g.vals ++ es.map (g.st.loadValue k t device n)
      done := g.done ++ es.filter fun e => g.st.target k device false e.addr n ≠ .local' } := by
  induction es generalizing g with
  | nil => simp
  | cons e es ih =>
    rw [List.foldl_cons, loadElem_fine hstop (hfine e List.mem_cons_self)]
    refine (ih (g.brings k t device n e) hstop fun x hx => hfine x (List.mem_cons_of_mem e hx)).trans ?_
    by_cases hlocal : g.st.target k device false e.addr n = .local' <;> simp [Gather.brings, hlocal]

/-- The counted requests are those of the elements outside the local store. -/
theorem State.loadRequests_filter (s : State) (k : Kernel) (t : Nat) (device : Bool) (n : Nat) (es : List Elem) :
    s.loadRequests k t device n (es.filter fun e => s.target k device false e.addr n ≠ .local') = s.loadRequests k t device n es := by
  have hkeep : ∀ tg : Target, tg ≠ .local' →
      (es.filter fun e => s.target k device false e.addr n ≠ .local').filter (fun e => s.target k device false e.addr n == tg) =
        es.filter fun e => s.target k device false e.addr n == tg := by
    intro tg htg
    rw [List.filter_filter]
    refine List.filter_congr fun e _ => ?_
    by_cases h : s.target k device false e.addr n = tg
    · simp [h, htg]
    · simp [h]
  unfold State.loadRequests State.hbmElems
  rw [hkeep .hbm nofun, hkeep .host nofun]

end

/-! ## Requests that go out (07 R369; 12 R608) -/

/-- `u` is `s` after requests of the kernel of `job`, which is one of `session`: memory, threads and local store are as before. -/
def State.Asked (job session : Nat) (s u : State) : Prop :=
  u = { s with kernels := u.kernels, reads := u.reads, nextRead := u.nextRead, ha := u.ha, nextTag := u.nextTag, link := u.link, out := u.out } ∧
    ∀ k, u.kernel? job = some k → k.session = session

theorem State.Asked.of_ends {job session : Nat} {s u v : State} (h : State.Asked job session s u)
    (hv : v = { u with kernels := v.kernels, reads := v.reads, nextRead := v.nextRead, ha := v.ha, nextTag := v.nextTag, link := v.link,
                       out := v.out }) (hk : ∀ k, v.kernel? job = some k → k.session = session) : State.Asked job session s v := by
  obtain ⟨hu, -⟩ := h
  refine ⟨hv.trans ?_, hk⟩
  exact congrArg (fun w : State => { w with kernels := v.kernels, reads := v.reads, nextRead := v.nextRead, ha := v.ha, nextTag := v.nextTag,
                                            link := v.link, out := v.out }) hu

theorem State.Asked.modKernel {job session : Nat} {s u : State} (h : State.Asked job session s u) {f : Kernel → Kernel}
    (hjob : ∀ k, (f k).job = k.job) (hf : ∀ k, (f k).session = k.session) : State.Asked job session s (u.modKernel job f) := by
  refine h.of_ends rfl fun k hk => ?_
  rw [State.kernel?_modKernel u job job f hjob, if_pos rfl] at hk
  obtain ⟨x, hx, rfl⟩ := Option.map_eq_some_iff.mp hk
  exact (hf x).trans (h.2 x hx)

theorem State.Asked.request {job session : Nat} {s u : State} (h : State.Asked job session s u) (r : HaReq) :
    State.Asked job session s (u.request r) := by
  obtain ⟨ha, tag, link, out, heq⟩ := u.request_requested r
  rw [heq]
  exact h.of_ends rfl h.2

theorem State.Asked.canRead {job session : Nat} {s u : State} (h : State.Asked job session s u) (ss a : Nat) :
    u.canRead ss a = s.canRead ss a := by
  have hentry : ∀ a, u.hatEntry a = s.hatEntry a := by
    intro a
    rw [h.1]
    unfold State.hatEntry State.word
    rw [State.bytes_congr (s := s) fun _ => rfl]
    rfl
  unfold State.canRead
  rw [State.xlat_congr (s := s) (by rw [h.1]) (by rw [h.1]) hentry]

/-- A request of a load, which may be read when it lies in the host aperture. -/
def State.MayLoad (s : State) (session : Nat) (x : KernelReq × Nat) : Prop :=
  match x.1 with
  | .granule _ _ _ _ => True
  | .hostRead _ _ _ _ a _ => s.canRead session a = true
  | _ => False

/-- A request of a load goes out or waits: it stops no kernel. -/
theorem State.Asked.ask {job session : Nat} {s u : State} (h : State.Asked job session s u) {x : KernelReq × Nat}
    (hx : s.MayLoad session x) : State.Asked job session s (u.ask job x) := by
  unfold State.ask
  cases hk : u.kernel? job with
  | none => exact h
  | some k =>
    have hsession := h.2 k hk
    have hjob : k.job = job := by simpa using List.find?_some hk
    have hcount : State.Asked job session s (u.count k x.2) := by
      unfold State.count
      rw [hjob]
      exact h.modKernel (fun _ => rfl) fun _ => rfl
    refine ite_both (P := fun t : State => State.Asked job session s t) ?_ (h.modKernel (fun _ => rfl) fun _ => rfl)
    obtain ⟨r, cost⟩ := x
    cases r with
    | granule t n a parts => exact hcount.of_ends rfl hcount.2
    | hostRead t n lane sub a size =>
      have hread : (u.count k cost).canRead k.session a = true := (hcount.canRead k.session a).trans (hsession ▸ hx)
      change State.Asked job session s (if (u.count k cost).canRead k.session a = true then _ else _)
      rw [if_pos hread]
      exact hcount.request _
    | image | store | hostStore => exact hx.elim

theorem State.loadRequests_mayLoad {s : State} {k : Kernel} {device : Bool} {n : Nat} {es : List Elem} (t : Nat)
    (hfine : ∀ e ∈ es, s.access k (s.target k device false e.addr n) e.addr.toNat true = .fine) :
    ∀ x ∈ s.loadRequests k t device n es, s.MayLoad k.session x := by
  intro x hx
  unfold State.loadRequests at hx
  simp only [List.mem_append, List.mem_map, List.mem_filter, beq_iff_eq] at hx
  rcases hx with ⟨g, -, rfl⟩ | ⟨e, ⟨he, hhost⟩, rfl⟩
  · exact trivial
  · have h := hfine e he
    rw [hhost] at h
    change s.canRead k.session e.addr.toNat = true
    by_contra hread
    simp only [State.access, if_true] at h
    rw [if_neg hread] at h
    exact Access.noConfusion h

theorem State.MayLoad.softened {s u : State} (h : s.Softened u) {session : Nat} {x : KernelReq × Nat} (hx : s.MayLoad session x) :
    u.MayLoad session x := by
  obtain ⟨r, cost⟩ := x
  cases r with
  | granule => exact trivial
  | hostRead t n lane sub a size => exact (h.canRead session a).trans hx
  | image | store | hostStore => exact hx.elim

/-! ## Loads -/

/-- An instruction that runs as `loadOp` brings its elements. -/
theorem loadCompletes_of_loadOp {t : Nat} {c : CoreInstr} {i : Instr} {device : Bool} {n : Nat} {es : Thread → List Elem}
    {dest : Thread → List (Nat × Nat) → LoadDest} (hn : n = 2 ∨ n = 4 ∨ n = 8) (hrun : ∀ s, exec i s = loadOp t c s device n es dest) :
    LoadCompletes t c i device n es dest := by
  intro s k hk hfree hfine
  have hsoft := State.findElems_softened (device := device) hn hfine
  set l := es (s.thread t) with hl
  set u := s.findElems k device n l with hu
  have hremapped : u.remapped = s.remapped := by
    obtain ⟨_, _, h, -⟩ := hsoft
    rw [h]
  have htarget : ∀ e : Elem, u.target k device false e.addr n = s.target k device false e.addr n := fun e =>
    State.target_load_congr hremapped k device e.addr n
  have hfine' : ∀ e ∈ l, u.access k (u.target k device false e.addr n) e.addr.toNat true = .fine := fun e he => by
    rw [htarget, hsoft.access, hfine e he]
  have hvalue : u.loadValue k t device n = s.loadValue k t device n := by
    funext e
    unfold State.loadValue State.word
    rw [htarget, State.bytes_congr (s := s), State.localBytes_congr (s := s)]
    · obtain ⟨_, _, h, -⟩ := hsoft
      rw [h]
    · obtain ⟨_, _, h, -⟩ := hsoft
      intro a
      rw [h]
      rfl
  have hgather := foldl_loadElem (k := k) (t := t) (device := device) (n := n) (s.thread t).pc l { st := u } rfl hfine'
  simp only [htarget, hvalue, List.nil_append] at hgather
  obtain ⟨hkernel, -⟩ := issuing_kernel hk
  have hsession : ∀ k', u.kernel? k.job = some k' → k'.session = k.session := by
    intro k' hk'
    obtain ⟨_, _, h, -⟩ := hsoft
    rw [h] at hk'
    exact congrArg Kernel.session (Option.some.inj (hk'.symm.trans hkernel))
  have hasked : State.Asked k.job k.session u (forEach (s.loadRequests k t device n l) (fun u x => u.ask k.job x) u) :=
    forEach_keeps (State.Asked k.job k.session u) _ _
      (fun v x hx hv => hv.ask ((State.loadRequests_mayLoad t hfine x hx).softened hsoft)) u ⟨rfl, hsession⟩
  have hexec := (hrun s).trans (loadOp.eq_def t c s device n es dest)
  simp only [coreRun_issuing hk, ← hl, hfree, Bool.false_eq_true, if_false] at hexec
  simp only [← hu, hgather, State.loadRequests_filter] at hexec
  refine ⟨_, hexec, rfl, ?_⟩
  generalize forEach (s.loadRequests k t device n l) (fun u x => u.ask k.job x) u = v at hasked
  obtain ⟨_, _, hsame, -⟩ := hsoft
  rw [hasked.1, hsame]
  exact ⟨rfl, rfl, rfl, rfl⟩

theorem widthOf_cases (w : BitVec 2) : widthOf w = 2 ∨ widthOf w = 4 ∨ widthOf w = 8 := by
  unfold widthOf
  split
  · exact .inr (.inr rfl)
  · split
    · exact .inr (.inl rfl)
    · exact .inl rfl

/-- No instruction that reads the register of an outstanding load issues (07 R339). -/
theorem issuing_of_meets {s : State} {t : Nat} {l : LoadOut} {c : CoreInstr} (hl : l ∈ (s.thread t).loads) (hmeets : l.dest.meets c = true) :
    s.issuing t c = none := by
  have hin : (s.thread t).operandsIn c = false := by
    have hany : ((s.thread t).loads.any fun l => l.dest.meets c) = true := List.any_eq_true.mpr ⟨l, hl, hmeets⟩
    simp [Thread.operandsIn, hany]
  unfold State.issuing
  cases s.kernel? (s.thread t).kernel with
  | none => rfl
  | some k => simp [hin]

/-- Settles O8: an element that can be accessed lies in one block, which can be read, so the reads find correctable errors alone and the
load brings what memory holds; a request below TRAFFIC_RATE goes out. -/
theorem loadsBringTheirElements : Obligations.LoadsBringTheirElements := by
  unfold Obligations.LoadsBringTheirElements
  intro t f
  refine ⟨loadCompletes_of_loadOp (widthOf_cases f.w) fun _ => rfl, loadCompletes_of_loadOp (widthOf_cases f.w) fun _ => rfl,
    loadCompletes_of_loadOp (widthOf_cases f.w) fun _ => rfl, loadCompletes_of_loadOp (.inr (.inr rfl)) fun _ => rfl,
    fun s l c hl hmeets => issuing_of_meets hl hmeets, fun s k x hk => ⟨fun hlate hrate => ?_, fun hwait => ?_⟩⟩
  · unfold State.ask
    rw [hk]
    have hgo : (k.late.isEmpty && k.mayAsk x.2) = true := by simpa [Kernel.mayAsk, hlate] using hrate
    exact if_pos hgo
  · unfold State.ask
    rw [hk]
    refine if_neg fun hgo => ?_
    simp only [Kernel.mayAsk, Bool.and_eq_true, List.isEmpty_iff, Bool.or_eq_true, decide_eq_true_eq] at hgo
    obtain ⟨hlate, hrate⟩ := hgo
    rcases hwait with h | ⟨hcost, hfull⟩
    · exact h hlate
    · omega

end Sys2Proof.Machine
end

section
/-! PROOFS. The requests of a store (07 R346, R349, R369): what they count, and the state that they leave when they go out at once or wait. -/

namespace Sys2Proof.Machine

/-! ## Granules counted once -/

theorem insertNat_sorted {l : List Nat} (hl : l.Pairwise (· < ·)) (n : Nat) : (insertNat n l).Pairwise (· < ·) := by
  induction l with
  | nil => exact List.pairwise_singleton _ _
  | cons m l ih =>
    obtain ⟨hm, hl'⟩ := List.pairwise_cons.mp hl
    unfold insertNat
    split
    · next h => exact List.pairwise_cons.mpr ⟨fun x hx => (List.mem_cons.mp hx).elim (fun e => e ▸ h) fun hx => Nat.lt_trans h (hm x hx), hl⟩
    · split
      · exact hl
      · refine List.pairwise_cons.mpr ⟨fun x hx => ?_, ih hl'⟩
        rcases (mem_insertNat n l x).mp hx with rfl | hx
        · omega
        · exact hm x hx

theorem length_insertNat {l : List Nat} (hl : l.Pairwise (· < ·)) (n : Nat) :
    (insertNat n l).length = if n ∈ l then l.length else l.length + 1 := by
  induction l with
  | nil => rfl
  | cons m l ih =>
    obtain ⟨hm, hl'⟩ := List.pairwise_cons.mp hl
    unfold insertNat
    split
    · next h =>
      rw [if_neg, List.length_cons]
      rintro hmem
      rcases List.mem_cons.mp hmem with rfl | hmem
      · exact Nat.lt_irrefl _ h
      · exact Nat.lt_asymm h (hm n hmem)
    · split
      · next h => rw [if_pos (h ▸ List.mem_cons_self)]
      · next h =>
        rw [List.length_cons, ih hl']
        by_cases hmem : n ∈ l <;> simp [hmem, h]

/-- The distinct granules of elements. -/
def granules (es : List Elem) : List Nat := es.foldl (fun l e => insertNat (e.addr.toNat / 2048) l) []

theorem granules_eq (es : List Elem) : granules es = (es.map fun e => e.addr.toNat / 2048).foldl (fun l g => insertNat g l) [] := by
  rw [List.foldl_map]
  rfl

theorem granules_sorted (es : List Elem) : (granules es).Pairwise (· < ·) := by
  induction es using List.reverseRecOn with
  | nil => exact .nil
  | append_singleton es e ih =>
    unfold granules at ih ⊢
    rw [List.foldl_append]
    exact insertNat_sorted ih _

theorem mem_granules (es : List Elem) (g : Nat) : g ∈ granules es ↔ ∃ e ∈ es, e.addr.toNat / 2048 = g := by
  rw [granules_eq, mem_foldl_insertNat]
  simp

/-- What an element of a store counts: its granule, when no element before it lies there. -/
def granuleCost (es : List Elem) (x : Nat × Elem) : Nat :=
  if (es.take x.1).any fun e => e.addr.toNat / 2048 == x.2.addr.toNat / 2048 then 0 else 2048

/-- The elements of a store count each granule once. -/
theorem sum_granuleCost (es : List Elem) :
    (((List.range es.length).zip es).map (granuleCost es)).sum = 2048 * (granules es).length := by
  induction es using List.reverseRecOn with
  | nil => rfl
  | append_singleton es e ih =>
    have hzip : (List.range (es ++ [e]).length).zip (es ++ [e]) = (List.range es.length).zip es ++ [(es.length, e)] := by
      rw [List.length_append, List.length_singleton, List.range_succ, List.zip_append (List.length_range ..)]
      rfl
    have hbefore : ((List.range es.length).zip es).map (granuleCost (es ++ [e])) = ((List.range es.length).zip es).map (granuleCost es) := by
      refine List.map_congr_left fun x hx => ?_
      obtain ⟨hi, -⟩ := List.of_mem_zip hx
      unfold granuleCost
      rw [List.take_append_of_le_length (Nat.le_of_lt (List.mem_range.mp hi))]
    have hlast : granuleCost (es ++ [e]) (es.length, e) = if e.addr.toNat / 2048 ∈ granules es then 0 else 2048 := by
      unfold granuleCost
      rw [List.take_left]
      refine if_congr ?_ rfl rfl
      rw [mem_granules, List.any_eq_true]
      simp
    have hgrow : granules (es ++ [e]) = insertNat (e.addr.toNat / 2048) (granules es) := List.foldl_append ..
    rw [hzip, List.map_append, List.sum_append, hbefore, ih, hgrow, length_insertNat (granules_sorted es), List.map_singleton, List.sum_singleton,
      hlast]
    split
    · rfl
    · rw [Nat.mul_add]

/-! ## What a store counts -/

section
variable {s : State} {k : Kernel} {device : Bool} {n : Nat} {es : List Elem}

theorem State.trafficOf_hbm (h : ∀ e ∈ es, s.target k device true e.addr n = .hbm) :
    s.trafficOf k device true n es = 2048 * (granules es).length := by
  have hmap : es.map (fun e => (s.target k device true e.addr n, e.addr.toNat)) = es.map fun e => (Target.hbm, e.addr.toNat) :=
    List.map_congr_left fun e he => by rw [h e he]
  unfold State.trafficOf granules
  rw [hmap]
  simp [List.filter_map, List.foldl_map, Function.comp_def]

theorem State.trafficOf_host (h : ∀ e ∈ es, s.target k device true e.addr n = .host) : s.trafficOf k device true n es = n * es.length := by
  have hmap : es.map (fun e => (s.target k device true e.addr n, e.addr.toNat)) = es.map fun e => (Target.host, e.addr.toNat) :=
    List.map_congr_left fun e he => by rw [h e he]
  unfold State.trafficOf
  rw [hmap]
  simp [List.filter_map, Function.comp_def, show (Target.host == Target.hbm) = false from rfl]

theorem State.trafficOf_near (h : ∀ e ∈ es, s.target k device true e.addr n ≠ .host ∧ s.target k device true e.addr n ≠ .hbm) :
    s.trafficOf k device true n es = 0 := by
  have hnone : ∀ tg : Target, (tg = .host ∨ tg = .hbm) →
      (es.map fun e => (s.target k device true e.addr n, e.addr.toNat)).filter (fun x => x.1 == tg) = [] := by
    intro tg htg
    rw [List.filter_map, List.filter_eq_nil_iff.mpr, List.map_nil]
    intro e he
    obtain ⟨hhost, hhbm⟩ := h e he
    rcases htg with rfl | rfl
    · simpa using hhost
    · simpa using hhbm
  unfold State.trafficOf
  dsimp only
  rw [hnone .hbm (.inr rfl), hnone .host (.inl rfl)]
  rfl

end

/-! ## Requests of a store that go out or wait -/

section
variable {k : Kernel}

/-- The kernel's store is performed. -/
def State.performStore (k : Kernel) (u : State) (x : KernelReq × Nat) : State :=
  match x.1 with
  | .store _ a bs => u.write a bs
  | .hostStore t a bs => u.haWrite k.session a bs (.write k.job (some t))
  | _ => u

/-- A request of a store that memory, or the host aperture, takes. -/
def State.MayStore (k : Kernel) (u : State) (x : KernelReq × Nat) : Prop :=
  match x.1 with
  | .store _ a _ => u.onBadStack a = false
  | .hostStore _ a _ => u.canWrite k.session a = true
  | _ => False

theorem State.perform_of_mayStore {u : State} {x : KernelReq × Nat} (h : u.MayStore k x) {k' : Kernel} (hjob : k'.job = k.job)
    (hsession : k'.session = k.session) : u.perform k' x.1 = u.performStore k x := by
  obtain ⟨r, cost⟩ := x
  cases r with
  | granule | image | hostRead => exact h.elim
  | store t a bs =>
    have h' : u.onBadStack a = false := h
    simp [State.perform, State.performStore, h']
  | hostStore t a bs =>
    have h' : u.canWrite k.session a = true := h
    simp [State.perform, State.performStore, hjob, hsession, h']

theorem State.send_none {u : State} {o : Out} (h : u.outPort o = none) : u.send o = { u with out := u.out ++ [o] } := by
  have h' : ({ u with out := u.out ++ [o] } : State).outPort o = none := h
  simp only [State.send, h']

theorem State.send_some {u : State} {o : Out} {p : Nat} (h : u.outPort o = some p) : u.send o =
    { u with out := u.out ++ [o], link := { u.link with ports := u.link.ports.modify {} p fun l => { l with nextSeq := (l.nextSeq + 1) % 4096 } } } := by
  have h' : ({ u with out := u.out ++ [o] } : State).outPort o = some p := h
  simp only [State.send, h']

theorem State.send_modKernel (u : State) (o : Out) (job : Nat) (f : Kernel → Kernel) :
    (u.modKernel job f).send o = (u.send o).modKernel job f := by
  cases hp : u.outPort o with
  | none =>
    rw [State.send_none hp, State.send_none (u := u.modKernel job f) hp]
    rfl
  | some p =>
    rw [State.send_some hp, State.send_some (u := u.modKernel job f) hp]
    rfl

theorem State.request_modKernel (u : State) (r : HaReq) (job : Nat) (f : Kernel → Kernel) :
    (u.modKernel job f).request r = (u.request r).modKernel job f := by
  unfold State.request
  have hwait : (!(u.modKernel job f).affords r || (u.modKernel job f).ha.any fun x => x.held &&
      (u.modKernel job f).requestPort x.session == (u.modKernel job f).requestPort r.session) =
      (!u.affords r || u.ha.any fun x => x.held && u.requestPort x.session == u.requestPort r.session) := rfl
  rw [hwait]
  generalize (!u.affords r || u.ha.any fun x => x.held && u.requestPort x.session == u.requestPort r.session) = wait
  cases wait with
  | true => rfl
  | false =>
    have hsent : (u.modKernel job f).sendRequest r = (u.sendRequest r).modKernel job f := by
      unfold State.sendRequest
      exact State.send_modKernel { u with link := { u.link with ports := u.link.ports.modify {} (u.requestPort r.session) fun l =>
        { l with hostReq := l.hostReq - 1, hostData := l.hostData - r.credits } } } r.message job f
    simp only [Bool.false_eq_true, if_false, hsent]
    rfl
/-- Performing a store and counting traffic change different things. -/
theorem State.performStore_modKernel (u : State) (x : KernelReq × Nat) (job : Nat) (f : Kernel → Kernel) :
    (u.modKernel job f).performStore k x = (u.performStore k x).modKernel job f := by
  obtain ⟨r, cost⟩ := x
  cases r with
  | granule | image | hostRead => rfl
  | store t a bs =>
    change (u.modKernel job f).write a bs = (u.write a bs).modKernel job f
    have hbad : (u.modKernel job f).onBadStack a = u.onBadStack a := rfl
    unfold State.write
    rw [hbad]
    split <;> rfl
  | hostStore t a bs =>
    have hentry : ∀ a, (u.modKernel job f).hatEntry a = u.hatEntry a := by
      intro a
      unfold State.hatEntry State.word
      rw [State.bytes_congr (s := u) fun _ => rfl]
      rfl
    have haddr : (u.modKernel job f).hostAddr k.session a = u.hostAddr k.session a := by
      have hxlat := State.xlat_congr (s := u) (u := u.modKernel job f) rfl rfl hentry k.session a
      unfold State.hostAddr
      rw [hxlat]
    change (u.modKernel job f).haWrite k.session a bs (.write k.job (some t)) =
      (u.haWrite k.session a bs (.write k.job (some t))).modKernel job f
    unfold State.haWrite
    rw [haddr]
    exact State.request_modKernel u
      { tag := u.nextTag, session := k.session, page := pageOf a, use := .write k.job (some t), host := u.hostAddr k.session a, data := bs } job f

theorem State.performStore_kernel? (u : State) (x : KernelReq × Nat) (n : Nat) : (u.performStore k x).kernel? n = u.kernel? n := by
  have hkernels : (u.performStore k x).kernels = u.kernels := by
    obtain ⟨r, cost⟩ := x
    cases r with
    | granule | image | hostRead => rfl
    | store t a bs =>
      change (u.write a bs).kernels = u.kernels
      unfold State.write
      split <;> rfl
    | hostStore t a bs =>
      obtain ⟨_, _, _, _, h⟩ := u.request_requested
        { tag := u.nextTag, session := k.session, page := pageOf a, use := .write k.job (some t), host := u.hostAddr k.session a, data := bs }
      change (u.request _).kernels = u.kernels
      rw [h]
  unfold State.kernel?
  rw [hkernels]

theorem State.ask_store {u : State} {x : KernelReq × Nat} {k' : Kernel} (hk : u.kernel? k.job = some k') (hsession : k'.session = k.session)
    (hx : (u.modKernel k.job (Kernel.counted x.2)).MayStore k x) : u.ask k.job x =
      if (k'.late.isEmpty && k'.mayAsk x.2) = true then (u.modKernel k.job (Kernel.counted x.2)).performStore k x
      else u.modKernel k.job (Kernel.postponed x) := by
  have hjob : k'.job = k.job := by simpa using List.find?_some hk
  have hperform := State.perform_of_mayStore hx hjob hsession
  unfold State.ask
  rw [hk, ← hperform, ← hjob]
  rfl

/-- What holds of the state while a kernel's stores `rs` go out: `P` is kept, and memory and the host aperture take each of them. -/
structure StoresGoOut (k : Kernel) (rs : List (KernelReq × Nat)) (P : State → Prop) : Prop where
  takes : ∀ u, P u → ∀ x ∈ rs, u.MayStore k x
  performed : ∀ u, P u → ∀ x ∈ rs, P (u.performStore k x)
  counted : ∀ u f, P u → P (u.modKernel k.job f)

theorem StoresGoOut.tail {x : KernelReq × Nat} {rs : List (KernelReq × Nat)} {P : State → Prop} (h : StoresGoOut k (x :: rs) P) :
    StoresGoOut k rs P :=
  ⟨fun u hu y hy => h.takes u hu y (List.mem_cons_of_mem x hy), fun u hu y hy => h.performed u hu y (List.mem_cons_of_mem x hy), h.counted⟩

theorem foldl_performStore_modKernel (rs : List (KernelReq × Nat)) (u : State) (job : Nat) (f : Kernel → Kernel) :
    rs.foldl (State.performStore k) (u.modKernel job f) = (rs.foldl (State.performStore k) u).modKernel job f := by
  induction rs generalizing u with
  | nil => rfl
  | cons x rs ih => rw [List.foldl_cons, List.foldl_cons, State.performStore_modKernel, ih]

theorem modKernel_counted_counted (u : State) (job a b : Nat) :
    (u.modKernel job (Kernel.counted a)).modKernel job (Kernel.counted b) = u.modKernel job (Kernel.counted (a + b)) := by
  unfold State.modKernel mapIf
  simp only [List.map_map]
  have hmap : ∀ x : Kernel, ((fun x : Kernel => if (x.job == job) = true then x.counted b else x) ∘
      fun x : Kernel => if (x.job == job) = true then x.counted a else x) x = if (x.job == job) = true then x.counted (a + b) else x := by
    intro x
    by_cases hx : (x.job == job) = true
    · simp only [Function.comp_apply, if_pos hx, Kernel.counted, Nat.add_assoc]
    · simp only [Function.comp_apply, if_neg hx]
  simp only [List.map_congr_left fun x _ => hmap x]

theorem modKernel_counted_zero (u : State) (job : Nat) : u.modKernel job (Kernel.counted 0) = u := by
  have hsame : ∀ x : Kernel, (if (x.job == job) = true then x.counted 0 else x) = x := fun x => ite_self x
  unfold State.modKernel mapIf
  simp only [hsame, List.map_id']

/-- Within TRAFFIC_RATE every store goes out at once, and the traffic of all is counted. -/
theorem StoresGoOut.within {rs : List (KernelReq × Nat)} {P : State → Prop} (h : StoresGoOut k rs P) {u : State} (hu : P u) {k' : Kernel}
    (hk : u.kernel? k.job = some k') (hsession : k'.session = k.session) (hlate : k'.late = [])
    (hrate : k'.inFrame + (rs.map Prod.snd).sum ≤ k'.rate) :
    forEach rs (fun u x => u.ask k.job x) u = rs.foldl (State.performStore k) (u.modKernel k.job (Kernel.counted (rs.map Prod.snd).sum)) := by
  induction rs generalizing u k' with
  | nil => exact (modKernel_counted_zero u k.job).symm
  | cons x rs ih =>
    rw [List.map_cons, List.sum_cons] at hrate
    have hgo : (k'.late.isEmpty && k'.mayAsk x.2) = true := by
      simp [hlate, Kernel.mayAsk]
      omega
    have hask := State.ask_store hk hsession (h.takes _ (h.counted u _ hu) x List.mem_cons_self)
    rw [if_pos hgo] at hask
    have hcounted := State.kernel?_modKernel_same (s := u) (f := Kernel.counted x.2) (fun _ => rfl) hk
    have hrest := ih h.tail (h.performed _ (h.counted u _ hu) x List.mem_cons_self)
      ((State.performStore_kernel? _ x k.job).trans hcounted) hsession hlate (by simp [Kernel.counted]; omega)
    change forEach rs _ (u.ask k.job x) = _
    rw [hask, hrest, ← State.performStore_modKernel, modKernel_counted_counted, List.map_cons, List.sum_cons]
    rfl

/-- What waits of a store: at most its own requests, and only at TRAFFIC_RATE. -/
theorem StoresGoOut.bounds {rs : List (KernelReq × Nat)} {P : State → Prop} (h : StoresGoOut k rs P) {u : State} (hu : P u) {k' : Kernel}
    (hk : u.kernel? k.job = some k') (hsession : k'.session = k.session) (hlate : k'.late = [] ∨ k'.rate ≤ k'.inFrame) :
    P (forEach rs (fun u x => u.ask k.job x) u) ∧ ∃ k'', (forEach rs (fun u x => u.ask k.job x) u).kernel? k.job = some k'' ∧
      k''.late.length ≤ k'.late.length + rs.length ∧ (k''.late = [] ∨ k''.rate ≤ k''.inFrame) := by
  induction rs generalizing u k' with
  | nil => exact ⟨hu, k', hk, Nat.le_refl _, hlate⟩
  | cons x rs ih =>
    have hask := State.ask_store hk hsession (h.takes _ (h.counted u _ hu) x List.mem_cons_self)
    change P (forEach rs _ (u.ask k.job x)) ∧ ∃ k'', (forEach rs _ (u.ask k.job x)).kernel? k.job = some k'' ∧ _
    rw [hask]
    by_cases hgo : (k'.late.isEmpty && k'.mayAsk x.2) = true
    · rw [if_pos hgo]
      have hcounted := State.kernel?_modKernel_same (s := u) (f := Kernel.counted x.2) (fun _ => rfl) hk
      have hnone : k'.late = [] := List.isEmpty_iff.mp (Bool.and_eq_true_iff.mp hgo).1
      obtain ⟨hP, k'', hk'', hlen, hfin⟩ := ih h.tail (h.performed _ (h.counted u _ hu) x List.mem_cons_self)
        ((State.performStore_kernel? _ x k.job).trans hcounted) hsession (.inl hnone)
      exact ⟨hP, k'', hk'', Nat.le_trans hlen (Nat.le_succ _), hfin⟩
    · rw [if_neg hgo]
      have hpostponed := State.kernel?_modKernel_same (s := u) (f := Kernel.postponed x) (fun _ => rfl) hk
      have hfull : k'.rate ≤ k'.inFrame := by
        refine hlate.elim (fun hnone => ?_) id
        by_contra hlt
        exact hgo (by simp [hnone, Kernel.mayAsk]; omega)
      obtain ⟨hP, k'', hk'', hlen, hfin⟩ := ih h.tail (h.counted u _ hu) hpostponed hsession (.inr hfull)
      refine ⟨hP, k'', hk'', Nat.le_trans hlen ?_, hfin⟩
      simp [Kernel.postponed]
      omega

end

end Sys2Proof.Machine
end

section
/-! PROOFS. The stores of the vector cores (07 R346, R347, R349, R355, R369; 09 R450) and the statement `StoresWriteTheirElements`. -/

namespace Sys2Proof.Machine

section
variable {s : State} {k : Kernel} {t : Nat} {device : Bool} {n : Nat} {val : Nat → Word64} {es : List Elem}

/-! ## The elements of a store -/

/-- An element in HBM or the host aperture waits for its request. -/
theorem foldl_storeElem_far (pc : Nat) (es : List Elem) (g : Gather) (hstop : g.stop = none)
    (hfar : ∀ e ∈ es, g.st.target k device true e.addr n = .hbm ∨ g.st.target k device true e.addr n = .host)
    (hfine : ∀ e ∈ es, g.st.access k (g.st.target k device true e.addr n) e.addr.toNat false = .fine) :
    es.foldl (storeElem k t device n pc val) g = { g with done := g.done ++ es } := by
  induction es generalizing g with
  | nil => simp
  | cons e es ih =>
    have hstep : storeElem k t device n pc val g e = { g with done := g.done ++ [e] } := by
      unfold storeElem
      rw [hstop, if_neg (by simp)]
      dsimp only
      rw [hfine e List.mem_cons_self]
      rcases hfar e List.mem_cons_self with h | h <;> simp [h]
    rw [List.foldl_cons, hstep]
    refine (ih { g with done := g.done ++ [e] } hstop (fun x hx => hfar x (List.mem_cons_of_mem e hx))
      fun x hx => hfine x (List.mem_cons_of_mem e hx)).trans ?_
    simp

/-- `u` is `s` after stores to the local store and cluster SRAM. -/
def State.NearStored (s u : State) : Prop := ∃ m p l w, u = { s with mem := m, poison := p, latent := l, locals := w }

theorem State.NearStored.storesAt {u : State} (h : s.NearStored u) {e : Elem} (hhost : s.target k device true e.addr n ≠ .host) :
    s.NearStored (s.storesAt k t device n val u e) := by
  obtain ⟨m, p, l, w, rfl⟩ := h
  unfold State.storesAt
  split
  · exact ⟨_, _, _, _, rfl⟩
  · next h => exact absurd h hhost
  · unfold State.write
    split
    · exact ⟨_, _, _, _, rfl⟩
    · exact ⟨_, _, _, _, rfl⟩

/-- An element in the local store or cluster SRAM is stored at once. -/
theorem foldl_storeElem_near (pc : Nat) (es : List Elem) (g : Gather) (hstop : g.stop = none) (hg : s.NearStored g.st)
    (hnear : ∀ e ∈ es, s.target k device true e.addr n = .local' ∨ ∃ c, s.target k device true e.addr n = .sram c)
    (hfine : ∀ e ∈ es, s.access k (s.target k device true e.addr n) e.addr.toNat false = .fine) :
    es.foldl (storeElem k t device n pc val) g = { g with st := es.foldl (s.storesAt k t device n val) g.st } ∧
      s.NearStored (es.foldl (s.storesAt k t device n val) g.st) := by
  induction es generalizing g with
  | nil => exact ⟨rfl, hg⟩
  | cons e es ih =>
    have he := hnear e List.mem_cons_self
    have hf := hfine e List.mem_cons_self
    have hstep : storeElem k t device n pc val g e = { g with st := s.storesAt k t device n val g.st e } := by
      have hremapped : g.st.remapped = s.remapped := by
        obtain ⟨m, p, l, w, h⟩ := hg
        rw [h]
      have htarget : g.st.target k device true e.addr n = s.target k device true e.addr n :=
        State.target_near hremapped rfl he
      have haccess : g.st.access k (s.target k device true e.addr n) e.addr.toNat false = .fine := by
        obtain ⟨m, p, l, w, h⟩ := hg
        rw [h]
        rcases he with he | ⟨c, he⟩
        · rw [he]
          rfl
        · rw [he] at hf ⊢
          exact hf
      unfold storeElem
      rw [hstop, if_neg (by simp)]
      dsimp only
      rw [htarget, haccess]
      unfold State.storesAt
      rcases he with he | ⟨c, he⟩ <;> simp [he]
    have hhost : s.target k device true e.addr n ≠ .host := by
      rcases he with he | ⟨c, he⟩ <;> rw [he] <;> exact nofun
    rw [List.foldl_cons, List.foldl_cons, hstep]
    exact ih { g with st := s.storesAt k t device n val g.st e } hstop (hg.storesAt hhost)
      (fun x hx => hnear x (List.mem_cons_of_mem e hx)) fun x hx => hfine x (List.mem_cons_of_mem e hx)

/-! ## The state that a store leaves -/

/-- What the statement asks of the state `v` that the stores of `es` leave. -/
structure Stored (s : State) (k : Kernel) (t : Nat) (device : Bool) (n : Nat) (val : Nat → Word64) (es : List Elem) (v : State) : Prop where
  within : k.late = [] → k.inFrame + s.trafficOf k device true n es ≤ k.rate →
    v = es.foldl (s.storesAt k t device n val) (s.count k (s.trafficOf k device true n es))
  threads : v.threads = s.threads
  late : ∀ k', v.kernel? k.job = some k' → k'.late.length ≤ k.late.length + es.length ∧ (k'.late ≠ k.late → k'.rate ≤ k'.inFrame)
  bytes : ∀ a, (∀ e ∈ es, s.target k device true e.addr n = .local' ∨ s.target k device true e.addr n = .host ∨
    a < e.addr.toNat ∨ e.addr.toNat + n ≤ a) → v.byte a = s.byte a

theorem length_elemBytes (e : Elem) (n : Nat) (val : Nat → Word64) : (e.bytes n val).length = n := length_leBytes _ _

/-- Stores to the local store and cluster SRAM leave what the statement asks. -/
theorem stored_near (hk : s.kernel? k.job = some k)
    (hnear : ∀ e ∈ es, s.target k device true e.addr n = .local' ∨ ∃ c, s.target k device true e.addr n = .sram c)
    (htraffic : s.trafficOf k device true n es = 0) (hv : s.NearStored (es.foldl (s.storesAt k t device n val) s)) :
    Stored s k t device n val es (es.foldl (s.storesAt k t device n val) s) where
  within _ _ := by
    rw [htraffic]
    exact congrArg (fun u => es.foldl (s.storesAt k t device n val) u) (modKernel_counted_zero s k.job).symm
  threads := by
    obtain ⟨m, p, l, w, h⟩ := hv
    rw [h]
  late k' hk' := by
    obtain ⟨m, p, l, w, h⟩ := hv
    rw [h] at hk'
    obtain rfl : k = k' := Option.some.inj (hk.symm.trans hk')
    exact ⟨Nat.le_add_right _ _, fun h => absurd rfl h⟩
  bytes a ha := by
    refine forEach_keeps (fun u => u.byte a = s.byte a) es (s.storesAt k t device n val) (fun u e he hu => ?_) s rfl
    refine Eq.trans ?_ hu
    unfold State.storesAt
    rcases hnear e he with h | ⟨c, h⟩
    · rw [h]
      rfl
    · rw [h]
      refine State.byte_write_outside u _ _ ?_
      rw [length_elemBytes]
      rcases ha e he with h' | h' | h'
      · rw [h] at h'
        exact Target.noConfusion h'
      · rw [h] at h'
        exact Target.noConfusion h'
      · exact h'

/-- The requests of elements that all go the same way, in their order. -/
def storeRequestsOf (r : Elem → KernelReq) (c : Nat × Elem → Nat) (es : List Elem) : List (KernelReq × Nat) :=
  ((List.range es.length).zip es).map fun x => (r x.2, c x)

theorem mem_storeRequestsOf {r : Elem → KernelReq} {c : Nat × Elem → Nat} {x : KernelReq × Nat} (hx : x ∈ storeRequestsOf r c es) :
    ∃ e ∈ es, ∃ cost, x = (r e, cost) := by
  obtain ⟨y, hy, rfl⟩ := List.mem_map.mp hx
  exact ⟨y.2, (List.of_mem_zip hy).2, _, rfl⟩

theorem foldl_performStore_requests {r : Elem → KernelReq} {c : Nat × Elem → Nat}
    (hr : ∀ e ∈ es, ∀ u cost, State.performStore k u (r e, cost) = s.storesAt k t device n val u e) (u : State) :
    (storeRequestsOf r c es).foldl (State.performStore k) u = es.foldl (s.storesAt k t device n val) u := by
  have hzip : ∀ l : List (Nat × Elem), (∀ x ∈ l, x.2 ∈ es) → ∀ u,
      (l.map fun x => (r x.2, c x)).foldl (State.performStore k) u = (l.map Prod.snd).foldl (s.storesAt k t device n val) u := by
    intro l hl
    induction l with
    | nil => exact fun _ => rfl
    | cons x l ih =>
      intro u
      rw [List.map_cons, List.foldl_cons, List.map_cons, List.foldl_cons, hr x.2 (hl x List.mem_cons_self)]
      exact ih (fun y hy => hl y (List.mem_cons_of_mem x hy)) _
  have h := hzip ((List.range es.length).zip es) (fun x hx => (List.of_mem_zip hx).2) u
  rwa [List.map_snd_zip (by simp)] at h

/-- Requests of a store that go out or wait leave what the statement asks. -/
theorem stored_of_goOut {r : Elem → KernelReq} {c : Nat × Elem → Nat} {P : State → Prop} (hk : s.kernel? k.job = some k)
    (hr : ∀ e ∈ es, ∀ u cost, State.performStore k u (r e, cost) = s.storesAt k t device n val u e)
    (hout : StoresGoOut k (storeRequestsOf r c es) P) (hP : P s) (hthreads : ∀ u, P u → u.threads = s.threads)
    (hbytes : ∀ u, P u → ∀ a, (∀ e ∈ es, s.target k device true e.addr n = .local' ∨ s.target k device true e.addr n = .host ∨
      a < e.addr.toNat ∨ e.addr.toNat + n ≤ a) → u.byte a = s.byte a)
    (hsum : ((storeRequestsOf r c es).map Prod.snd).sum = s.trafficOf k device true n es) (hlate : k.late = []) :
    Stored s k t device n val es (forEach (storeRequestsOf r c es) (fun u x => u.ask k.job x) s) := by
  obtain ⟨hPv, k'', hk'', hlen, hfull⟩ := hout.bounds hP hk rfl (.inl hlate)
  refine ⟨fun _ hrate => ?_, hthreads _ hPv, fun k' hk' => ?_, hbytes _ hPv⟩
  · rw [hout.within hP hk rfl hlate (by rw [hsum]; exact hrate), foldl_performStore_requests hr, hsum]
    rfl
  · obtain rfl : k'' = k' := Option.some.inj (hk''.symm.trans hk')
    have hcount : (storeRequestsOf r c es).length = es.length := by simp [storeRequestsOf]
    rw [hcount] at hlen
    exact ⟨hlen, fun hne => hfull.resolve_left fun h => hne (h.trans hlate.symm)⟩

/-! ## Stores to HBM and the host aperture -/

/-- What stores to HBM keep: the stacks in service, the threads, and every byte outside the elements. -/
structure KeptByHbm (s : State) (n : Nat) (es : List Elem) (u : State) : Prop where
  remapped : u.remapped = s.remapped
  stackBad : u.stackBad = s.stackBad
  threads : u.threads = s.threads
  bytes : ∀ a, (∀ e ∈ es, a < e.addr.toNat ∨ e.addr.toNat + n ≤ a) → u.byte a = s.byte a

/-- What stores to the host aperture keep: its tables, the threads, and memory. -/
structure KeptByHost (s u : State) : Prop where
  canWrite : ∀ session a, u.canWrite session a = s.canWrite session a
  threads : u.threads = s.threads
  mem : u.mem = s.mem

theorem canWrite_congr {u : State} (hsessions : u.sessions = s.sessions) (hremapped : u.remapped = s.remapped)
    (hentry : ∀ a, u.hatEntry a = s.hatEntry a) (session a : Nat) : u.canWrite session a = s.canWrite session a := by
  unfold State.canWrite
  rw [State.xlat_congr hsessions hremapped hentry]

theorem State.Requested.canWrite {u : State} (h : s.Requested u) (session a : Nat) : u.canWrite session a = s.canWrite session a := by
  obtain ⟨_, _, _, _, heq⟩ := h
  have hentry : ∀ a, u.hatEntry a = s.hatEntry a := by
    intro a
    rw [heq]
    unfold State.hatEntry State.word
    rw [State.bytes_congr (s := s) fun _ => rfl]
    rfl
  exact canWrite_congr (by rw [heq]) (by rw [heq]) hentry session a

theorem modKernel_canWrite (u : State) (job : Nat) (f : Kernel → Kernel) (session a : Nat) :
    (u.modKernel job f).canWrite session a = u.canWrite session a := by
  have hentry : ∀ a, (u.modKernel job f).hatEntry a = u.hatEntry a := by
    intro a
    unfold State.hatEntry State.word
    rw [State.bytes_congr (s := u) fun _ => rfl]
    rfl
  exact canWrite_congr (s := u) (u := u.modKernel job f) rfl rfl hentry session a

theorem onBadStack_congr {u : State} (hremapped : u.remapped = s.remapped) (hbad : u.stackBad = s.stackBad) (a : Nat) :
    u.onBadStack a = s.onBadStack a := by
  unfold State.onBadStack State.isHbm State.space
  rw [hremapped, hbad]

/-- The request of an element in HBM. -/
def hbmStore (t n : Nat) (val : Nat → Word64) (e : Elem) : KernelReq := .store t e.addr.toNat (e.bytes n val)

/-- The request of an element in the host aperture. -/
def hostStore (t n : Nat) (val : Nat → Word64) (e : Elem) : KernelReq := .hostStore t e.addr.toNat (e.bytes n val)

theorem storeRequests_hbm (h : ∀ e ∈ es, s.target k device true e.addr n = .hbm) :
    s.storeRequests k t device n val es = storeRequestsOf (hbmStore t n val) (granuleCost es) es := by
  have htake : ∀ i, s.hbmElems k device true n (es.take i) = es.take i := fun i =>
    List.filter_eq_self.mpr fun e he => by simp [h e (List.mem_of_mem_take he)]
  unfold State.storeRequests storeRequestsOf
  rw [← List.filterMap_eq_map]
  refine List.filterMap_congr fun x hx => ?_
  rw [h x.2 (List.of_mem_zip hx).2, htake]
  rfl

theorem storeRequests_host (h : ∀ e ∈ es, s.target k device true e.addr n = .host) :
    s.storeRequests k t device n val es = storeRequestsOf (hostStore t n val) (fun _ => n) es := by
  unfold State.storeRequests storeRequestsOf
  rw [← List.filterMap_eq_map]
  refine List.filterMap_congr fun x hx => ?_
  rw [h x.2 (List.of_mem_zip hx).2]
  rfl

theorem storesGoOut_hbm (hfine : ∀ e ∈ es, s.onBadStack e.addr.toNat = false) (c : Nat × Elem → Nat) :
    StoresGoOut k (storeRequestsOf (hbmStore t n val) c es) (KeptByHbm s n es) where
  takes u hu x hx := by
    obtain ⟨e, he, cost, rfl⟩ := mem_storeRequestsOf hx
    exact (onBadStack_congr hu.remapped hu.stackBad _).trans (hfine e he)
  performed u hu x hx := by
    obtain ⟨e, he, cost, rfl⟩ := mem_storeRequestsOf hx
    change KeptByHbm s n es (u.write e.addr.toNat (e.bytes n val))
    obtain ⟨m, p, l, heq⟩ := ((State.Wrote.refl u).write e.addr.toNat (e.bytes n val)).1
    refine ⟨by rw [heq, ← hu.remapped], by rw [heq, ← hu.stackBad], by rw [heq, ← hu.threads], fun a ha => ?_⟩
    rw [State.byte_write_outside u _ _ (by rw [length_elemBytes]; exact ha e he), hu.bytes a ha]
  counted u f hu := ⟨hu.remapped, hu.stackBad, hu.threads, hu.bytes⟩

theorem storesGoOut_host (hfine : ∀ e ∈ es, s.canWrite k.session e.addr.toNat = true) (c : Nat × Elem → Nat) :
    StoresGoOut k (storeRequestsOf (hostStore t n val) c es) (KeptByHost s) where
  takes u hu x hx := by
    obtain ⟨e, he, cost, rfl⟩ := mem_storeRequestsOf hx
    exact (hu.canWrite _ _).trans (hfine e he)
  performed u hu x hx := by
    obtain ⟨e, he, cost, rfl⟩ := mem_storeRequestsOf hx
    change KeptByHost s (u.haWrite k.session e.addr.toNat (e.bytes n val) (.write k.job (some t)))
    have hrequest : u.Requested (u.haWrite k.session e.addr.toNat (e.bytes n val) (.write k.job (some t))) := u.request_requested _
    refine ⟨fun session a => (hrequest.canWrite session a).trans (hu.canWrite session a), ?_, ?_⟩
    · obtain ⟨_, _, _, _, heq⟩ := hrequest
      rw [heq, ← hu.threads]
    · obtain ⟨_, _, _, _, heq⟩ := hrequest
      rw [heq, ← hu.mem]
  counted u f hu := ⟨fun session a => (modKernel_canWrite u k.job f session a).trans (hu.canWrite session a), hu.threads, hu.mem⟩

theorem stored_hbm (hk : s.kernel? k.job = some k) (h : ∀ e ∈ es, s.target k device true e.addr n = .hbm)
    (hfine : ∀ e ∈ es, s.access k .hbm e.addr.toNat false = .fine) (hlate : k.late = []) :
    Stored s k t device n val es (forEach (s.storeRequests k t device n val es) (fun u x => u.ask k.job x) s) := by
  have hgood : ∀ e ∈ es, s.onBadStack e.addr.toNat = false := by
    intro e he
    by_contra hbad
    rw [Bool.not_eq_false] at hbad
    have hf := hfine e he
    simp only [State.access, hbad, if_true] at hf
    exact Access.noConfusion hf
  rw [storeRequests_hbm h]
  refine stored_of_goOut hk (fun e he u cost => ?_) (storesGoOut_hbm hgood _) ⟨rfl, rfl, rfl, fun _ _ => rfl⟩ (fun _ hu => hu.threads)
    (fun u hu a ha => hu.bytes a fun e he => ?_) ?_ hlate
  · unfold State.storesAt
    rw [h e he]
    rfl
  · rcases ha e he with h' | h' | h'
    · rw [h e he] at h'
      exact Target.noConfusion h'
    · rw [h e he] at h'
      exact Target.noConfusion h'
    · exact h'
  · rw [State.trafficOf_hbm h, ← sum_granuleCost, storeRequestsOf, List.map_map]
    rfl

theorem stored_host (hk : s.kernel? k.job = some k) (h : ∀ e ∈ es, s.target k device true e.addr n = .host)
    (hfine : ∀ e ∈ es, s.access k .host e.addr.toNat false = .fine) (hlate : k.late = []) :
    Stored s k t device n val es (forEach (s.storeRequests k t device n val es) (fun u x => u.ask k.job x) s) := by
  have hgood : ∀ e ∈ es, s.canWrite k.session e.addr.toNat = true := by
    intro e he
    by_contra hbad
    have hf := hfine e he
    simp only [State.access, Bool.false_eq_true, if_false, hbad] at hf
    exact Access.noConfusion hf
  rw [storeRequests_host h]
  refine stored_of_goOut hk (fun e he u cost => ?_) (storesGoOut_host hgood _) ⟨fun _ _ => rfl, rfl, rfl⟩ (fun _ hu => hu.threads)
    (fun u hu a _ => ?_) ?_ hlate
  · unfold State.storesAt
    rw [h e he]
    rfl
  · unfold State.byte
    rw [hu.mem]
  · rw [State.trafficOf_host h, storeRequestsOf, List.map_map]
    simp [Function.comp_def, Nat.mul_comm]

/-! ## Stores -/

/-- A store whose elements can all be accessed, and that is not throttled, stops no kernel and leaves what the statement asks. -/
theorem stored_of_fine (hk : s.kernel? k.job = some k) (hn : 0 < n)
    (hfree : k.throttled (s.trafficOf k device true n es) = false)
    (hfine : ∀ e ∈ es, s.access k (s.target k device true e.addr n) e.addr.toNat false = .fine)
    (hspace : (∀ e ∈ es, s.target k device true e.addr n = .hbm) ∨ (∀ e ∈ es, s.target k device true e.addr n = .host) ∨
      ∀ e ∈ es, s.target k device true e.addr n ≠ .host ∧ s.target k device true e.addr n ≠ .hbm) (pc : Nat) :
    let g := es.foldl (storeElem k t device n pc val) { st := s }
    g.stop = none ∧ Stored s k t device n val es (forEach (s.storeRequests k t device n val g.done) (fun u x => u.ask k.job x) g.st) := by
  have hlate : 0 < s.trafficOf k device true n es → k.late = [] := by
    intro hpos
    simp [Kernel.throttled, hpos] at hfree
    exact hfree.2
  by_cases hnear : ∀ e ∈ es, s.target k device true e.addr n ≠ .host ∧ s.target k device true e.addr n ≠ .hbm
  · have htargets : ∀ e ∈ es, s.target k device true e.addr n = .local' ∨ ∃ c, s.target k device true e.addr n = .sram c := by
      intro e he
      obtain ⟨hhost, hhbm⟩ := hnear e he
      have hf := hfine e he
      cases htg : s.target k device true e.addr n with
      | local' => exact .inl rfl
      | sram c => exact .inr ⟨c, rfl⟩
      | hbm => exact absurd htg hhbm
      | host => exact absurd htg hhost
      | refused =>
        rw [htg] at hf
        exact Access.noConfusion hf
    obtain ⟨hgather, hstored⟩ := foldl_storeElem_near (t := t) (val := val) pc es { st := s } rfl ⟨_, _, _, _, rfl⟩ htargets hfine
    dsimp only at hgather hstored ⊢
    rw [hgather]
    exact ⟨rfl, stored_near hk htargets (State.trafficOf_near hnear) hstored⟩
  · have hne : es ≠ [] := by
      rintro rfl
      exact hnear fun e he => absurd he List.not_mem_nil
    have hsome : 0 < es.length := List.length_pos_iff.mpr hne
    rcases hspace with h | h | h
    · have hgather := foldl_storeElem_far (t := t) (val := val) pc es { st := s } rfl (fun e he => .inl (h e he)) hfine
      dsimp only at hgather ⊢
      rw [hgather]
      refine ⟨rfl, stored_hbm hk h (fun e he => (h e he) ▸ hfine e he) (hlate ?_)⟩
      rw [State.trafficOf_hbm h]
      obtain ⟨e, he⟩ := List.exists_mem_of_ne_nil _ hne
      have hgranule : e.addr.toNat / 2048 ∈ granules es := (mem_granules es _).mpr ⟨e, he, rfl⟩
      exact Nat.mul_pos (by decide) (List.length_pos_of_mem hgranule)
    · have hgather := foldl_storeElem_far (t := t) (val := val) pc es { st := s } rfl (fun e he => .inr (h e he)) hfine
      dsimp only at hgather ⊢
      rw [hgather]
      refine ⟨rfl, stored_host hk h (fun e he => (h e he) ▸ hfine e he) (hlate ?_)⟩
      rw [State.trafficOf_host h]
      exact Nat.mul_pos hn hsome
    · exact absurd h hnear

end

/-- An instruction that runs as `storeOp` stores its elements. -/
theorem storeCompletes_of_storeOp {t : Nat} {op : BitVec 8} {f : FM} {i : Instr} {device : Bool} {n : Nat} {es : Thread → List Elem}
    {val : Thread → Nat → Word64} {whole : Bool} (hn : 0 < n) (hs : coreWrites ⟨op, .m f⟩ = [])
    (hv : ∀ (th : Thread) v l, th.writesLane ⟨op, .m f⟩ v l = false)
    (hrun : ∀ s, exec i s = storeOp t ⟨op, .m f⟩ s device n es val whole) : StoreCompletes t ⟨op, .m f⟩ i device n es val whole := by
  intro s k hk hfree hfine hspace
  obtain ⟨hkernel, -⟩ := issuing_kernel hk
  obtain ⟨hstop, hstored⟩ := stored_of_fine (t := t) (val := val (s.thread t)) hkernel hn hfree hfine hspace (s.thread t).pc
  have hexec := (hrun s).trans (storeOp.eq_def t ⟨op, .m f⟩ s device n es val whole)
  simp only [coreRun_issuing hk, hfree, Bool.false_eq_true, if_false, hstop, Thread.next, Thread.loadsAfter_of_no_writes hs hv] at hexec
  refine ⟨_, hexec, ?_⟩
  generalize forEach _ _ _ = v at hstored ⊢
  have hkeep : ∀ {β : Type} (read : State → β), (∀ u : State, read (u.clearCovered k device n (es (s.thread t))) = read u) →
      read (if whole then v.clearCovered k device n (es (s.thread t)) else v) = read v := fun read h => by
    cases whole
    · rfl
    · exact h v
  refine ⟨fun hlate hrate => ?_, (hkeep State.threads fun _ => rfl).trans hstored.threads, fun k' hk' => ?_, fun a ha => ?_⟩
  · unfold State.storesAll
    rw [← hstored.within hlate hrate]
  · exact hstored.late k' ((hkeep (fun u => u.kernel? k.job) fun _ => rfl).symm.trans hk')
  · exact (hkeep (fun u => u.byte a) fun _ => rfl).trans (hstored.bytes a ha)

theorem widthOf_pos (w : BitVec 2) : 0 < widthOf w := by
  rcases widthOf_cases w with h | h | h <;> rw [h] <;> decide

/-- Settles O9: each element is stored at once, or asked for; within TRAFFIC_RATE every request goes out, and a store counts as much
traffic as its requests together. -/
theorem storesWriteTheirElements : Obligations.StoresWriteTheirElements := by
  unfold Obligations.StoresWriteTheirElements
  intro t f
  exact ⟨storeCompletes_of_storeOp (widthOf_pos f.w) rfl (fun _ _ _ => rfl) fun _ => rfl,
    storeCompletes_of_storeOp (widthOf_pos f.w) rfl (fun _ _ _ => rfl) fun _ => rfl,
    storeCompletes_of_storeOp (widthOf_pos f.w) rfl (fun _ _ _ => rfl) fun _ => rfl,
    storeCompletes_of_storeOp (by decide) rfl (fun _ _ _ => rfl) fun _ => rfl⟩

end Sys2Proof.Machine
end

section
/-! PROOFS. What a session does in the register window leaves what every other session, and the sideband, has of its own there (13
R622): the operations behind register writes leave the windows as they are, but for the sender's. -/

namespace Sys2Proof.Machine

/-! ## What leaves every window as it is -/

@[simp] theorem State.event_windows (s : State) (k : Nat) (d : Word32) : (s.event k d).windows = s.windows := by
  rw [s.event_eq]

@[simp] theorem State.logError_windows (s : State) (code cls kind unit aux detail : Nat) :
    (s.logError code cls kind unit aux detail).windows = s.windows := by
  rw [s.logError_eq]

@[simp] theorem State.violation_windows (s : State) (o n : Nat) : (s.violation o n).windows = s.windows :=
  State.logError_windows ..

@[simp] theorem State.modProc_windows (s : State) (p : Proc) (f : ProcSt → ProcSt) : (s.modProc p f).windows = s.windows := by
  cases p <;> rfl

/-! ### Doorbells, committed frames and the return of Noon -/

@[simp] theorem State.applyDoorbell_windows (s : State) (q : Nat) : (s.applyDoorbell q).windows = s.windows := by
  unfold State.applyDoorbell
  split <;> rfl

@[simp] theorem State.ring_windows (s : State) (n q tail : Nat) : (s.ring n q tail).windows = s.windows := by
  unfold State.ring
  extract_lets u grace
  have hu : u.windows = s.windows := State.modSq_windows ..
  split
  · exact (u.applyDoorbell_windows q).trans hu
  · exact hu

@[simp] theorem State.applyLatched_windows (s : State) (n : Nat) : (s.applyLatched n).windows = s.windows := by
  unfold State.applyLatched
  split
  · split
    · rfl
    · exact forEach_same State.windows _ _ (fun t q _ => t.applyDoorbell_windows q) s
  · rfl

@[simp] theorem State.enter_windows (s : State) (j : Job) (lo hi : Nat) : (s.enter j lo hi).windows = s.windows := by
  refine forEach_same State.windows _ _ (fun t f _ => ?_) s
  split
  · exact forEach_same State.windows _ _ (fun u x _ => State.modCluster_windows ..) t
  · rfl

@[simp] theorem State.commitFrames_windows (s : State) : s.commitFrames.windows = s.windows := by
  refine forEach_same State.windows s.jobs _ (fun t j _ => ?_) s
  split <;> simp

@[simp] theorem State.displace_windows (s : State) : s.displace.windows = s.windows := by
  have hpath := congrArg State.windows s.displace_offPath
  exact hpath

@[simp] theorem State.noonReturns_windows (s : State) : s.noonReturns.windows = s.windows := by
  unfold State.noonReturns
  dsimp only
  rw [State.displace_windows, forEach_same State.windows _ _ (fun t n _ => t.applyLatched_windows n), State.commitFrames_windows]
  split <;> rfl

/-! ### Locks, power states and the guarded registers -/

@[simp] theorem State.setLocks_windows (s : State) (v : Nat) : (s.setLocks v).windows = s.windows := by
  unfold State.setLocks
  extract_lets p u back w
  have hw : w.windows = u.windows := forEach_same State.windows _ _ (fun t p _ => t.modProc_windows p _) u
  split
  · rfl
  · split
    · rw [State.noonReturns_windows, hw]
    · rw [hw]

@[simp] theorem State.wakeEvent_windows (s : State) (b : Bool) : (s.wakeEvent b).windows = s.windows := by
  unfold State.wakeEvent State.wake
  split_ifs <;> rfl

@[simp] theorem State.leaveDoze_windows (s : State) : s.leaveDoze.windows = s.windows := by
  unfold State.leaveDoze
  refine forEach_same State.windows _ _ (fun t e _ => ?_) _
  split <;> simp only [State.modEngine_windows]

@[simp] theorem State.requestPower_windows (s : State) (target : Nat) (mask : BitVec 16) :
    (s.requestPower target mask).1.windows = s.windows := by
  unfold State.requestPower
  extract_lets differs p u q
  split
  · rfl
  · split
    · rfl
    · split
      · exact u.leaveDoze_windows
      · rfl
      · rfl

@[simp] theorem State.setLaser_windows (s : State) (v : BitVec 17) : (s.setLaser v).windows = s.windows :=
  congrArg (·.2.1) (s.setLaser_view v)

@[simp] theorem State.setGuarded_windows (s : State) (src : Src) (g v : Nat) : (s.setGuarded src g v).windows = s.windows := by
  unfold State.setGuarded
  split
  · exact (s.setCap_guards _).2.1
  · split
    · rfl
    · exact s.setLaser_windows _

@[simp] theorem State.writeFloors_windows (s : State) (v : Nat) : (s.writeFloors v).1.windows = s.windows := by
  unfold State.writeFloors
  dsimp only
  split_ifs <;> rfl

/-! ### Queues and plans -/

@[simp] theorem State.writeSq_windows (s : State) (n q r v : Nat) : (s.writeSq n q r v).1.windows = s.windows := by
  unfold State.writeSq
  dsimp only
  split
  · rfl
  · split
    · exact State.modSq_windows ..
    · exact State.modSq_windows ..
    · split
      · exact State.modSq_windows ..
      · split
        · rfl
        · exact State.modSq_windows ..

@[simp] theorem State.writeCq_windows (s : State) (c r v : Nat) : (s.writeCq c r v).1.windows = s.windows := by
  unfold State.writeCq
  dsimp only
  split
  · exact State.modCq_windows ..
  · split
    · rfl
    · split
      · exact State.modCq_windows ..
      · exact State.modCq_windows ..
      · split
        · exact State.modCq_windows ..
        · split
          · rfl
          · split <;> exact State.modCq_windows ..

@[simp] theorem State.writePlanCtrl_windows (s : State) (v : Nat) : (s.writePlanCtrl v).1.windows = s.windows := by
  unfold State.writePlanCtrl
  dsimp only
  split_ifs <;> rfl

/-! ## What changes one window -/

section
variable {s : State} {n m : Nat}

theorem State.window_congr {t : State} (h : t.windows = s.windows) : t.window n = s.window n := by
  unfold State.window
  rw [h]

theorem State.window_modWindow_other (f : Window → Window) (hn : m ≠ n) : (s.modWindow m f).window n = s.window n := by
  rw [State.window_modWindow, if_neg hn]

theorem State.window_dropPair_other (hn : m ≠ n) : (s.dropPair m).window n = s.window n :=
  State.window_modWindow_other _ hn

theorem State.window_breakPair_other (o : Nat) (st : RegStatus) (hn : m ≠ n) : (s.breakPair m o st).window n = s.window n := by
  unfold State.breakPair
  dsimp only
  split
  · split
    · exact State.window_dropPair_other hn
    · exact (State.window_congr (s := s.dropPair m) rfl).trans (State.window_dropPair_other hn)
  · split
    · split <;> rfl
    · rfl

theorem State.window_writeEntryWord_other (o v : Nat) (hn : m ≠ n) : (s.writeEntryWord m o v).1.window n = s.window n := by
  unfold State.writeEntryWord
  dsimp only
  split
  · rfl
  · exact State.window_modWindow_other _ hn

/-- Both branches of an effect leave a window as it is. -/
theorem window_ite {c : Prop} [Decidable c] {a b : State × Bool} {w : Window} (ha : a.1.window n = w) (hb : b.1.window n = w) :
    (if c then a else b).1.window n = w := by
  split
  · exact ha
  · exact hb

/-- The effect of a write reaches no window but the sender's. -/
theorem State.window_writeEffect_other (src : Src) (o v : Nat) (rails : Bool) (hn : srcSession src ≠ n) :
    (s.writeEffect src o v rails).1.window n = s.window n := by
  unfold State.writeEffect
  refine window_ite (State.window_congr (State.ring_windows ..)) ?_
  refine window_ite rfl ?_
  refine window_ite (State.window_modWindow_other _ hn) ?_
  refine window_ite (window_ite rfl (window_ite rfl rfl)) ?_
  refine window_ite (State.window_congr (by dsimp only; split <;> rfl)) ?_
  refine window_ite (State.window_congr (s.setLocks_windows v)) ?_
  refine window_ite rfl ?_
  refine window_ite (window_ite rfl (window_ite rfl rfl)) ?_
  refine window_ite (window_ite rfl (State.window_congr (State.writeSq_windows ..))) ?_
  refine window_ite (State.window_congr (State.writeCq_windows ..)) ?_
  refine window_ite (window_ite rfl rfl) ?_
  refine window_ite rfl ?_
  refine window_ite rfl ?_
  refine window_ite rfl ?_
  refine window_ite rfl ?_
  refine window_ite (State.window_congr (State.writePlanCtrl_windows ..)) ?_
  refine window_ite (State.window_modWindow_other _ hn) ?_
  refine window_ite ?_ ?_
  · split
    · exact (State.window_congr (State.setGuarded_windows ..)).trans (State.window_modWindow_other _ hn)
    · rfl
  refine window_ite (State.window_congr (s.requestPower_windows _ _)) ?_
  refine window_ite ?_ ?_
  · dsimp only
    split
    · exact State.window_congr (s.wakeEvent_windows rails)
    · rfl
  refine window_ite rfl ?_
  refine window_ite (State.window_congr (s.writeFloors_windows v)) ?_
  refine window_ite rfl ?_
  refine window_ite rfl ?_
  refine window_ite (State.window_modWindow_other _ hn) ?_
  exact window_ite (State.window_writeEntryWord_other o v hn) rfl

theorem State.window_plainWrite_other (src : Src) (o len v : Nat) (rails : Bool) (hn : srcSession src ≠ n) :
    (s.plainWrite src o len v rails).1.window n = s.window n := by
  have heffect := State.window_writeEffect_other (s := s) src o v rails hn
  unfold State.plainWrite
  dsimp only
  split
  · split
    · rfl
    · next h => rw [h] at heffect; exact heffect
  · rw [State.window_breakPair_other _ _ hn]
    split
    · exact State.window_congr (s.violation_windows o _)
    · rfl

theorem State.window_regWrite_other (src : Src) (o len v : Nat) (rails : Bool) (hn : srcSession src ≠ n) :
    (s.regWrite src o len v rails).1.window n = s.window n := by
  unfold State.regWrite
  split
  · split
    · split
      · exact State.window_plainWrite_other _ _ _ _ _ hn
      · exact State.window_breakPair_other _ _ hn
    · exact State.window_plainWrite_other _ _ _ _ _ hn
  · exact State.window_plainWrite_other _ _ _ _ _ hn

theorem State.window_answerWrite (src : Src) (st : RegStatus) : (s.answerWrite src st).window n = s.window n := by
  cases src with
  | rustra m => exact State.window_congr (s.send_windows _)
  | i3c => rfl

/-- A write, but of RESET_CTRL, and its answer reach no window but the sender's (R622). -/
theorem State.window_writeAndAnswer_other (src : Src) (o len v : Nat) (rails : Bool) (hn : srcSession src ≠ n) (ho : o ≠ 0x1004C) :
    (s.writeAndAnswer src o len v rails).window n = s.window n := by
  have hwrite := State.window_regWrite_other (s := s) src o len v rails hn
  unfold State.writeAndAnswer
  dsimp only
  rw [if_neg fun h => ho h.2.1, State.window_answerWrite, hwrite]

end

end Sys2Proof.Machine
end

section
/-! PROOFS. Control registers of the window (12 R569, R570; 13 R616 to R653) and the statement `ControlRegistersTakeTheirValues`. -/

namespace Sys2Proof.Machine

/-! ## One write -/

section
variable {s : State} {src : Src} {m : Msg} {o len v : Nat} {rails : Bool} {st : RegStatus}

theorem State.plainWrite_refused (hstatus : s.writeStatus src o len v = st) (hst : st ≠ .ok) :
    s.plainWrite src o len v rails =
      ((if st = .locked then s.violation o (srcSession src) else s).breakPair (srcSession src) o st, st) := by
  unfold State.plainWrite
  dsimp only
  rw [hstatus]
  cases st with
  | ok => exact absurd rfl hst
  | _ => rfl

theorem State.plainWrite_ok (hstatus : s.writeStatus src o len v = .ok) :
    s.plainWrite src o len v rails =
      if (s.writeEffect src o v rails).2 then (s, .busy) else ((s.writeEffect src o v rails).1, .ok) := by
  unfold State.plainWrite
  dsimp only
  rw [hstatus]
  obtain ⟨t, b⟩ := s.writeEffect src o v rails
  cases b <;> rfl

/-- A write of another length than 4, or at an offset that is no multiple of 4, stands for no alias. -/
theorem State.regWrite_misplaced (h : len ≠ 4 ∨ o % 4 ≠ 0) : s.regWrite src o len v rails = s.plainWrite src o len v rails := by
  unfold State.regWrite
  exact if_neg fun hw => h.elim (fun hl => hl hw.1) fun ha => ha hw.2

/-- With nothing pending, a refused write other than of a partner or a locked register changes nothing. -/
theorem State.plainWrite_dropped (hstatus : s.writeStatus src o len v = st) (hst : st ≠ .ok) (hlocked : st ≠ .locked)
    (hguard : st ≠ .guard) (hpair : (s.window (srcSession src)).pair = none) : s.plainWrite src o len v rails = (s, st) := by
  rw [State.plainWrite_refused hstatus hst, if_neg hlocked]
  simp [State.breakPair, hpair, hguard]

theorem State.writeStatus_size (h : len ≠ 4) : s.writeStatus src o len v = .size := if_pos h

theorem State.writeStatus_align (ho : o % 4 ≠ 0) : s.writeStatus src o 4 v = .align := by
  simp [State.writeStatus, ho]

theorem State.writeStatus_reserved (ho : o % 4 = 0) (hkind : s.regKind o = none) : s.writeStatus src o 4 v = .reserved := by
  simp [State.writeStatus, State.reservedWrite, ho, hkind]

/-- A register message of a session, but of RESET_CTRL, leaves what it makes of the registers and the answer. -/
theorem writeOp_rustra (hs : s.takes m) (ho : o ≠ 0x1004C) : writeOp (.rustra m) o len v rails s =
    .next ((s.regWrite (.rustra m) o len v rails).1.wrote m (s.regWrite (.rustra m) o len v rails).2) := by
  unfold writeOp
  dsimp only
  rw [messageOp_takes m s _ _ hs.1 hs.2]
  unfold State.writeAndAnswer
  dsimp only
  rw [if_neg fun h => ho h.2.1]
  rfl

/-! ## What the field table, the locks and the session allow -/

/-- A word that the field table and the session's queues let the register take (R616). -/
structure State.Allows (s : State) (m : Msg) (o v : Nat) : Prop where
  aligned : o % 4 = 0
  known : (s.regKind o).isSome = true
  writable : (writable o).any = true
  own : s.foreignQueue m.session o = false
  value : valueRefused o v = false
  noPartner : (o == 0x10004 || o == 0x1000C || o == 0x10014) = false

/-- With Noon running and nothing pending, only a lock refuses an allowed word (R616). -/
theorem State.Allows.status (h : s.Allows m o v) (hs : s.serves m) :
    s.writeStatus (.rustra m) o 4 v = if s.governed o || (o == 0x310C && s.power.assetSet) then .locked else .ok := by
  obtain ⟨-, hnoon, hpair⟩ := hs
  have hcompletes : s.completes m.session o v = none := by simp [State.completes, hpair]
  have hpartner : s.partnerOf m.session o = none := by simp [State.partnerOf, hpair]
  have hreserved : s.reservedWrite (.rustra m) o v = false := by
    obtain ⟨k, hk⟩ := Option.isSome_iff_exists.mp h.known
    simp [State.reservedWrite, hk, srcSession, onSideband, h.writable, h.own, h.value, hcompletes]
  have hlocked : s.lockedWrite m.session o = (s.governed o || (o == 0x310C && s.power.assetSet)) := by
    simp [State.lockedWrite, hpartner]
  have hguard : s.guardWrite m.session o v = false := by
    unfold State.guardWrite
    rw [hpair]
    exact h.noPartner
  unfold State.writeStatus
  rw [if_neg (by simp), if_neg (by simp [h.aligned]), hreserved, if_neg (by simp), if_neg (by simp [hnoon])]
  simp only [srcSession, hlocked, hguard, Bool.false_eq_true, if_false]

theorem State.Allows.status_ok (h : s.Allows m o v) (hs : s.serves m) (hfree : s.governed o = false)
    (htag : (o == 0x310C && s.power.assetSet) = false) : s.writeStatus (.rustra m) o 4 v = .ok := by
  rw [h.status hs, hfree, htag]
  rfl

/-- A word that passes R616 has its register's effect, or the register answers BUSY. -/
theorem writeOp_effect (hs : s.takes m) (ho : o ≠ 0x1004C) (halias : aliasOf o = none)
    (hstatus : s.writeStatus (.rustra m) o 4 v = .ok) : writeOp (.rustra m) o 4 v rails s =
      .next (if (s.writeEffect (.rustra m) o v rails).2 then s.wrote m .busy
        else (s.writeEffect (.rustra m) o v rails).1.wrote m .ok) := by
  rw [writeOp_rustra hs ho, State.regWrite_plain _ _ _ _ halias, State.plainWrite_ok hstatus]
  split <;> rfl

/-- A word that passes R616 and that the register takes. -/
theorem writeOp_taken {t : State} (hs : s.serves m) (h : s.Allows m o v) (ho : o ≠ 0x1004C) (halias : aliasOf o = none)
    (hfree : s.governed o = false) (htag : (o == 0x310C && s.power.assetSet) = false)
    (heffect : s.writeEffect (.rustra m) o v rails = (t, false)) : writeOp (.rustra m) o 4 v rails s = .next (t.wrote m .ok) := by
  rw [writeOp_effect hs.1 ho halias (h.status_ok hs hfree htag), heffect]
  rfl

end

/-! ## Plans and the configuration -/

section
variable {s : State} {m : Msg}

theorem State.Allows.planCtrl (s : State) (m : Msg) (v : Nat) : s.Allows m 0x6014 v := ⟨rfl, rfl, rfl, rfl, rfl, rfl⟩

theorem writeOp_planCtrl (v : Nat) (hs : s.serves m) : writeOp (.rustra m) 0x6014 4 v false s =
    .next (if (s.writePlanCtrl v).2 then s.wrote m .busy else (s.writePlanCtrl v).1.wrote m .ok) :=
  writeOp_effect hs.1 (by decide) rfl ((State.Allows.planCtrl s m v).status_ok hs rfl rfl)

theorem exec_planArm (hs : s.serves m) : exec (.planArm m) s =
    .next (if s.link.armed = 1 ∨ s.link.armed = 2 then s.wrote m .busy
      else ({ s with link := { s.link with armed := 1, armedPlan := none } }).wrote m .ok) := by
  refine (writeOp_planCtrl 1 hs).trans (congrArg Host.Outcome.next ?_)
  have hbit : bit 1 0 = true := rfl
  by_cases h : s.link.armed = 1 ∨ s.link.armed = 2 <;> simp [State.writePlanCtrl, hbit, h]

/-- PLAN_CTRL with DISARM: without an armed plan there is nothing to do; links that a command uses hold the plan (R570). -/
theorem State.writePlanCtrl_disarm (s : State) : s.writePlanCtrl 2 =
    if s.link.armed = 1 ∨ s.link.armed = 2 then
      if s.jobs.any (fun j => j.linksFrom (if s.link.armed = 2 then s.link.armedAt else s.link.planAt)) then (s, true)
      else ({ s with link := { s.link with armed := 0, armedPlan := none } }, false)
    else (s, false) := by
  have harm : bit 2 0 = false := rfl
  have hdisarm : bit 2 1 = true := rfl
  have harmed : (s.link.armed == 1 || s.link.armed == 2) = decide (s.link.armed = 1 ∨ s.link.armed = 2) := by
    rw [Bool.eq_iff_iff]
    simp
  unfold State.writePlanCtrl
  rw [harm, hdisarm, harmed]
  by_cases h : s.link.armed = 1 ∨ s.link.armed = 2
  · rw [decide_eq_true h, if_pos h]
    rfl
  · rw [decide_eq_false h, if_neg h]
    rfl

theorem exec_planDisarm (hs : s.serves m) (h : s.link.armed = 1 ∨ s.link.armed = 2) : exec (.planDisarm m) s =
    .next (if s.jobs.any (fun j => j.linksFrom (if s.link.armed = 2 then s.link.armedAt else s.link.planAt)) then s.wrote m .busy
      else ({ s with link := { s.link with armed := 0, armedPlan := none } }).wrote m .ok) := by
  refine (writeOp_planCtrl 2 hs).trans (congrArg Host.Outcome.next ?_)
  rw [State.writePlanCtrl_disarm, if_pos h]
  generalize s.jobs.any _ = held
  cases held <;> rfl

theorem exec_planDisarm_none (hs : s.serves m) (h₁ : s.link.armed ≠ 1) (h₂ : s.link.armed ≠ 2) :
    exec (.planDisarm m) s = .next (s.wrote m .ok) := by
  have hctrl : s.writePlanCtrl 2 = (s, false) := by
    rw [State.writePlanCtrl_disarm]
    exact if_neg fun h => h.elim h₁ h₂
  refine (writeOp_planCtrl 2 hs).trans (congrArg Host.Outcome.next ?_)
  rw [hctrl]
  rfl

theorem State.Allows.cfgCtrl (s : State) (m : Msg) (v : Nat) : s.Allows m 0x3008 v := ⟨rfl, rfl, rfl, rfl, rfl, rfl⟩

theorem exec_cfgCommit (hs : s.serves m) : exec (.cfgCommit m) s =
    .next (({ s with cfg := { s.cfg with commitDue := true, suspendDue := false } }).wrote m .ok) :=
  writeOp_taken hs (.cfgCtrl s m 1) (by decide) rfl rfl rfl rfl

theorem exec_cfgSuspend (hs : s.serves m) : exec (.cfgSuspend m) s =
    .next (({ s with cfg := { s.cfg with suspendDue := true } }).wrote m .ok) :=
  writeOp_taken hs (.cfgCtrl s m 2) (by decide) rfl rfl rfl rfl

/-! ## Limits, the mailbox and the asset tag -/

/-- The state after SHADOW_CTRL has taken a word: the shadow values stand from the next boundary on (07 R378). -/
def State.shadowed (s : State) (v : Word32) : State :=
  { s with cal := { s.cal with shadowNext := some (clampNat 14 20 (v.toNat % 32), v.getLsbD 5) } }

theorem writeOp_shadowCtrl (v : Word32) (hs : s.serves m) (hlock : s.locked 4 = false) :
    writeOp (.rustra m) 0x2000C 4 v.toNat false s = .next ((s.shadowed v).wrote m .ok) := by
  have hbit : v.getLsbD 5 = bit v.toNat 5 := (bit_eq_testBit v.toNat 5).symm
  unfold State.shadowed
  rw [hbit]
  exact writeOp_taken hs ⟨rfl, rfl, rfl, rfl, rfl, rfl⟩ (by decide) rfl hlock rfl rfl

theorem writeOp_residLimits (v : Word32) (hs : s.serves m) (hlock : s.locked 4 = false) :
    writeOp (.rustra m) 0x20008 4 v.toNat false s =
      .next (({ s with cal := { s.cal with rmsLim := v.toNat % 65536, peakLim := v.toNat / 65536 } }).wrote m .ok) :=
  writeOp_taken hs ⟨rfl, rfl, rfl, rfl, rfl, rfl⟩ (by decide) rfl hlock rfl rfl

theorem exec_wideSelWrite (v : Word32) (hs : s.serves m) : exec (.wideSelWrite m v) s =
    .next ((s.modWindow m.session fun w => w.select (v.toNat % 65536) (s.wideValue (v.toNat % 65536)).isSome).wrote m .ok) :=
  writeOp_taken hs ⟨rfl, rfl, rfl, rfl, rfl, rfl⟩ (by decide) rfl rfl rfl rfl

theorem State.Allows.assetTag (s : State) (m : Msg) (v : Nat) : s.Allows m 0x310C v := ⟨rfl, rfl, rfl, rfl, rfl, rfl⟩

theorem exec_assetTagWrite (v : Word32) (hs : s.serves m) (hset : s.power.assetSet = false) : exec (.assetTagWrite m v) s =
    .next (({ s with power := { s.power with assetTag := v, assetSet := true } }).wrote m .ok) := by
  have heffect : s.writeEffect (.rustra m) 0x310C v.toNat false =
      ({ s with power := { s.power with assetTag := BitVec.ofNat 32 v.toNat, assetSet := true } }, false) := rfl
  rw [BitVec.ofNat_toNat, BitVec.setWidth_eq] at heffect
  exact writeOp_taken hs (.assetTag s m v.toNat) (by decide) rfl rfl (by rw [hset]; rfl) heffect

/-- ASSET_TAG is locked once it is written: a further write is a violation (R636, R637). -/
theorem exec_assetTagWrite_again (v : Word32) (hs : s.serves m) (hset : s.power.assetSet = true) :
    exec (.assetTagWrite m v) s = .next ((s.violation 0x310C m.session).wrote m .locked) := by
  have hstatus : s.writeStatus (.rustra m) 0x310C 4 v.toNat = .locked := by
    rw [(State.Allows.assetTag s m v.toNat).status hs, hset]
    rfl
  have hpair : ((s.violation 0x310C m.session).window m.session).pair = none := by
    rw [State.window_congr (s.violation_windows 0x310C m.session)]
    exact hs.2.2
  refine (writeOp_rustra hs.1 (by decide)).trans ?_
  rw [State.regWrite_plain _ _ _ _ rfl, State.plainWrite_refused hstatus (by decide), if_pos rfl]
  simp [State.breakPair, srcSession, hpair]

theorem does_assetTagWrite_again (v : Word32) (hs : s.serves m) (hset : s.power.assetSet = true) :
    Does (.assetTagWrite m v) s fun t => t.power.assetTag = s.power.assetTag ∧
      t.power.violations = Nat.min 0xFFFFFF (s.power.violations + 1) ∧ t.power.lockLast = 0x310C ∧
      s.logs t 0x0600 0 0x310C m.session := by
  refine ⟨_, exec_assetTagWrite_again v hs hset, ?_⟩
  have hpower : ((s.violation 0x310C m.session).wrote m .locked).power =
      { s.power with violations := Nat.min 0xFFFFFF (s.power.violations + 1), lockLast := 0x310C } :=
    (State.send_power ..).trans (State.logError_power ..)
  dsimp only
  rw [hpower]
  exact ⟨rfl, rfl, rfl, State.logs_congr rfl rfl (State.send_log ..) (State.logs_logError ..)⟩

/-! ## The wide snapshot -/

theorem exec_wideSnapshotReady {n sel v : Nat} (hnoon : s.runs .noon = true) (hsel : (s.window n).busySel = some sel)
    (hv : s.wideValue sel = some v) : exec (.wideSnapshotReady n) s = .next (s.modWindow n fun w =>
      { w with busySel := none, valid := true, snap := BitVec.ofNat 128 v, snapSel := sel }) := by
  change execWideSnapshotReady n s = _
  simp [execWideSnapshotReady, hsel, hnoon, hv, ok]

/-- The read of WIDE_DATA_3 (R620, R644). -/
theorem State.regRead_wideData3 (hnoon : s.runs .noon = true) : s.regRead (.rustra m) 0x2014 =
    if (s.window m.session).valid then (.ok, bits (s.window m.session).snap.toNat 96 32) else (.busy, 0) := by
  have hread : s.regRead (.rustra m) 0x2014 = s.plainRead (.rustra m) 0x2014 := rfl
  have hkind : s.regKind 0x2014 = some .emulated := rfl
  have hvalue : s.emuValue m.session 0x2014 = some (bits (s.window m.session).snap.toNat 96 32) := rfl
  rw [hread]
  unfold State.plainRead
  rw [hkind]
  cases hvalid : (s.window m.session).valid <;> simp [onSideband, srcSession, hnoon, hvalid, hvalue]

theorem exec_wideData3Read (hs : s.takes m) (hnoon : s.runs .noon = true) :
    ((s.window m.session).valid = true → exec (.wideData3Read m) s =
      .next ((s.modWindow m.session fun w => { w with valid := false }).send
        (.regResp m 0 (BitVec.ofNat 32 (bits (s.window m.session).snap.toNat 96 32))))) ∧
    ((s.window m.session).valid = false → exec (.wideData3Read m) s = .next (s.send (.regResp m 6 0))) := by
  have hread := State.regRead_wideData3 (m := m) hnoon
  refine ⟨fun hvalid => ?_, fun hvalid => ?_⟩
  all_goals
    rw [hvalid] at hread
    change execWideData3Read m s = _
    unfold execWideData3Read
    rw [messageOp_takes m s _ _ hs.1 hs.2, hread]
    rfl

/-! ## The paged scale tables -/

theorem State.regKind_emulated {o : Nat} (ho : o % 4 = 0) (h : (s.emuValue 0 o).isSome = true) : (s.regKind o).isSome = true := by
  unfold State.regKind
  rw [if_neg (by simp [ho])]
  simp only [h, if_true, apply_ite Option.isSome, Option.isSome_some, ite_self]

theorem State.regKind_scalePage (s : State) : (s.regKind 0x30000).isSome = true := by
  refine State.regKind_emulated rfl ?_
  unfold State.emuValue
  simp only [apply_ite Option.isSome, Option.isSome_some, if_true, ite_self]
  rfl

theorem State.regKind_pagedWindow (s : State) {o : Nat} (ho : o % 4 = 0) (h : 0x31000 ≤ o ∧ o < 0x32000) :
    (s.regKind o).isSome = true := by
  refine State.regKind_emulated ho ?_
  unfold State.emuValue
  simp only [apply_ite Option.isSome, Option.isSome_some, if_pos h, ite_self, if_neg (not_not.mpr ho)]

theorem State.Allows.scalePage (s : State) (m : Msg) (v : Nat) : s.Allows m 0x30000 v :=
  ⟨rfl, s.regKind_scalePage, rfl, rfl, rfl, rfl⟩

theorem writeOp_scalePage (v : Nat) (hs : s.serves m) :
    writeOp (.rustra m) 0x30000 4 v false s = .next ((s.writePage m.session v).wrote m .ok) :=
  writeOp_taken hs (.scalePage s m v) (by decide) rfl rfl rfl rfl

theorem State.modWindow_congr {n : Nat} {f g : Window → Window} (h : f (s.window n) = g (s.window n)) :
    s.modWindow n f = s.modWindow n g := by
  unfold State.window at h
  unfold State.modWindow Sparse.modify
  rw [h]

/-- REFRESH keeps the page and takes its snapshot again (R652). -/
theorem exec_scalePageRefresh (hs : s.serves m) (hc : (s.window m.session).pageCluster < 64) (hp : (s.window m.session).page < 64) :
    exec (.scalePageRefresh m) s = .next ((s.modWindow m.session fun w =>
      { w with pageSnap := s.scaleSnapshot w.pageCluster w.page }).wrote m .ok) := by
  have hcluster : bits ((s.window m.session).pageCluster + 64 * (s.window m.session).page + 0x1000) 0 6 =
      (s.window m.session).pageCluster := by
    unfold bits
    omega
  have hpage : bits ((s.window m.session).pageCluster + 64 * (s.window m.session).page + 0x1000) 6 6 =
      (s.window m.session).page := by
    unfold bits
    omega
  refine (writeOp_scalePage _ hs).trans (congrArg (fun t : State => Host.Outcome.next (t.wrote m .ok)) ?_)
  unfold State.writePage
  dsimp only
  rw [hcluster, hpage]
  exact State.modWindow_congr rfl

/-- The offset of word `i` of the paged window. -/
def pagedOffset (i : Nat) : Nat := 0x31000 + 4 * i

theorem pagedOffset_bounds {i : Nat} (hi : i < 1024) : 0x31000 ≤ pagedOffset i ∧ pagedOffset i < 0x32000 := by
  unfold pagedOffset
  omega

theorem writable_pagedOffset {i : Nat} (hi : i < 1024) :
    writable (pagedOffset i) = { rw := if i % 16 = 3 then 0x07FFFFFF else 0xFFFFFFFF } := by
  obtain ⟨hlo, hhi⟩ := pagedOffset_bounds hi
  have hword : (pagedOffset i % 64 = 12) = (i % 16 = 3) := by
    unfold pagedOffset
    rw [eq_iff_iff]
    omega
  unfold writable
  simp (disch := omega) only [if_neg, if_pos, hword]

theorem State.writeEffect_pagedOffset {i : Nat} (hi : i < 1024) (src : Src) (v : Nat) (rails : Bool) :
    s.writeEffect src (pagedOffset i) v rails = s.writeEntryWord (srcSession src) (pagedOffset i) v := by
  obtain ⟨hlo, hhi⟩ := pagedOffset_bounds hi
  unfold State.writeEffect
  simp (disch := omega) only [if_neg, if_pos]

theorem State.Allows.pagedWord {i v : Nat} (hi : i < 1024) (hscale : i % 16 = 0 → scaleValid v = true) :
    s.Allows m (pagedOffset i) v := by
  obtain ⟨hlo, hhi⟩ := pagedOffset_bounds hi
  have halign : pagedOffset i % 4 = 0 := by
    unfold pagedOffset
    omega
  refine ⟨halign, s.regKind_pagedWindow halign ⟨hlo, hhi⟩, ?_, ?_, ?_, ?_⟩
  · rw [writable_pagedOffset hi]
    split <;> rfl
  · unfold State.foreignQueue
    simp (disch := omega) only [if_neg]
  · unfold valueRefused
    simp (disch := omega) only [if_neg]
    by_cases h : pagedOffset i % 64 = 0
    · rw [if_pos ⟨hlo, hhi, h⟩, hscale (by unfold pagedOffset at h; omega)]
      rfl
    · rw [if_neg fun hw => h hw.2.2]
  · simp only [Bool.or_eq_false_iff, beq_eq_false_iff_ne]
    omega

theorem lockOf_pagedOffset {i : Nat} (hi : i < 1024) : lockOf (pagedOffset i) = none := by
  obtain ⟨hlo, hhi⟩ := pagedOffset_bounds hi
  unfold lockOf
  simp (disch := omega) only [if_neg]

theorem aliasOf_low {o : Nat} (h : o < 0x01000000) : aliasOf o = none := if_neg fun hw => by omega

/-- A field that a number takes reads back as what was put there. -/
theorem bits_setBits (n lo w v : Nat) : bits (setBits n lo w v) lo w = v % 2 ^ w := by
  have hsplit : setBits n lo w v = n % 2 ^ lo + 2 ^ lo * (n / 2 ^ (lo + w) * 2 ^ w + v % 2 ^ w) := by
    unfold setBits
    ring
  unfold bits
  rw [hsplit, Nat.add_mul_div_left _ _ (by positivity), Nat.div_eq_of_lt (Nat.mod_lt _ (by positivity)), Nat.zero_add,
    Nat.mul_add_mod_self_right, Nat.mod_mod]

/-- A field that lies inside a word is kept by the word. -/
theorem bits_ofNat {lo w k : Nat} (h : lo + w ≤ k) (n : Nat) : bits (BitVec.ofNat k n).toNat lo w = bits n lo w := by
  rw [BitVec.toNat_ofNat]
  unfold bits
  refine Nat.eq_of_testBit_eq fun i => ?_
  simp only [Nat.testBit_mod_two_pow, Nat.testBit_div_two_pow]
  by_cases hi : i < w
  · simp [hi, show i + lo < k by omega]
  · simp [hi]

/-- Word `i` of an entry `x` takes the writable bits of a value (R653). -/
def putEntryWord (i v x : Nat) : Nat := setBits x (32 * (i % 16)) 32 (v &&& (if i % 16 = 3 then 0x07FFFFFF else 0xFFFFFFFF))

/-- The paged snapshot after a write of word `i` of the window. -/
def Window.putWord (i v : Nat) (w : Window) : Window :=
  { w with pageSnap := w.pageSnap.set (i / 16) (BitVec.ofNat 512 (putEntryWord i v (nth w.pageSnap (i / 16) 0).toNat)) }

/-- A write of word `i` of the paged window is one of a word of the entry that the page shows there. -/
theorem State.writeEntryWord_pagedOffset {i v : Nat} (hi : i < 1024)
    (hnamed : s.entryNamed (s.window m.session).pageCluster (64 * (s.window m.session).page + i / 16) = false) :
    s.writeEntryWord m.session (pagedOffset i) v =
      ((s.modScale (s.window m.session).pageCluster (64 * (s.window m.session).page + i / 16) (putEntryWord i v)).modWindow m.session
        (Window.putWord i v), false) := by
  have hentry : (pagedOffset i - 0x31000) / 64 = i / 16 := by
    unfold pagedOffset
    omega
  have hword : pagedOffset i % 64 / 4 * 32 = 32 * (i % 16) := by
    unfold pagedOffset
    omega
  unfold State.writeEntryWord
  dsimp only
  rw [hentry, hword, writable_pagedOffset hi, hnamed, if_neg (by simp)]
  rfl

/-- The word that was written, as a read of the entry gives it. -/
theorem bits_putEntryWord (i : Nat) (v : Word32) (x : Nat) : bits (BitVec.ofNat 512 (putEntryWord i v.toNat x)).toNat (32 * (i % 16)) 32 =
    v.toNat &&& (if i % 16 = 3 then 0x07FFFFFF else 0xFFFFFFFF) := by
  have hfits : 32 * (i % 16) + 32 ≤ 512 := by omega
  unfold putEntryWord
  rw [bits_ofNat hfits, bits_setBits]
  exact Nat.mod_eq_of_lt (Nat.lt_of_le_of_lt Nat.and_le_left v.isLt)

theorem does_scaleWindowWrite (i : Nat) (v : Word32) (hs : s.serves m) (hi : i < 1024)
    (hscale : i % 16 = 0 → scaleValid v.toNat = true)
    (hnamed : s.entryNamed (s.window m.session).pageCluster (64 * (s.window m.session).page + i / 16) = false)
    (hp : (s.window m.session).page < 64) :
    Does (.scaleWindowWrite m i v) s fun t => s.sameMem t ∧
      bits (t.scale (s.window m.session).pageCluster (64 * (s.window m.session).page + i / 16)).toNat (32 * (i % 16)) 32 =
        v.toNat &&& (if i % 16 = 3 then 0x07FFFFFF else 0xFFFFFFFF) ∧
      ∀ c e, e < 4096 → (c ≠ (s.window m.session).pageCluster ∨ e ≠ 64 * (s.window m.session).page + i / 16) →
        t.scale c e = s.scale c e := by
  obtain ⟨hlo, hhi⟩ := pagedOffset_bounds hi
  have heffect := State.writeEntryWord_pagedOffset (v := v.toNat) hi hnamed
  have hgoverned : s.governed (pagedOffset i) = false := by
    unfold State.governed
    rw [lockOf_pagedOffset hi]
  have htag : (pagedOffset i == 0x310C && s.power.assetSet) = false := by
    rw [beq_eq_false_iff_ne.mpr (by omega), Bool.false_and]
  refine ⟨_, writeOp_taken hs (.pagedWord hi hscale) (by omega) (aliasOf_low (by omega)) hgoverned htag
    ((State.writeEffect_pagedOffset hi ..).trans heffect), ?_⟩
  generalize hpc : (s.window m.session).pageCluster = pc at *
  generalize hentry : 64 * (s.window m.session).page + i / 16 = entry at *
  have hscales (c e : Nat) (t : State) : ((t.modWindow m.session (Window.putWord i v.toNat)).wrote m .ok).scale c e = t.scale c e := by
    unfold State.scale
    exact congrArg (fun l => Sparse.get 0 l (4096 * c + e)) (State.send_scales ..)
  refine ⟨⟨State.send_mem .., State.send_poison ..⟩, ?_, fun c e he hother => ?_⟩
  · rw [hscales, State.scale_modScale, if_pos rfl, bits_putEntryWord]
  · rw [hscales, State.scale_modScale, if_neg (by omega)]

end

/-! ## Any register -/

section
variable {s : State} {m : Msg}

/-- The alias of bit `b` of the register at `o` (R624). -/
theorem aliasOf_alias {o b : Nat} (halign : o % 4 = 0) (ho : o < 0x10000) (hb : b < 32) :
    aliasOf (0x01000000 + 32 * o + 4 * b) = some (o, b) := by
  unfold aliasOf
  rw [if_pos (by omega)]
  have hreg : (0x01000000 + 32 * o + 4 * b - 0x01000000) / 128 * 4 = o := by omega
  have hbit : (0x01000000 + 32 * o + 4 * b - 0x01000000) % 128 / 4 = b := by omega
  rw [hreg, hbit]

theorem exec_aliasWrite {o b w : Nat} (v : Word32) (hs : s.takes m) (halign : o % 4 = 0) (ho : o < 0x10000) (hb : b < 32)
    (hvalue : s.aliasValue (.rustra m) o b v.toNat = some w) : exec (.aliasWrite m o b v) s =
      .next (((s.plainWrite (.rustra m) o 4 w false).1).wrote m (s.plainWrite (.rustra m) o 4 w false).2) := by
  have hwrite : s.regWrite (.rustra m) (0x01000000 + 32 * o + 4 * b) 4 v.toNat false = s.plainWrite (.rustra m) o 4 w false := by
    unfold State.regWrite
    rw [if_pos (by omega), aliasOf_alias halign ho hb]
    dsimp only
    rw [hvalue]
  rw [← hwrite]
  exact writeOp_rustra hs (by omega)

theorem State.regWrite_refused (s : State) (src : Src) (o len v : Nat) (rails : Bool) :
    (len ≠ 4 → (s.regWrite src o len v rails).2 = .size) ∧
    (len = 4 → o % 4 ≠ 0 → (s.regWrite src o len v rails).2 = .align) ∧
    (len = 4 → o % 4 = 0 → aliasOf o = none → s.regKind o = none → (s.regWrite src o len v rails).2 = .reserved) := by
  refine ⟨fun hlen => ?_, ?_, ?_⟩
  · rw [State.regWrite_misplaced (.inl hlen), State.plainWrite_refused (State.writeStatus_size hlen) (by decide)]
  · rintro rfl ho
    rw [State.regWrite_misplaced (.inr ho), State.plainWrite_refused (State.writeStatus_align ho) (by decide)]
  · rintro rfl ho halias hkind
    rw [State.regWrite_plain _ _ _ _ halias, State.plainWrite_refused (State.writeStatus_reserved ho hkind) (by decide)]

theorem exec_registerWrite_rustra {o : Nat} (v : Word32) (hs : s.serves m) (halias : aliasOf o = none) (ho : o ≠ 0x1004C)
    (hstatus : s.writeStatus (.rustra m) o 4 v.toNat = .ok) (htakes : (s.writeEffect (.rustra m) o v.toNat false).2 = false) :
    exec (.registerWrite (.rustra m) o 4 v) s = .next ((s.writeEffect (.rustra m) o v.toNat false).1.wrote m .ok) := by
  refine (writeOp_effect hs.1 ho halias hstatus).trans ?_
  rw [htakes]
  rfl

theorem exec_registerWrite_i3c {o : Nat} (v : Word32) (halias : aliasOf o = none) (ho : o ≠ 0x1004C)
    (hstatus : s.writeStatus .i3c o 4 v.toNat = .ok) (htakes : (s.writeEffect .i3c o v.toNat false).2 = false) :
    exec (.registerWrite .i3c o 4 v) s = .next ((s.writeEffect .i3c o v.toNat false).1.sideAnswer .ok 0) := by
  refine writeOp_i3c ho (?_ : s.regWrite .i3c o 4 v.toNat false = (_, .ok))
  rw [State.regWrite_plain _ _ _ _ halias, State.plainWrite_ok hstatus, htakes]
  rfl

/-- A write of another length or place changes nothing (R616). -/
theorem exec_registerWrite_misplaced {o len : Nat} (v : Word32) (h : len ≠ 4 ∨ o % 4 ≠ 0) (hpair : (s.window 0).pair = none) :
    exec (.registerWrite .i3c o len v) s =
      .next { s with side := { s.side with status := (if len ≠ 4 then 1 else 2), data := 0 } } := by
  have hwrite : s.regWrite .i3c o len v.toNat false = (s, if len ≠ 4 then .size else .align) := by
    rw [State.regWrite_misplaced h]
    by_cases hlen : len = 4
    · subst hlen
      rw [if_neg (by simp)]
      exact State.plainWrite_dropped (State.writeStatus_align (h.resolve_left (by simp))) (by decide) (by decide) (by decide) hpair
    · rw [if_pos hlen]
      exact State.plainWrite_dropped (State.writeStatus_size hlen) (by decide) (by decide) (by decide) hpair
  change ok (s.writeAndAnswer .i3c o len v.toNat false) = _
  unfold State.writeAndAnswer
  rw [hwrite]
  by_cases hlen : len = 4 <;> simp [hlen, State.answerWrite, RegStatus.code, ok]

end

/-- Settles O48: each register's write is read off its status and its effect, and no effect reaches another session's window. -/
theorem controlRegistersTakeTheirValues : Obligations.ControlRegistersTakeTheirValues := by
  unfold Obligations.ControlRegistersTakeTheirValues
  refine ⟨⟨fun s m hs => ?_, fun s m v hs => ?_, fun s n sel v => exec_wideSnapshotReady, fun s m => exec_wideData3Read,
    fun s m => exec_scalePageRefresh, fun s m i v hs hi hscale hnamed _ hp => does_scaleWindowWrite i v hs hi hscale hnamed hp,
    fun s m o b v w hs halign ho hb => exec_aliasWrite v hs halign ho hb, State.regWrite_refused,
    fun s m o v hs _ halias ho => exec_registerWrite_rustra v hs halias ho,
    fun s o v _ halias ho => exec_registerWrite_i3c v halias ho, fun s m v hs hlock => ?_,
    fun s o len v => exec_registerWrite_misplaced v⟩, ?_⟩
  · exact ⟨exec_planArm hs, exec_planDisarm hs, exec_planDisarm_none hs, exec_cfgCommit hs, exec_cfgSuspend hs⟩
  · exact ⟨writeOp_shadowCtrl v hs, exec_wideSelWrite v hs, exec_assetTagWrite v hs, does_assetTagWrite_again v hs,
      writeOp_scalePage v.toNat hs⟩
  · exact ⟨writeOp_shadowCtrl v hs hlock, writeOp_residLimits v hs hlock⟩
  · rintro s t src o len v n rails hn ho rfl
    exact State.window_writeAndAnswer_other src o len v rails hn ho

end Sys2Proof.Machine
end
